-- ==== Sys2Proof/Word.lean ====
section
/-! DEFINITION. The word types of the IKP4416 (R3): registers are 32 bits, a register pair 64 bits, memory is bytes. -/

namespace Sys2Proof

/-- One byte of a register, a host structure or a bus lane. -/
abbrev Byte := BitVec 8

/-- A register word (R3). -/
abbrev Word := BitVec 32

/-- A 64-bit quantity: two consecutive registers (R5), an address, a counter. -/
abbrev DWord := BitVec 64

/-- A tenant number 0-64 (tenant 0 is PF0, R173). -/
abbrev Tenant := Fin 65

/-- A function: 0 is PF0, 1 is PF1, n + 1 is VF n (R173). -/
abbrev Fn := Fin 66

/-- A parallel port: 0 is port A, 1 is port B. -/
abbrev PortId := Fin 2

/-- A Ulilum link: 0-3 are UL0-UL3, 4 is the twin link. -/
abbrev LinkId := Fin 5

/-- A serial lane: 0-19 are L0-L19, 20-24 are T0-T4 (R45). -/
abbrev LaneId := Fin 25

end Sys2Proof
end

