-- ==== Sys2Proof/Syntax.lean ====
section
/-! DEFINITION. The commands of the IKP4416: one constructor of `Instr` per row of spec/opcode_table.json, in the table's order. The table gives its rows no bits and no operand fields; the operands here are what the rule of each row takes from outside the device (an address, a value, the far side's answer). A row that acts on what the device already holds (the executing Herdin command, a waiting request) takes only the key that names it. -/

namespace Sys2Proof

/-- What a host memory read of the device is answered with (R14, R227). -/
inductive HostRes where
  | ok (data : List Byte)
  | ur
  | ca
  | poison
  deriving DecidableEq, Repr

/-- How a slave ends a master cycle on a parallel port (R320): acknowledged, with the bytes read in ascending address order, the time from address strobe to first acknowledge and the longest interval between beats, in sampling periods of 1.25 ns (R341); or ended by BERR* or the personality's error response. -/
inductive BusEnd where
  | ack (data : List Byte) (sample beat : Nat)
  | berr
  deriving DecidableEq, Repr

/-- How an IACK cycle ends (R313, R316). -/
inductive IackEnd where
  | id (v : Word)
  | berr
  | timeout
  deriving DecidableEq, Repr

/-- The registers of a function's configuration space that this device's rules read (R172, R178, R180, R187, R189, R191). The PCI Express Base Specification places them; a configuration write names them here. -/
inductive CfgReg where
  | memSpace | busMaster | extTag | tenBitTag | cplTimeout | ptmEnable | pmeEn | pmeStatus
  | ariHier | numVfs | uncorrSeverity | msixEnable | msixFnMask | msiEnable | msiMessages | msiMask | maxReadReq
  | barLo (i : Fin 3) | barHi (i : Fin 3) | vfBarLo (i : Fin 3) | vfBarHi (i : Fin 3)
  deriving DecidableEq, Repr

/-- The space a register write addresses: BAR0 or BAR4 of the function, or its configuration space. -/
inductive RegSpace where
  | bar0 (off : Nat)
  | bar4 (off : Nat)
  | cfg (r : CfgReg)
  deriving DecidableEq, Repr

/-- The correctable host link errors of R186, first row. -/
inductive LinkCorr where
  | receiverError | badTlp | badDllp | replayTimeout | replayRollover
  deriving DecidableEq, Repr

/-- The fatal host link protocol errors of R186. -/
inductive LinkFatal where
  | dllProtocol | flowControl | receiverOverflow | malformedTlp
  deriving DecidableEq, Repr

/-- The supplies the AO monitors measure (R67, R106 SOURCE numbering). -/
inductive Supply where
  | core | ao | aHs | hHs | v18 | nv
  | bank (port : PortId) (b : Fin 4)
  deriving DecidableEq, Repr

/-- The TAP instructions that take the pins over (R148). -/
inductive TapInstr where
  | extest | clamp | highz
  deriving DecidableEq, Repr

/-- One sample of a tide watch point (R107): the normalised value, or a failed register read (R109). -/
inductive TideSample where
  | value (v : Word)
  | readFail
  deriving DecidableEq, Repr

/-- A cause of device containment that arrives in the middle of a device release (R537), as its own row brings it. -/
inductive ReleaseCut where
  | linkDown
  | fatal (kind : LinkFatal)
  | sram
  | pll (fb : Bool)
  | supply (s : Supply) (mv : Nat)
  | therm (t : BitVec 16)
  | tap (i : TapInstr)
  deriving DecidableEq, Repr

/-- Why a lane is lost (R425). -/
inductive LaneLossCause where
  | clock | headers | polarity
  deriving DecidableEq, Repr

/-- A received CAPS block (R415). -/
structure CapsBlock where
  phys : Fin 5
  ack : Bool
  rates : BitVec 3
  loopOk : Bool
  locked : BitVec 5
  sender : Word
  deriving DecidableEq, Repr

/-- A received flit slot of a group (R436, R437): its 320 bytes and its 16 parity symbols of 10 bits, as they arrived. -/
structure RxFlit where
  bytes : List Byte
  parity : List Nat
  deriving DecidableEq, Repr

/-- A received INIT flit (R439): the header flags and the 24-byte payload's fields. -/
structure InitFlit where
  initAck : Bool
  resume : Bool
  version : Nat
  session : Nat
  lastAgreed : Nat
  role : Nat
  limits : List Nat
  maxLen : Nat
  replayCap : Nat
  sender : Word
  deriving DecidableEq, Repr

/-- A received PAIR_HELLO (R486): what R478 and R479 compare. -/
structure Hello where
  uid : List Byte
  rank : Nat
  partnerUid : List Byte
  digest : List Byte
  epoch : Nat
  compatPrev : Bool
  lifecycle : Nat
  holdings : List Nat
  timeBase : Nat
  deriving DecidableEq, Repr

/-- A state record of R484, one row of its table each. The spec gives their content and no byte layout. -/
inductive MirrorRec where
  | queueState (q : Nat) (ctx : List Word)
  | fetched (q index : Nat) (addr : Nat)
  | ticket (tenant ticket q index off : Nat)
  | rackRead (q index off : Nat)
  | segDone (q index off : Nat)
  | release (q : Nat) (entry : List Byte) (slot : Nat)
  | outcome (tenant ticket cs : Nat)
  | tally (tenant issued frontier ack : Nat)
  | liqTag (tenant target space line : Nat) (late present : Bool)
  deriving DecidableEq, Repr

/-- A received ROLE message (R486, R482, R495, R497). -/
inductive RoleMsg where
  | map (lead : List Nat)
  | relinquish
  | ack
  | dissolve
  deriving DecidableEq, Repr

/-- The commands: one constructor per row of the opcode table. -/
inductive Instr where
  -- registers and the host path
  | regAccessIgnored (fn : Fn) (off size : Nat) (isWrite : Bool)
  | regReadLowLatch (fn : Fn) (off : Nat)
  | regReadClear (fn : Fn) (off : Nat) (wide : Bool)
  | regWrite (fn : Fn) (sp : RegSpace) (wide : Bool) (v : DWord)
  | glbAlertClear (v : Word)
  | hostPostedWrite (fn : Fn) (off : Nat) (data : List Byte) (be : List Bool)
  | stagedWriteTicket (t : Tenant)
  | hostRead (fn : Fn) (rid off : Nat) (be : List Bool)
  | heldReadAdmit (uid : Nat)
  | heldReadComplete (uid : Nat) (loop : HostRes)
  | holdLimitExpire (uid : Nat)
  | poisonReceived (fn : Fn) (addr : Nat)
  | hostLinkCorrectable (kind : LinkCorr)
  | hostFatal (kind : LinkFatal)
  | sramCorrected (macroIdx : Fin 96) (row : Nat)
  | sramUncorr (owner : Option Tenant)
  | surpriseLinkDown
  | hostLinkTrained
  | hostReadTimeout (fn : Fn) (tag : Nat)
  | lateCompletion (fn : Fn) (tag : Nat)
  | tagQuarantineExpire (fn : Fn) (tag : Nat)
  | rbarSizeWrite (size : Nat)
  | vfEnableSet
  | vfDisable
  | flrInitiate (fn : Fn)
  | flrCycleCut (p : PortId)
  | flrComplete (fn : Fn)
  | pmD3hotEnter (fn : Fn)
  | pmD0Return (fn : Fn)
  | pmeTurnOff
  | hostLinkL2
  | ltrSend
  | ptmExchange (master : DWord)
  | ptmExchangeFail
  | msixUnmask (fn : Fn) (entry : Option Nat)
  | deviceContainRelease (v : Word) (cut : Option (Fin 4 × ReleaseCut))
  | portContainRelease (v : Word)
  | linkContainRelease (v : Word)
  | tenantContainRelease (v : Word)
  | winShadowWrite (w : Fin 256) (word : Fin 6) (v : Word)
  | winCommit (v : Word)
  | winCommitDone
  -- rack masters
  | rackMasterRead (p : PortId) (addr space width : Nat) (be : List Bool) (block : Bool)
  | rackMasterReadCompletion (p : PortId) (slot : Nat) (res : HostRes)
  | dtRetry (p : PortId) (addr space width : Nat) (be : List Bool)
  | delayedDiscard (p : PortId) (slot : Nat)
  | inboundAbandoned (p : PortId)
  | rackMasterWrite (p : PortId) (addr space : Nat) (data : List Byte) (be : List Bool)
  | rackMasterRmw (p : PortId) (addr space : Nat) (old : HostRes) (new : List Byte)
  -- Herdin mailboxes: mailbox 0 is PF0's, n is VF n's, 65 the TAP's
  | hrdDoorbellRing (mb : Fin 66)
  | hrdDoorbellCancel (mb : Fin 66) (withRing : Bool)
  | commandDispatch
  | lockoutExpire (t : Tenant)
  | nop
  | infoVersion
  | infoIdentity
  | infoStatus
  | infoCaps
  | deviceReset
  | imageBegin
  | imageChunk
  | imageCommit
  | imageConfirm
  | imageRead
  | winSet
  | winGet
  | winClear
  | weirRegionSet
  | weirRegionGet
  | weirDefaultSet
  | weirRegionLock
  | queueCreate
  | queueDestroy
  | queueReset
  | queueGet
  | settleFence
  | settleFenceEnd (fence : Nat)
  | fenceExpired (fence : Nat)
  | tallyQuotaSet
  | portServiceIn
  | portServiceOut
  | portSlaveSet
  | profileGet
  | profileSet
  | profileClear
  | harvestCreate
  | harvestPoints
  | harvestStart
  | harvestStop
  | harvestStopFree
  | harvestGet
  | floodCreate
  | routeSet
  | linkServiceIn
  | linkServiceOut
  | linkStatus
  | linkLoop
  | loopDurationExpire (k : LinkId) (errors : List Word) (bits : DWord) (locked : BitVec 5)
  | laneEyeScan
  | eyeScanDone (n : LaneId) (left right upper lower : BitVec 16) (bits : Word)
  | linkRetrain
  -- power, tide watch
  | pwrVoteRaise
  | pwrVoteWithdraw
  | pwrDownSoft
  | pwrDownForced
  | drainEnd (d : Fin 18)
  | drainLimitExpire (d : Fin 18)
  | holdoffExpire (d : Fin 18)
  | rampSlotStart
  | islandWakeDone (d : Fin 18)
  | islandWakeFail (d : Fin 18)
  | pwrDomRelease (d : Fin 18) (v : Word)
  | tideArm
  | tideDisarm
  | tempWarnSet
  | tideEnter
  | tideSamplePeriod (samples : List TideSample) (perstRises : Bool)
  | tideExitPerst
  -- reset, boot, supplies
  | powerOnReset (testEn : Bool) (smbAddr : BitVec 2) (tornHead : Bool)
  | bootCfgspaceReady
  | bootServiceReady
  | porstFall
  | internalResetEnter (s : Supply) (mv : Nat)
  | perstFall
  | perstRise
  | hotResetReceived
  | watchdogExpire
  | supplyWarn (s : Supply) (mv : Nat)
  | supplyFault (s : Supply) (mv : Nat)
  | portBankPower (p : PortId) (b : Fin 4) (mv : Nat)
  | bankSupplyValid (p : PortId) (mv : Nat)
  | tempWarn (t : BitVec 16)
  | thermShutdown (t : BitVec 16)
  -- SMBus
  | smbReadStatus
  | smbReadTemp
  | smbReadVcore
  | smbWriteAlertMask (v : BitVec 16)
  | smbReadUid
  | smbReadFokNewest
  | smbReadFokOlder
  | smbUnknownCommand (code : Byte)
  | smbAlertResponse
  -- life cycle, debug
  | bscanTakeover (i : TapInstr)
  | ownerKeyInstall
  | keySet
  | keySetErase
  | lcyAdvance
  | lcyReturn
  | debugUnlock
  | debugLock
  | debugUnlockExpire
  | debugAccess (weir : Fin 8) (addr space : Nat) (write : Option Word)
  | twinStatus
  | twinForm
  | twinFormTimeout
  | twinDissolve
  | twinRoleSet
  | spareStatus
  | spareBoundsSet
  | spareRetireNow
  | spareForbid
  | spareAllow
  | wearGet
  | logRead
  | logFokRead
  | logMark
  -- queues and pans
  | doorbellTail (fn : Fn) (idx : Nat) (v : Word)
  | doorbellCqhead (fn : Fn) (idx : Nat) (v : Word)
  | queueDisable (fn : Fn) (idx : Nat)
  | queueResume (fn : Fn) (idx : Nat)
  | descFetchDone (q : Fin 2048) (res : HostRes)
  | segmentPush (q : Fin 2048)
  | segmentStart (b : Fin 8) (pos : Fin 16)
  | segmentReadData (b : Fin 8) (pos : Fin 16) (slot : Fin 32) (res : HostRes)
  | segmentDone (b : Fin 8) (pos : Fin 16) (slot : Fin 32)
  | completionRelease (q : Fin 2048)
  | irqModerationTimer (q : Fin 2048)
  | segmentCancel (b : Fin 8) (pos : Fin 16)
  | rakeAdvertise
  | rakeWithinBed (b : Fin 8) (pos : Fin 16)
  | rakeAcrossBeds (b : Fin 8) (pos : Fin 16)
  | xrakeSegmentsArrive (b : Fin 8) (pos : Fin 16)
  | panFault (p : Fin 136)
  | panWatchdogExpire (p : Fin 136)
  | spareSelfTest (b : Fin 8) (pass : Bool)
  | bedPllUnlock (b : Fin 8)
  -- ports
  | masterCycleStart (p : PortId)
  | busCycleEnd (p : PortId) (e : BusEnd)
  | regionBusTimeout (p : PortId)
  | targetRetry (p : PortId)
  | retryDelayExpire (p : PortId)
  | busGranted (p : PortId)
  | busReleaseRequest (p : PortId) (bclr : Bool)
  | ownLimitExpire (p : PortId)
  | arbiterRequest (p : PortId) (level : Fin 4)
  | rackArbTimeout (p : PortId)
  | sysBusTimerExpire (p : PortId)
  | sysresetPulse (p : PortId)
  | sysresetPulseEnd (p : PortId)
  | iackinPass (p : PortId) (level : Fin 8)
  | rackIrqAssert (p : PortId) (level : Fin 8) (e : IackEnd)
  | rackIackRetry (p : PortId) (level : Fin 8) (e : IackEnd)
  | rirqPendingClear (fn : Fn) (p : PortId) (level : Fin 8) (v : Word)
  | irqiRaise (p : PortId)
  | irqiDrop (p : PortId)
  | irqiAcknowledge (p : PortId) (level : Fin 8) (width : Fin 3)
  | rackReset (p : PortId)
  | rackResetEnd (p : PortId)
  | stuckLine (p : PortId) (line : Fin 49)
  | noGrant (p : PortId)
  | sysfailFilterExpire (p : PortId)
  | rackAcfail (p : PortId)
  | personalityFault (p : PortId) (forbidden : Bool) (line : Fin 49)
  -- liquor buffer, tally ledger, harvest
  | liqExpire (line : Nat)
  | talAckWrite (fn : Fn) (t : Tenant) (v : Word)
  | talFailRearm (fn : Fn) (t : Tenant) (v : Word)
  | floodSelectorRead (s : Fin 8)
  | floodSelectorDone (s : Fin 8) (res : HostRes)
  | floodOutputReadDone (s : Fin 8) (res : HostRes)
  | harvestCycleStart (s : Fin 8)
  | harvestPointReturn (target : Fin 6)
  | harvestDeadline (s : Fin 8)
  | floodLedgerTimeout (target : Fin 6)
  | harAllowWrite (idx : Fin 6) (v : Word)
  -- serial lanes
  | receiverDetect (k : LinkId) (found : BitVec 5)
  | laneNoPeer (k : LinkId)
  | laneBitLock (n : LaneId) (code : Fin 31)
  | laneBlockLock (n : LaneId)
  | trainBlockReceived (n : LaneId) (phys : Fin 5) (locked inverted : Bool)
  | capsReceived (k : LinkId) (caps : List (Fin 5 × CapsBlock))
  | bringupStateTimeout (k : LinkId) (lane : Fin 5)
  | stirInsert (k : LinkId)
  | stirReceived (n : LaneId) (payload : DWord)
  | densityWindow (n : LaneId) (transitions : Fin 1025)
  | eqAdaptStep (n : LaneId) (up : Bool)
  | eqVerifyPeriod (n : LaneId)
  | laneLoss (n : LaneId) (cause : LaneLossCause)
  | swapReceived (k : LinkId) (logical : Fin 4) (count : BitVec 16)
  | swapAckReceived (k : LinkId) (count : BitVec 16)
  | swapSwitch (k : LinkId)
  | swapAckTimeout (k : LinkId)
  | linkNarrowDone (k : LinkId) (usable : BitVec 5)
  | laneRestored (n : LaneId)
  | laneFailed (n : LaneId)
  | eiRequest (k : LinkId)
  | eiEnterReceived (k : LinkId)
  | eiExit (k : LinkId) (locked : BitVec 5)
  | eiVerifyEnd (k : LinkId) (verified : BitVec 5)
  | farLoopOn (k : LinkId)
  | farLoopOff (k : LinkId)
  -- Ulilum link layer
  | flitGroupReceive (k : LinkId) (slots : List RxFlit)
  | sessionInitReceive (k : LinkId) (f : InitFlit)
  | uliMessageSend (k : LinkId)
  | uliCplReceive (k : LinkId)
  | uliSettleReceive (k : LinkId)
  | uliNotifyReceive (k : LinkId)
  | uliPeerRequest (k : LinkId)
  | uliCloseReceive (k : LinkId)
  | replayTimerExpire (k : LinkId)
  | ackOwedTimer (k : LinkId)
  | keepaliveTimer (k : LinkId)
  | uliReqTimeoutExpire (k : LinkId) (tag : Nat)
  | uliQuarantineExpire (k : LinkId) (tag : Nat)
  | uliHoldExpire (k : LinkId)
  | sessionSilence (k : LinkId)
  -- twin mode
  | twinHelloReceive (h : Hello)
  | twinMirrorReceive (seq : Nat) (recs : List MirrorRec)
  | twinMirrorAckReceive (seq : Nat)
  | twinCheckSend
  | twinCheckReceive (seq : Nat) (crcs : List (Tenant × Word))
  | twinResyncReceive (t : Tenant) (recs : List MirrorRec)
  | twinRoleReceive (m : RoleMsg)
  | twinTimeReceive (offset : DWord)
  | twinHeartbeatSend
  | twinHbWrite (ok : Bool)
  | twinSilence
  | twinHbRead (v : Option Word)
  | twinHbDecide
  | twinGuardExpire
  -- spares, wear and the bittern log
  | wearMeasure (islands : List Nat) (pans : List Nat) (blocks : List (Nat × Nat))
  | wearDailyHistory
  | eyeWearScan (n : LaneId) (hMargin vMargin : Nat)
  | pllFault (fb : Bool) (spareOk : Bool)
  | mramVerifyFail (block : Fin 4096)
  | logRecordCommit
  | linkServiceTimeout (k : LinkId)
  | supplyRecover (s : Supply) (mv : Nat)
  | tapLeavesExtest
  | watchedLineNegated (p : PortId) (line : Fin 49)
  | bprnPass (p : PortId)
  deriving DecidableEq, Repr

end Sys2Proof
end

