-- ==== Sys2Proof/Machine/Codes.lean ====
section
/-! DEFINITION. The numbers the spec fixes: completion status codes (R14), event codes (R514) and domain indices (R87). -/

namespace Sys2Proof.Machine

/-! ## Completion status (R14); `none` is the CS field of a record to which none applies (R511) -/

abbrev Cs.done : Nat := 0x00
abbrev Cs.doneZero : Nat := 0x01
abbrev Cs.farError : Nat := 0x10
abbrev Cs.farTimeout : Nat := 0x11
abbrev Cs.weirDeny : Nat := 0x12
abbrev Cs.windowMiss : Nat := 0x13
abbrev Cs.hostUr : Nat := 0x14
abbrev Cs.hostCa : Nat := 0x15
abbrev Cs.hostPoison : Nat := 0x16
abbrev Cs.hostTimeout : Nat := 0x17
abbrev Cs.linkDown : Nat := 0x18
abbrev Cs.chainLoop : Nat := 0x19
abbrev Cs.descFetchFail : Nat := 0x1A
abbrev Cs.abortDisable : Nat := 0x1B
abbrev Cs.abortReset : Nat := 0x1C
abbrev Cs.abortPower : Nat := 0x1D
abbrev Cs.lateError : Nat := 0x1E
abbrev Cs.authFail : Nat := 0x1F
abbrev Cs.contained : Nat := 0x20
abbrev Cs.ledgerFull : Nat := 0x21
abbrev Cs.islandAbsent : Nat := 0x22
abbrev Cs.none : Nat := 0xFFFF

/-! ## Event codes (R514) -/

abbrev Ev.hostLinkCorr : Nat := 0x0001
abbrev Ev.hostLinkDown : Nat := 0x0002
abbrev Ev.hostFatal : Nat := 0x0003
abbrev Ev.poisonReceived : Nat := 0x0004
abbrev Ev.sramCorrected : Nat := 0x0005
abbrev Ev.sramUncorr : Nat := 0x0006
abbrev Ev.containEnter : Nat := 0x0007
abbrev Ev.containRelease : Nat := 0x0008
abbrev Ev.contained : Nat := 0x0009
abbrev Ev.sriovNoAri : Nat := 0x000A
abbrev Ev.rbarIgnored : Nat := 0x000B
abbrev Ev.supplyWarn : Nat := 0x000C
abbrev Ev.supplyFault : Nat := 0x000D
abbrev Ev.tempWarn : Nat := 0x000E
abbrev Ev.thermShutdown : Nat := 0x000F
abbrev Ev.testEnIgnored : Nat := 0x0010
abbrev Ev.regAccessIgnored : Nat := 0x0011
abbrev Ev.bootCold : Nat := 0x0101
abbrev Ev.bootDevice : Nat := 0x0102
abbrev Ev.hostReset : Nat := 0x0103
abbrev Ev.flr : Nat := 0x0104
abbrev Ev.fwVerifyFail : Nat := 0x0105
abbrev Ev.fwFallback : Nat := 0x0106
abbrev Ev.fwTrialFail : Nat := 0x0107
abbrev Ev.fwWatchdog : Nat := 0x0108
abbrev Ev.cfgFallback : Nat := 0x0109
abbrev Ev.cfgDefaults : Nat := 0x010A
abbrev Ev.windowMiss : Nat := 0x0201
abbrev Ev.farError : Nat := 0x0202
abbrev Ev.farTimeout : Nat := 0x0203
abbrev Ev.holdLimit : Nat := 0x0204
abbrev Ev.lateCompletion : Nat := 0x0205
abbrev Ev.winUnreachable : Nat := 0x0206
abbrev Ev.weirDeny : Nat := 0x0301
abbrev Ev.weirImageSkip : Nat := 0x0302
abbrev Ev.talStageDrop : Nat := 0x0401
abbrev Ev.talTwinUnknown : Nat := 0x0402
abbrev Ev.talPrivExcess : Nat := 0x0403
abbrev Ev.fenceExpired : Nat := 0x0404
abbrev Ev.queueHostError : Nat := 0x0405
abbrev Ev.descFetchFail : Nat := 0x0406
abbrev Ev.chainLoop : Nat := 0x0407
abbrev Ev.lateError : Nat := 0x0408
abbrev Ev.descReserved : Nat := 0x0409
abbrev Ev.rmwUnsupported : Nat := 0x040A
abbrev Ev.queueDisabled : Nat := 0x040B
abbrev Ev.queueReset : Nat := 0x040C
abbrev Ev.liqUnclaimed : Nat := 0x040D
abbrev Ev.liqOrphan : Nat := 0x040E
abbrev Ev.inboundHostError : Nat := 0x0501
abbrev Ev.inboundHostTimeout : Nat := 0x0502
abbrev Ev.inboundAbandoned : Nat := 0x0503
abbrev Ev.inboundDeny : Nat := 0x0504
abbrev Ev.inboundNoBme : Nat := 0x0505
abbrev Ev.inboundSelf : Nat := 0x0506
abbrev Ev.delayedDiscard : Nat := 0x0507
abbrev Ev.portBankPower : Nat := 0x0508
abbrev Ev.portNotInService : Nat := 0x0509
abbrev Ev.farRetryLimit : Nat := 0x050A
abbrev Ev.rackArbTimeout : Nat := 0x050B
abbrev Ev.rackIackFail : Nat := 0x050C
abbrev Ev.rackIrqUnrouted : Nat := 0x050D
abbrev Ev.rackReset : Nat := 0x050E
abbrev Ev.rackResetEnd : Nat := 0x050F
abbrev Ev.rackSysfail : Nat := 0x0510
abbrev Ev.rackAcfail : Nat := 0x0511
abbrev Ev.personalityInvalid : Nat := 0x0512
abbrev Ev.profileRef : Nat := 0x0513
abbrev Ev.profileCapped : Nat := 0x0514
abbrev Ev.profileDrift : Nat := 0x0515
abbrev Ev.profileDriftEnd : Nat := 0x0516
abbrev Ev.pointFail : Nat := 0x0601
abbrev Ev.pointBadValue : Nat := 0x0602
abbrev Ev.pointRecover : Nat := 0x0603
abbrev Ev.floodImageFail : Nat := 0x0604
abbrev Ev.harvestOverrun : Nat := 0x0605
abbrev Ev.harvestMissed : Nat := 0x0606
abbrev Ev.harvestAtRisk : Nat := 0x0607
abbrev Ev.harvestInfeasible : Nat := 0x0608
abbrev Ev.harvestRiskEnd : Nat := 0x0609
abbrev Ev.laneNoPeer : Nat := 0x0701
abbrev Ev.linkTrainFail : Nat := 0x0702
abbrev Ev.laneSwap : Nat := 0x0703
abbrev Ev.laneSpareLost : Nat := 0x0704
abbrev Ev.linkNarrow : Nat := 0x0705
abbrev Ev.laneRestored : Nat := 0x0706
abbrev Ev.laneFailed : Nat := 0x0707
abbrev Ev.linkReplayLimit : Nat := 0x0708
abbrev Ev.linkUp : Nat := 0x0709
abbrev Ev.linkDown : Nat := 0x070A
abbrev Ev.linkNotUp : Nat := 0x070B
abbrev Ev.linkPeerChanged : Nat := 0x070C
abbrev Ev.uliLate : Nat := 0x070D
abbrev Ev.islandAbsent : Nat := 0x0801
abbrev Ev.islandForcedDown : Nat := 0x0802
abbrev Ev.islandWakeFail : Nat := 0x0803
abbrev Ev.tideEnter : Nat := 0x0804
abbrev Ev.tideBlocked : Nat := 0x0805
abbrev Ev.tideWake : Nat := 0x0806
abbrev Ev.islandRestored : Nat := 0x0807
abbrev Ev.lcyTransition : Nat := 0x0901
abbrev Ev.lcyFuseAnomaly : Nat := 0x0902
abbrev Ev.authFail : Nat := 0x0903
abbrev Ev.debugOpen : Nat := 0x0904
abbrev Ev.debugClose : Nat := 0x0905
abbrev Ev.bscanTakeover : Nat := 0x0906
abbrev Ev.twinFormed : Nat := 0x0A01
abbrev Ev.twinNoPartner : Nat := 0x0A02
abbrev Ev.twinDisagree : Nat := 0x0A03
abbrev Ev.twinTimeSkew : Nat := 0x0A04
abbrev Ev.twinRoleDone : Nat := 0x0A05
abbrev Ev.twinResync : Nat := 0x0A06
abbrev Ev.twinHbFail : Nat := 0x0A07
abbrev Ev.twinFenced : Nat := 0x0A08
abbrev Ev.twinTakeover : Nat := 0x0A09
abbrev Ev.twinTakeoverUnsynced : Nat := 0x0A0A
abbrev Ev.twinReadUnknown : Nat := 0x0A0B
abbrev Ev.twinDissolved : Nat := 0x0A0C
abbrev Ev.panFault : Nat := 0x0B01
abbrev Ev.panSpareIn : Nat := 0x0B02
abbrev Ev.panRetired : Nat := 0x0B03
abbrev Ev.panSpareFail : Nat := 0x0B04
abbrev Ev.panNoSpare : Nat := 0x0B05
abbrev Ev.bedLost : Nat := 0x0B06
abbrev Ev.sramRowRepair : Nat := 0x0B07
abbrev Ev.sramRepairFull : Nat := 0x0B08
abbrev Ev.mramBlockRetired : Nat := 0x0B09
abbrev Ev.mramSpareLow : Nat := 0x0B0A
abbrev Ev.pllSwitch : Nat := 0x0B0B
abbrev Ev.pllLost : Nat := 0x0B0C
abbrev Ev.wearThreshold : Nat := 0x0B0D
abbrev Ev.wearHeld : Nat := 0x0B0E
abbrev Ev.spareOverride : Nat := 0x0B0F
abbrev Ev.logMark : Nat := 0x0C01
abbrev Ev.logJournalRecover : Nat := 0x0C02
abbrev Ev.logQueueFull : Nat := 0x0C03

/-! ## Domain indices (R87) -/

abbrev Dn.ao : Nat := 0
abbrev Dn.hp : Nat := 1
abbrev Dn.hc : Nat := 2
abbrev Dn.fb : Nat := 3
abbrev Dn.bd0 : Nat := 4
abbrev Dn.pa : Nat := 12
abbrev Dn.pb : Nat := 13
abbrev Dn.sl : Nat := 14
abbrev Dn.tw : Nat := 15
abbrev Dn.cp : Nat := 16
abbrev Dn.nv : Nat := 17

end Sys2Proof.Machine
end

