-- ==== Sys2Proof/Machine/Operands.lean ====
section
/-! DEFINITION. The operand forms: little-endian fields of payloads, descriptors and host structures (R3), bit fields, byte enables and the ENDIAN exchange. -/

namespace Sys2Proof.Machine

/-- Bits `[hi:lo]` of a number. -/
def bits (n hi lo : Nat) : Nat := n / 2 ^ lo % 2 ^ (hi + 1 - lo)

/-- Bit `i` of a number. -/
def bit (n i : Nat) : Bool := n / 2 ^ i % 2 = 1

/-- A Bool as a bit. -/
def b2n (b : Bool) : Nat := if b then 1 else 0

/-- A register word. -/
def w32 (n : Nat) : Word := BitVec.ofNat 32 n

/-- A byte list read as a little-endian number (R3). -/
def leNat : List Byte → Nat
  | [] => 0
  | b :: r => b.toNat + 256 * leNat r

/-- A number as `k` little-endian bytes (R3). -/
def leBytes : Nat → Nat → List Byte
  | 0, _ => []
  | k + 1, n => BitVec.ofNat 8 n :: leBytes k (n / 256)

/-- `n` bytes of a list from offset `o`; bytes beyond its end read as 0. -/
def slice (l : List Byte) (o n : Nat) : List Byte :=
  let part := (l.drop o).take n
  part ++ List.replicate (n - part.length) 0#8

/-- The little-endian field of `n` bytes at offset `o`. -/
def field (l : List Byte) (o n : Nat) : Nat := leNat (slice l o n)

/-- Byte `o`. -/
def byteAt (l : List Byte) (o : Nat) : Nat := field l o 1

/-- The 32-bit word at byte offset `o`. -/
def wordAt (l : List Byte) (o : Nat) : Nat := field l o 4

/-- The words of a byte list. -/
def wordsOf (l : List Byte) (k : Nat) : List Nat := (List.range k).map fun i => wordAt l (4 * i)

/-- Words as bytes. -/
def bytesOfWords (ws : List Nat) : List Byte := ws.flatMap (leBytes 4)

/-- The element `i` of a list, or `d`. -/
def nth {α : Type} (l : List α) (i : Nat) (d : α) : α := l.getD i d

/-- A list with element `i` replaced. -/
def setNth {α : Type} (l : List α) (i : Nat) (v : α) : List α := l.set i v

/-- A number clamped to a range (R534). -/
def clampTo (lo hi n : Nat) : Nat := if n < lo then lo else if n > hi then hi else n

/-- A word with the bits of `m` cleared (W1C, R6). -/
def clearBits (v m : Word) : Word := v &&& ~~~m

/-- Two's complement reading of an `n`-bit field. -/
def signed (n v : Nat) : Int := if v % 2 ^ n < 2 ^ (n - 1) then ((v % 2 ^ n : Nat) : Int) else ((v % 2 ^ n : Nat) : Int) - 2 ^ n

/-- An integer as an `n`-bit two's complement field. -/
def unsign (n : Nat) (i : Int) : Nat := (i % (2 ^ n : Int)).toNat

/-- The unit size in bytes of an ENDIAN code (R203): 0 none, 1 two bytes, 2 four, 3 eight. -/
def endianUnit (code : Nat) : Nat := 2 ^ (code % 4)

/-- The place that the ENDIAN exchange gives byte address `a` (R208): o XOR (s - 1) within its unit. -/
def swapAddr (code a : Nat) : Nat :=
  let u := endianUnit code
  a - a % u + (a % u ^^^ (u - 1))

/-- The number of bytes an optional byte list carries. -/
def countSome (l : List (Option Byte)) : Nat := (l.filter Option.isSome).length

/-- The first offset holding a byte. -/
def firstSome : List (Option Byte) → Nat
  | [] => 0
  | some _ :: _ => 0
  | none :: r => firstSome r + 1

/-- Data bytes under byte enables. -/
def enabled (data : List Byte) (be : List Bool) : List (Option Byte) :=
  data.zipWith (fun d e => if e then some d else none) be

/-- Remove the first element that `p` names. -/
def dropFirst {α : Type} (p : α → Bool) : List α → List α
  | [] => []
  | a :: r => if p a then r else a :: dropFirst p r

/-- Insert a number into an ascending list without repeats. -/
def insertAsc (n : Nat) : List Nat → List Nat
  | [] => [n]
  | m :: r => if n < m then n :: m :: r else if n = m then m :: r else m :: insertAsc n r

/-- Change the first element that `p` names. -/
def modFirst {α : Type} (p : α → Bool) (f : α → α) : List α → List α
  | [] => []
  | a :: r => if p a then f a :: r else a :: modFirst p f r

end Sys2Proof.Machine
end

