-- ==== Sys2Proof/Machine/F32.lean ====
section
/-! DEFINITION. Binary32 arithmetic as IEEE 754 defines it, with rounding to nearest, ties to even (R386, R388): exact rational results, rounded once. -/

namespace Sys2Proof.Machine

/-- A binary32 value: finite as sign and exact magnitude `m * 2^e`, infinite, or not a number. -/
inductive F32 where
  | fin (neg : Bool) (m : Nat) (e : Int)
  | inf (neg : Bool)
  | nan
  deriving DecidableEq, Repr

/-- The value of 32 bits. -/
def f32Of (n : Nat) : F32 :=
  let neg := bit n 31
  let e := bits n 30 23
  let m := bits n 22 0
  if e = 255 then (if m = 0 then .inf neg else .nan)
  else if e = 0 then .fin neg m (-149)
  else .fin neg (m + 2 ^ 23) ((e : Int) - 150)

/-- Finite bits (R383). -/
def f32Finite (n : Nat) : Bool := decide (bits n 30 23 ≠ 255)

/-- `2^i` as numerator and denominator. -/
def pow2Frac (i : Int) : Nat × Nat := if 0 ≤ i then (2 ^ i.toNat, 1) else (1, 2 ^ (-i).toNat)

/-- A quotient rounded to nearest, ties to even. -/
def divEven (n d : Nat) : Nat :=
  let q := n / d
  let r := n % d
  if 2 * r < d then q else if d < 2 * r then q + 1 else if q % 2 = 0 then q else q + 1

/-- A quotient rounded to nearest, ties away from zero. -/
def divAway (n d : Nat) : Nat := (2 * n + d) / (2 * d)

/-- The floor of log2 of `n / d`, both positive. -/
def log2Frac (n d : Nat) : Int :=
  let l : Int := (Nat.log2 n : Int) - (Nat.log2 d : Int)
  let (a, b) := pow2Frac l
  if n * b < d * a then l - 1 else l

/-- The bits of the binary32 nearest to `n / d` with a sign. -/
def f32Round (neg : Bool) (n d : Nat) : Nat :=
  let sign := if neg then 2 ^ 31 else 0
  if n = 0 then sign
  else
    let e := max (-149) (log2Frac n d - 23)
    let (a, b) := pow2Frac e
    let q := divEven (n * b) (d * a)
    let (q, e) := if q = 2 ^ 24 then (2 ^ 23, e + 1) else (q, e)
    if 104 < e then sign + 255 * 2 ^ 23
    else if q < 2 ^ 23 then sign + q
    else sign + (e + 150).toNat * 2 ^ 23 + (q - 2 ^ 23)

/-- The canonical quiet NaN. -/
def f32Nan : Nat := 0x7FC00000

/-- An integer as binary32. -/
def f32OfInt (v : Int) : Nat := f32Round (decide (v < 0)) v.natAbs 1

/-- A finite value as a signed fraction. -/
def finFrac (neg : Bool) (m : Nat) (e : Int) : Int × Nat :=
  let (a, b) := pow2Frac e
  ((if neg then -1 else 1) * ((m * a : Nat) : Int), b)

/-- Product. -/
def f32Mul (x y : Nat) : Nat :=
  match f32Of x, f32Of y with
  | .fin s m e, .fin t n f =>
    let (a, b) := pow2Frac (e + f)
    f32Round (s != t) (m * n * a) b
  | .nan, _ => f32Nan
  | _, .nan => f32Nan
  | .inf s, .fin t n _ => if n = 0 then f32Nan else (if s != t then 2 ^ 31 else 0) + 255 * 2 ^ 23
  | .fin s m _, .inf t => if m = 0 then f32Nan else (if s != t then 2 ^ 31 else 0) + 255 * 2 ^ 23
  | .inf s, .inf t => (if s != t then 2 ^ 31 else 0) + 255 * 2 ^ 23

/-- Sum. -/
def f32Add (x y : Nat) : Nat :=
  match f32Of x, f32Of y with
  | .fin s m e, .fin t n f =>
    if m = 0 ∧ n = 0 then (if s ∧ t then 2 ^ 31 else 0)
    else
      let (p, b) := finFrac s m e
      let (q, d) := finFrac t n f
      let r := p * (d : Int) + q * (b : Int)
      f32Round (decide (r < 0)) r.natAbs (b * d)
  | .nan, _ => f32Nan
  | _, .nan => f32Nan
  | .inf s, .inf t => if s = t then x else f32Nan
  | .inf _, _ => x
  | _, .inf _ => y

/-- The negative. -/
def f32Neg (x : Nat) : Nat := if bit x 31 then x - 2 ^ 31 else x + 2 ^ 31

/-- Quotient; the divisor is finite and not zero (R383). -/
def f32Div (x y : Nat) : Nat :=
  match f32Of x, f32Of y with
  | .fin s m e, .fin t n f =>
    if n = 0 then f32Nan
    else
      let (a, b) := pow2Frac (e - f)
      f32Round (s != t) (m * a) (n * b)
  | .inf s, .fin t _ _ => (if s != t then 2 ^ 31 else 0) + 255 * 2 ^ 23
  | _, _ => f32Nan

/-- A binary32 as a fraction, where it is finite. -/
def f32Frac (x : Nat) : Option (Int × Nat) :=
  match f32Of x with
  | .fin s m e => some (finFrac s m e)
  | _ => none

/-- A fraction rounded to an integer, ties to even or away from zero. -/
def roundFrac (q : Int × Nat) (away : Bool) : Int :=
  let n := (if away then divAway else divEven) q.1.natAbs q.2
  if q.1 < 0 then -(n : Int) else n

end Sys2Proof.Machine
end

