-- ==== Sys2Proof/Config.lean ====
section
/-! DEFINITION. What an implementation fixes and the free values. Each free value is an opaque constant with no body: nothing can be proved of it, so a claim holds for every value. A value the spec leaves open at a moment is the constant applied to the state's counter `fresh`, which the step advances. -/

namespace Sys2Proof.Config

/-- Identity fuses of the unit (R132): lot (40 bits), wafer, die X, die Y, fab code, test date. They differ per unit. -/
opaque fusedIdentity : Nat → BitVec 40

/-- RESIDUAL under ABORT_DISABLE and ABORT_RESET (R280: an undefined value). -/
opaque freeResidual : Nat → BitVec 32

/-- A random nonzero session number (R439) is drawn from this; the machine makes it nonzero. -/
opaque freeSession : Nat → BitVec 8

/-- A redrawn sender ID (R419). -/
opaque freeSender : Nat → BitVec 32

/-- The rate adjustment a PTM exchange makes, in ppm (R189 gives its range and no formula). -/
opaque freePtmRate : Nat → BitVec 9

/-- The data a debug access reads from a register file or memory whose layout the spec does not give (R149). -/
opaque freeDebugData : Nat → BitVec 32

/-- A byte of an eye scan, a temperature or a measured rate that only silicon gives (R432). -/
opaque freeMeasure : Nat → BitVec 32

/-- A measured interval that the spec names and no command carries (R163 DURATION, handover length, jitter), in its register's unit. -/
opaque freeInterval : Nat → BitVec 32

/-- A field of INFO_VERSION, INFO_IDENTITY, INFO_CAPS or another response whose place the spec does not give (R170): byte by byte. -/
opaque freeResponse : Nat → BitVec 8

/-- The signature of a firmware slot verifies (R119, FIPS 186-5, the key fused at manufacture). -/
opaque fwSignatureOk : List (Nat × BitVec 8) → Bool

/-- The firmware header of a slot (R119): version, security version, pair epoch, flags [0] COMPAT_PREV [1] asks to raise the minimum [2] length fits the slot. The spec gives the fields and no layout. -/
opaque fwHeader : List (Nat × BitVec 8) → BitVec 32 × BitVec 16 × BitVec 16 × BitVec 3

/-- The configuration digest of a pair's comparison (R476): SHA-256 of the image with its pair block zeroed, by the slot's bytes. The spec does not place the pair block. -/
opaque pairDigest : List (Nat × BitVec 8) → List (BitVec 8)

/-- A value that the spec leaves undefined and that no other constant names. -/
opaque freeWord : Nat → BitVec 32

end Sys2Proof.Config
end

