-- ==== Sys2Proof/Machine/Crypto.lean ====
section
/-! DEFINITION. The arithmetic of check words, tags and wrapped keys: CRC-32C (R121, R329, R485), CRC-8 (R415), SHA-256 and HMAC-SHA-256 (R133, R143), AES-256 key unwrap (R140, NIST SP 800-38F). -/

namespace Sys2Proof.Machine

/-- One bit of the reflected CRC-32C division (polynomial 0x82F63B78). -/
def crcBit (c : BitVec 32) : BitVec 32 := if c.getLsbD 0 then (c >>> 1) ^^^ 0x82F63B78#32 else c >>> 1

/-- One byte of a CRC-32C. -/
def crcByte (c : BitVec 32) (b : Byte) : BitVec 32 :=
  let c := c ^^^ b.setWidth 32
  crcBit (crcBit (crcBit (crcBit (crcBit (crcBit (crcBit (crcBit c)))))))

/-- CRC-32C of a byte list (initial value and final exclusive-or of all ones). -/
def crc32c (l : List Byte) : BitVec 32 := ~~~(l.foldl crcByte 0xFFFFFFFF#32)

/-- One bit of a CRC-8 with polynomial 0x07 (R415). -/
def crc8Bit (c : BitVec 8) : BitVec 8 := if c.getLsbD 7 then (c <<< 1) ^^^ 0x07#8 else c <<< 1

/-- CRC-8 of a byte list, initial value 0 (R415). -/
def crc8 (l : List Byte) : Byte :=
  l.foldl (fun c b => let c := c ^^^ b; crc8Bit (crc8Bit (crc8Bit (crc8Bit (crc8Bit (crc8Bit (crc8Bit (crc8Bit c)))))))) 0#8

/-! ## SHA-256 (FIPS 180-4) -/

/-- Rotate right. -/
def ror (x : BitVec 32) (n : Nat) : BitVec 32 := (x >>> n) ||| (x <<< (32 - n))

/-- The round constants, in pieces. -/
def shaK : List (BitVec 32) :=
  [0x428a2f98#32, 0x71374491#32, 0xb5c0fbcf#32, 0xe9b5dba5#32, 0x3956c25b#32, 0x59f111f1#32, 0x923f82a4#32, 0xab1c5ed5#32]
  ++ [0xd807aa98#32, 0x12835b01#32, 0x243185be#32, 0x550c7dc3#32, 0x72be5d74#32, 0x80deb1fe#32, 0x9bdc06a7#32, 0xc19bf174#32]
  ++ [0xe49b69c1#32, 0xefbe4786#32, 0x0fc19dc6#32, 0x240ca1cc#32, 0x2de92c6f#32, 0x4a7484aa#32, 0x5cb0a9dc#32, 0x76f988da#32]
  ++ [0x983e5152#32, 0xa831c66d#32, 0xb00327c8#32, 0xbf597fc7#32, 0xc6e00bf3#32, 0xd5a79147#32, 0x06ca6351#32, 0x14292967#32]
  ++ [0x27b70a85#32, 0x2e1b2138#32, 0x4d2c6dfc#32, 0x53380d13#32, 0x650a7354#32, 0x766a0abb#32, 0x81c2c92e#32, 0x92722c85#32]
  ++ [0xa2bfe8a1#32, 0xa81a664b#32, 0xc24b8b70#32, 0xc76c51a3#32, 0xd192e819#32, 0xd6990624#32, 0xf40e3585#32, 0x106aa070#32]
  ++ [0x19a4c116#32, 0x1e376c08#32, 0x2748774c#32, 0x34b0bcb5#32, 0x391c0cb3#32, 0x4ed8aa4a#32, 0x5b9cca4f#32, 0x682e6ff3#32]
  ++ [0x748f82ee#32, 0x78a5636f#32, 0x84c87814#32, 0x8cc70208#32, 0x90befffa#32, 0xa4506ceb#32, 0xbef9a3f7#32, 0xc67178f2#32]

/-- The first hash value. -/
def shaInit : List (BitVec 32) :=
  [0x6a09e667#32, 0xbb67ae85#32, 0x3c6ef372#32, 0xa54ff53a#32, 0x510e527f#32, 0x9b05688c#32, 0x1f83d9ab#32, 0x5be0cd19#32]

/-- The next word of a message schedule held newest first. -/
def shaSched (w : List (BitVec 32)) : BitVec 32 :=
  let a := nth w 1 0
  let b := nth w 14 0
  let s1 := ror a 17 ^^^ ror a 19 ^^^ (a >>> 10)
  let s0 := ror b 7 ^^^ ror b 18 ^^^ (b >>> 3)
  s1 + nth w 6 0 + s0 + nth w 15 0

/-- The message schedule extended by `n` words. -/
def shaExtend : Nat → List (BitVec 32) → List (BitVec 32)
  | 0, w => w
  | n + 1, w => shaExtend n (shaSched w :: w)

/-- One round. -/
def shaRound (h : List (BitVec 32)) (kw : BitVec 32) : List (BitVec 32) :=
  match h with
  | [a, b, c, d, e, f, g, x] =>
    let t1 := x + (ror e 6 ^^^ ror e 11 ^^^ ror e 25) + ((e &&& f) ^^^ (~~~e &&& g)) + kw
    let t2 := (ror a 2 ^^^ ror a 13 ^^^ ror a 22) + ((a &&& b) ^^^ (a &&& c) ^^^ (b &&& c))
    [t1 + t2, a, b, c, d + t1, e, f, g]
  | _ => h

/-- A big-endian 32-bit word of four bytes. -/
def beWord (l : List Byte) : BitVec 32 := l.foldl (fun n b => (n <<< 8) ||| b.setWidth 32) 0#32

/-- The big-endian words of a list, `n` of them. -/
def beWords : Nat → List Byte → List (BitVec 32)
  | 0, _ => []
  | n + 1, l => beWord (l.take 4) :: beWords n (l.drop 4)

/-- One 64-byte block. -/
def shaBlock (h : List (BitVec 32)) (blk : List Byte) : List (BitVec 32) :=
  let w := (shaExtend 48 (beWords 16 blk).reverse).reverse
  let r := (List.zipWith (· + ·) shaK w).foldl shaRound h
  List.zipWith (· + ·) h r

/-- `n` blocks of a padded message. -/
def shaBlocks : Nat → List (BitVec 32) → List Byte → List (BitVec 32)
  | 0, h, _ => h
  | n + 1, h, m => shaBlocks n (shaBlock h (m.take 64)) (m.drop 64)

/-- A number as `k` big-endian bytes. -/
def beBytes (k n : Nat) : List Byte := (leBytes k n).reverse

/-- SHA-256. -/
def sha256 (m : List Byte) : List Byte :=
  let n := m.length
  let z := (119 - n % 64) % 64
  let p := m ++ [0x80#8] ++ List.replicate z 0#8 ++ beBytes 8 (8 * n)
  (shaBlocks (p.length / 64) shaInit p).flatMap fun w => beBytes 4 w.toNat

/-- HMAC-SHA-256 (R143). -/
def hmac (key m : List Byte) : List Byte :=
  let k := slice (if key.length ≤ 64 then key else sha256 key) 0 64
  sha256 (k.map (· ^^^ 0x5C#8) ++ sha256 (k.map (· ^^^ 0x36#8) ++ m))

/-! ## AES-256 key unwrap (FIPS 197, NIST SP 800-38F) -/

/-- Multiplication by x in the AES field. -/
def xtime (b : Byte) : Byte := if b.getLsbD 7 then (b <<< 1) ^^^ 0x1B#8 else b <<< 1

/-- Multiplication in the AES field, over the low `n` bits of `b`. -/
def gmul : Nat → Byte → Byte → Byte
  | 0, _, _ => 0#8
  | n + 1, a, b => (if b.getLsbD 0 then a else 0#8) ^^^ gmul n (xtime a) (b >>> 1)

/-- Multiplication in the AES field. -/
def gm (a b : Byte) : Byte := gmul 8 a b

/-- The inverse, as the 254th power; 0 for 0. -/
def ginv (a : Byte) : Byte :=
  let a2 := gm a a
  let a4 := gm a2 a2
  let a8 := gm a4 a4
  let a16 := gm a8 a8
  let a32 := gm a16 a16
  let a64 := gm a32 a32
  let a128 := gm a64 a64
  gm a128 (gm a64 (gm a32 (gm a16 (gm a8 (gm a4 a2)))))

/-- The substitution of a byte. -/
def sbox (a : Byte) : Byte :=
  let i := ginv a
  i ^^^ i.rotateLeft 1 ^^^ i.rotateLeft 2 ^^^ i.rotateLeft 3 ^^^ i.rotateLeft 4 ^^^ 0x63#8

/-- The inverse substitution. -/
def invSbox (b : Byte) : Byte :=
  ginv (b.rotateLeft 1 ^^^ b.rotateLeft 3 ^^^ b.rotateLeft 6 ^^^ 0x05#8)

/-- Exclusive-or of byte lists. -/
def xorB (a b : List Byte) : List Byte := List.zipWith (· ^^^ ·) a b

/-- The AES-256 key schedule by words, newest first; `i` counts the words made. -/
def keyExpand : Nat → Nat → Byte → List (List Byte) → List (List Byte)
  | 0, _, _, w => w
  | n + 1, i, rc, w =>
    let t := nth w 0 []
    let t' := if i % 8 = 0 then xorB ((t.drop 1 ++ t.take 1).map sbox) [rc, 0#8, 0#8, 0#8]
      else if i % 8 = 4 then t.map sbox else t
    keyExpand n (i + 1) (if i % 8 = 0 then xtime rc else rc) (xorB (nth w 7 []) t' :: w)

/-- The 15 round keys of 16 bytes. -/
def roundKeys (key : List Byte) : List (List Byte) :=
  let w := (keyExpand 52 8 1#8 (((List.range 8).map fun i => slice key (4 * i) 4).reverse)).reverse
  (List.range 15).map fun r => (List.range 4).flatMap fun j => nth w (4 * r + j) []

/-- The inverse of ShiftRows, bytes in column order. -/
def invShift (st : List Byte) : List Byte := (List.range 16).map fun k => nth st (4 * ((k / 4 + 4 - k % 4) % 4) + k % 4) 0#8

/-- The inverse of MixColumns. -/
def invMix (st : List Byte) : List Byte :=
  (List.range 4).flatMap fun c =>
    let a := nth st (4 * c) 0#8
    let b := nth st (4 * c + 1) 0#8
    let d := nth st (4 * c + 2) 0#8
    let e := nth st (4 * c + 3) 0#8
    [gm a 14#8 ^^^ gm b 11#8 ^^^ gm d 13#8 ^^^ gm e 9#8, gm a 9#8 ^^^ gm b 14#8 ^^^ gm d 11#8 ^^^ gm e 13#8,
     gm a 13#8 ^^^ gm b 9#8 ^^^ gm d 14#8 ^^^ gm e 11#8, gm a 11#8 ^^^ gm b 13#8 ^^^ gm d 9#8 ^^^ gm e 14#8]

/-- AES-256 decryption of one block under round keys. -/
def aesDecrypt (rk : List (List Byte)) (blk : List Byte) : List Byte :=
  let st := xorB blk (nth rk 14 [])
  let st := (List.range 13).foldl (fun st i => invMix (xorB ((invShift st).map invSbox) (nth rk (13 - i) []))) st
  xorB ((invShift st).map invSbox) (nth rk 0 [])

/-- One step of the unwrap: counter `t` and the register it takes. -/
def unwrapStep (rk : List (List Byte)) (n : Nat) (ar : List Byte × List (List Byte)) (t : Nat) : List Byte × List (List Byte) :=
  let i := (t - 1) % n
  let b := aesDecrypt rk (xorB ar.1 (beBytes 8 t) ++ nth ar.2 i [])
  (b.take 8, setNth ar.2 i (b.drop 8))

/-- AES key unwrap (KW): the key data, or none when the integrity check fails (R140, R144 check 6). -/
def keyUnwrap (kek wrapped : List Byte) : Option (List Byte) :=
  let n := wrapped.length / 8 - 1
  let rk := roundKeys kek
  let r := (List.range n).map fun i => slice wrapped (8 * (i + 1)) 8
  let ar := (List.range (6 * n)).foldl (fun ar k => unwrapStep rk n ar (6 * n - k)) (wrapped.take 8, r)
  if ar.1 = List.replicate 8 0xA6#8 then some ar.2.flatten else none

/-! ## Identity (R132, R133) -/

/-- The identity record of 11 bytes: lot, wafer (1-25), die X, die Y, fab code, test date. -/
def identityRecord : List Byte :=
  leBytes 5 (Config.fusedIdentity 0).toNat ++ leBytes 1 ((Config.fusedIdentity 1).toNat % 25 + 1)
    ++ leBytes 1 (Config.fusedIdentity 2).toNat ++ leBytes 1 (Config.fusedIdentity 3).toNat
    ++ leBytes 1 (Config.fusedIdentity 4).toNat ++ leBytes 2 (Config.fusedIdentity 5).toNat

/-- The unique ID: bytes 0-15 of the SHA-256 digest of the identity record (R133). -/
def uniqueId : List Byte := (sha256 identityRecord).take 16

end Sys2Proof.Machine
end

