-- ==== Sys2Proof/Machine/Table.lean ====
section
/-! DEFINITION. Sparse tables: the one canonical form in which the register file, the mailbox areas, MRAM and every indexed structure of the device are held. Keys rise strictly and no entry equals what an unlisted key reads as, so equal contents are equal data. -/

namespace Sys2Proof.Machine

/-- A sparse table of entries by number. -/
structure Tbl (α : Type) where
  rows : List (Nat × α)
  deriving DecidableEq, Repr

/-- The rows' lookup: the value listed for `k`, if any. -/
def Tbl.lookup {α : Type} : List (Nat × α) → Nat → Option α
  | [], _ => none
  | (k', v) :: r, k => if k' = k then some v else Tbl.lookup r k

/-- The rows with no entry for `k`. -/
def Tbl.dropKey {α : Type} : List (Nat × α) → Nat → List (Nat × α)
  | [], _ => []
  | (k', v) :: r, k => if k' = k then Tbl.dropKey r k else (k', v) :: Tbl.dropKey r k

/-- The rows with `k` listed as `v`, at its place in the order of keys. -/
def Tbl.putKey {α : Type} : List (Nat × α) → Nat → α → List (Nat × α)
  | [], k, v => [(k, v)]
  | (k', w) :: r, k, v =>
    if k < k' then (k, v) :: (k', w) :: r
    else if k = k' then (k, v) :: r
    else (k', w) :: Tbl.putKey r k v

/-- The table in which every key reads as its default. -/
def Tbl.empty {α : Type} : Tbl α := ⟨[]⟩

/-- What key `k` reads as, where `d` gives the unlisted keys. -/
def Tbl.get {α : Type} (d : Nat → α) (t : Tbl α) (k : Nat) : α :=
  match Tbl.lookup t.rows k with
  | some v => v
  | none => d k

/-- The table with key `k` holding `v`; writing the default removes the entry. -/
def Tbl.set {α : Type} [DecidableEq α] (d : Nat → α) (t : Tbl α) (k : Nat) (v : α) : Tbl α :=
  if v = d k then ⟨Tbl.dropKey t.rows k⟩ else ⟨Tbl.putKey (Tbl.dropKey t.rows k) k v⟩

/-- The table without the entries whose key `p` names: they read as their defaults again. -/
def Tbl.clear {α : Type} (p : Nat → Bool) (t : Tbl α) : Tbl α :=
  ⟨t.rows.filter fun kv => !p kv.1⟩

/-- The keys rise strictly. -/
def Tbl.rising {α : Type} : List (Nat × α) → Bool
  | [] => true
  | [_] => true
  | (k, _) :: (k', v) :: r => decide (k < k') && Tbl.rising ((k', v) :: r)

/-- The canonical form: keys strictly rising, no entry equal to the default of its key. -/
def Tbl.wf {α : Type} [DecidableEq α] (d : Nat → α) (t : Tbl α) : Bool :=
  Tbl.rising t.rows && t.rows.all fun kv => decide (kv.2 ≠ d kv.1)

end Sys2Proof.Machine
end

