-- ==== Sys2Proof/Machine/Image.lean ====
section
/-! DEFINITION. The applied configuration image (R121): the content the spec says Joben puts into its body, with the factory values that stand when no slot is valid (R122). The body's byte format is Joben's; `Config.imageBody` stands for its decoding. -/

namespace Sys2Proof.Machine

/-- What the image holds of one parallel port (R77, R295, R328, R329): presence, service at step 9, declared bank voltages in mV, PA_ARB_CTL and the personality table's bytes (none: no table). -/
structure ImgPort where
  absent : Bool
  inService : Bool
  banks : List Nat
  arbCtl : Word
  pers : Option (List Byte)
  deriving DecidableEq, Repr, Inhabited

/-- What the image holds of one link (R63, R413, R433, R453, R462): presence, service, LAN_LINK_CTL, LAN_ADAPT_CTL, LAN_TX of its lanes, the reloaded RW registers of its ULI_ block (REQ_TIMEOUT, HOLD, REPLAY_TIMER, EI_IDLE, NOTIFY_ROUTE) and the 16 link regions of four words. -/
structure ImgLink where
  absent : Bool
  inService : Bool
  ctl : Word
  adapt : Word
  tx : Word
  uli : List Word
  regions : List (List Word)
  deriving DecidableEq, Repr, Inhabited

/-- One weir region of the image with its LOCK flag (R472): weir, region, words 1-8 of R465. -/
structure ImgRegion where
  weir : Nat
  region : Nat
  words : List Word
  lock : Bool
  deriving DecidableEq, Repr, Inhabited

/-- A heartbeat cell (R475): target, space code, address. -/
structure HbCell where
  target : Nat
  space : Nat
  addr : Nat
  deriving DecidableEq, Repr, Inhabited

/-- The pair block (R475). -/
structure PairBlock where
  rank : Nat
  partnerUid : List Byte
  autoForm : Bool
  defaultLead : List Nat
  cell1 : HbCell
  cell2 : HbCell
  standbySc : List Nat
  deriving DecidableEq, Repr, Inhabited

/-- The body of a configuration image (R121). Quotas are by tenant; a tenant not named keeps its factory value. -/
structure Image where
  subsysVendor : Nat
  subsysId : Nat
  pf0Bar2Log2 : Nat
  vfBar2Log2 : Nat
  winQuota : List (Nat × Nat)
  queueQuota : List (Nat × Nat)
  segCap : List (Nat × Nat)
  pointQuota : List (Nat × Nat)
  tallyQuota : List (Nat × Nat)
  priv : List Nat
  ports : List ImgPort
  links : List ImgLink
  weirDefaults : List Nat
  weirRegions : List ImgRegion
  routes : List (Nat × Nat × List Word)
  bounds : List Word
  pair : PairBlock
  deriving DecidableEq, Repr, Inhabited

/-- A port under factory defaults: present, out of service, no table (R122); OWN_LIMIT 16 (R328). -/
def factoryPort : ImgPort :=
  { absent := false, inService := false, banks := [3300, 3300, 3300, 3300], arbCtl := 0x1000#32, pers := none }

/-- A link under factory defaults: out of service, MAX_RATE 25.78125 GBd, LOOP_ACCEPT and EI_EN set (R413, R429, R431), every region SIDE_EFFECT (R453). -/
def factoryLink : ImgLink :=
  { absent := false, inService := false, ctl := 0x32#32, adapt := 0x000800CD#32, tx := 0#32
    uli := [0x3E8#32, 0x14#32, 0x1388#32, 0x64#32, 0#32]
    regions := List.replicate 16 [0#32, 0#32, 0#32, 2#32] }

/-- No pair (R475). -/
def noPair : PairBlock :=
  { rank := 0, partnerUid := List.replicate 16 0#8, autoForm := false, defaultLead := []
    cell1 := ⟨0, 0, 0⟩, cell2 := ⟨0, 0, 0⟩, standbySc := [] }

/-- The factory bounds of R505, words 0-7. -/
def factoryBounds : List Word :=
  [0x1F#32, 400#32, (12 + 15 * 256 : Nat), 24#32, (4 + 2 * 256 : Nat), 3#32, 800#32, 0#32]

/-- The factory defaults (R122, R176, R179, R202, R238, R266, R364, R378, R467). -/
def Image.factory : Image :=
  { subsysVendor := 0x1D9E, subsysId := 0, pf0Bar2Log2 := 30, vfBar2Log2 := 24
    winQuota := [], queueQuota := [], segCap := [], pointQuota := [], tallyQuota := []
    priv := [], ports := [factoryPort, factoryPort]
    links := [factoryLink, factoryLink, factoryLink, factoryLink, factoryLink]
    weirDefaults := List.replicate 8 0, weirRegions := [], routes := []
    bounds := factoryBounds, pair := noPair }

end Sys2Proof.Machine

namespace Sys2Proof.Config

/-- The decoding of a valid configuration slot's bytes (R121: Joben builds the body; its format is not in the spec). A free value. -/
opaque imageBody : List (Nat × BitVec 8) → Sys2Proof.Machine.Image

end Sys2Proof.Config
end

