-- ==== Sys2Proof/Machine/State.lean ====
section
/-! DEFINITION. The state of the IKP4416: everything the spec gives the device, as plain data, grouped by the chapter that owns it; the queue of waiting commands; the faults and refusals; the state after reset. Numbers whose width the spec fixes by a register field are held as naturals and read through the field. -/

namespace Sys2Proof.Machine

/-! ## What the device puts on its ports -/

/-- Completion status of a host request on PCI Express (R26, R117, R186). -/
inductive CplStatus where
  | sc | ur | ca | crs
  deriving DecidableEq, Repr

/-- What leaves the device: to the host, the racks, the link peers, the sideband. -/
inductive Output where
  /-- A completion to the host request `rid` of function `fn` (R26, R217); a byte that was not requested is `none`. -/
  | hostCpl (fn rid : Nat) (st : CplStatus) (cs : Nat) (data : List (Option Byte))
  /-- A register read's completion (R4, R5, R6). -/
  | regCpl (fn off : Nat) (v : DWord)
  /-- A memory write to the host with the requester ID of `tenant`. -/
  | hostWrite (tenant addr : Nat) (data : List Byte)
  /-- A memory read request to the host with the requester ID of `tenant` and `tag`. -/
  | hostReadReq (tenant tag addr len : Nat)
  /-- An MSI-X message of a function's entry (R183). -/
  | msix (fn entry : Nat)
  /-- An MSI message of PF0 (R184). -/
  | msi (n : Nat)
  /-- An error reported through AER in a function (R186): 0 Unsupported Request, 1 Completer Abort, 2 Completion Timeout, 3 Unexpected Completion, 4 Poisoned TLP Received, 5 correctable, 6 fatal, 7 Uncorrectable Internal Error, 8 Corrected Internal Error. -/
  | aer (fn kind : Nat)
  | pmePm | pmeToAck | ltr (ns : Nat) | ptmRequest
  /-- A bus cycle started on a port: kind 0 read, 1 write, 2 read-modify-write; block transfers carry their whole length (R299-R303). -/
  | busCycle (port kind addr space len : Nat) (data : List (Option Byte))
  /-- Strobes negated on a port's open master cycle (R320, R324). -/
  | strobesOff (port : Nat)
  /-- The slave's answer to a rack master (R30, R31, R222, R307). -/
  | slaveAck (port : Nat) (data : List Byte)
  | slaveErr (port : Nat)
  | slaveRetry (port : Nat)
  /-- A port control line asserted or released: 0 bus request, 1 BBSY*/BUSY* (bus ownership), 2 BGxOUT*, 3 IACKOUT*, 4 BERR*, 5 SYSRESET*, 6 interrupt output, 7 BPRO*; `arg` is the level where one applies. -/
  | portLine (port line arg : Nat) (asserted : Bool)
  /-- An IACK cycle of a level started (R313), and a status/ID driven in answer to one (R317). -/
  | iackCycle (port level : Nat)
  | iackId (port : Nat) (v : Word)
  /-- A message entering a link's stream (R446): header and data bytes. -/
  | uliMessage (k : Nat) (bytes : List Byte)
  /-- Replay of unacknowledged flits from a sequence number (R442). -/
  | uliReplay (k fromSeq count : Nat)
  /-- A group of NULL flits opened (R443), with NAK set or not, carrying the ACK. -/
  | uliNullGroup (k ack : Nat) (nak : Bool)
  /-- An INIT flit sent (R439). -/
  | uliInit (k session : Nat) (initAck resume : Bool)
  /-- A lane control block sent on a link: the command of R415 LANE_CTL with its logical lane and switch count. -/
  | laneCtl (k cmd logical count : Nat)
  | laneStir (k : Nat)
  | laneEiMark (k : Nat)
  | laneTrain (k phys : Nat) (locked rateStep : Bool)
  | laneCaps (k phys : Nat) (ack : Bool)
  | laneDetect (k : Nat)
  /-- A twin engine message (R486): MTYPE and its words. -/
  | twinMsg (mtype : Nat) (words : List Nat)
  /-- A heartbeat access to a cell (R488): the count written, or none for a read. -/
  | heartbeat (target space addr : Nat) (count : Option Nat)
  /-- SMBus answers (R60). -/
  | smbWord (v : BitVec 16)
  | smbBlock (bytes : List Byte)
  | smbAck
  | smbNack
  | smbAra (addr : BitVec 7)
  /-- What the TAP returns for a debug access (R149): the data, or DBG_ERR. -/
  | dbgData (v : Word)
  | dbgErr
  deriving DecidableEq, Repr

/-! ## Event records (R510) -/

/-- One 64-byte event record. -/
structure EvRec where
  time : Nat
  source : Nat
  tenant : Nat
  severity : Nat
  code : Nat
  cs : Nat
  addr : Nat
  ticket : Nat
  data : List Byte
  deriving DecidableEq, Repr

/-- A rate-limited key's account in its current interval (R531). -/
structure Rate where
  interval : Nat
  written : Nat
  suppressed : Nat
  deriving DecidableEq, Repr

/-- The bittern log (R515-R518): the ring by sequence number, the next sequence number, the first-of-kind slots and the order they were filled in (newest first), the records waiting for commit (oldest first), the drops a LOG_QUEUE_FULL record still owes, the rate accounts, and whether the journal was recovered at boot. -/
structure Log where
  ring : Tbl (Option EvRec)
  seq : Nat
  fok : Tbl (Option EvRec)
  fokOrder : List Nat
  waiting : List EvRec
  dropsOwed : Nat
  rates : Tbl Rate
  recovered : Bool
  ready : Bool
  deriving DecidableEq, Repr

/-! ## Accesses -/

/-- Who waits for an access (R26, R27, R29): a read that passed LT, a window write, a pan segment's write or read-modify-write (its slot and push order), a harvest or flood access. -/
inductive Origin where
  | read (uid : Nat)
  | hostWrite
  | seg (slot order : Nat)
  | harvest (sched : Nat) (flood : Bool) (idx : Nat)
  deriving DecidableEq, Repr

/-- Kinds of access. -/
inductive AccKind where
  | read | write | rmw
  deriving DecidableEq, Repr

/-- An access on its way to a target, translated once (R206): kind, tenant, target (0, 1 ports; 2-5 links; 6 host), first byte, space code, largest cycle width in bytes, the bytes at each offset (`some` value for a write's enabled byte; for a read `some 0` marks a requested byte), region index, ticket (0 none), origin, the ring stop it comes from, ENDIAN code, effective class, RMW mask and value, and the client of its temporary vote on its target's domain, if it holds one (R96). -/
structure Acc where
  kind : AccKind
  tenant : Nat
  target : Nat
  addr : Nat
  space : Nat
  width : Nat
  bytes : List (Option Byte)
  region : Nat
  ticket : Nat
  origin : Origin
  stop : Nat
  endian : Nat
  cls : Nat
  mask : Nat
  value : Nat
  temp : Option Nat
  deriving DecidableEq, Repr

/-- How an access ended. -/
structure AccEnd where
  cs : Nat
  addr : Nat
  data : List (Option Byte)
  beat : Nat
  deriving DecidableEq, Repr

/-! ## Reset, boot, supplies, pins -/

/-- The board-facing pins that are inputs or held outputs (R41, R57-R60). FAULT_N and ALERT_N are functions of the state (R58, R59). `alertAcked`: an Alert Response Address read has been answered since the last alert was raised. -/
structure Pins where
  porst : Bool
  perst : Bool
  smbAddr : BitVec 2
  wake : Bool
  clkreqHeld : Bool
  alertMask : BitVec 4
  alertPending : BitVec 4
  alertAcked : Bool
  deriving DecidableEq, Repr

/-- The AO monitors (R72, R77-R79): measured supplies in mV by index (0 core, 1 AO, 2 AHS, 3 HHS, 4 V18, 5 NV, 6-13 banks), the supplies beyond their warning and fault thresholds, the junction temperature in 0.125 °C and its warning threshold, and the thermal shutdown latch. -/
structure Monitors where
  mv : Tbl Nat
  warned : List Nat
  faulted : List Nat
  temp : BitVec 16
  warnThr : Nat
  tempWarned : Bool
  shutdown : Bool
  internalReset : Bool
  deriving DecidableEq, Repr

/-- Boot and reset (R112-R116, R124, R125): the step of R116 reached (0 in reset), what is being booted from, the running slots and flags of R131, watchdog expiries with no step 9 between them, when the boot began, and the reset the next boot serves. -/
structure Boot where
  step : Nat
  entry : Nat
  fwSlot : Nat
  cfgSlot : Nat
  cfgDefaults : Bool
  fwFallback : Bool
  cfgFallback : Bool
  recovery : Bool
  trialUnconfirmed : Bool
  wdogRun : Nat
  began : Nat
  awaitPerst : Bool
  hostConfirm : Bool
  factoryTest : Bool
  powerOnPending : Bool
  deriving DecidableEq, Repr

/-- One tenant's key slot (R139, R145). -/
structure KeySlot where
  key : Option (List Byte)
  counter : Nat
  fails : Nat
  lockouts : Nat
  lockedUntil : Nat
  deriving DecidableEq, Repr

/-- One image slot (R119, R121): its bytes (sparse, an unlisted byte reads as 0) and whether its header has been invalidated. -/
structure ImgSlot where
  bytes : Tbl Byte
  valid : Bool
  deriving DecidableEq, Repr

/-- An open image write session (R123). -/
structure ImgSession where
  total : Nat
  slot : Nat
  deriving DecidableEq, Repr

/-- The boot record (R119, R123). -/
structure BootRec where
  fwActive : Nat
  fwPending : Nat
  trial : Bool
  attempts : Nat
  cfgActive : Nat
  deriving DecidableEq, Repr

/-- MRAM and fuses (R86, R115, R134, R139, R344, R500-R503, R508): everything that outlives a power-on reset. `panState`: 0 as made, else the R263 code; `panPos`: the position a spare serves plus one; profile references by port, base, size and space. -/
structure Mram where
  fwA : ImgSlot
  fwB : ImgSlot
  cfgA : ImgSlot
  cfgB : ImgSlot
  boot : BootRec
  minSec : Nat
  fuses : BitVec 3
  erasing : Bool
  keys : Tbl KeySlot
  panState : Tbl Nat
  panPos : Tbl Nat
  panPlan : Nat
  laneFailed : List Nat
  lanePlan : Nat
  mramRetired : List Nat
  rowsUsed : Tbl Nat
  colsUsed : Nat
  pllHc : Bool
  pllFb : Bool
  islandFailed : List Nat
  refs : List (List Nat × Nat × Nat)
  wearAge : Nat
  wearHistory : List (List Nat)
  wearIsl : Tbl Nat
  wearPan : Tbl Nat
  mramWrites : Tbl Nat
  deriving DecidableEq, Repr

/-! ## Herdin (07) -/

/-- The state of a mailbox (R156). -/
inductive MbState where
  | idle | booting | queued | executing | waiting | complete
  deriving DecidableEq, Repr

/-- A copied request (R154, R158). -/
structure Cmd where
  opcode : Nat
  flags : Nat
  seq : Nat
  len : Nat
  counter : Nat
  tag : List Byte
  head : List Byte
  payload : List Byte
  deriving DecidableEq, Repr

/-- One mailbox (R153, R154, R156): HRD_REQ and HRD_RSP words, state, the held flag of BOOTING, SEQ, the copied command, and HRD_ERR. -/
structure Mailbox where
  req : Tbl Word
  rsp : List Byte
  st : MbState
  held : Bool
  seq : Nat
  cmd : Option Cmd
  err : BitVec 2
  deriving DecidableEq, Repr

/-- The Herdin engine (R164, R123): the mailboxes, the device-wide queue (mailbox numbers in doorbell order), the mailbox whose command executes, the open image sessions (firmware, configuration), and the kind of the one begun last. -/
structure Herdin where
  mb : Tbl Mailbox
  queue : List Nat
  exec : Option Nat
  fwSession : Option ImgSession
  cfgSession : Option ImgSession
  lastKind : Nat
  deriving DecidableEq, Repr

/-! ## Host endpoint (08) -/

/-- What an outstanding host read of the device is for (R182, R227, R532); `drop`: nobody waits any more, and the answer is discarded on arrival (R256). -/
inductive TagUse where
  | fetch (q : Nat)
  | seg (slot : Nat)
  | loopRead (rid : Nat)
  | rack (port slot : Nat)
  | selector (s : Nat)
  | half (s : Nat)
  | reNext (q : Nat)
  | drop
  deriving DecidableEq, Repr

/-- One MSI-X vector (R183, R185). -/
structure Vec where
  addr : DWord
  data : Word
  mask : Bool
  pend : Bool
  deriving DecidableEq, Repr

/-- A function's state (R172-R192): configuration fields, tags in use and in quarantine, MSI-X vectors, power state with its held writes and messages (oldest first), and the FLR in progress. -/
structure FnState where
  memSpace : Bool
  busMaster : Bool
  extTag : Bool
  tenBit : Bool
  cto : Nat
  ptmEnable : Bool
  pmeEn : Bool
  pmeStatus : Bool
  severity : Word
  corr : Word
  uncorr : Word
  d3hot : Bool
  flr : Bool
  tags : List (Nat × TagUse)
  quar : List Nat
  vecs : Tbl Vec
  msixEnable : Bool
  fnMask : Bool
  msiEnable : Bool
  msiMsgs : Nat
  msiMask : Word
  msiPend : Word
  mrrs : Nat
  bars : Tbl Word
  heldOut : List Output
  deriving DecidableEq, Repr

/-- The host link (R196, R192, R105). -/
inductive HostLink where
  | reset | l0 | down | l23Ready | l2
  deriving DecidableEq, Repr

/-- The endpoint: link, Resizable BAR size (log2 bytes), SR-IOV, VF tenants with kept state (R535), LTR (last value, last time), PTM (offset, the last eight offsets, LOCKED and last exchange failed, rate). -/
structure Endpoint where
  fns : Tbl FnState
  link : HostLink
  bar2Log2 : Nat
  ari : Bool
  numVfs : Nat
  vfEnable : Bool
  keptVfs : List Nat
  ltrLast : Nat
  ltrAt : Option Nat
  ptmOffset : DWord
  ptmHist : List DWord
  ptmStatus : BitVec 3
  ptmRate : BitVec 9
  vfBars : Tbl Word
  deriving DecidableEq, Repr

/-- Containment (R195-R201, R536, R537): device flag and cause bits, both PLLs of HC or FB lost, the TAP's takeover, port and link cause bytes, the links whose peer still sends a wrong VERSION (R459), each tenant's first cause (0 not contained), refused releases, whether a surprise link down still awaits VF Enable (R535), and whether an accepted device release is under way. -/
structure Contain where
  dev : Bool
  devCause : BitVec 6
  pllLost : Bool
  tapTakeover : Bool
  ports : Tbl Nat
  links : Tbl Nat
  linkVersion : List Nat
  tenants : Tbl Nat
  relErr : BitVec 9
  linkWasDown : Bool
  releasing : Bool
  deriving DecidableEq, Repr

/-! ## Windows, held reads, liquor, tally (09, 14) -/

/-- A host request held in HC while a commit runs (R214) or a domain wakes (R96). -/
inductive HostReq where
  | write (fn off : Nat) (data : List Byte) (be : List Bool)
  | read (fn rid off : Nat) (be : List Bool)
  deriving DecidableEq, Repr

/-- A window commit in progress (R214, R215): the range, the result and window its check gave, the shadow writes and host requests held behind it. -/
structure Commit where
  first : Nat
  last : Nat
  result : Nat
  bad : Nat
  shadows : List (Nat × Word)
  reqs : List HostReq
  deriving DecidableEq, Repr

/-- The windows (R203-R216): shadow and working copies by word number 8w + i, the UNREACHABLE flags, the commit in progress. -/
structure Windows where
  shadow : Tbl Word
  work : Tbl Word
  unreach : List Nat
  commit : Option Commit
  deriving DecidableEq, Repr

/-- Where a read stands (R26, R353): waiting for late-pool room, at the target, waiting at LT for another read's data, returned. -/
inductive HeldStage where
  | room | target | due | back
  deriving DecidableEq, Repr

/-- A byte taken from the buffer by a read that has not ended, with what restores it (R352, R354). -/
structure KeptByte where
  data : Byte
  arrival : Nat
  expires : Nat
  pool : Nat
  reason : Nat
  deriving DecidableEq, Repr

/-- Whose read it is: a host request of a function, or the pan segment in a slot with its push order. -/
inductive ReadWho where
  | host (fn rid : Nat)
  | seg (slot order : Nat)
  deriving DecidableEq, Repr

/-- A read of a rack or link target through LT: a held host read or a pan segment read (R26, R206, R217, R218, R353, R354). `haddr`, `hlen` are the request before the ENDIAN exchange; `want` marks the requested bytes from `addr` in the target space; `kept` holds bytes taken from the buffer, by place in `want`; `asked` lists the addresses read at the target, unrequested ones of a widened read among them; `lines` the late lines and `wideLines` the lines reserved for its unrequested bytes; `stale` the ranges a write has marked (R356); `ended` is set when the requester has its answer and the cycle in progress still runs (the reason code of R352, or 1: its bytes are dropped); `dueOn` the reads whose bytes it waits for. -/
structure HeldRead where
  uid : Nat
  who : ReadWho
  tenant : Nat
  target : Nat
  haddr : Nat
  hlen : Nat
  addr : Nat
  space : Nat
  width : Nat
  endian : Nat
  cls : Nat
  prefetch : Nat
  region : Nat
  want : List Bool
  kept : List (Option KeptByte)
  asked : List Nat
  lines : Nat
  wideLines : Nat
  stale : List (Nat × Nat)
  stage : HeldStage
  res : Option AccEnd
  ended : Nat
  accepted : Nat
  dueOn : List Nat
  deriving DecidableEq, Repr

/-- One retained byte with its arrival time and expiry (R355). -/
structure LiqByte where
  off : Nat
  data : Byte
  arrival : Nat
  expires : Nat
  deriving DecidableEq, Repr

/-- A liquor line (R351): tag, pool (0 late, 1 protected, 2 general), reason code of R352, and its valid bytes in ascending offset. -/
structure LiqLine where
  tenant : Nat
  gen : Nat
  target : Nat
  space : Nat
  line : Nat
  pool : Nat
  reason : Nat
  bytes : List LiqByte
  deriving DecidableEq, Repr

/-- A discard log entry (R359). -/
structure DlogEntry where
  time : Nat
  line : Nat
  tenant : Nat
  target : Nat
  space : Nat
  reason : Nat
  fate : Nat
  rclass : Nat
  bytes : Nat
  rep : Nat
  deriving DecidableEq, Repr

/-- The liquor buffer (R351-R361): lines, each tenant's generation, the discard log and its count, and the orphan tags of a twin takeover. -/
structure Liquor where
  lines : List LiqLine
  gens : Tbl Nat
  dlog : Tbl (Option DlogEntry)
  dlogCount : Nat
  orphans : List (Nat × Nat × Nat × Nat × Bool)
  deriving DecidableEq, Repr

/-- A kept failure (R368) or a latched one (R370), and whether a flood write's. -/
structure Kept where
  ticket : Nat
  cs : Nat
  addr : Nat
  target : Nat
  space : Nat
  flood : Bool
  deriving DecidableEq, Repr

/-- An issued ticket that has not settled (R362, R371), with its target address, where its write came from (stop), whether the write is a flood write, and whether an FLR or a wider reset has detached it (0 attached, 1 FLR: R129, 2 wider reset: R374). -/
structure Unsettled where
  ticket : Nat
  addr : Nat
  target : Nat
  space : Nat
  flood : Bool
  detached : Nat
  deriving DecidableEq, Repr

/-- A write that waits for a ledger entry (R366, R540), in the order in which it began to wait: a window write in the staging queue, or a pan segment's write. -/
inductive Waiter where
  | window (a : Acc)
  | seg (slot : Nat)
  deriving DecidableEq, Repr

/-- One tenant's tally (R364-R370, R376). -/
structure TallyT where
  issued : Nat
  floor : Nat
  ack : Nat
  quota : Nat
  kept : List Kept
  overflow : Bool
  unsettled : List Unsettled
  waiters : List Waiter
  latchValid : Bool
  latchMore : Bool
  latched : Kept
  deriving DecidableEq, Repr

/-- A waiting settle fence (R371): its tenant and ticket, its limit, the mailbox or queue that waits, CLAMPED. -/
structure Fence where
  id : Nat
  tenant : Nat
  n : Nat
  limitAt : Nat
  mb : Option Nat
  queue : Option (Nat × Nat)
  clamped : Bool
  deriving DecidableEq, Repr

/-- The tally ledger (R364): tenants, fences (oldest first), the next fence number, PRIV holders. -/
structure Tally where
  t : Tbl TallyT
  fences : List Fence
  nextFence : Nat
  priv : List Nat
  deriving DecidableEq, Repr

/-! ## Power domains and tide watch (04) -/

/-- States of a domain (R102 PWR_DOM_STATE). -/
inductive DomSt where
  | off | waking | on | holdoff | draining | entering | disabled
  deriving DecidableEq, Repr

/-- What waits for a domain to wake (R96): a translated access, a register write or read, a debug access. -/
inductive HeldAcc where
  | acc (a : Acc)
  | regWrite (fn off : Nat) (wide : Bool) (v : DWord)
  | regRead (fn off : Nat) (wide : Bool)
  | debug (weir addr space : Nat) (write : Option Word)
  deriving DecidableEq, Repr

/-- One domain (R89-R101): state, DISABLED reason, the client IDs holding votes (ascending), the clients of the temporary votes (one entry per access), held accesses, the refusal log (newest first: client, reason, µs) and the number of entries ever written to it, the deadline of holdoff, drain, entry or wake, and the mailbox whose soft request drains, and whether that request waits for a wake to end. -/
structure Dom where
  st : DomSt
  reason : Nat
  votes : List Nat
  temp : List Nat
  held : List HeldAcc
  log : List (Nat × Nat × Nat)
  logCount : Nat
  until_ : Nat
  drainMb : Option Nat
  drainWait : Bool
  deriving DecidableEq, Repr

/-- Power control: the domains, the ramp queue in order of arrival (R97), present domains. -/
structure Power where
  dom : Tbl Dom
  ramp : List Nat
  absent : List Nat
  deriving DecidableEq, Repr

/-- A watch point with its debounce count and previous sample (R106). -/
structure TidePt where
  w0 : Word
  w1 : Word
  w2 : Word
  w3 : Word
  count : Nat
  prev : Option Word
  deriving DecidableEq, Repr

/-- Tide watch (R102-R111): armed, in tide watch, entry under way, period, points, frozen region timeouts, the wake record. -/
structure Tide where
  armed : Bool
  active : Bool
  entering : Bool
  period : Nat
  points : List TidePt
  frozen : List (Nat × Nat × Nat)
  cause : Word
  value : Word
  matched : DWord
  woke : Bool
  deriving DecidableEq, Repr

/-! ## Weirs (18) -/

/-- The weirs: region words by weir·1024 + region·16 + word, default actions, and the lock bits as weir·64 + region. -/
structure Weirs where
  rgn : Tbl Word
  dflt : Tbl Nat
  locked : List Nat
  deriving DecidableEq, Repr

/-! ## Queues and pans (10, 11) -/

/-- Queue states (R268 QCX_STATE). -/
inductive QState where
  | free | active | halted | disabled | resetting
  deriving DecidableEq, Repr

/-- One end of a segment (R277): host memory (with the ENDIAN of a loopback window, R211), a translated rack or link address, or nothing (a FILL's source). -/
inductive Endpt where
  | host (addr endian : Nat)
  | rack (target addr space width endian cls prefetch region : Nat)
  | none
  deriving DecidableEq, Repr

/-- A segment cut and not yet pushed (R233-R237). -/
structure SegPlan where
  off : Nat
  len : Nat
  src : Endpt
  dst : Endpt
  pinned : Bool
  deriving DecidableEq, Repr

/-- A descriptor fetched and not released (R272-R287): INDEX, its address, its fields, the segments still to push, the pieces pushed and not done (offset, length, pinned), pieces done (offset, length, ticket), failures (offset, cs, address, residual, beat), whether its half entry is written, its fence, its final CS and RESIDUAL when decided, whether it is ORDERED or has a pinned segment, the span it belongs to, whether it stands for a fetch that failed, and whether its deferral (R246) has been counted. -/
structure Desc where
  uid : Nat
  index : Nat
  addr : Nat
  opcode : Nat
  flags : Nat
  len : Nat
  next : Nat
  settleN : Nat
  op0 : Nat
  op1 : Nat
  toPush : List SegPlan
  inPans : List (Nat × Nat × Bool)
  done : List (Nat × Nat × Nat)
  fails : List (Nat × Nat × Nat × Nat)
  halfDone : Bool
  fence : Option Nat
  final : Option (Nat × Nat)
  ordered : Bool
  pinnedAny : Bool
  span : Option Nat
  fetchFail : Bool
  deferred : Bool
  deriving DecidableEq, Repr

/-- A span (R284): its number, bytes, whether its end has been fetched, bytes released, whether its half has been marked. -/
structure Span where
  id : Nat
  total : Nat
  ended : Bool
  released : Nat
  half : Bool
  deriving DecidableEq, Repr

/-- A queue context (R266-R268, R273, R274, R282-R285) and the front end's account of the queue: spans fetched and not wholly released, the next address of a chain, the fetch in flight (tag, address, descriptors; 0 for a reread of NEXT). -/
structure QCtx where
  st : QState
  chain : Bool
  cont : Bool
  homeOnly : Bool
  bed : Nat
  pin : Nat
  tenant : Nat
  depth : Nat
  dbIdx : Nat
  ring : Nat
  ringLog2 : Nat
  head : Nat
  tail : Nat
  relIdx : Nat
  cur : Nat
  cq : Nat
  cqLog2 : Nat
  cqTail : Nat
  phase : Bool
  cqHead : Nat
  vec : Nat
  cnt : Nat
  timer : Nat
  chainLimit : Nat
  hwm : Nat
  spans : List Span
  descCnt : Nat
  bytes : Nat
  faultCs : Nat
  faultAddr : Nat
  faultDesc : Nat
  chainCount : Nat
  nextA : Nat
  started : Bool
  parked : Bool
  owed : Bool
  fetching : Option (Nat × Nat × Nat)
  descs : List Desc
  halting : Bool
  stalled : Bool
  irqPend : Nat
  irqAt : Nat
  lastPos : Nat
  nextUid : Nat
  needReset : Bool
  mirrorWait : Bool
  disableAsked : Bool
  deriving DecidableEq, Repr

/-- A slot of a bed (R231, R232): the segment record, its progress and its buffer. Key: (bed·16 + position)·32 + slot. `order` is the push or move order (smaller is older); `rd` counts the bytes ready to be written, `wr` those written; `buf` holds what has come; `rackBack` holds the end of a read-modify-write until the pan takes it; `accepted` is set once its posted write has met its fate at the target stop, `sent` once that write has left, `readReq` while a host read of it is outstanding, `moving` while it is raked across beds. -/
structure Slot where
  busy : Bool
  queue : Nat
  uid : Nat
  off : Nat
  len : Nat
  tenant : Nat
  src : Endpt
  dst : Endpt
  pinned : Bool
  order : Nat
  started : Bool
  rd : Nat
  wr : Nat
  buf : List Byte
  rackBack : Option AccEnd
  waitEntry : Bool
  ticket : Nat
  accepted : Bool
  fail : Option (Nat × Nat × Nat)
  frozen : Bool
  cancelled : Bool
  moving : Option Nat
  readReq : Bool
  sent : Bool
  deriving DecidableEq, Repr

/-- A pan's own state (R263) beyond the spare map: STATE code, position served (31 none). -/
structure Pan where
  st : Nat
  pos : Nat
  deriving DecidableEq, Repr

/-- A bed (R264): lost, its advertised count, closed positions with their foster (position, foster), whether the spare's last completed test failed. -/
structure Bed where
  lost : Bool
  advertised : Nat
  closed : List (Nat × Nat)
  deriving DecidableEq, Repr

/-- The queue front end and the beds: contexts, slots, pans, beds, the push order counter, the cross-bed rakes outstanding (raking position, slots on the way). -/
structure Queues where
  ctx : Tbl QCtx
  slots : Tbl Slot
  pans : Tbl Pan
  beds : Tbl Bed
  orderNext : Nat
  xrakes : List (Nat × List Nat)
  deriving DecidableEq, Repr

/-! ## Ports (12, 13) -/

/-- Port states (R328 PA_STATUS). -/
inductive PortSt where
  | absent | outOfService | starting | inService | stopping | contained
  deriving DecidableEq, Repr

/-- The open master access on a port: the access, the cycles still to run (address, bytes), the address and length of the running cycle, the data read so far, retries, whether the cycle is open, its effective timeout, whether PROFILE_CLEAR has discarded its sample (R347), the sample of its first cycle and the longest interval between beats (R341). -/
structure OpenAcc where
  acc : Acc
  cur : Nat × Nat
  isOpen : Bool
  rest : List (Nat × Nat)
  got : List (Option Byte)
  retries : Nat
  delaying : Bool
  timeoutUs : Nat
  noSample : Bool
  sample : Option Nat
  beat : Nat
  deriving DecidableEq, Repr

/-- A delayed-read slot (R222): the four things a retry must match, the data or the error, and the host range. -/
structure DtSlot where
  used : Bool
  addr : Nat
  space : Nat
  width : Nat
  be : List Bool
  data : Option (List Byte)
  err : Nat
  tenant : Nat
  endian : Nat
  base : Nat
  haddr : Nat
  len : Nat
  expires : Nat
  deriving DecidableEq, Repr

/-- A rack-master read that holds the bus (R30, R221): its rack address and the bytes it asks for, the host range that holds them, and what has come. -/
structure HeldRack where
  addr : Nat
  space : Nat
  be : List Bool
  tenant : Nat
  endian : Nat
  base : Nat
  haddr : Nat
  len : Nat
  got : List Byte
  deriving DecidableEq, Repr

/-- A parallel port (R293-R326): service state, PORT_SERVICE commands that stop it or wait, bus ownership and requests, sampled lines, its accesses by arrival, the open access, the round-robin stop, the slave side, the arbiter, the interrupter, and the loaded personality. -/
structure Port where
  st : PortSt
  stopMb : Option Nat
  svcWait : List (Nat × Bool)
  owned : Bool
  ownedAt : Nat
  requesting : Bool
  releaseAsked : Bool
  sysctl : Bool
  sysfail : Bool
  acfail : Bool
  rackReset : Bool
  watched : List Nat
  waiting : List Acc
  opens : List OpenAcc
  rr : Nat
  held : Option HeldRack
  dt : Tbl DtSlot
  slv : Tbl Word
  grant : Option Nat
  sysreset : Bool
  irqRetry : List Nat
  loaded : Option (List Byte)
  persOk : Bool
  arbCtl : Word
  dir : BitVec 8
  oeN : BitVec 8
  deriving DecidableEq, Repr

/-- One complete sub-window of samples (R343), in sampling periods. -/
structure SubWin where
  min : Nat
  sum : Nat
  max : Nat
  beat : Nat
  deriving DecidableEq, Repr

/-- A region's timing profile and settings in force (R338, R343-R349). -/
structure Prof where
  w3 : Word
  w4 : Word
  w5 : Word
  part : List (Nat × Nat)
  subs : List SubWin
  t : Nat
  frozen : Bool
  level : Nat
  refMean : Nat
  refMax : Nat
  capped : Bool
  deriving DecidableEq, Repr

/-! ## Harvest and flood (15) -/

/-- Schedule states (R378); HELD is RUNNING while a cause of R409 holds its cycles. -/
inductive HarSt where
  | free | stopped | running
  deriving DecidableEq, Repr

/-- A cycle in progress (R394, R398): start, whether flood applies and its CS, the flood bytes, the accesses still to issue per target (target, flood, index), those issued, the points that failed, those that changed, the transitions recorded with the 64th record held back, the flood image in force from its lowest byte, the PTM offset while LOCKED. -/
structure HarCycle where
  start : Nat
  todo : List (Nat × Bool × Nat)
  issued : List (Nat × Bool × Nat)
  fails : List (Nat × Nat)
  changed : List Nat
  trans : Nat
  failTrans : Bool
  held64 : Option EvRec
  out : List Byte
  outLow : Nat
  ptm : Option DWord
  floodApplied : Bool
  floodCs : Nat
  outSeq : Nat
  chgIrq : Bool
  overrun : Bool
  lastRet : Nat
  deriving DecidableEq, Repr

/-- The flood image read ahead of a cycle (R396, R398). -/
structure FloodRead where
  stage : Nat
  half : Nat
  seq : Nat
  bytes : List Byte
  base : Nat
  cs : Nat
  deriving DecidableEq, Repr

/-- A point's running state (R389, R391, R402): its reference, the v of the flood write on its way, whether it failed in its last cycle, the bytes of the frame moved so far. -/
structure PtState where
  ref : Option Int
  wrote : Option Int
  failing : Bool
  frame : List Byte
  deriving DecidableEq, Repr

/-- A schedule (R379, R380, R412). -/
structure Sched where
  st : HarSt
  tenant : Nat
  irqMode : Nat
  vec : Nat
  fill : Nat
  period : Nat
  phase : Nat
  lead : Nat
  hFirst : Nat
  hCap : Nat
  fFirst : Nat
  fCap : Nat
  image : Nat
  half : Nat
  outBase : Nat
  outSize : Nat
  hasFlood : Bool
  atRisk : Bool
  infeasible : Bool
  budget : Nat
  load : Nat
  gen : Nat
  lastStart : Nat
  missed : Nat
  missRun : Bool
  missIrq : Bool
  lastDur : Nat
  lastFail : Nat
  lastCs : Nat
  firstFail : Nat
  durMax : Nat
  skipping : Bool
  startedAt : Nat
  cycle : Option HarCycle
  flood : Option FloodRead
  deriving DecidableEq, Repr

/-- The harvest engine: schedules, point entry words (entry·8 + word), loaded entries, point states, routes (port·64 + region → four words), the answer each target has returned, the flood writes held for a ledger entry per target (schedule, index, limit), and the targets with an access outstanding (R399). -/
structure Harvest where
  sched : Tbl Sched
  pt : Tbl Word
  loaded : Tbl Bool
  ptSt : Tbl PtState
  routes : Tbl (List Word)
  back : Tbl (Option (Nat × Bool × Nat × AccEnd))
  floodWait : Tbl (Option (Nat × Nat × Nat))
  busy : List Nat
  deriving DecidableEq, Repr

/-! ## Lanes and links (16, 17) -/

/-- Lane states (R433 LAN_STATUS). -/
inductive LaneSt where
  | off | detect | train | bitLock | blockLock | caps | active | spare | ei | loop | recover | failed
  deriving DecidableEq, Repr

/-- A lane (R413-R433). -/
structure Lane where
  st : LaneSt
  logical : Nat
  inverted : Bool
  peer : Bool
  detects : Nat
  frozen : Bool
  verifying : Bool
  rate : Nat
  peerPhys : Nat
  peerLocked : Bool
  code : Nat
  verified : Nat
  initial : Nat
  dirty : Bool
  okWindows : Nat
  density : Nat
  losses : List Nat
  deriving DecidableEq, Repr

/-- Session states of a link (R462 ULI_STATUS). -/
inductive UliSt where
  | absent | outOfService | waiting | init | up | held | contained
  deriving DecidableEq, Repr

/-- A message waiting to enter the stream (R446), with its class (0 posted, 1 non-posted, 2 completion, 3 management) and, for a request, its access and the offset of its next message in it. -/
structure TxMsg where
  cls : Nat
  bytes : List Byte
  req : Option Acc
  off : Nat
  deriving DecidableEq, Repr

/-- A request of a link in the stream (R454): its tag, its access and which of its bytes it moves, its deadline, and its end once it has one while others of the access are open. -/
structure UliReq where
  tag : Nat
  acc : Acc
  off : Nat
  len : Nat
  deadline : Nat
  res : Option AccEnd
  deriving DecidableEq, Repr

/-- A received message (R447). -/
structure RxMsg where
  mtype : Nat
  tag : Nat
  status : Nat
  beat : Nat
  addr : Nat
  data : List Byte
  deriving DecidableEq, Repr

/-- A link: lanes' side (state, width, spare, map, rate, the offer and controls in force since bring-up, swap and narrowing in progress, loop, the sender ID once redrawn) and the link layer's side (session, sequence numbers, replay, credits, messages, requests). -/
structure Link where
  lst : LaneSt
  width : Nat
  spare : Nat
  map : List Nat
  rate : Nat
  offer : Nat
  mapping : Bool
  farLoop : Bool
  loopMode : Nat
  loopMask : Nat
  loopMb : Option Nat
  swap : Option (Nat × Nat × Bool)
  narrowing : Bool
  fails : Nat
  detectAt : Nat
  capsSeen : List (Fin 5 × CapsBlock)
  idleFrom : Nat
  eiIdle : Bool
  eiAsked : Bool
  noPeerLogged : Bool
  peerLoopOk : Bool
  st : UliSt
  svcMb : Option Nat
  stopMb : Option Nat
  retrainMb : Option Nat
  session : Nat
  ownSession : Nat
  peerSession : Nat
  initSent : Bool
  gotInit : Option InitFlit
  peerVersion : Nat
  peerRole : Nat
  peerId : Option Word
  rxNext : Nat
  txNext : Nat
  unacked : Nat
  replays : Nat
  nakFor : Option (Nat × Nat)
  ackOwed : Bool
  peerReplayCap : Nat
  limits : List Nat
  used : List Nat
  freed : List Nat
  ownFreed : List Nat
  txQ : List TxMsg
  rxPart : List Byte
  rxMsgs : List RxMsg
  reqs : List UliReq
  quar : List Nat
  nextTag : Nat
  holdUntil : Nat
  stalled : Bool
  ownId : Option Word
  maxLen : Nat
  deriving DecidableEq, Repr

/-! ## Twin mode (19) -/

/-- Twin states (R499). -/
inductive TwinSt where
  | single | forming | formed | disagree | fenced | survivor
  deriving DecidableEq, Repr

/-- What waits for a mirror acknowledgement (R484): a write with its ticket, the read or read-modify-write of a pan slot with its push order, a completion release, a queue command of a mailbox with its queue, and a queue's halt (0), disable (1) or resume (2). -/
inductive MirrorHold where
  | write (a : Acc)
  | slotRead (slot order : Nat)
  | release (q : Nat)
  | cmd (mb q : Nat)
  | queueOp (q op : Nat)
  deriving DecidableEq, Repr

/-- The twin engine (R475-R499). `lead`, `unsync`: tenants. `holds`: what waits for an acknowledgement, with its sequence number and since when. `mirror`: the records received for followed tenants, oldest first. `roleAsked`: PF0's TWIN_ROLE_SET waits for the partner to take its map (R482). `inactive`: the slave regions (16 port + region), interrupt routes (32 + 8 port + level) and notify routes (48 + link) that a dissolved pair leaves inactive until PF0 writes them (R497). -/
structure Twin where
  st : TwinSt
  offering : Bool
  formMb : Option Nat
  lead : List Nat
  unsync : List Nat
  partner : List Byte
  partnerEpoch : Nat
  timeOffset : DWord
  skew : Int
  skewFlag : Bool
  silence : Bool
  silenceAt : Nat
  reason : Nat
  helloSent : Bool
  mirrorSeq : Nat
  ackedSeq : Nat
  appliedSeq : Nat
  holds : List (Nat × Nat × MirrorHold)
  mirror : List MirrorRec
  formSeq : Option Nat
  pendingLead : Option (List Nat)
  roleAsked : Bool
  partnerDone : Bool
  hbSeq : Nat
  hbCount : Word
  hbFailed : Bool
  partnerCell : Option Word
  cellReadOk : Bool
  cellMoved : Bool
  guard : Bool
  inactive : List Nat
  deriving DecidableEq, Repr

/-! ## Spares (20), debug (06) -/

/-- Spares and wear: bounds in force (words of R505), FORBID and HELD units (kind·2^24 + index), lane margins of the last scan, lanes below bound last time, the times of a row's corrected errors within 24 h (macro·65536 + row), the macros whose SRAM_REPAIR_FULL is written, the device time of a unit's last measurement with the number taken, the last decision, and the day's lowest degradation of each island. -/
structure Spares where
  bounds : List Word
  forbid : List Nat
  heldUnits : List Nat
  laneEye : Tbl Nat
  laneLow : List Nat
  rowErrs : Tbl (List Nat)
  rowFull : List Nat
  meas : Tbl (Nat × Nat)
  last : Word
  dayLow : Tbl Nat
  deriving DecidableEq, Repr

/-- The debug port and the TAP (R147-R151). -/
structure Debug where
  isOpen : Bool
  expires : Option Nat
  session : Bool
  takeover : Bool
  votes : List Nat
  deriving DecidableEq, Repr

/-! ## The machine -/

/-- The state of the IKP4416. -/
structure State where
  /-- The commands that wait, first in, first out. -/
  pending : List Instr
  /-- The device time base in ns (R188). -/
  now : Nat
  /-- The model's own counter: the argument of the free values. -/
  fresh : Nat
  /-- What the device has put on its ports, newest first. -/
  out : List Output
  /-- Registers with no structure of their own and every RC counter, by PF0 BAR0 offset; a register that only VF n reaches is at 2^32 n plus its VF BAR0 offset, the TAP mailbox's at 65 * 2^32 plus the offset in its mailbox (R3, R529). -/
  regs : Tbl Word
  /-- The latched high words of 64-bit pairs (R5), by 2^32 fn plus the high word's offset. -/
  latch : Tbl (Option Word)
  pins : Pins
  mon : Monitors
  boot : Boot
  mram : Mram
  img : Image
  her : Herdin
  ep : Endpoint
  cont : Contain
  win : Windows
  /-- Held host reads, oldest first. -/
  reads : List HeldRead
  liq : Liquor
  tal : Tally
  pwr : Power
  tide : Tide
  weirs : Weirs
  qs : Queues
  ports : Tbl Port
  profs : Tbl Prof
  har : Harvest
  lanes : Tbl Lane
  links : Tbl Link
  twin : Twin
  spares : Spares
  dbg : Debug
  log : Log
  deriving DecidableEq, Repr

/-- Why a step stops with a fault. The spec gives every command of this block an effect or an answer, so no meaning raises one. -/
inductive Fault where
  /-- No command raises it: kept for a command the spec would leave without any effect. Safe: the model stops. -/
  | unspecified
  deriving DecidableEq, Repr

/-- Why a command is refused. -/
inductive Refusal where
  /-- Raised by an arm of `exec` whose command has no meaning yet. Safe: the model stops. -/
  | notModelled (mnemonic : String)
  deriving DecidableEq, Repr

/-! ## The state after reset

Every table is empty: an unlisted key reads as the default that Machine/Defaults.lean gives it, which is its value at reset. -/

/-- An empty image slot (no valid header). -/
def slotAtReset : ImgSlot := { bytes := ⟨[]⟩, valid := false }

/-- MRAM as the model takes a new part to hold it: no image, no key, life-cycle fuses clear, nothing retired. The spec keeps MRAM over every reset and gives no first contents (DESIGN CHOICE). -/
def mramAtReset : Mram :=
  { fwA := slotAtReset, fwB := slotAtReset, cfgA := slotAtReset, cfgB := slotAtReset
    boot := { fwActive := 0, fwPending := 1, trial := false, attempts := 0, cfgActive := 0 }
    minSec := 0, fuses := 0#3, erasing := false, keys := ⟨[]⟩, panState := ⟨[]⟩, panPos := ⟨[]⟩
    panPlan := 0, laneFailed := [], lanePlan := 0, mramRetired := [], rowsUsed := ⟨[]⟩, colsUsed := 0
    pllHc := false, pllFb := false, islandFailed := [], refs := [], wearAge := 0, wearHistory := []
    wearIsl := ⟨[]⟩, wearPan := ⟨[]⟩, mramWrites := ⟨[]⟩ }

/-- The machine right after PORST_N has risen and step 1 of R116 is complete: GLB_STATUS reads 1 (R130), every register holds its reset value, the rest of the boot is still to come (POWER_ON_RESET). -/
def State.reset : State :=
  { pending := [], now := 0, fresh := 0, out := [], regs := ⟨[]⟩, latch := ⟨[]⟩
    pins := { porst := true, perst := false, smbAddr := 0#2, wake := false, clkreqHeld := true
              alertMask := 0#4, alertPending := 0#4, alertAcked := false }
    mon := { mv := ⟨[]⟩, warned := [], faulted := [], temp := 200#16, warnThr := 800, tempWarned := false
             shutdown := false, internalReset := false }
    boot := { step := 1, entry := 1, fwSlot := 0, cfgSlot := 0, cfgDefaults := false, fwFallback := false
              cfgFallback := false, recovery := false, trialUnconfirmed := false, wdogRun := 0, began := 0
              awaitPerst := true, hostConfirm := false, factoryTest := false, powerOnPending := true }
    mram := mramAtReset, img := Image.factory
    her := { mb := ⟨[]⟩, queue := [], exec := none, fwSession := none, cfgSession := none, lastKind := 0 }
    ep := { fns := ⟨[]⟩, link := .reset, bar2Log2 := 30, ari := false, numVfs := 0, vfEnable := false
            keptVfs := [], ltrLast := 0, ltrAt := none, ptmOffset := 0, ptmHist := [], ptmStatus := 0#3
            ptmRate := 0#9, vfBars := ⟨[]⟩ }
    cont := { dev := false, devCause := 0#6, pllLost := false, tapTakeover := false, ports := ⟨[]⟩
              links := ⟨[]⟩, linkVersion := [], tenants := ⟨[]⟩, relErr := 0#9
              linkWasDown := false, releasing := false }
    win := { shadow := ⟨[]⟩, work := ⟨[]⟩, unreach := [], commit := none }
    reads := []
    liq := { lines := [], gens := ⟨[]⟩, dlog := ⟨[]⟩, dlogCount := 0, orphans := [] }
    tal := { t := ⟨[]⟩, fences := [], nextFence := 0, priv := [] }
    pwr := { dom := ⟨[]⟩, ramp := [], absent := [] }
    tide := { armed := false, active := false, entering := false, period := 0, points := [], frozen := []
              cause := 0, value := 0, matched := 0, woke := false }
    weirs := { rgn := ⟨[]⟩, dflt := ⟨[]⟩, locked := [] }
    qs := { ctx := ⟨[]⟩, slots := ⟨[]⟩, pans := ⟨[]⟩, beds := ⟨[]⟩, orderNext := 0, xrakes := [] }
    ports := ⟨[]⟩, profs := ⟨[]⟩
    har := { sched := ⟨[]⟩, pt := ⟨[]⟩, loaded := ⟨[]⟩, ptSt := ⟨[]⟩, routes := ⟨[]⟩, back := ⟨[]⟩
             floodWait := ⟨[]⟩, busy := [] }
    lanes := ⟨[]⟩, links := ⟨[]⟩
    twin := { st := .single, offering := false, formMb := none, lead := [], unsync := [], partner := []
              partnerEpoch := 0, timeOffset := 0, skew := 0, skewFlag := false, silence := false
              silenceAt := 0, reason := 0, helloSent := false, mirrorSeq := 0, ackedSeq := 0, appliedSeq := 0
              holds := [], mirror := [], formSeq := none, pendingLead := none, roleAsked := false, partnerDone := false, hbSeq := 0, hbCount := 0
              hbFailed := false, partnerCell := none, cellReadOk := false, cellMoved := false, guard := false
              inactive := [] }
    spares := { bounds := factoryBounds, forbid := [], heldUnits := [], laneEye := ⟨[]⟩, laneLow := []
                rowErrs := ⟨[]⟩, rowFull := [], meas := ⟨[]⟩, last := 0, dayLow := ⟨[]⟩ }
    dbg := { isOpen := false, expires := none, session := false, takeover := false, votes := [] }
    log := { ring := ⟨[]⟩, seq := 0, fok := ⟨[]⟩, fokOrder := [], waiting := [], dropsOwed := 0
             rates := ⟨[]⟩, recovered := false, ready := false } }

end Sys2Proof.Machine
end

