-- ==== Sys2Proof/Machine/Defaults.lean ====
section
/-! DEFINITION. What an unlisted entry of each table of the state reads as: its value at reset. -/

namespace Sys2Proof.Machine

/-- A tenant's key slot at manufacture: no key (R139). -/
def keyInit (_ : Nat) : KeySlot := { key := none, counter := 0, fails := 0, lockouts := 0, lockedUntil := 0 }

/-- A mailbox at reset: HRD_STATUS reads 1, BOOTING (R155, R156). -/
def mbInit (_ : Nat) : Mailbox :=
  { req := ⟨[]⟩, rsp := [], st := .booting, held := false, seq := 0, cmd := none, err := 0#2 }

/-- A masked, empty MSI-X vector (PCI Express Base Specification: the mask bit is set at reset). -/
def vecInit (_ : Nat) : Vec := { addr := 0, data := 0, mask := true, pend := false }

/-- A function's configuration space at reset. The Uncorrectable Error Severity default is the PCI Express Base Specification's, in which the errors that R186 calls fatal are. -/
def fnInit (_ : Nat) : FnState :=
  { memSpace := false, busMaster := false, extTag := false, tenBit := false, cto := 0, ptmEnable := false
    pmeEn := false, pmeStatus := false, severity := 0x00462030#32, corr := 0, uncorr := 0, d3hot := false
    flr := false, tags := [], quar := [], vecs := ⟨[]⟩, msixEnable := false
    fnMask := false, msiEnable := false, msiMsgs := 1, msiMask := 0, msiPend := 0, mrrs := 512, bars := ⟨[]⟩, heldOut := [] }

/-- A domain at reset: the domains that no vote covers are on, the votable ones (4-15) off (R88, R90, R116 step 2). -/
def domInit (d : Nat) : Dom :=
  { st := if 4 ≤ d ∧ d ≤ 15 then .off else .on, reason := 0, votes := [], temp := [], held := [], log := [], logCount := 0
    until_ := 0, drainMb := none, drainWait := false }

/-- A supply's nominal in mV (R67): VDD_CORE, VDD_AO, VDDA_HS, VDDH_HS, VDD_18, VDD_NV; a bank 3.3 V, the factory declaration. -/
def mvInit (k : Nat) : Nat :=
  match k with
  | 0 => 750 | 1 => 800 | 2 => 850 | 3 => 1200 | 4 => 1800 | 5 => 1800 | _ => 3300

/-- A port at reset: out of service, pins in their reset states (R49, R51, R328). -/
def portInit (_ : Nat) : Port :=
  { st := .outOfService, stopMb := none, svcWait := [], owned := false, ownedAt := 0, requesting := false
    releaseAsked := false, sysctl := false, sysfail := false, acfail := false
    rackReset := false, watched := [], waiting := [], opens := [], rr := 0, held := none, dt := ⟨[]⟩
    slv := ⟨[]⟩, grant := none, sysreset := false, irqRetry := [], loaded := none
    persOk := false, arbCtl := 0x1000#32, dir := 0#8, oeN := 0xFF#8 }

/-- An unused delayed-read slot (R222). -/
def dtInit (_ : Nat) : DtSlot :=
  { used := false, addr := 0, space := 0, width := 0, be := [], data := none, err := 0, tenant := 0
    endian := 0, base := 0, haddr := 0, len := 0, expires := 0 }

/-- A region's profile and settings with no table: TIMEOUT 100 µs (R338); cold (R344). -/
def profInit (_ : Nat) : Prof :=
  { w3 := 0, w4 := 100#32, w5 := 0, part := [], subs := [], t := 0, frozen := false, level := 0, refMean := 0
    refMax := 0, capped := false }

/-- A free schedule (R378, R412). -/
def schedInit (_ : Nat) : Sched :=
  { st := .free, tenant := 0, irqMode := 0, vec := 0, fill := 0, period := 0, phase := 0, lead := 0, hFirst := 0
    hCap := 0, fFirst := 0, fCap := 0, image := 0, half := 0, outBase := 0, outSize := 0, hasFlood := false
    atRisk := false, infeasible := false, budget := 0, load := 0, gen := 0, lastStart := 0, missed := 0
    missRun := false, missIrq := false, lastDur := 0, lastFail := 0, lastCs := 0, firstFail := 0xFFFFFFFF, durMax := 0, skipping := false
    startedAt := 0, cycle := none, flood := none }

/-- A harvest point that has not run (R389, R402). -/
def ptInit (_ : Nat) : PtState := { ref := none, wrote := none, failing := false, frame := [] }

/-- A tenant's tally at reset (R363, R364, R376): no ticket issued; factory quota 512 for tenant 0 and 48 for a VF. -/
def tallyInit (t : Nat) : TallyT :=
  { issued := 0, floor := 0, ack := 0, quota := if t = 0 then 512 else 48, kept := [], overflow := false
    unsettled := [], waiters := [], latchValid := false, latchMore := false
    latched := { ticket := 0, cs := 0, addr := 0, target := 0, space := 0, flood := false } }

/-- A free queue context (R268): every word 0 but QCX_CHAIN_LIMIT. -/
def qctxInit (_ : Nat) : QCtx :=
  { st := .free, chain := false, cont := false, homeOnly := false, bed := 0, pin := 0, tenant := 0, depth := 0
    dbIdx := 0, ring := 0, ringLog2 := 0, head := 0, tail := 0, relIdx := 0, cur := 0, cq := 0, cqLog2 := 0
    cqTail := 0, phase := false, cqHead := 0, vec := 0, cnt := 0, timer := 0, chainLimit := 0x10000, hwm := 0
    spans := [], descCnt := 0
    bytes := 0, faultCs := 0, faultAddr := 0, faultDesc := 0, chainCount := 0, nextA := 0, started := false
    parked := false, owed := false, fetching := none, descs := [], halting := false, stalled := false
    irqPend := 0, irqAt := 0, lastPos := 0, nextUid := 0, needReset := false, mirrorWait := false, disableAsked := false }

/-- A free slot (R232). -/
def slotInit (_ : Nat) : Slot :=
  { busy := false, queue := 0, uid := 0, off := 0, len := 0, tenant := 0, src := .none, dst := .none
    pinned := false, order := 0, started := false, rd := 0, wr := 0, buf := [], rackBack := none
    waitEntry := false, ticket := 0, accepted := false, fail := none, frozen := false, cancelled := false
    moving := none, readReq := false, sent := false }

/-- A pan as made (R262, R263): pan 17b + i serves position i; 17b + 16 is the spare and serves none (31). -/
def panInit (p : Nat) : Pan := { st := 0, pos := if p % 17 = 16 then 31 else p % 17 }

/-- A bed as made (R264). -/
def bedInit (_ : Nat) : Bed := { lost := false, advertised := 0, closed := [] }

/-- A lane at reset: OFF, no logical lane (LAN_STATUS 0x70, R433). -/
def laneInit (_ : Nat) : Lane :=
  { st := .off, logical := 7, inverted := false, peer := false, detects := 0, frozen := false, verifying := false
    rate := 0, peerPhys := 0, peerLocked := false, code := 0, verified := 0, initial := 0, dirty := false
    okWindows := 0, density := 0, losses := [] }

/-- A link at reset: OFF, no spare (LAN_LINK_STATUS 0x700, R433), out of service with no session (R462). -/
def linkInit (_ : Nat) : Link :=
  { lst := .off, width := 0, spare := 7, map := [], rate := 0, offer := 0, mapping := false, farLoop := false
    loopMode := 0, loopMask := 0, loopMb := none, swap := none, narrowing := false, fails := 0, detectAt := 0
    capsSeen := [], idleFrom := 0, eiIdle := false, eiAsked := false, noPeerLogged := false, peerLoopOk := false, st := .outOfService
    svcMb := none, stopMb := none, retrainMb := none, session := 0, ownSession := 0, peerSession := 0
    initSent := false, gotInit := none, peerVersion := 0, peerRole := 0, peerId := none, rxNext := 0, txNext := 0
    unacked := 0, replays := 0, nakFor := none, ackOwed := false, peerReplayCap := 0, limits := [], used := []
    freed := [], ownFreed := [], txQ := [], rxPart := [], rxMsgs := [], reqs := [], quar := [], nextTag := 0
    holdUntil := 0, stalled := false, ownId := none, maxLen := 256 }

/-- A rate-limited key with nothing written (R531). -/
def rateInit (_ : Nat) : Rate := { interval := 0, written := 0, suppressed := 0 }

end Sys2Proof.Machine
end

