-- ==== Sys2Proof/Machine/Ops.lean ====
section
/-! DEFINITION. The named operations over the state: one reader and one writer per table and group, the registers, the outputs, the free values and the passing of time. Every meaning reads and writes the state through these. -/

namespace Sys2Proof.Machine

/-- The state of port `p` (0 A, 1 B). -/
def State.port (s : State) (k : Nat) : Port := Tbl.get portInit s.ports k

/-- Port `p` (0 A, 1 B) written. -/
def State.setPort (s : State) (k : Nat) (v : Port) : State := { s with ports := s.ports.set portInit k v }

/-- Port `p` (0 A, 1 B) changed. -/
def State.modPort (s : State) (k : Nat) (f : Port → Port) : State := s.setPort k (f (s.port k))

/-- The state of region profile `k` (port * 64 + region). -/
def State.prof (s : State) (k : Nat) : Prof := Tbl.get profInit s.profs k

/-- Region profile `k` (port * 64 + region) written. -/
def State.setProf (s : State) (k : Nat) (v : Prof) : State := { s with profs := s.profs.set profInit k v }

/-- Region profile `k` (port * 64 + region) changed. -/
def State.modProf (s : State) (k : Nat) (f : Prof → Prof) : State := s.setProf k (f (s.prof k))

/-- The state of lane `k` (R45). -/
def State.lane (s : State) (k : Nat) : Lane := Tbl.get laneInit s.lanes k

/-- Lane `k` (R45) written. -/
def State.setLane (s : State) (k : Nat) (v : Lane) : State := { s with lanes := s.lanes.set laneInit k v }

/-- Lane `k` (R45) changed. -/
def State.modLane (s : State) (k : Nat) (f : Lane → Lane) : State := s.setLane k (f (s.lane k))

/-- The state of link `k` (4 is the twin link). -/
def State.link (s : State) (k : Nat) : Link := Tbl.get linkInit s.links k

/-- Link `k` (4 is the twin link) written. -/
def State.setLink (s : State) (k : Nat) (v : Link) : State := { s with links := s.links.set linkInit k v }

/-- Link `k` (4 is the twin link) changed. -/
def State.modLink (s : State) (k : Nat) (f : Link → Link) : State := s.setLink k (f (s.link k))

/-- The state of mailbox `k` (65 is the TAP mailbox). -/
def State.mb (s : State) (k : Nat) : Mailbox := Tbl.get mbInit s.her.mb k

/-- Mailbox `k` (65 is the TAP mailbox) written. -/
def State.setMb (s : State) (k : Nat) (v : Mailbox) : State := { s with her := { s.her with mb := s.her.mb.set mbInit k v } }

/-- Mailbox `k` (65 is the TAP mailbox) changed. -/
def State.modMb (s : State) (k : Nat) (f : Mailbox → Mailbox) : State := s.setMb k (f (s.mb k))

/-- The state of function `k`. -/
def State.fn (s : State) (k : Nat) : FnState := Tbl.get fnInit s.ep.fns k

/-- Function `k` written. -/
def State.setFn (s : State) (k : Nat) (v : FnState) : State := { s with ep := { s.ep with fns := s.ep.fns.set fnInit k v } }

/-- Function `k` changed. -/
def State.modFn (s : State) (k : Nat) (f : FnState → FnState) : State := s.setFn k (f (s.fn k))

/-- The state of domain `k` (R87). -/
def State.dom (s : State) (k : Nat) : Dom := Tbl.get domInit s.pwr.dom k

/-- Domain `k` (R87) written. -/
def State.setDom (s : State) (k : Nat) (v : Dom) : State := { s with pwr := { s.pwr with dom := s.pwr.dom.set domInit k v } }

/-- Domain `k` (R87) changed. -/
def State.modDom (s : State) (k : Nat) (f : Dom → Dom) : State := s.setDom k (f (s.dom k))

/-- The state of tenant `k`'s tally. -/
def State.tally (s : State) (k : Nat) : TallyT := Tbl.get tallyInit s.tal.t k

/-- Tenant `k`'s tally written. -/
def State.setTally (s : State) (k : Nat) (v : TallyT) : State := { s with tal := { s.tal with t := s.tal.t.set tallyInit k v } }

/-- Tenant `k`'s tally changed. -/
def State.modTally (s : State) (k : Nat) (f : TallyT → TallyT) : State := s.setTally k (f (s.tally k))

/-- The state of queue `k`. -/
def State.q (s : State) (k : Nat) : QCtx := Tbl.get qctxInit s.qs.ctx k

/-- Queue `k` written. -/
def State.setQ (s : State) (k : Nat) (v : QCtx) : State := { s with qs := { s.qs with ctx := s.qs.ctx.set qctxInit k v } }

/-- Queue `k` changed. -/
def State.modQ (s : State) (k : Nat) (f : QCtx → QCtx) : State := s.setQ k (f (s.q k))

/-- The state of bed slot `k` ((bed * 16 + position) * 32 + slot). -/
def State.slot (s : State) (k : Nat) : Slot := Tbl.get slotInit s.qs.slots k

/-- Bed slot `k` ((bed * 16 + position) * 32 + slot) written. -/
def State.setSlot (s : State) (k : Nat) (v : Slot) : State := { s with qs := { s.qs with slots := s.qs.slots.set slotInit k v } }

/-- Bed slot `k` ((bed * 16 + position) * 32 + slot) changed. -/
def State.modSlot (s : State) (k : Nat) (f : Slot → Slot) : State := s.setSlot k (f (s.slot k))

/-- The state of pan `k`. -/
def State.pan (s : State) (k : Nat) : Pan := Tbl.get panInit s.qs.pans k

/-- Pan `k` written. -/
def State.setPan (s : State) (k : Nat) (v : Pan) : State := { s with qs := { s.qs with pans := s.qs.pans.set panInit k v } }

/-- Pan `k` changed. -/
def State.modPan (s : State) (k : Nat) (f : Pan → Pan) : State := s.setPan k (f (s.pan k))

/-- The state of bed `k`. -/
def State.bed (s : State) (k : Nat) : Bed := Tbl.get bedInit s.qs.beds k

/-- Bed `k` written. -/
def State.setBed (s : State) (k : Nat) (v : Bed) : State := { s with qs := { s.qs with beds := s.qs.beds.set bedInit k v } }

/-- Bed `k` changed. -/
def State.modBed (s : State) (k : Nat) (f : Bed → Bed) : State := s.setBed k (f (s.bed k))

/-- The state of schedule `k`. -/
def State.sched (s : State) (k : Nat) : Sched := Tbl.get schedInit s.har.sched k

/-- Schedule `k` written. -/
def State.setSched (s : State) (k : Nat) (v : Sched) : State := { s with har := { s.har with sched := s.har.sched.set schedInit k v } }

/-- Schedule `k` changed. -/
def State.modSched (s : State) (k : Nat) (f : Sched → Sched) : State := s.setSched k (f (s.sched k))

/-- The state of harvest point `k`. -/
def State.ptSt (s : State) (k : Nat) : PtState := Tbl.get ptInit s.har.ptSt k

/-- Harvest point `k` written. -/
def State.setPtSt (s : State) (k : Nat) (v : PtState) : State := { s with har := { s.har with ptSt := s.har.ptSt.set ptInit k v } }

/-- Harvest point `k` changed. -/
def State.modPtSt (s : State) (k : Nat) (f : PtState → PtState) : State := s.setPtSt k (f (s.ptSt k))

/-- The state of tenant `k`'s key slot. -/
def State.key (s : State) (k : Nat) : KeySlot := Tbl.get keyInit s.mram.keys k

/-- Tenant `k`'s key slot written. -/
def State.setKey (s : State) (k : Nat) (v : KeySlot) : State := { s with mram := { s.mram with keys := s.mram.keys.set keyInit k v } }

/-- Tenant `k`'s key slot changed. -/
def State.modKey (s : State) (k : Nat) (f : KeySlot → KeySlot) : State := s.setKey k (f (s.key k))

/-- The group `pins` changed. -/
def State.modPins (s : State) (f : Pins → Pins) : State := { s with pins := f s.pins }

/-- The group `mon` changed. -/
def State.modMon (s : State) (f : Monitors → Monitors) : State := { s with mon := f s.mon }

/-- The group `boot` changed. -/
def State.modBoot (s : State) (f : Boot → Boot) : State := { s with boot := f s.boot }

/-- The group `mram` changed. -/
def State.modMram (s : State) (f : Mram → Mram) : State := { s with mram := f s.mram }

/-- The group `her` changed. -/
def State.modHer (s : State) (f : Herdin → Herdin) : State := { s with her := f s.her }

/-- The group `ep` changed. -/
def State.modEp (s : State) (f : Endpoint → Endpoint) : State := { s with ep := f s.ep }

/-- The group `cont` changed. -/
def State.modCont (s : State) (f : Contain → Contain) : State := { s with cont := f s.cont }

/-- The group `win` changed. -/
def State.modWin (s : State) (f : Windows → Windows) : State := { s with win := f s.win }

/-- The group `liq` changed. -/
def State.modLiq (s : State) (f : Liquor → Liquor) : State := { s with liq := f s.liq }

/-- The group `tal` changed. -/
def State.modTal (s : State) (f : Tally → Tally) : State := { s with tal := f s.tal }

/-- The group `pwr` changed. -/
def State.modPwr (s : State) (f : Power → Power) : State := { s with pwr := f s.pwr }

/-- The group `tide` changed. -/
def State.modTide (s : State) (f : Tide → Tide) : State := { s with tide := f s.tide }

/-- The group `weirs` changed. -/
def State.modWeirs (s : State) (f : Weirs → Weirs) : State := { s with weirs := f s.weirs }

/-- The group `qs` changed. -/
def State.modQs (s : State) (f : Queues → Queues) : State := { s with qs := f s.qs }

/-- The group `har` changed. -/
def State.modHar (s : State) (f : Harvest → Harvest) : State := { s with har := f s.har }

/-- The group `twin` changed. -/
def State.modTwin (s : State) (f : Twin → Twin) : State := { s with twin := f s.twin }

/-- The group `spares` changed. -/
def State.modSpares (s : State) (f : Spares → Spares) : State := { s with spares := f s.spares }

/-- The group `dbg` changed. -/
def State.modDbg (s : State) (f : Debug → Debug) : State := { s with dbg := f s.dbg }

/-- The group `log` changed. -/
def State.modLog (s : State) (f : Log → Log) : State := { s with log := f s.log }

/-- The held host reads changed. -/
def State.modReads (s : State) (f : List HeldRead → List HeldRead) : State := { s with reads := f s.reads }

/-- A port register address: port A's block at 0x20_0000, port B's at 0x28_0000 (R524). -/
def paReg (p off : Nat) : Nat := 0x200000 + 0x80000 * p + off

/-- The reset value of a register held in `regs`, by PF0 BAR0 offset: 0 but for those listed, each as its register map gives it (R102, R130, R201, R230, R264, R265, R328, R375, R411, R433, R462, R499). -/
def regReset (k : Nat) : Word :=
  match k with
  | 0xC => 1#32                -- GLB_RESET_CAUSE
  | 0x454 => 0xA#32            -- HEP_PTM_CTL
  | 0x1000C => 100#32          -- PWR_HOLDOFF
  | 0x10010 => 1000#32         -- PWR_DRAIN_LIMIT
  | 0x4200C => 10000#32        -- WIN_HOLD_LIMIT
  | 0x42010 => 1000#32         -- WIN_DT_DISCARD_A
  | 0x42014 => 1000#32         -- WIN_DT_DISCARD_B
  | 0x188000 => 0x10408#32     -- PAN_RAKE_CTL
  | 0x1C0000 => 100#32         -- LIQ_WINDOW
  | 0x1C0100 => 100#32         -- TAL_FENCE_LIMIT
  | 0x300800 => 5#32           -- HAR_ALLOW_A
  | 0x300804 => 5#32           -- HAR_ALLOW_B
  | 0x50003C => 30#32          -- TWN_SILENCE
  | 0x500040 => 10#32          -- TWN_HB_PERIOD
  | 0x500044 => 40#32          -- TWN_HB_LIMIT
  | _ =>
    if k = paReg 0 0x08 ∨ k = paReg 1 0x08 then 0x64#32             -- PA_BUS_TIMER
    else if k = paReg 0 0x0C ∨ k = paReg 1 0x0C then 0x2710#32      -- PA_STUCK_LIMIT
    else if k = paReg 0 0x10 ∨ k = paReg 1 0x10 then 0x7D000#32     -- PA_SYSFAIL_CTL
    else if k = paReg 0 0x14 ∨ k = paReg 1 0x14 then 0x40#32        -- PA_RETRY_LIMIT
    else if k = paReg 0 0x18 ∨ k = paReg 1 0x18 then 0xC8#32        -- PA_SYSRESET_LEN
    else if 0x184000 ≤ k ∧ k < 0x184800 ∧ k % 0x100 = 0x14 then 3#32 -- BED_CTL
    else if 0x300810 ≤ k ∧ k < 0x300820 then 2000#32                -- HAR_LINK_ALLOW
    else if 0x401000 ≤ k ∧ k < 0x401140 then (if k % 0x40 = 8 then 0x32#32 else if k % 0x40 = 0xC then 0x800CD#32 else 0#32) -- LAN_LINK_CTL, LAN_ADAPT_CTL
    else if 0x402000 ≤ k ∧ k < 0x402500 then                        -- the RW registers of ULI_
      (match k % 0x100 with
      | 0x40 => 0x3E8#32
      | 0x44 => 0x14#32
      | 0x48 => 0x1388#32
      | 0x4C => 0x64#32
      | _ => 0#32)
    else 0#32

/-- A register word. -/
def State.reg (s : State) (k : Nat) : Word := Tbl.get regReset s.regs k

/-- A register word written. -/
def State.setReg (s : State) (k : Nat) (v : Word) : State := { s with regs := s.regs.set regReset k v }

/-- A counter increased by `n`, modulo 2^32 (R6 gives no bound; DESIGN CHOICE). -/
def State.addReg (s : State) (k n : Nat) : State := s.setReg k (s.reg k + w32 n)

/-- A counter increased by one. -/
def State.incReg (s : State) (k : Nat) : State := s.addReg k 1

/-- Something put on the device's ports. -/
def State.emit (s : State) (o : Output) : State := { s with out := o :: s.out }

/-- Several things put on the device's ports, in order. -/
def State.emits (s : State) (os : List Output) : State := os.foldl State.emit s

/-- The time base moved on to a moment, never back (R188). -/
def State.atTime (s : State) (t : Nat) : State := { s with now := max s.now t }

/-- The counter behind the free values advanced: the next free value is another one. -/
def State.bump (s : State) : State := { s with fresh := s.fresh + 1 }

/-- The counter advanced past `n` free values. -/
def State.bumpBy (s : State) (n : Nat) : State := { s with fresh := s.fresh + n }

/-- The free byte `i` of a response field whose place the spec does not give. -/
def State.freeBytes (s : State) (n : Nat) : List Byte := (List.range n).map fun i => Config.freeResponse (s.fresh + i)

/-- The block idle: one SYS_REFCLK period of 40 ns passes on the time base (R188; DESIGN CHOICE: the model's only clock tick). -/
def idleTick (s : State) : State := { s with now := s.now + 40 }

/-- The tenant of a function (R173): PF0 is tenant 0, VF n is tenant n; PF1 has none and is taken as 255. -/
def tenantOf (fn : Nat) : Nat := if fn = 0 then 0 else if fn = 1 then 255 else fn - 1

/-- The function of a tenant. -/
def fnOf (t : Nat) : Nat := if t = 0 then 0 else t + 1

/-- Microseconds and milliseconds in ns. -/
def us (n : Nat) : Nat := n * 1000
def ms (n : Nat) : Nat := n * 1000000

/-- The register word at `key` of function `fn`: PF0's at its offset, another function's at 2^32 fn plus its offset. -/
def fnKey (fn off : Nat) : Nat := 0x100000000 * fn + off

/-- The high word latched for a function at the offset of its register (R5). -/
def State.latched (s : State) (fn off : Nat) : Option Word := Tbl.get (fun _ => none) s.latch (fnKey fn off)

/-- The high word latched for a function written (R5). -/
def State.setLatch (s : State) (fn off : Nat) (v : Option Word) : State :=
  { s with latch := s.latch.set (fun _ => none) (fnKey fn off) v }

/-- The device contained (R195). -/
def State.devContained (s : State) : Bool := s.cont.dev

/-- The tenant contained: its first cause, 0 when not (R195, R536). -/
def State.tenantCause (s : State) (t : Nat) : Nat := Tbl.get (fun _ => 0) s.cont.tenants t

/-- The tenant or the device contained. -/
def State.tenantStopped (s : State) (t : Nat) : Bool := s.cont.dev || decide (s.tenantCause t ≠ 0)

/-- The cause byte of a port, 0 when not contained. -/
def State.portCause (s : State) (p : Nat) : Nat := Tbl.get (fun _ => 0) s.cont.ports p

/-- The cause byte of a link, 0 when not contained. -/
def State.linkCause (s : State) (k : Nat) : Nat := Tbl.get (fun _ => 0) s.cont.links k

/-- A tenant that this chip follows (R480): a chip of a formed pair, a fenced one, or one whose guard still runs (R489), that does not lead it. -/
def State.followed (s : State) (t : Nat) : Bool :=
  decide ((s.twin.st = .formed ∨ s.twin.st = .fenced ∨ s.twin.guard = true) ∧ t ∉ s.twin.lead)

/-- Firmware running and no recovery: Saltmaster serves (R116, R131). -/
def State.served (s : State) : Bool := decide (9 ≤ s.boot.step)

end Sys2Proof.Machine
end

