-- ==== Sys2Proof/Machine/Mirror.lean ====
section
/-! DEFINITION. The sending side of mirroring (R484): notes, and operations held until the follower acknowledges. The spec gives the records' content and no byte layout; on the ports a record is its row's code and fields. -/

namespace Sys2Proof.Machine

/-- A twin engine message (R486). -/
def twinSend (s : State) (mtype : Nat) (words : List Nat) : State := s.emit (.twinMsg mtype words)

/-- This chip mirrors a tenant: the pair is formed, or has sent its full state to form, and the chip leads it (R477, R484). -/
def State.leads (s : State) (t : Nat) : Bool := decide ((s.twin.st = .formed ∨ s.twin.st = .forming) ∧ t ∈ s.twin.lead)

/-- A tenant that is being handed over to the partner: no fetch and no push takes place (R482). -/
def State.handing (s : State) (t : Nat) : Bool := s.leads t && s.twin.pendingLead.any fun l => decide (t ∉ l)

/-- A state record as numbers. -/
def mirrorWords : MirrorRec → List Nat
  | .queueState q ctx => [1, q] ++ ctx.map BitVec.toNat
  | .fetched q i a => [2, q, i, a]
  | .ticket t n q i o => [3, t, n, q, i, o]
  | .rackRead q i o => [4, q, i, o]
  | .segDone q i o => [5, q, i, o]
  | .release q e k => [6, q, k] ++ e.map BitVec.toNat
  | .outcome t n c => [7, t, n, c]
  | .tally t i f a => [8, t, i, f, a]
  | .liqTag t k sp l late here => [9, t, k, sp, l, b2n late, b2n here]

/-- A MIRROR message of one record, with the next sequence number. -/
def mirrorSend (s : State) (r : MirrorRec) : State :=
  let n := s.twin.mirrorSeq + 1
  twinSend (s.modTwin fun w => { w with mirrorSeq := n }) 0x32 (n :: mirrorWords r)

/-- State mirrored without waiting (R484 "no"). -/
def mirrorNote (s : State) (t : Nat) (r : MirrorRec) : State := if s.leads t then mirrorSend s r else s

/-- An operation that is mirrored before its effect (R484 "yes"): held until the acknowledgement, or done at once where nothing is mirrored. -/
def mirrorHold (s : State) (t : Nat) (r : MirrorRec) (h : MirrorHold) (now : State → State) : State :=
  if s.leads t then
    let s := mirrorSend s r
    s.modTwin fun w => { w with holds := w.holds ++ [(w.mirrorSeq, s.now, h)] }
  else now s

end Sys2Proof.Machine
end

