-- ==== Sys2Proof/Machine/Log.lean ====
section
/-! DEFINITION. Event records: severity, rate limits, the queue of waiting records (R510-R514, R518, R531). -/

namespace Sys2Proof.Machine

/-- What a rule gives of a record it writes. `enters`: 1 when the record enters port, link or tenant containment, 2 for device containment. `critical`: an FW_VERIFY_FAIL followed by recovery. `key`: the key its rate limit counts under. -/
structure Ev where
  code : Nat
  src : Nat
  tenant : Nat := 0xFF
  cs : Nat := 0xFFFF
  addr : Nat := 0
  ticket : Nat := 0
  data : List Byte := []
  enters : Nat := 0
  critical : Bool := false
  key : Nat := 0

/-- The source block ID of unit `u` in domain `d` (R512). -/
def src (d u : Nat) : Nat := 0x100 * d + u

/-- Saltmaster (CP, unit 1), the boot ROM (2), the mailbox engine (3) and HC as sources (R512). -/
abbrev srcSalt : Nat := 0x1001
abbrev srcRom : Nat := 0x1002
abbrev srcMailbox : Nat := 0x1003
abbrev srcHc : Nat := 0x0200
abbrev srcLt : Nat := 0x0300
abbrev srcAo : Nat := 0x0000

/-- The source block of a port, and of link `k` (UL0-UL3 in SL, the twin link in TW). -/
def srcPort (p : Nat) : Nat := src (12 + p) 0
def srcLink (k : Nat) : Nat := if k = 4 then src 15 4 else src 14 k

/-- The warnings of R513 rule 2. -/
def warningCodes : List Nat :=
  [Ev.panSpareIn, Ev.panRetired, Ev.laneSwap, Ev.sramRowRepair, Ev.mramBlockRetired, Ev.pllSwitch, Ev.wearThreshold,
   Ev.wearHeld, Ev.supplyWarn, Ev.tempWarn, Ev.harvestAtRisk, Ev.harvestInfeasible, Ev.profileDrift, Ev.twinDisagree]

/-- Severity (R513), the first match. -/
def severityOf (e : Ev) : Nat :=
  if e.enters = 2 ∨ e.critical ∨ e.code ∈ [Ev.thermShutdown, Ev.bedLost, Ev.pllLost, Ev.islandWakeFail] then 4
  else if (0x10 ≤ e.cs ∧ e.cs ≤ 0x22) ∨ e.enters = 1 then 3
  else if e.code ∈ warningCodes then 2
  else if e.code = Ev.logMark then 0
  else 1

/-- The limit per second of a rate-limited kind, 0 for a kind with none (R186, R298, R316, R324, R456, R473, R531). -/
def rateLimit (code : Nat) : Nat :=
  if code = Ev.hostLinkCorr then 1000
  else if code = Ev.portNotInService ∨ code = Ev.linkNotUp ∨ code = Ev.weirDeny then 100
  else if code = Ev.rackIackFail then 1
  else 0

/-- A record's 36 bytes of block data, with the count word of R531 where `count` gives one. -/
def recData (data : List Byte) (count : Option Nat) : List Byte :=
  match count with
  | none => slice data 0 36
  | some n => slice data 0 32 ++ leBytes 4 (min n 0xFFFFFFFF)

/-- The record of an event at the present time (R510, R511). -/
def mkRec (s : State) (e : Ev) (count : Option Nat) : EvRec :=
  { time := s.now, source := e.src, tenant := e.tenant, severity := severityOf e, code := e.code, cs := e.cs
    addr := e.addr, ticket := e.ticket, data := recData e.data count }

/-- A record joins the queue of 256; when the queue is full it is dropped, counted in BTN_DROP_CNT, and a LOG_QUEUE_FULL record is owed (R518). -/
def enqueueRec (s : State) (r : EvRec) : State :=
  if s.log.waiting.length < 256 then s.modLog fun l => { l with waiting := l.waiting ++ [r] }
  else (s.incReg 0x580018).modLog fun l => { l with dropsOwed := l.dropsOwed + 1 }

/-- A rate-limited event: within its interval of 1 s the first `lim` records of its key are written, each counting the events suppressed before it (R531). -/
def raiseLimited (s : State) (e : Ev) (lim : Nat) : State :=
  let k := e.code * 65536 + e.key
  let r := Tbl.get rateInit s.log.rates k
  let iv := s.now / 1000000000 + 1
  let written := if r.interval = iv then r.written else 0
  if written < lim then
    enqueueRec (s.modLog fun l => { l with rates := l.rates.set rateInit k { interval := iv, written := written + 1, suppressed := 0 } })
      (mkRec s e (some (r.suppressed + 1)))
  else
    s.modLog fun l => { l with rates := l.rates.set rateInit k { interval := iv, written := written, suppressed := r.suppressed + 1 } }

/-- An event record is raised (R13, R518). CONTAINED is rate-limited for a contained port (R324), which its caller marks with a nonzero `key`. -/
def State.raise (s : State) (e : Ev) : State :=
  if e.code = Ev.contained ∧ e.key ≠ 0 then raiseLimited s e 100
  else if rateLimit e.code = 0 then enqueueRec s (mkRec s e none)
  else raiseLimited s e (rateLimit e.code)

end Sys2Proof.Machine
end

