-- ==== Sys2Proof/Machine/Irq.lean ====
section
/-! DEFINITION. Interrupt messages and host writes: MSI-X, MSI, their pending bits, and what D3hot holds back (R183-R185, R191). -/

namespace Sys2Proof.Machine

/-- A vector of a function. -/
def vec (f : FnState) (entry : Nat) : Vec := Tbl.get vecInit f.vecs entry

/-- A vector's pending bit written. -/
def setPend (s : State) (fn entry : Nat) (p : Bool) : State :=
  s.modFn fn fun f => { f with vecs := f.vecs.set vecInit entry { vec f entry with pend := p } }

/-- An MSI message's pending bit written. -/
def setMsiPend (s : State) (n : Nat) (p : Bool) : State :=
  s.modFn 0 fun f => { f with msiPend := if p then f.msiPend ||| w32 (2 ^ n) else clearBits f.msiPend (w32 (2 ^ n)) }

/-- Entry `entry` of function `fn` is sent, or sets its pending bit while the entry or the function is masked, the device is contained or the function may not master the bus (R183-R185). With MSI-X disabled, PF0's enabled MSI carries entry k as message k mod the number allocated (R184). -/
def deliverMsix (s : State) (fn entry : Nat) : State :=
  let f := s.fn fn
  if f.msixEnable then
    if (vec f entry).mask ∨ f.fnMask ∨ s.cont.dev ∨ !f.busMaster then setPend s fn entry true
    else (setPend s fn entry false).emit (.msix fn entry)
  else if fn = 0 ∧ f.msiEnable then
    let n := entry % max 1 f.msiMsgs
    if bit f.msiMask.toNat n ∨ s.cont.dev ∨ !f.busMaster then setMsiPend s n true
    else (setMsiPend s n false).emit (.msi n)
  else s

/-- A message of a function: held behind its held writes in D3hot (R191), else delivered. PF0's entry 7 is never sent (R183), and nothing of a function under an FLR (R127). -/
def sendMsix (s : State) (fn entry : Nat) : State :=
  if (fn = 0 ∧ entry = 7) ∨ (s.fn fn).flr then s
  else if (s.fn fn).d3hot then s.modFn fn fun f => { f with heldOut := f.heldOut ++ [.msix fn entry] }
  else deliverMsix s fn entry

/-- A memory write to the host for a tenant, held while its function is in D3hot (R191) and while the device is contained (R195), dropped during an FLR (R127). -/
def hostWrite (s : State) (tenant addr : Nat) (data : List Byte) : State :=
  if (s.fn (fnOf tenant)).flr then s
  else if (s.fn (fnOf tenant)).d3hot ∨ s.cont.dev then
    s.modFn (fnOf tenant) fun f => { f with heldOut := f.heldOut ++ [.hostWrite tenant addr data] }
  else s.emit (.hostWrite tenant addr data)

/-- One held output released on the return to D0 (R191). -/
def releaseHeld (s : State) (o : Output) : State :=
  match o with
  | .msix fn entry => deliverMsix s fn entry
  | o => s.emit o

/-- What a function holds back is released, where neither D3hot nor device containment holds it any more (R191, R195). -/
def releaseOuts (s : State) (fn : Nat) : State :=
  if (s.fn fn).d3hot ∨ s.cont.dev then s
  else (s.fn fn).heldOut.foldl releaseHeld (s.modFn fn fun f => { f with heldOut := [] })

/-- The pending messages of a function that may now leave are sent (R185). The MSI-X table has 256 entries in PF0 and 32 in a VF. -/
def sendPending (s : State) (fn : Nat) : State :=
  if (s.fn fn).msixEnable then
    ((s.fn fn).vecs.rows.filter fun kv => kv.2.pend).foldl (fun s kv => deliverMsix s fn kv.1) s
  else ((List.range 32).filter fun n => bit (s.fn 0).msiPend.toNat n).foldl (fun s n => if fn = 0 then deliverMsix s 0 n else s) s

/-- The sideband alert `i` is raised (R59): 0 temperature, 1 supply, 2 first-of-kind record, 3 twin disagreement. -/
def raiseAlert (s : State) (i : Nat) : State :=
  s.modPins fun p => { p with alertPending := p.alertPending ||| BitVec.ofNat 4 (2 ^ i), alertAcked := false }

end Sys2Proof.Machine
end

