-- ==== Sys2Proof/Machine/Liquor.lean ====
section
/-! DEFINITION. The liquor buffer (R350-R361, R539): matching, consuming, retaining, invalidating and expiring bytes, the pools, the discard log. -/

namespace Sys2Proof.Machine

/-- A tenant's current generation (R351). -/
def State.liqGen (s : State) (t : Nat) : Nat := Tbl.get (fun _ => 0) s.liq.gens t

/-- The tenant's generation advances: its lines never match again and are freed without a log entry (R351, R361). -/
def liqRetire (s : State) (t : Nat) : State :=
  let g := s.liqGen t + 1
  let s := (s.liq.lines.filter fun x => decide (x.tenant = t)).foldl (fun s l =>
    mirrorNote s l.tenant (.liqTag l.tenant l.target l.space l.line (decide (l.pool = 0)) false)) s
  s.modLiq fun l => { l with
    gens := l.gens.set (fun _ => 0) t g
    lines := l.lines.filter fun x => decide (x.tenant ≠ t)
    orphans := l.orphans.filter fun o => decide (o.1 ≠ t) }

/-- Every line retired (R361: host, device and power-on reset). -/
def liqRetireAll (s : State) : State :=
  ((List.range 65).foldl (fun s t => s.modLiq fun l => { l with gens := l.gens.set (fun _ => 0) t (Tbl.get (fun _ => 0) l.gens t + 1) }) s).modLiq
    fun l => { l with lines := [], orphans := [] }

/-- A line holds bytes of this tenant's current generation, target and space. -/
def liqLineIs (s : State) (t target space : Nat) (l : LiqLine) : Bool :=
  decide (l.tenant = t) && decide (l.gen = s.liqGen t) && decide (l.target = target) && decide (l.space = space)

/-- A line's tag mirrored to the follower (R361, R484). -/
def noteTag (s : State) (l : LiqLine) (here : Bool) : State :=
  mirrorNote s l.tenant (.liqTag l.tenant l.target l.space l.line (decide (l.pool = 0)) here)

/-- FATE of the newest discard log entry of a line, in place (R358). -/
def dlogFate (s : State) (t target space line fate : Nat) : State :=
  let n := s.liq.dlogCount
  let hit := (List.range (min n 512)).find? fun i =>
    match Tbl.get (fun _ => none) s.liq.dlog ((n - 1 - i) % 512) with
    | some e => decide (e.tenant = t ∧ e.target = target ∧ e.space = space ∧ e.line = line)
    | none => false
  match hit with
  | some i =>
    let k := (n - 1 - i) % 512
    s.modLiq fun l => { l with dlog := l.dlog.set (fun _ => none) k ((Tbl.get (fun _ => none) l.dlog k).map fun e => { e with fate := fate }) }
  | none => s

/-- A retention entered in the discard log: folded into one of the 64 newest entries of the same line, else a new entry over the oldest (R358). -/
def dlogAdd (s : State) (e : DlogEntry) : State :=
  let n := s.liq.dlogCount
  let hit := (List.range (min n 64)).find? fun i =>
    match Tbl.get (fun _ => none) s.liq.dlog ((n - 1 - i) % 512) with
    | some x => decide (x.tenant = e.tenant ∧ x.target = e.target ∧ x.space = e.space ∧ x.line = e.line)
    | none => false
  match hit with
  | some i =>
    let k := (n - 1 - i) % 512
    s.modLiq fun l => { l with dlog := l.dlog.set (fun _ => none) k ((Tbl.get (fun _ => none) l.dlog k).map fun x => { x with rep := x.rep + 1, fate := 0 }) }
  | none => s.modLiq fun l => { l with dlog := l.dlog.set (fun _ => none) (n % 512) (some e), dlogCount := n + 1 }

/-- Removes from the lines that `p` picks the bytes that `q` picks; lines left without a byte go. Each line touched has its FATE set, and `cnt` (an RC counter, 0 for none) counts the lines touched. -/
def liqRemove (s : State) (p : LiqLine → Bool) (q : LiqLine → LiqByte → Bool) (fate cnt : Nat) : State :=
  let touched := s.liq.lines.filter fun l => p l && l.bytes.any (q l)
  let keep := (s.liq.lines.map fun l => if p l then { l with bytes := l.bytes.filter fun b => !(q l b) } else l).filter
    fun l => !l.bytes.isEmpty
  let s := s.modLiq fun l => { l with lines := keep }
  let s := touched.foldl (fun s l => dlogFate s l.tenant l.target l.space l.line fate) s
  let s := (touched.filter fun l => l.bytes.all (q l)).foldl (fun s l => noteTag s l false) s
  if cnt = 0 then s else s.addReg cnt touched.length

/-- The bytes a read takes from the buffer are consumed (R354). -/
def liqConsume (s : State) (t target space : Nat) (addrs : List Nat) : State :=
  liqRemove s (liqLineIs s t target space) (fun l b => decide (l.line + b.off ∈ addrs)) 1 0

/-- A write's range is invalidated for every tenant, and the bytes of reads in flight within it are marked: they will not be retained (R356). -/
def liqInvalidate (s : State) (target space lo len : Nat) : State :=
  let s := liqRemove s (fun l => decide (l.target = target ∧ l.space = space))
    (fun l b => decide (lo ≤ l.line + b.off ∧ l.line + b.off < lo + len)) 4 0x1C0018
  s.modReads fun rs => rs.map fun r =>
    if r.target = target ∧ r.space = space ∧ r.stage ≠ .room then { r with stale := (lo, len) :: r.stale } else r

/-- Insert a retained byte into a line's bytes in ascending offset. -/
def liqPutByte (b : LiqByte) : List LiqByte → List LiqByte
  | [] => [b]
  | c :: r => if b.off < c.off then b :: c :: r else if b.off = c.off then b :: r else c :: liqPutByte b r

/-- One line's bytes retained and logged (R352, R355, R358). -/
def liqRetainLine (s : State) (t target space line pool reason cls : Nat) (bs : List (Nat × Byte)) : State :=
  let win := us (clampTo 1 10000 (s.reg 0x1C0000).toNat)
  let new : List LiqByte := bs.map fun b => { off := b.1 - line, data := b.2, arrival := s.now, expires := s.now + win }
  let same := fun l => liqLineIs s t target space l && decide (l.line = line ∧ l.pool = pool)
  let lines := if s.liq.lines.any same then
      modFirst same (fun l => { l with bytes := new.foldl (fun acc b => liqPutByte b acc) l.bytes, reason := reason }) s.liq.lines
    else s.liq.lines ++ [{ tenant := t, gen := s.liqGen t, target := target, space := space, line := line, pool := pool
                           reason := reason, bytes := new.foldl (fun acc b => liqPutByte b acc) [] }]
  dlogAdd (mirrorNote (s.modLiq fun l => { l with lines := lines }) t (.liqTag t target space line (decide (pool = 0)) true))
    { time := s.now, line := line, tenant := t, target := target, space := space, reason := reason, fate := 0
      rclass := cls, bytes := bs.length, rep := 0 }

/-- Returned bytes retained (R352), but for those a write has marked stale (R356). -/
def liqRetain (s : State) (t target space pool reason cls : Nat) (stale : List (Nat × Nat)) (bs : List (Nat × Byte)) : State :=
  let bs := bs.filter fun b => !(stale.any fun r => decide (r.1 ≤ b.1 ∧ b.1 < r.1 + r.2))
  let lines := (bs.map fun b => b.1 - b.1 % 128).dedup
  lines.foldl (fun s line => liqRetainLine s t target space line pool reason cls (bs.filter fun b => decide (b.1 - b.1 % 128 = line))) s

/-- The number of 128-byte lines that a range touches. -/
def linesOf (lo len : Nat) : Nat := if len = 0 then 0 else (lo + len - 1) / 128 - lo / 128 + 1

/-- Lines of a pool in use: retained, and reserved by reads in flight (R353). -/
def poolUsed (s : State) (pool : Nat) : Nat :=
  (s.liq.lines.filter fun l => decide (l.pool = pool)).length
    + (s.reads.map fun r => if pool = 0 then r.lines else if (pool = 1) = (r.cls = 1) then r.wideLines else 0).sum

/-- The late pool has room for `n` more lines (R351, R353). -/
def lateRoom (s : State) (n : Nat) : Bool := decide (poolUsed s 0 + n ≤ 1024)

/-- The line of the general pool that goes first: oldest valid byte, then lowest line address (R353). -/
def evictPick (s : State) : Option LiqLine :=
  let age := fun (l : LiqLine) => (l.bytes.map fun b => b.arrival).foldl min (2 ^ 64)
  (s.liq.lines.filter fun l => decide (l.pool = 2)).foldl (fun acc l => match acc with
    | none => some l
    | some m => if age l < age m ∨ (age l = age m ∧ l.line < m.line) then some l else some m) none

/-- General-pool lines evicted until `n` are free, at most `fuel` of them (R353). -/
def evictFor (s : State) (n : Nat) : Nat → State
  | 0 => s
  | fuel + 1 =>
    if poolUsed s 2 + n ≤ 16384 - 1024 - poolUsed s 1 then s
    else match evictPick s with
      | none => s
      | some l =>
        let s := dlogFate s l.tenant l.target l.space l.line 3
        evictFor (noteTag ((s.modLiq fun q => { q with lines := dropFirst (fun x => decide (x = l)) q.lines }).incReg 0x1C0014) l false) n fuel

/-- Lines reserved for the unrequested bytes of a widened read: the protected pool for RETAIN (class 1), else the general pool, which may evict (R353). None when the pool cannot supply them; the caller then does not widen and LIQ_NARROW_CNT counts. -/
def reserveWide (s : State) (cls n : Nat) : Option State :=
  if cls = 1 then
    if poolUsed s 1 + n ≤ 7168 then some s else none
  else
    let s' := evictFor s n n
    if poolUsed s' 2 + n ≤ 16384 - 1024 - poolUsed s' 1 then some s' else none

/-- LIQ_EXPIRE (R355, R360): line number `i` of the buffer reaches the expiry of its oldest byte; the bytes whose window has ended go. A line left empty is counted, and one of the late pool loses the answer to a read: LIQ_UNCLAIMED. -/
def liqExpireEff (s : State) (i : Nat) : State :=
  match s.liq.lines[i]? with
  | none => s
  | some l =>
    let first := (l.bytes.map fun b => b.expires).foldl min (2 ^ 64)
    let s := s.atTime first
    let now := s.now
    let s := liqRemove s (fun x => decide (x = l)) (fun _ b => decide (b.expires ≤ now)) 2 0
    if l.bytes.all fun b => decide (b.expires ≤ now) then
      let s := s.incReg 0x1C0010
      if l.pool = 0 then
        (s.incReg 0x1C0020).raise { code := Ev.liqUnclaimed, src := srcLt, tenant := l.tenant, addr := l.line, data := leBytes 1 l.reason }
      else s
    else s

/-- LIQ_EXPIRE: a retained byte's window ends (R355, R358, R360). -/
def execLiqExpire (line : Nat) (s : State) : Host.Outcome State Fault Refusal := .next (liqExpireEff s line)

end Sys2Proof.Machine
end

