-- ==== Sys2Proof/Machine/Tally.lean ====
section
/-! DEFINITION. The tally ledger (R362-R377, R540): tickets, entries and quotas, settling, kept failures, the TAL_FAIL latch, and the range and end of a settle fence. -/

namespace Sys2Proof.Machine

/-- The next ticket: 0 is never issued (R363). -/
def ticketSucc (n : Nat) : Nat := if n = 0xFFFFFFFF then 1 else n + 1

/-- The ticket before (R363). -/
def ticketPred (n : Nat) : Nat := if n = 1 then 0xFFFFFFFF else n - 1

/-- Ticket `a` is at or before ticket `b`: (b - a) mod 2^32 below 2^31 (R363). -/
def atOrBefore (a b : Nat) : Bool := decide ((b + 0x100000000 - a % 0x100000000) % 0x100000000 < 0x80000000)

/-- Ticket `a` is after ticket `b`. -/
def ticketAfter (a b : Nat) : Bool := !atOrBefore a b

/-- The later of two tickets. -/
def ticketMax (a b : Nat) : Nat := if atOrBefore a b then b else a

/-- Unsettled tickets of the tenant's present series, in issue order. -/
def attached (q : TallyT) : List Unsettled := q.unsettled.filter fun u => decide (u.detached = 0)

/-- The frontier: the highest ticket up to which every ticket after the floor has settled (R368). -/
def frontier (q : TallyT) : Nat :=
  match attached q with
  | [] => q.issued
  | u :: _ => if u.ticket = ticketSucc q.floor then q.floor else ticketPred u.ticket

/-- Entries of the tenant in use: unsettled writes that hold one (an FLR's too, R129; a wider reset's not, R374) and kept failures; flood writes draw on the flood reserve (R364). -/
def entriesUsed (q : TallyT) : Nat :=
  (q.unsettled.filter fun u => !u.flood && decide (u.detached ≠ 2)).length + (q.kept.filter fun k => !k.flood).length

/-- Entries of the flood reserve in use (R364). -/
def floodUsed (s : State) : Nat :=
  (s.tal.t.rows.map fun kv => (kv.2.unsettled.filter fun u => u.flood && decide (u.detached ≠ 2)).length
    + (kv.2.kept.filter fun k => k.flood).length).sum

/-- An entry is free within the tenant's quota (R364, R366). -/
def entryFree (s : State) (t : Nat) : Bool := decide (entriesUsed (s.tally t) < (s.tally t).quota)

/-- An entry of the flood reserve is free (R364). -/
def floodFree (s : State) : Bool := decide (floodUsed s < 512)

/-- The tenant holds PRIV; PF0 always does (R370). -/
def privOf (s : State) (t : Nat) : Bool := decide (t = 0) || decide (t ∈ s.tal.priv)

/-- Window writes waiting in the tenant's staging queue (R24). -/
def staged (q : TallyT) : List Acc := q.waiters.filterMap fun w => match w with
  | .window a => some a
  | .seg _ => none

/-- The tenant's next ticket, issued to a write of `len` bytes at `addr`; retained bytes in its range are invalidated (R356, R362, R363). -/
def issueTicket (s : State) (t target space addr len : Nat) (flood : Bool) : Nat × State :=
  let n := ticketSucc (s.tally t).issued
  (n, liqInvalidate (s.modTally t fun q => { q with
    issued := n
    unsettled := q.unsettled ++ [{ ticket := n, addr := addr, target := target, space := space, flood := flood, detached := 0 }] })
    target space addr len)

/-- Put a failure among the kept ones, earliest ticket first (R369). -/
def keepOrdered (k : Kept) : List Kept → List Kept
  | [] => [k]
  | x :: r => if atOrBefore k.ticket x.ticket then k :: x :: r else x :: keepOrdered k r

/-- A failed write is kept; of 33 the latest is freed and OVERFLOW set (R368, R369). -/
def keepFailure (s : State) (t : Nat) (k : Kept) : State :=
  s.modTally t fun q =>
    let l := keepOrdered k q.kept
    if l.length ≤ 32 then { q with kept := l } else { q with kept := l.take 32, overflow := true }

/-- A PRIV tenant's failure latches or sets MORE, and the first sends MSI-X entry 2 (R370). -/
def latchFailure (s : State) (t : Nat) (k : Kept) : State :=
  if privOf s t then
    if (s.tally t).latchValid then s.modTally t fun q => { q with latchMore := true }
    else sendMsix (s.modTally t fun q => { q with latchValid := true, latched := k }) (fnOf t) 2
  else s

/-- The address of a tenant's TAL_ block (R375). -/
def talBase (t : Nat) : Nat := 0x1C1000 + 0x40 * t

/-- An event's template with the ticket, tenant, CS and address of the write it records (R367). -/
def ticketEv (e : Ev) (t ticket cs addr : Nat) : Ev := { e with tenant := t, cs := cs, addr := addr, ticket := ticket }

/-- The record of a template, where there is one. -/
def raiseOpt (s : State) (ev : Option Ev) : State :=
  match ev with
  | some e => s.raise e
  | none => s

/-- A ticket settles with its CS (R367). `ev` is the template of the failure's record, none where one record covers many. A detached write (after an FLR, R129, or a wider reset, R374) reports to no one but the log. -/
def settle (s : State) (t ticket cs addr : Nat) (ev : Option Ev) : State :=
  match (s.tally t).unsettled.find? fun u => decide (u.ticket = ticket) with
  | none => s
  | some u =>
    let s := s.modTally t fun q => { q with unsettled := dropFirst (fun u => decide (u.ticket = ticket)) q.unsettled }
    let s := if u.detached = 0 then mirrorNote s t (.outcome t ticket cs) else s
    if cs = Cs.done then s
    else
      let s := raiseOpt s (ev.map fun e => ticketEv e t (ticket % 0x100000000) cs addr)
      if u.detached = 0 then
        let k : Kept := { ticket := ticket, cs := cs, addr := addr, target := u.target, space := u.space, flood := u.flood }
        latchFailure (keepFailure (s.incReg (talBase t + 0x18)) t k) t k
      else s

/-- A window write that a containment of its tenant or of the device ends takes the tenant's next ticket and settles CONTAINED at once, kept only if an entry is free and fewer than 32 failures are kept, else OVERFLOW (R540). A write that was staged at the entry writes no record of its own (R367). -/
def settleContained (s : State) (t target space addr len : Nat) (ev : Option Ev) : State :=
  let free := entryFree s t && decide ((s.tally t).kept.length < 32)
  let (n, s) := issueTicket s t target space addr len false
  if free then settle s t n Cs.contained addr ev
  else
    let s := s.modTally t fun q => { q with
      unsettled := dropFirst (fun u => decide (u.ticket = n)) q.unsettled, overflow := true }
    let s := raiseOpt s (ev.map fun e => ticketEv e t n Cs.contained addr)
    latchFailure (s.incReg (talBase t + 0x18)) t
      { ticket := n, cs := Cs.contained, addr := addr, target := target, space := space, flood := false }

/-- Every window write of a tenant's staging queue settles CONTAINED, with the records of `ev` (none at device entry); their number is counted (R195, R367, R540). -/
def drainStaged (s : State) (t : Nat) (ev : Option Ev) : Nat × State :=
  let ws := staged (s.tally t)
  let s := s.modTally t fun q => { q with waiters := q.waiters.filter fun w => match w with
    | .window _ => false
    | .seg _ => true }
  (ws.length, ws.foldl (fun s a => settleContained s t a.target a.space (a.addr + firstSome a.bytes) a.bytes.length ev) s)

/-- TAL_ACK written (R368, R369): a value after the frontier is taken as the frontier, one before the mark is ignored; kept failures up to the mark are retired and OVERFLOW is cleared. -/
def ackWrite (s : State) (t v : Nat) : State :=
  let q := s.tally t
  let v := if ticketAfter v (frontier q) then frontier q else v
  if ticketAfter v q.ack ∨ v = q.ack then
    s.modTally t fun q => { q with ack := v, kept := q.kept.filter fun k => ticketAfter k.ticket v, overflow := false }
  else s.modTally t fun q => { q with overflow := false }

/-- TAL_FAIL_STATUS written: a one clears VALID ([0]), which re-arms the latch, or MORE ([1]); without PRIV the write is ignored (R370, R377). -/
def failRearm (s : State) (t v : Nat) : State :=
  if privOf s t then
    s.modTally t fun q => { q with latchValid := q.latchValid && !bit v 0, latchMore := q.latchMore && !bit v 1 }
  else s

/-- A function may name a tenant: its own, or any from PF0 (R377, R529). -/
def mayNameTenant (fn t : Nat) : Bool := decide (fn = 0) || decide (tenantOf fn = t)

/-- The tenant's issued ticket, frontier and mark mirrored (R484). -/
def noteTally (s : State) (t : Nat) : State :=
  mirrorNote s t (.tally t (s.tally t).issued (frontier (s.tally t)) (s.tally t).ack)

/-- TAL_ACK_WRITE: a write of TAL_ACK by the tenant, or by PF0 for it (R368, R377); a followed tenant's is ignored (R480). -/
def execTalAckWrite (fn : Fn) (t : Tenant) (v : Word) (s : State) : Host.Outcome State Fault Refusal :=
  .next (if mayNameTenant fn.val t.val ∧ !s.followed t.val then noteTally (ackWrite s t.val v.toNat) t.val else s)

/-- TAL_FAIL_REARM: a write of TAL_FAIL_STATUS (R370, R377, R480). -/
def execTalFailRearm (fn : Fn) (t : Tenant) (v : Word) (s : State) : Host.Outcome State Fault Refusal :=
  .next (if mayNameTenant fn.val t.val ∧ !s.followed t.val then failRearm s t.val v.toNat else s)

/-- The ticket after which a fence of the tenant begins: the later of floor and acknowledge mark (R371). -/
def fenceFrom (q : TallyT) : Nat := ticketMax q.floor q.ack

/-- The kept failures in a fence's range, earliest first (R371). -/
def fenceKept (q : TallyT) (n : Nat) : List Kept :=
  q.kept.filter fun k => ticketAfter k.ticket (fenceFrom q) && atOrBefore k.ticket n

/-- The frontier is at or after the fence's ticket (R371). -/
def fenceReached (q : TallyT) (n : Nat) : Bool := atOrBefore n (frontier q)

/-- The ticket that a fence on `n` waits for, and CLAMPED: 0 and later tickets are taken as the highest issued (R371). -/
def fenceTicket (q : TallyT) (n : Nat) : Nat × Bool :=
  if n = 0 then (q.issued, false) else if ticketAfter n q.issued then (q.issued, true) else (n, false)

/-- The fence limit in ns (R371, R375). -/
def fenceLimit (s : State) : Nat := ms (clampTo 1 10000 (s.reg 0x1C0100).toNat)

/-- A fence starts to wait, with the limit in force (R371). -/
def startFence (s : State) (t n : Nat) (clamped : Bool) (mb : Option Nat) (queue : Option (Nat × Nat)) : State :=
  let lim := fenceLimit s
  s.modTal fun x => { x with
    fences := x.fences ++ [{ id := x.nextFence, tenant := t, n := n, limitAt := s.now + lim, mb := mb, queue := queue, clamped := clamped }]
    nextFence := x.nextFence + 1 }

end Sys2Proof.Machine
end

