-- ==== Sys2Proof/Machine/MbCore.lean ====
section
/-! DEFINITION. The Herdin mailbox's end of a command (R157, R161, R162): responses, results, and the frame in which each command's own row runs. -/

namespace Sys2Proof.Machine

/-- The register key of offset `off` in mailbox `mb` (R153): PF0's at 0x02_0000, VF n's at 0x4000 of its BAR0, the TAP's apart. -/
def mbReg (mb off : Nat) : Nat :=
  if mb = 0 then 0x20000 + off else if mb = 65 then fnKey 66 off else fnKey (mb + 1) (0x4000 + off)

/-- The tenant that a mailbox issues for (R153); the TAP's acts as tenant 0 (R150). -/
def mbTenant (mb : Nat) : Nat := if mb = 65 then 0 else mb

/-- The response header (R161) and payload. -/
def rspBytes (c : Cmd) (result cs reason detail : Nat) (payload : List Byte) : List Byte :=
  leBytes 2 c.opcode ++ leBytes 2 (if result = 0 then cs else 0) ++ leBytes 2 c.seq ++ leBytes 2 payload.length
    ++ leBytes 1 result ++ leBytes 1 reason ++ leBytes 2 0 ++ leBytes 4 detail ++ payload

/-- A command completes: response in place, STATE COMPLETE, counted, MSI-X entry 0 if its IRQ flag is set (R157, R153). -/
def respond (s : State) (mb result cs reason detail : Nat) (payload : List Byte) : State :=
  match (s.mb mb).cmd with
  | none => s
  | some c =>
    let s := s.modMb mb fun m => { m with rsp := rspBytes c result cs reason detail payload, st := .complete, cmd := none, seq := c.seq }
    let s := s.modHer fun h => { h with exec := if h.exec = some mb then none else h.exec }
    let s := s.incReg (mbReg mb 0x200C)
    let s := if result = 2 then s.incReg (mbReg mb 0x2010) else s
    if bit c.flags 0 ∧ mb ≠ 65 then sendMsix s (fnOf mb) 0 else s

/-- The command ran and ends with a CS (R162). -/
def ran (s : State) (mb cs : Nat) (payload : List Byte) : State := respond s mb 0 cs 0 0 payload

/-- The command ran and is done. -/
def done (s : State) (mb : Nat) (payload : List Byte) : State := ran s mb Cs.done payload

/-- The command is refused: nothing changed (R162). -/
def refuse (s : State) (mb reason detail : Nat) : State := respond s mb 1 0 reason detail []

/-- The command is rejected: nothing changed (R162, R163). -/
def reject (s : State) (mb reason : Nat) : State := respond s mb 2 0 reason 0 []

/-- The command is cancelled (R155, R162). -/
def cancelled (s : State) (mb : Nat) : State := respond s mb 3 0 0 0 []

/-- Reasons of REJECTED (R163). -/
abbrev Rej.badOpcode : Nat := 1
abbrev Rej.badLength : Nat := 2
abbrev Rej.badParam : Nat := 3
abbrev Rej.notPermitted : Nat := 4
abbrev Rej.recovery : Nat := 5
abbrev Rej.notOwner : Nat := 6

/-- The command waits for an outside condition and Saltmaster takes the next (R164). -/
def waitCmd (s : State) (mb : Nat) : State :=
  (s.modMb mb fun m => { m with st := .waiting }).modHer fun h => { h with exec := if h.exec = some mb then none else h.exec }

/-- The executing command of a mailbox waits for the partner: for the acknowledgement of its mirrored effect (R484), or of its role map (R482). -/
def cmdHeld (s : State) (mb : Nat) : Bool :=
  (decide (mb = 0) && s.twin.roleAsked) || s.twin.holds.any fun h => match h.2.2 with
    | .cmd m _ => decide (m = mb)
    | _ => false

/-- The executing command, when its opcode is `op`. -/
def execCmd (s : State) (op : Nat) : Option (Nat × Cmd) :=
  match s.her.exec with
  | none => none
  | some mb => match (s.mb mb).cmd with
    | some c => if c.opcode = op ∧ !cmdHeld s mb then some (mb, c) else none
    | none => none

/-- The row of opcode `op`: it runs the executing command (COMMAND_DISPATCH has taken it and checked it, R164); where another command or none executes, the row is not enabled and nothing changes. -/
def runCmd (op : Nat) (s : State) (f : State → Nat → Cmd → State) : Host.Outcome State Fault Refusal :=
  match execCmd s op with
  | some (mb, c) => .next (f s mb c)
  | none => .next s

/-- The mailbox `mb` may act on an object of tenant `t`: its own, or any from PF0 (R170 "any"). -/
def ownsObject (mb t : Nat) : Bool := decide (mbTenant mb = 0) || decide (mbTenant mb = t)

end Sys2Proof.Machine
end

