-- ==== Sys2Proof/Machine/Weir.lean ====
section
/-! DEFINITION. Weirs (R464-R474): matching, decisions, denials, and the weir commands. -/

namespace Sys2Proof.Machine

/-- Word `i` of region `r` of weir `w` (R465), LOCKED apart. -/
def rgnWord (s : State) (w r i : Nat) : Nat := (Tbl.get (fun _ => 0#32) s.weirs.rgn (w * 1024 + r * 16 + i)).toNat

/-- A region's words 1-8 written (R465). -/
def setRgn (s : State) (w r : Nat) (ws : List Nat) : State :=
  (List.range 8).foldl (fun s i => s.modWeirs fun x => { x with
    rgn := x.rgn.set (fun _ => 0#32) (w * 1024 + r * 16 + (i + 1)) (w32 (nth ws i 0)) }) s

/-- The region is locked (R471). -/
def rgnLocked (s : State) (w r : Nat) : Bool := decide (w * 64 + r ∈ s.weirs.locked)

/-- A region's fields (R465). -/
def rgnEnable (s : State) (w r : Nat) : Bool := bit (rgnWord s w r 1) 0
def rgnDebug (s : State) (w r : Nat) : Bool := bit (rgnWord s w r 1) 1
def rgnBase (s : State) (w r : Nat) : Nat := rgnWord s w r 2 + 0x100000000 * rgnWord s w r 3
def rgnSize (s : State) (w r : Nat) : Nat := 2 ^ bits (rgnWord s w r 1) 29 24

/-- An access of a space code and first byte matches the region (R466); SPACE is ignored by WE6 and WE7 (R465). -/
def rgnMatch (s : State) (w r space addr : Nat) : Bool :=
  let w1 := rgnWord s w r 1
  let mask := bits w1 21 16
  bit w1 0 && (decide (6 ≤ w) || decide (space &&& mask = bits w1 13 8 &&& mask))
    && decide (rgnBase s w r ≤ addr ∧ addr < rgnBase s w r + rgnSize s w r)

/-- The region grants a tenant a read or a write (R465). -/
def rgnRead (s : State) (w r t : Nat) : Bool :=
  if t = 64 then bit (rgnWord s w r 8) 0 else bit (rgnWord s w r 4 + 0x100000000 * rgnWord s w r 5) t
def rgnWrite (s : State) (w r t : Nat) : Bool :=
  if t = 64 then bit (rgnWord s w r 8) 1 else bit (rgnWord s w r 6 + 0x100000000 * rgnWord s w r 7) t

/-- The default action of a weir: 0 DENY, 1 READ_ONLY, 2 ALLOW (R467). -/
def weirDefault (s : State) (w : Nat) : Nat := Tbl.get (fun _ => 0) s.weirs.dflt w

/-- The lowest-numbered matching region (R466). -/
def weirRegion (s : State) (w space addr : Nat) : Option Nat := (List.range 64).find? fun r => rgnMatch s w r space addr

/-- The weir's decision for a tenant that needs a read and/or a write (R464, R466, R467). -/
def weirAllows (s : State) (w t space addr : Nat) (rd wr : Bool) : Bool :=
  match weirRegion s w space addr with
  | some r => (!rd || rgnRead s w r t) && (!wr || rgnWrite s w r t)
  | none => match weirDefault s w with
    | 0 => false
    | 1 => !wr
    | _ => true

/-- The domain of a weir's stop (R21). -/
def weirDomain (w : Nat) : Nat := if w = 0 then 12 else if w = 1 then 13 else if w ≤ 5 then 14 else if w = 6 then 17 else 16

/-- A denial counted and latched (R473, R474). `kind` 0 read, 1 write, 2 read-modify-write; `source` 0 window, 1 pan, 2 harvest or flood, 3 tide watch, 4 debug. -/
def denyLatch (s : State) (w t space addr kind source : Nat) : State :=
  let r := (weirRegion s w space addr).getD 0xFF
  let b := 0x88000 + 0x40 * w
  let s := s.incReg (b + 0xC)
  let s := s.setReg (b + 0x10) (w32 addr)
  let s := s.setReg (b + 0x14) (w32 (addr / 0x100000000))
  s.setReg (b + 0x18) (w32 (t + r * 2 ^ 8 + kind * 2 ^ 16 + source * 2 ^ 20 + space * 2 ^ 24))

/-- The WEIR_DENY record of a denial (R473): the weir, the region (0xFF for the default action), the kind and the source. -/
def denyEv (s : State) (w t space addr kind source : Nat) : Ev :=
  { code := Ev.weirDeny, src := src (weirDomain w) w, tenant := t, cs := Cs.weirDeny, addr := addr
    data := leBytes 1 w ++ leBytes 1 ((weirRegion s w space addr).getD 0xFF) ++ leBytes 1 kind ++ leBytes 1 source
    key := w * 256 + t }

/-- Two regions' address ranges overlap (R470). -/
def rangesMeet (b1 n1 b2 n2 : Nat) : Bool := decide (b1 < b2 + n2 ∧ b2 < b1 + n1)

/-- The reason for which WEIR_REGION_SET is refused, 0 for none (R470). `ws` are words 1-8. -/
def regionRefusal (s : State) (w r : Nat) (ws : List Nat) : Nat :=
  let w1 := nth ws 0 0
  let en := bit w1 0
  let l := bits w1 29 24
  let base := nth ws 1 0 + 0x100000000 * nth ws 2 0
  let top := if w = 6 then 24 else if w = 7 then 20 else 48
  let space := if w = 6 then 2 ^ 24 else if w = 7 then 2 ^ 20 else 2 ^ 64
  if en ∧ l = 0 then 1
  else if en ∧ (l < 12 ∨ l > top ∨ base % 2 ^ l ≠ 0 ∨ base + 2 ^ l > space) then 2
  else if rgnLocked s w r then 3
  else if en ∧ (List.range 64).any (fun q => decide (r < q) && rgnLocked s w q && rgnEnable s w q && rangesMeet base (2 ^ l) (rgnBase s w q) (rgnSize s w q)) then 4
  else 0

/-- The reason for which a lock is refused, 0 for none (R471). -/
def lockRefusal (s : State) (w r : Nat) : Nat :=
  if !rgnEnable s w r then 5
  else if (List.range 64).any fun q => decide (q < r) && rgnEnable s w q && !rgnLocked s w q
      && rangesMeet (rgnBase s w q) (rgnSize s w q) (rgnBase s w r) (rgnSize s w r) then 6
  else 0

/-- The payload of WEIR_REGION_SET has no reserved bit set (R465, R160). -/
def weirSetParam (p : List Byte) : Bool :=
  decide (wordAt p 0 &&& 0xFFFFC0F8 = 0 ∧ wordAt p 4 &&& 0xC0C0C0FC = 0 ∧ wordAt p 8 % 4096 = 0
    ∧ wordAt p 32 &&& 0xFFFFFFFC = 0 ∧ wordAt p 36 = 0 ∧ wordAt p 40 = 0 ∧ wordAt p 44 = 0)

/-- The payload of WEIR_REGION_GET (word 0 of R465). -/
def weirGetParam (p : List Byte) : Bool := decide (wordAt p 0 &&& 0xFFFFC0F8 = 0)

/-- The payload of WEIR_DEFAULT_SET (R467). -/
def weirDefaultParam (p : List Byte) : Bool := decide (wordAt p 0 &&& 0xFFFFFCF8 = 0 ∧ bits (wordAt p 0) 9 8 ≠ 3)

/-- The payload of WEIR_REGION_LOCK: [7:0] weir, [15:8] region (R170). -/
def weirLockParam (p : List Byte) : Bool := decide (byteAt p 0 < 8 ∧ byteAt p 1 < 64 ∧ field p 2 2 = 0)

/-- The 48 bytes of a region with LOCKED in word 8 [8] (R465). -/
def rgnBytes (s : State) (w r : Nat) : List Byte :=
  bytesOfWords ([w + r * 256] ++ (List.range 7).map (fun i => rgnWord s w r (i + 1))
    ++ [rgnWord s w r 8 + b2n (rgnLocked s w r) * 256, 0, 0, 0])

/-- WEIR_REGION_SET's effect (R465, R469, R470). -/
def weirRegionSetEff (s : State) (mb : Nat) (c : Cmd) : State :=
  let w := bits (wordAt c.payload 0) 2 0
  let r := bits (wordAt c.payload 0) 13 8
  let ws := (List.range 8).map fun i => wordAt c.payload (4 * (i + 1))
  let why := regionRefusal s w r ws
  if why ≠ 0 then refuse s mb why 0 else done (setRgn s w r ws) mb []

/-- WEIR_REGION_SET (R465, R469, R470). -/
def execWeirRegionSet (s : State) : Host.Outcome State Fault Refusal := runCmd 0x0300 s weirRegionSetEff

/-- WEIR_REGION_GET (R465). -/
def execWeirRegionGet (s : State) : Host.Outcome State Fault Refusal :=
  runCmd 0x0301 s fun s mb c => done s mb (rgnBytes s (bits (wordAt c.payload 0) 2 0) (bits (wordAt c.payload 0) 13 8))

/-- WEIR_DEFAULT_SET (R467, R469). -/
def execWeirDefaultSet (s : State) : Host.Outcome State Fault Refusal :=
  runCmd 0x0302 s fun s mb c =>
    done (s.modWeirs fun x => { x with dflt := x.dflt.set (fun _ => 0) (bits (wordAt c.payload 0) 2 0) (bits (wordAt c.payload 0) 9 8) }) mb []

/-- A region locked. -/
def lockRgn (s : State) (w r : Nat) : State := s.modWeirs fun x => { x with locked := insertAsc (w * 64 + r) x.locked }

/-- WEIR_REGION_LOCK's effect (R471). -/
def weirRegionLockEff (s : State) (mb : Nat) (c : Cmd) : State :=
  let w := byteAt c.payload 0
  let r := byteAt c.payload 1
  if rgnLocked s w r then done s mb []
  else
    let why := lockRefusal s w r
    if why ≠ 0 then refuse s mb why 0 else done (lockRgn s w r) mb []

/-- WEIR_REGION_LOCK (R471). -/
def execWeirRegionLock (s : State) : Host.Outcome State Fault Refusal := runCmd 0x0303 s weirRegionLockEff

/-- One record WEIR_IMAGE_SKIP (R472). -/
def weirSkip (s : State) (w r why : Nat) (base : Nat) : State :=
  s.raise { code := Ev.weirImageSkip, src := src (weirDomain w) w, addr := base, data := leBytes 1 w ++ leBytes 1 r ++ leBytes 1 why }

/-- One image region applied at step 9, where its number is not locked and it would not be refused as SHADOWS_LOCKED (R472). -/
def applyImgRegion (s : State) (g : ImgRegion) : State :=
  let ws := g.words.map BitVec.toNat
  let base := nth ws 1 0 + 0x100000000 * nth ws 2 0
  if rgnLocked s g.weir g.region then weirSkip s g.weir g.region 3 base
  else if regionRefusal s g.weir g.region ws = 4 then weirSkip s g.weir g.region 4 base
  else setRgn s g.weir g.region ws

/-- One flagged region locked after a power-on reset, unless WEIR_REGION_LOCK would refuse it (R472). -/
def lockImgRegion (s : State) (g : ImgRegion) : State :=
  if rgnLocked s g.weir g.region then s
  else
    let why := lockRefusal s g.weir g.region
    if why ≠ 0 then weirSkip s g.weir g.region why (rgnBase s g.weir g.region) else lockRgn s g.weir g.region

/-- The image's weirs applied at step 9 of R116; `lockToo` after a power-on reset and outside RETURNED (R472). Flags are acted on in ascending region number. -/
def applyWeirs (s : State) (lockToo : Bool) : State :=
  let s := s.modWeirs fun x => { x with
    rgn := Tbl.clear (fun k => !decide (k / 1024 * 64 + k % 1024 / 16 ∈ x.locked)) x.rgn
    dflt := (List.range 8).foldl (fun t w => t.set (fun _ => 0) w (nth s.img.weirDefaults w 0)) ⟨[]⟩ }
  let s := s.img.weirRegions.foldl applyImgRegion s
  if lockToo then
    (List.range 64).foldl (fun s r => (s.img.weirRegions.filter fun g => g.lock && decide (g.region = r)).foldl lockImgRegion s) s
  else s

end Sys2Proof.Machine
end

