-- ==== Sys2Proof/Machine/Power.lean ====
section
/-! DEFINITION. Power domains: votes, holdoff, wake, soft power-down, refusal accounting (R87-R102). -/

namespace Sys2Proof.Machine

/-- A votable domain (R87). -/
def votable (d : Nat) : Bool := decide (4 ≤ d ∧ d ≤ 15)

/-- Client IDs (R89). -/
abbrev Client.saltmaster : Nat := 0x80
abbrev Client.harvest : Nat := 0x81
abbrev Client.twin : Nat := 0x82
abbrev Client.debug : Nat := 0x83

/-- The pan that serves the position of a bed slot (R231, R258); a position that no pan serves keeps the number of the pan that made it. -/
def servingPan (s : State) (key : Nat) : Nat :=
  let b := key / 512
  let i := key / 32 % 16
  ((List.range 17).find? fun j => let p := s.pan (17 * b + j); decide (p.pos = i ∧ p.st ≠ 4 ∧ p.st ≠ 5)).elim (17 * b + i) fun j => 17 * b + j

/-- The in-flight transfer client of a bed slot (R89): 0x1000 + 32 p + s with p the pan that serves the slot's position. -/
def xferClient (s : State) (key : Nat) : Nat := 0x1000 + 32 * servingPan s key + key % 32

/-- The client is an in-flight transfer. -/
def isXfer (c : Nat) : Bool := decide (0x1000 ≤ c)

/-- The clients that hold a vote on a domain, each once (R89, R96). -/
def heldVotes (d : Dom) : List Nat := d.temp.foldl (fun l c => insertAsc c l) d.votes

/-- A PWR_ register of a domain (R102). -/
def domReg (d off : Nat) : Nat := 0x11000 + 0x100 * d + off

/-- The end of power-down entry: 2 µs after it began the domain is OFF (R92 step 3). -/
def refreshDom (s : State) (d : Nat) : State :=
  if (s.dom d).st = .entering ∧ (s.dom d).until_ ≤ s.now then s.modDom d fun x => { x with st := .off } else s

/-- A refusal (reasons 1, 2, 3, 6) or abort (4, 5) counted and logged, newest first of 16 (R100, R101). -/
def domLog (s : State) (d client reason : Nat) : State :=
  (s.incReg (domReg d (if reason = 4 ∨ reason = 5 then 0x1C else 0x18))).modDom d fun x => { x with
    log := ((client, reason, s.now / 1000) :: x.log).take 16, logCount := x.logCount + 1 }

/-- The domain joins the ramp queue in order of arrival, by ascending index with those that arrived together (R97). -/
def rampInsert (s : State) (d : Nat) : List Nat → List Nat
  | [] => [d]
  | e :: r => if (s.dom d).until_ = (s.dom e).until_ ∧ d < e then d :: e :: r else e :: rampInsert s d r

/-- Step 1 of R96: the domain wakes, due within 20 µs. -/
def startWake (s : State) (d : Nat) : State :=
  let s := s.modDom d fun x => { x with st := .waking, until_ := s.now + us 20 }
  s.modPwr fun p => { p with ramp := rampInsert s d p.ramp }

/-- The soft power-down that waits on a domain is refused, REASON 1, naming the client; the domain is ON again (R94, R162). -/
def refuseDrain (s : State) (d client reason : Nat) : State :=
  let s := domLog s d client reason
  let mb := (s.dom d).drainMb
  let s := s.modDom d fun x => { x with st := if x.st = .draining then .on else x.st, drainMb := none, drainWait := false }
  match mb with
  | some m => refuse s m 1 client
  | none => s

/-- A vote (reason 4) or an access (reason 5) of a client reaches a domain: it cancels a holdoff (R92), aborts an entry (R93), wakes an OFF domain (R96), refuses a draining soft request unless it is a transfer (R94). -/
def arrive (s : State) (d client reason : Nat) : State :=
  let s := refreshDom s d
  match (s.dom d).st with
  | .holdoff => s.modDom d fun x => { x with st := .on }
  | .entering => (domLog s d client reason).modDom d fun x => { x with st := .on }
  | .off => startWake s d
  | .draining => if isXfer client then s else refuseDrain s d client 1
  | .waking => if (s.dom d).drainWait ∧ !isXfer client then refuseDrain s d client 1 else s
  | _ => s

/-- A client's vote raised on a votable domain (R89). -/
def raiseVote (s : State) (d client : Nat) : State :=
  if votable d then arrive (s.modDom d fun x => { x with votes := insertAsc client x.votes }) d client 4 else s

/-- A temporary vote raised by an access (R96). -/
def raiseTemp (s : State) (d client : Nat) : State :=
  if votable d then arrive (s.modDom d fun x => { x with temp := x.temp ++ [client] }) d client 5 else s

/-- With its last vote withdrawn an ON domain begins its holdoff (R92). -/
def checkIdle (s : State) (d : Nat) : State :=
  if (s.dom d).st = .on ∧ heldVotes (s.dom d) = [] ∧ votable d then
    s.modDom d fun x => { x with st := .holdoff, until_ := s.now + us (min 1000000 (s.reg 0x1000C).toNat) }
  else s

/-- A client's vote withdrawn (R89, R91). -/
def dropVote (s : State) (d client : Nat) : State :=
  checkIdle (s.modDom d fun x => { x with votes := x.votes.filter fun c => decide (c ≠ client) }) d

/-- A temporary vote withdrawn when its access completes (R96). -/
def dropTemp (s : State) (d client : Nat) : State :=
  checkIdle (s.modDom d fun x => { x with temp := dropFirst (fun c => decide (c = client)) x.temp }) d

/-- A client's votes on every votable domain withdrawn (R91, R105). -/
def dropVotes (s : State) (client : Nat) : State :=
  (List.range 12).foldl (fun s i => if client ∈ (s.dom (4 + i)).votes then dropVote s (4 + i) client else s) s

/-- A domain's power is up and accesses proceed: ON, HOLDOFF or DRAINING, or a service domain (R92, R102). -/
def domUp (s : State) (d : Nat) : Bool :=
  !votable d || decide ((s.dom d).st = .on ∨ (s.dom d).st = .holdoff ∨ (s.dom d).st = .draining)

/-- The domain is DISABLED (R99). -/
def domDisabled (s : State) (d : Nat) : Bool := decide ((s.dom d).st = .disabled)

/-- The ISLAND_ABSENT record, naming the domain and the client (R65, R99); ISL_ABSENT_CNT counts beside it. -/
def absentEv (d client tenant addr : Nat) : Ev :=
  { code := Ev.islandAbsent, src := src d 0, tenant := tenant, cs := Cs.islandAbsent, addr := addr, data := leBytes 2 d ++ leBytes 2 client }

/-- The domains that PWR_VOTE names: bit i of [11:0] is domain 4 + i (R170). -/
def voteDomains (w : Nat) : List Nat := (List.range 12).filterMap fun i => if bit w i then some (4 + i) else none

/-- The payload of PWR_VOTE. -/
def pwrVoteParam (p : List Byte) : Bool := decide (wordAt p 0 &&& 0xFFFEF000 = 0)

/-- The payload of PWR_DOWN: an index outside 4-15 is BAD_PARAM (R94). -/
def pwrDownParam (p : List Byte) : Bool := votable (wordAt p 0)

/-- PWR_VOTE_RAISE (R89, R99): the issuer's votes on the named domains; on a DISABLED domain the vote is held without effect. -/
def execPwrVoteRaise (s : State) : Host.Outcome State Fault Refusal :=
  runCmd 0x0800 s fun s mb c =>
    if bit (wordAt c.payload 0) 16 then
      done ((voteDomains (wordAt c.payload 0)).foldl (fun s d => raiseVote s d (mbTenant mb)) s) mb []
    else s

/-- PWR_VOTE_WITHDRAW (R89). -/
def execPwrVoteWithdraw (s : State) : Host.Outcome State Fault Refusal :=
  runCmd 0x0800 s fun s mb c =>
    if bit (wordAt c.payload 0) 16 then s
    else done ((voteDomains (wordAt c.payload 0)).foldl (fun s d => dropVote s d (mbTenant mb)) s) mb []

/-- The soft power-down of a domain decided (R94). -/
def softDown (s : State) (mb d : Nat) : State :=
  let s := refreshDom s d
  let x := s.dom d
  let votes := heldVotes x
  match votes.filter fun c => !isXfer c with
  | c :: _ => if x.st = .off ∨ x.st = .disabled then done s mb [] else refuse (domLog s d c 1) mb 1 c
  | [] =>
    match x.st with
    | .off | .disabled | .entering => done s mb []
    | st =>
      let s := match votes with
        | c :: _ => domLog s d c 2
        | [] => s
      let lim := us (clampTo 10 100000 (s.reg 0x10010).toNat)
      let s := s.modDom d fun x => { x with
        st := if st = .waking then .waking else .draining, drainWait := decide (st = .waking), drainMb := some mb
        until_ := if st = .waking then x.until_ else s.now + lim }
      waitCmd s mb

/-- PWR_DOWN_SOFT: PWR_DOWN without FORCE (R94). -/
def execPwrDownSoft (s : State) : Host.Outcome State Fault Refusal :=
  runCmd 0x0801 s fun s mb c => if bit c.flags 8 then s else softDown s mb (wordAt c.payload 0)

/-- Entry to power-down begins: bypass, clamps, switches within 2 µs (R92). -/
def startEntry (s : State) (d : Nat) : State := s.modDom d fun x => { x with st := .entering, until_ := s.now + us 2 }

/-- DRAIN_END: the last transfer vote of a draining domain is withdrawn and it powers down without a holdoff (R94). -/
def execDrainEnd (d : Fin 18) (s : State) : Host.Outcome State Fault Refusal :=
  .next (let x := s.dom d.val
    if x.st = .draining ∧ heldVotes x = [] then
      let s := startEntry (s.modDom d.val fun x => { x with drainMb := none }) d.val
      match x.drainMb with
      | some m => done s m []
      | none => s
    else s)

/-- DRAIN_LIMIT_EXPIRE: transfer votes remain after PWR_DRAIN_LIMIT; the request is refused and the domain is ON (R94). -/
def execDrainLimitExpire (d : Fin 18) (s : State) : Host.Outcome State Fault Refusal :=
  .next (match (s.dom d.val).st, heldVotes (s.dom d.val) with
    | .draining, c :: _ => refuseDrain (s.atTime (s.dom d.val).until_) d.val c 3
    | _, _ => s)

/-- HOLDOFF_EXPIRE: the holdoff ends with no vote raised, and entry begins (R92). -/
def execHoldoffExpire (d : Fin 18) (s : State) : Host.Outcome State Fault Refusal :=
  .next (if (s.dom d.val).st = .holdoff then startEntry (s.atTime (s.dom d.val).until_) d.val else s)

/-- RAMP_SLOT_START: the next 1 µs ramp slot serves the domain that arrived first; its power switches close (R96 step 2, R97). -/
def execRampSlotStart (s : State) : Host.Outcome State Fault Refusal :=
  .next (s.modPwr fun p => { p with ramp := p.ramp.tail })

/-- RELEASE of PWR_DOM_CTL (R95, R99, R102): a FORCED disable ends and the domain is OFF; one that holds any vote wakes. -/
def domRelease (s : State) (d v : Nat) : State :=
  if bit v 0 ∧ (s.dom d).st = .disabled ∧ (s.dom d).reason = 3 then
    let s := s.modDom d fun x => { x with st := .off, reason := 0 }
    if heldVotes (s.dom d) = [] then s else startWake s d
  else s

/-- PWR_DOM_RELEASE: a write of PWR_DOM_CTL (R102). -/
def execPwrDomRelease (d : Fin 18) (v : Word) (s : State) : Host.Outcome State Fault Refusal := .next (domRelease s d.val v.toNat)

end Sys2Proof.Machine
end

