-- ==== Sys2Proof/Machine/Personality.lean ====
section
/-! DEFINITION. The personality table (R329-R339): its fields, its check, roles, address spaces and regions. -/

namespace Sys2Proof.Machine

/-- The image's entry for a port; a port the image does not list is absent. -/
def imgPort (s : State) (p : Nat) : ImgPort := nth s.img.ports p { factoryPort with absent := true }

/-- The table the image holds for a port (R329). -/
def persBytes (s : State) (p : Nat) : Option (List Byte) := (imgPort s p).pers

/-- The bytes of the image's table, empty where it holds none. -/
def persT (s : State) (p : Nat) : List Byte := (persBytes s p).getD []

/-- Fields of R329. -/
def persKind (t : List Byte) : Nat := byteAt t 4
def persRetryEn (t : List Byte) : Bool := bit (byteAt t 5) 0
def persMux (t : List Byte) : Bool := bit (byteAt t 5) 1
def persBigEndian (t : List Byte) : Bool := bit (byteAt t 5) 2
def persClkOut (t : List Byte) : Bool := bit (byteAt t 5) 3
def persDataWidth (t : List Byte) : Nat := byteAt t 6
def persAddrWidth (t : List Byte) : Nat := byteAt t 7
def persErrNoAck (t : List Byte) : Bool := decide (byteAt t 0xA = 1)
def persRegions (t : List Byte) : Nat := byteAt t 0xB
def persP2Widths (t : List Byte) : Nat := field t 0xC 2
def persUam (t : List Byte) : Nat := wordAt t 0x10

/-- LINE_MAP entry `k`, 0-48 (R330). -/
def lineMap (t : List Byte) (k : Nat) : Nat := wordAt t (0x20 + 4 * k)

/-- The role of line `k` (R330, R331). -/
def lineRole (t : List Byte) (k : Nat) : Nat := bits (lineMap t k) 7 0

/-- The line that has a role (R331), if any. -/
def roleLine (t : List Byte) (role : Nat) : Option Nat := (List.range 49).find? fun k => decide (lineRole t k = role)

/-- TIMING parameter `j` (R333). -/
def timing (t : List Byte) (j : Nat) : Nat := field t (0xF0 + 2 * j) 2

/-- Word `i` of region `r` (R338). -/
def regionWord (t : List Byte) (r i : Nat) : Nat := wordAt t (0x110 + 32 * r + 4 * i)

/-- The personalities (1-4) that a role code belongs to (R331). -/
def roleOf (role kind : Nat) : Bool :=
  decide (role = 0 ∨ (kind = 1 ∧ 0x01 ≤ role ∧ role ≤ 0x28) ∨ (kind = 2 ∧ 0x40 ≤ role ∧ role ≤ 0x58)
    ∨ (3 ≤ kind ∧ ((0x80 ≤ role ∧ role ≤ 0xA1) ∨ role = 0xA5 ∨ (0xC0 ≤ role ∧ role ≤ 0xDF)))
    ∨ (kind = 4 ∧ 0xA2 ≤ role ∧ role ≤ 0xA4))

/-- The roles that must be present (R335): `arb` is PA_ARB_CTL, `irq` whether a route is enabled or the interrupter names a level, `slave` whether the port has a slave region. -/
def mandatoryRoles (t : List Byte) (arb : Nat) (irq slave : Bool) : List Nat :=
  let k := persKind t
  if k = 1 then
    [1, 2, 3, 4, 5, 6, 0x0A, 0x0C, 0x0D, 0x0E, 0x0F, 0x10, 0x11]
      ++ (if bits arb 5 4 ≠ 0 then (List.range 12).map fun i => 0x12 + i
          else [0x12 + arb % 4, 0x16 + arb % 4, 0x1A + arb % 4])
      ++ (if irq then [7, 8, 9] else []) ++ (if bits arb 5 4 ≠ 0 then [0x0B] else []) ++ (if bit arb 7 then [0x28] else [])
  else if k = 2 then
    [0x40, 0x41, 0x42, 0x43, 0x44, 0x45, 0x49, 0x4A, 0x4B, 0x4C, 0x4D] ++ (if persClkOut t then [0x4E, 0x4F] else [])
  else
    (if k = 3 then [0x80, 0x81, 0x82, 0x83] ++ (if persRetryEn t then [0x85] else []) else [0xA4, 0x82, 0xA2])
      ++ (if slave then [0x94, 0x95] else [])
      ++ (if persMux t then [] else (List.range (persAddrWidth t + persDataWidth t - 64)).map fun i => 0xC0 + i)

/-- TIMING parameter `j` lies in its range under a personality; one the table marks as ignored is 0 (R333, R334). -/
def timingOk (kind j v : Nat) : Bool :=
  if j ≥ 14 then decide (v = 0)
  else if j ≥ 12 then decide (2 ≤ v ∧ v ≤ 64)
  else if j ≥ 8 then
    if kind = 4 then (if j = 11 then decide (v ∈ [8, 16, 32, 64, 128, 256]) else decide (1 ≤ v ∧ v ≤ 15)) else decide (v = 0)
  else if kind = 4 ∨ (kind = 2 ∧ (j = 1 ∨ j = 7)) then decide (v = 0)
  else if j = 3 then decide (2 ≤ v ∧ v ≤ 8)
  else true

/-- LINE_MAP entry `k` is well formed (R330, R331, R334): reserved bits 0, a role of this personality assigned once, the bits of P2-P4 alone. -/
def lineOk (t : List Byte) (k : Nat) : Bool :=
  let e := lineMap t k
  let role := bits e 7 0
  let kind := persKind t
  decide (e / 2 ^ 19 = 0) && roleOf role kind
    && (decide (role = 0) || (List.range k).all fun j => decide (lineRole t j ≠ role))
    && (decide (3 ≤ kind) || decide (bits e 17 16 = 0)) && (decide (2 ≤ kind) || !bit e 18)
    && (decide (k < 48) || decide (kind = 4) || decide (role = 0))

/-- The fields of region entry `r` in offset order (R338), each with whether it passes (R334). The last entry is the default region, whose address fields are ignored and which must be valid (R339). An entry not in use need only have its reserved bits 0. -/
def regionChecks (t : List Byte) (r : Nat) : List (Nat × Bool) :=
  let w := regionWord t r
  let o := 0x110 + 32 * r
  let last := decide (r + 1 = persRegions t)
  let used := bit (w 0) 0
  let addressed := used && !last
  let l := bits (w 0) 29 24
  [(o, decide (bits (w 0) 7 1 = 0) && (used || !last)),
   (o + 0x01, decide (bits (w 0) 15 14 = 0)),
   (o + 0x02, decide (bits (w 0) 23 22 = 0)),
   (o + 0x03, decide (bits (w 0) 31 30 = 0) && (!addressed || decide (12 ≤ l ∧ l ≤ 36))),
   (o + 0x04, !addressed || decide ((w 1 + 0x100000000 * w 2) % 2 ^ l = 0)),
   (o + 0x0C, decide (bits (w 3) 7 3 = 0) && (!used || decide (bits (w 3) 1 0 ≠ 3))),
   (o + 0x0D, !used || decide (9 ≤ bits (w 3) 15 8 ∧ bits (w 3) 15 8 ≤ 64)),
   (o + 0x0E, !used || decide (5 ≤ bits (w 3) 23 16 ∧ bits (w 3) 23 16 ≤ 100)),
   (o + 0x0F, decide (bits (w 3) 31 24 = 0)),
   (o + 0x10, !used || decide (1 ≤ bits (w 4) 15 0 ∧ bits (w 4) 15 0 ≤ 50000)),
   (o + 0x12, !used || decide (1 ≤ bits (w 4) 31 16 ∧ bits (w 4) 31 16 ≤ 50000)),
   (o + 0x14, !used || decide (1 ≤ bits (w 5) 15 0 ∧ bits (w 5) 15 0 ≤ bits (w 4) 31 16)),
   (o + 0x16, decide (bits (w 5) 31 16 = 0))]

/-- The fields of a table in offset order, each with whether it passes (R334). -/
def persChecks (t : List Byte) (arb : Nat) (irq slave : Bool) : List (Nat × Bool) :=
  let k := persKind t
  let n := persRegions t
  let f := byteAt t 5
  let dw := persDataWidth t
  let clk := field t 8 2
  [(0x000, decide (wordAt t 0 = 0x53504B49)),
   (0x004, decide (1 ≤ k ∧ k ≤ 4)),
   (0x005, decide (f < 16) && (decide (k = 3) || !bit f 0) && (decide (3 ≤ k) || decide (bits f 2 1 = 0)) && (decide (k = 2 ∨ k = 4) || !bit f 3)),
   (0x006, if k = 1 then decide (dw = 32 ∨ dw = 64) else if k = 2 then decide (dw = 16) else decide (dw = 8 ∨ dw = 16 ∨ dw = 32 ∨ dw = 64)),
   (0x007, decide (k ≤ 2) || (decide (8 ≤ persAddrWidth t ∧ persAddrWidth t ≤ 64) && (persMux t || decide (persAddrWidth t ≤ 96 - dw)))),
   (0x008, if k = 2 ∧ persClkOut t then decide (1 ≤ clk ∧ clk ≤ 100) else if k = 4 then decide (1 ≤ clk ∧ clk ≤ 1000) else decide (clk = 0)),
   (0x00A, decide (byteAt t 0xA ≤ 1)),
   (0x00B, decide (1 ≤ n ∧ n ≤ 64)),
   (0x00C, decide (persP2Widths t < 4)),
   (0x00E, decide (field t 0xE 2 = 0)),
   (0x010, (List.range 16).all fun i => decide (bits (persUam t) (2 * i + 1) (2 * i) ≠ 3)),
   (0x014, decide (wordAt t 0x14 = 0x114 + 32 * n ∧ t.length = 0x114 + 32 * n)),
   (0x018, decide (field t 0x18 8 = 0))]
  ++ (List.range 49).map (fun i => (0x20 + 4 * i, lineOk t i))
  ++ [(0x020, (mandatoryRoles t arb irq slave).all fun r => (roleLine t r).isSome)]
  ++ (List.range 8).map (fun i => (0xE4 + i, decide (byteAt t (0xE4 + i) < 16)))
  ++ [(0x0EC, decide (wordAt t 0xEC = 0))]
  ++ (List.range 16).map (fun j => (0xF0 + 2 * j, timingOk k j (timing t j)))
  ++ (List.range n).flatMap (regionChecks t)
  ++ [(0x110 + 32 * n, decide (wordAt t (0x110 + 32 * n) = (crc32c (t.take (0x110 + 32 * n))).toNat))]

/-- An interrupt route of the port is enabled, or its interrupter names a level (R335). -/
def irqConfigured (s : State) (p : Nat) : Bool :=
  (List.range 8).any (fun l => (s.reg (paReg p (0x100 + 0x10 * l))).getLsbD 0) || decide ((s.reg (paReg p 0x180)).toNat % 8 ≠ 0)

/-- Word `i` of slave region `r` of a port (R304). -/
def slvWord (s : State) (p r i : Nat) : Nat := (Tbl.get (fun _ => 0#32) (s.port p).slv (r * 8 + i)).toNat

/-- The port has a slave region enabled. -/
def hasSlave (s : State) (p : Nat) : Bool := (List.range 16).any fun r => bit (slvWord s p r 1) 0

/-- The check of R334 on a port's table: kind 4 with offset 0 where the image holds none, kind 2 with the offset of the first failing field, none where it passes. -/
def persFail (s : State) (p : Nat) : Option (Nat × Nat) :=
  match persBytes s p with
  | none => some (4, 0)
  | some t =>
    match (persChecks t (s.reg (paReg p 4)).toNat (irqConfigured s p) (hasSlave s p)).find? fun c => !c.2 with
    | some c => some (2, c.1)
    | none => none

/-- PERSONALITY_INVALID, with the port and the offset of the first failing field; PA_PERS_FAULT latches kind and offset (R334). -/
def persInvalid (s : State) (p kind off : Nat) : State :=
  (s.setReg (paReg p 0x1008) (w32 (kind + off * 65536))).raise
    { code := Ev.personalityInvalid, src := srcPort p, data := leBytes 2 p ++ leBytes 2 off }

/-- The table loaded into the sequencer and checked (R296 step 2, R326 step 2): whether it passed. -/
def loadPers (s : State) (p : Nat) : Bool × State :=
  match persFail s p with
  | some (kind, off) => (false, persInvalid (s.modPort p fun q => { q with persOk := false, loaded := none }) p kind off)
  | none => (true, s.modPort p fun q => { q with persOk := true, loaded := persBytes s p, arbCtl := s.reg (paReg p 4) })

/-! ## Regions -/

/-- The region of an access (R339): the lowest-numbered valid region whose space and range hold its first byte, else the default region. -/
def regionOf (s : State) (p space addr : Nat) : Nat :=
  let t := persT s p
  let n := persRegions t
  let hit := (List.range (n - 1)).find? fun r =>
    let w0 := regionWord t r 0
    let m := bits w0 21 16
    let base := regionWord t r 1 + 0x100000000 * regionWord t r 2
    bit w0 0 && decide (space &&& m = bits w0 13 8 &&& m) && decide (base ≤ addr ∧ addr < base + 2 ^ bits w0 29 24)
  hit.getD (n - 1)

/-- A port region's read class (R338); a port without a table is taken as SIDE_EFFECT. -/
def regionClass (s : State) (p r : Nat) : Nat :=
  match persBytes s p with
  | none => 2
  | some t => bits (regionWord t r 3) 1 0

/-- The link region of an address (R453): the first of the link's 16 regions whose range holds it; `none` where no region does. -/
def linkRegionWord (s : State) (k r i : Nat) : Nat := (nth (nth (nth s.img.links k factoryLink).regions r []) i 0#32).toNat

/-! ## Address spaces (R301-R303) -/

/-- The address width in bits of a P1 space code, 0 where it is not offered (R301). -/
def p1Width (t : List Byte) (c : Nat) : Nat :=
  if c ∈ [0x29, 0x2D] then 16
  else if c ∈ [0x38, 0x39, 0x3A, 0x3B, 0x3C, 0x3D, 0x3E, 0x3F] then 24
  else if c ∈ [0x08, 0x09, 0x0A, 0x0B, 0x0C, 0x0D, 0x0E, 0x0F] then 32
  else if 0x10 ≤ c ∧ c ≤ 0x1F then
    let k := c - 0x10
    [16, 24, 32, 0].getD (bits (persUam t) (2 * k + 1) (2 * k)) 0
  else 0

/-- A BLT and an MBLT code (R301). -/
def isBlt (c : Nat) : Bool := decide (c ∈ [0x3B, 0x3F, 0x0B, 0x0F])
def isMblt (c : Nat) : Bool := decide (c ∈ [0x38, 0x3C, 0x08, 0x0C])

/-- The address width of a space code on a port, 0 where it is not offered (R301, R303). -/
def spaceWidth (s : State) (p c : Nat) : Nat :=
  let t := persT s p
  match persKind t with
  | 1 => p1Width t c
  | 2 => if c = 0 then (if bit (persP2Widths t) 0 then 24 else 16) else if c = 1 then (if bit (persP2Widths t) 1 then 16 else 8) else 0
  | 3 | 4 =>
    let lines := ((List.range 6).filter fun i => (roleLine t (0x86 + i)).isSome).length
    if c < 2 ^ lines then persAddrWidth t else 0
  | _ => 0

/-- A WIDTH code (0-3) is offered with a space code (R302, R303, R213 result 9). -/
def widthOffered (s : State) (p c w : Nat) : Bool :=
  let t := persT s p
  match persKind t with
  | 1 => decide (w ≤ 2) || isMblt c
  | 2 => decide (w ≤ 1)
  | 3 | 4 => decide (8 * 2 ^ w ≤ persDataWidth t)
  | _ => false

/-- A format is offered: WIDTH, SPACE, and a range `[base, base + size)` within the code's addresses (R209, R301, R303). -/
def formatOffered (s : State) (p c w base size : Nat) : Bool :=
  let a := spaceWidth s p c
  widthOffered s p c w && decide (0 < a) && decide (base + size ≤ 2 ^ a)

end Sys2Proof.Machine
end

