-- ==== Sys2Proof/Machine/Profile.lean ====
section
/-! DEFINITION. Timing profiles (R341-R349): samples, sub-windows, adaptation, drift. -/

namespace Sys2Proof.Machine

/-- The key of region `r` of port `p`. -/
def profKey (p r : Nat) : Nat := p * 64 + r

/-- Settings in force (R338 words 3-5). -/
def profAuto (x : Prof) : Bool := x.w3.getLsbD 2
def profMargin (x : Prof) : Nat := bits x.w3.toNat 15 8
def profDrift (x : Prof) : Nat := bits x.w3.toNat 23 16
def profTimeout (x : Prof) : Nat := bits x.w4.toNat 15 0
def profCap (x : Prof) : Nat := bits x.w4.toNat 31 16
def profFloor (x : Prof) : Nat := bits x.w5.toNat 15 0

/-- The region is warm: 16 sub-windows complete (R343). -/
def warm (x : Prof) : Bool := decide (16 ≤ x.subs.length)

/-- The effective timeout in µs (R342, R343); 0 stands for TIMEOUT. -/
def effTimeout (x : Prof) : Nat := if x.t = 0 then profTimeout x else x.t

/-- Sampling periods of 1.25 ns in ns, rounded up (R333, R349). -/
def perNs (n : Nat) : Nat := (5 * n + 3) / 4

/-- MIN, MEAN, MAX and BEAT_MAX in ns over the complete sub-windows (R343, R349). -/
def profMin (x : Prof) : Nat := match x.subs with
  | [] => 0
  | u :: r => perNs (r.foldl (fun m v => min m v.min) u.min)
def profMean (x : Prof) : Nat := if x.subs = [] then 0 else
  let n := 256 * x.subs.length
  (5 * (x.subs.map fun u => u.sum).sum + (4 * n - 1)) / (4 * n)
def profMax (x : Prof) : Nat := perNs (x.subs.foldl (fun m v => max m v.max) 0)
def profBeat (x : Prof) : Nat := perNs (x.subs.foldl (fun m v => max m v.beat) 0)

/-- The key of a stored drift reference: port, region, BASE, LOG2SIZE and SPACE (R344). -/
def refKey (s : State) (p r : Nat) : List Nat :=
  let t := persT s p
  [p, r, regionWord t r 1, regionWord t r 2, bits (regionWord t r 0) 29 24, bits (regionWord t r 0) 13 8]

/-- The stored reference of a region. -/
def storedRef (s : State) (p r : Nat) : Option (Nat × Nat) :=
  (s.mram.refs.find? fun e => decide (e.1 = refKey s p r)).map fun e => e.2

/-- The reference in force: image values where nonzero, stored values else (R344). -/
def refOf (s : State) (p r : Nat) : Nat × Nat :=
  let t := persT s p
  let st := (storedRef s p r).getD (0, 0)
  (if regionWord t r 6 ≠ 0 then regionWord t r 6 else st.1, if regionWord t r 7 ≠ 0 then regionWord t r 7 else st.2)

/-- A region's base on the bus. -/
def regionBase (s : State) (p r : Nat) : Nat := regionWord (persT s p) r 1 + 0x100000000 * regionWord (persT s p) r 2

/-- The block data of the drift records (R345), 4 bytes each. -/
def driftData (x : Prof) (r lvl : Nat) (ref : Nat × Nat) : List Byte :=
  bytesOfWords [r, lvl, profMean x, profMax x, ref.1, ref.2, effTimeout x]

/-- Adaptation of the effective timeout (R343). -/
def adapt (s : State) (p r : Nat) : State :=
  let x := s.prof (profKey p r)
  let t := effTimeout x
  if warm x ∧ profAuto x then
    let target := (profMax x * profMargin x + 7999) / 8000
    let target := min (max target (profFloor x)) (profCap x)
    let t' := if t ≤ target then target else max target ((t + 1) / 2)
    let s' := s.modProf (profKey p r) fun x => { x with t := t', capped := decide (target = profCap x) }
    let s' := if t' ≠ t then s'.incReg (paReg p 0x100C) else s'
    if target = profCap x ∧ !x.capped then
      s'.raise { code := Ev.profileCapped, src := srcPort p, addr := regionBase s p r, data := leBytes 4 r ++ leBytes 4 t' }
    else s'
  else
    let s' := s.modProf (profKey p r) fun x => { x with t := profTimeout x }
    if profTimeout x ≠ t then s'.incReg (paReg p 0x100C) else s'

/-- A first warm computation stores the values the image leaves open (R344). -/
def takeRef (s : State) (p r : Nat) : State :=
  let x := s.prof (profKey p r)
  let t := persT s p
  if warm x ∧ storedRef s p r = none ∧ (regionWord t r 6 = 0 ∨ regionWord t r 7 = 0) then
    let s := s.modMram fun m => { m with refs := m.refs ++ [(refKey s p r, profMean x, profMax x)] }
    s.raise { code := Ev.profileRef, src := srcPort p, addr := regionBase s p r, data := bytesOfWords [r, profMean x, profMax x] }
  else s

/-- Drift of a warm region against its reference (R345). -/
def driftCheck (s : State) (p r : Nat) : State :=
  let x := s.prof (profKey p r)
  let ref := refOf s p r
  if warm x ∧ ref.1 ≠ 0 ∧ ref.2 ≠ 0 ∧ profDrift x ≠ 0 then
    let dist := if profMean x ≤ ref.1 then ref.1 - profMean x else profMean x - ref.1
    let lvl := max (100 * dist / (ref.1 * profDrift x)) (100 * (profMax x - ref.2) / (ref.2 * profDrift x))
    if x.level < lvl then
      ((s.modProf (profKey p r) fun x => { x with level := lvl }).incReg (paReg p 0x1010)).raise
        { code := Ev.profileDrift, src := srcPort p, addr := regionBase s p r, data := driftData x r lvl ref }
    else if lvl = 0 ∧ x.level ≠ 0 then
      (s.modProf (profKey p r) fun x => { x with level := 0 }).raise
        { code := Ev.profileDriftEnd, src := srcPort p, addr := regionBase s p r, data := driftData x r 0 ref }
    else s
  else s

/-- The whole evaluation of a sub-window completion (R343-R345, R347). -/
def evalProfile (s : State) (p r : Nat) : State := driftCheck (takeRef (adapt s p r) p r) p r

/-- A sample enters a region's profile; the 256th completes a sub-window, and the whole evaluation runs (R341, R343). None is taken while the port is not in service (R347). -/
def takeSample (s : State) (p r sample beat : Nat) : State :=
  if (s.port p).st = .inService then
    let x := s.prof (profKey p r)
    let part := x.part ++ [(sample, beat)]
    if part.length < 256 then s.modProf (profKey p r) fun x => { x with part := part }
    else
      let ss := part.map fun q => q.1
      let u : SubWin := { min := ss.foldl min sample, sum := ss.sum, max := ss.foldl max 0, beat := (part.map fun q => q.2).foldl max 0 }
      evalProfile (s.modProf (profKey p r) fun x => { x with part := [], subs := (u :: x.subs).take 16 }) p r
  else s

/-- The profiles after a boot: every setting at its image value, no sub-window, stored references kept (R347). -/
def bootProfiles (s : State) : State :=
  let s := { s with profs := (⟨[]⟩ : Tbl Prof) }
  (List.range 2).foldl (fun s p =>
    (List.range (persRegions (persT s p))).foldl (fun s r =>
      s.modProf (profKey p r) fun x => { x with
        w3 := w32 (regionWord (persT s p) r 3), w4 := w32 (regionWord (persT s p) r 4), w5 := w32 (regionWord (persT s p) r 5) }) s) s

/-- The eight words of PA_PROF (R349). -/
def profWords (s : State) (p r : Nat) : List Nat :=
  let x := s.prof (profKey p r)
  let ref := refOf s p r
  [256 * x.subs.length + b2n (profAuto x) * 2 ^ 16 + b2n (warm x) * 2 ^ 17 + b2n x.frozen * 2 ^ 18 + min x.level 15 * 2 ^ 24,
   profMin x, profMean x, profMax x, profBeat x, effTimeout x, ref.1, ref.2]

/-- Word 0 of the profile commands: [0] port, [13:8] region below REGION_COUNT (R346). -/
def profWord0 (s : State) (p : List Byte) : Bool :=
  let w := wordAt p 0
  decide (w &&& 0xFFFFC0FE = 0 ∧ bits w 13 8 < persRegions (persT s (w % 2)))

/-- The payload of PROFILE_GET. -/
def profileGetParam (s : State) (p : List Byte) : Bool := profWord0 s p && decide (wordAt p 4 = 0)

/-- The payload of PROFILE_SET: fields in the ranges of R338, FLOOR at most CAP (R346). -/
def profileSetParam (s : State) (p : List Byte) : Bool :=
  let w1 := wordAt p 4
  let w2 := wordAt p 8
  let w3 := wordAt p 12
  profWord0 s p && decide (w1 &&& 0xFF0000FB = 0 ∧ w3 / 65536 = 0)
    && decide (9 ≤ bits w1 15 8 ∧ bits w1 15 8 ≤ 64 ∧ 5 ≤ bits w1 23 16 ∧ bits w1 23 16 ≤ 100)
    && decide (1 ≤ bits w2 15 0 ∧ bits w2 15 0 ≤ 50000 ∧ 1 ≤ bits w2 31 16 ∧ bits w2 31 16 ≤ 50000)
    && decide (1 ≤ bits w3 15 0 ∧ bits w3 15 0 ≤ 50000 ∧ bits w3 15 0 ≤ bits w2 31 16)

/-- The payload of PROFILE_CLEAR. -/
def profileClearParam (s : State) (p : List Byte) : Bool := profWord0 s p && decide (wordAt p 4 < 4)

/-- One region cleared (R344, R347): sub-windows gone, t back at TIMEOUT; with REF the stored values dropped. -/
def clearProfile (s : State) (p r : Nat) (ref : Bool) : State :=
  let s := s.modProf (profKey p r) fun x => { x with part := [], subs := [], t := profTimeout x, capped := false }
  if ref then
    (s.modProf (profKey p r) fun x => { x with level := 0 }).modMram fun m => { m with
      refs := m.refs.filter fun e => decide (e.1 ≠ refKey s p r) }
  else s

end Sys2Proof.Machine
end

