-- ==== Sys2Proof/Machine/Access.lean ====
section
/-! DEFINITION. Accesses on their way to a target (R15-R31, R65, R96-R99, R298, R464): what meets them at the stop, and how they end. -/

namespace Sys2Proof.Machine

/-- The domain of a target: ports in PA and PB, links in SL (R15). -/
def targetDomain (t : Nat) : Nat := if t = 0 then 12 else if t = 1 then 13 else if t ≤ 5 then 14 else 2

/-- The client that an access stands for (R89). -/
def accClient (s : State) (a : Acc) : Nat :=
  match a.origin with
  | .read u => match s.reads.find? (fun r => decide (r.uid = u)) with
    | some r => match r.who with
      | .host _ _ => a.tenant
      | .seg k _ => xferClient s k
    | none => a.tenant
  | .hostWrite => a.tenant
  | .seg k _ => xferClient s k
  | .harvest _ _ _ => Client.harvest

/-- The access's first byte (R466). -/
def accFirst (a : Acc) : Nat := a.addr + firstSome a.bytes

/-- The weir record's source code of an access (R474). -/
def accSource (s : State) (a : Acc) : Nat :=
  match a.origin with
  | .read _ => if accClient s a < 0x1000 then 0 else 1
  | .hostWrite => 0
  | .seg _ _ => 1
  | .harvest _ _ _ => 2

/-- The weir record's kind code of an access (R474). -/
def accKind (a : Acc) : Nat :=
  match a.kind with
  | .read => 0
  | .write => 1
  | .rmw => 2

/-- The source block of a target's records. -/
def srcTarget (t : Nat) : Nat := if t ≤ 1 then srcPort t else if t ≤ 5 then srcLink (t - 2) else srcHc

/-- The target is marked absent in the image, or its banks are tied to VSS (R65). -/
def targetAbsent (s : State) (t : Nat) : Bool :=
  if t ≤ 1 then (imgPort s t).absent || decide ((s.port t).st = .absent)
  else if t ≤ 5 then (nth s.img.links (t - 2) factoryLink).absent
  else false

/-- The result of an access given to who waits for it: a read's record, a pan slot that still holds that segment, the harvest engine. A window write's outcome is its ticket's. -/
def deliver (s : State) (a : Acc) (e : AccEnd) : State :=
  match a.origin with
  | .read u => s.modReads fun rs => modFirst (fun r => decide (r.uid = u)) (fun r => { r with res := (match r.res with | some x => if x.cs = Cs.done then some e else some x | none => some e), stage := .back }) rs
  | .hostWrite => s
  | .seg k o =>
    if (s.slot k).busy ∧ (s.slot k).order = o then
      match a.kind with
      | .write => if e.cs = Cs.done ∨ (s.slot k).accepted then s else s.modSlot k fun x => { x with fail := some (e.cs, e.addr, 0), accepted := true }
      | _ => s.modSlot k fun x => { x with rackBack := some e }
    else s
  | .harvest h f i => s.modHar fun x => { x with back := x.back.set (fun _ => none) a.target (some (h, f, i, e)) }

/-- The temporary vote of an access withdrawn (R96). -/
def dropAccVote (s : State) (a : Acc) : State :=
  match a.temp with
  | some c => dropTemp s (targetDomain a.target) c
  | none => s

/-- An access ends: its temporary vote is withdrawn (R96) and its result delivered. -/
def accEnd (s : State) (a : Acc) (e : AccEnd) : State :=
  deliver (dropAccVote s a) a e

/-- The pan slot that an access reads for. -/
def accSlot (s : State) (a : Acc) : Option Nat :=
  match a.origin with
  | .seg k _ => some k
  | .read u => match s.reads.find? (fun r => decide (r.uid = u)) with
    | some r => match r.who with
      | .seg k _ => some k
      | .host _ _ => none
    | none => none
  | _ => none

/-- A queue fault's record carries the queue's high-water mark, q and INDEX (R286), where its own rule gives no block data. -/
def queueEv (s : State) (q index : Nat) (e : Ev) : Ev :=
  { e with ticket := (s.q q).hwm, data := if e.data = [] then leBytes 4 q ++ leBytes 4 index else e.data }

/-- The INDEX of the descriptor in a slot. -/
def slotIndex (s : State) (k : Nat) : Nat :=
  match (s.q (s.slot k).queue).descs.find? fun d => decide (d.uid = (s.slot k).uid) with
  | some d => d.index
  | none => 0

/-- The record of a failed read: none for a harvest point, which has its own (R402), nor for the error of a segment's source, which the descriptor's fault records (R286: FAR_ERROR or LATE_ERROR). -/
def readRec (s : State) (a : Acc) (e : Ev) : Option Ev :=
  match a.origin with
  | .harvest _ _ _ => none
  | _ => match accSlot s a with
    | none => some e
    | some k => if e.code = Ev.farError ∧ a.kind = .read then none else some (queueEv s (s.slot k).queue (slotIndex s k) e)

/-- An access fails with a CS at an address: a ticket settles, or a read's record is written (R25, R217, R367). An access to what is absent or out of service reads all ones (R65, R99, R298); `got` are the bytes read before the failing cycle. -/
def failAccGot (s : State) (a : Acc) (cs addr beat : Nat) (got : List (Option Byte)) (ev : Option Ev) : State :=
  let s := if a.ticket ≠ 0 then settle s a.tenant a.ticket cs addr ev
    else raiseOpt s ((ev.bind (readRec s a)).map fun e => { e with tenant := a.tenant, cs := cs, addr := addr })
  let data := if cs = Cs.islandAbsent then a.bytes.map fun b => b.map fun _ => 0xFF#8 else got
  accEnd s a { cs := cs, addr := addr, data := data, beat := beat }

/-- An access that fails with none of its bytes read. -/
def failAcc (s : State) (a : Acc) (cs addr beat : Nat) (ev : Option Ev) : State := failAccGot s a cs addr beat [] ev

/-- The access is accepted at the target stop, after the weir check (R28): it waits at the port, or enters the link's queue of messages. -/
def acceptAcc (s : State) (a : Acc) : State :=
  let s := match a.origin, a.kind with
    | .seg k o, .write => if (s.slot k).busy ∧ (s.slot k).order = o then s.modSlot k fun x => { x with accepted := true, wr := x.rd } else s
    | _, _ => s
  if a.target ≤ 1 then s.modPort a.target fun p => { p with waiting := p.waiting ++ [a] }
  else s.modLink (a.target - 2) fun l => { l with txQ := l.txQ ++ [{ cls := if a.kind = .write then 0 else 1, bytes := [], req := some a, off := 0 }] }

/-- The weir in front of the target decides (R21, R466, R473). Port and link targets 0-5 are guarded by WE0-WE5. -/
def weirAcc (s : State) (a : Acc) : State :=
  if weirAllows s a.target a.tenant a.space (accFirst a) (decide (a.kind ≠ .write)) (decide (a.kind ≠ .read)) then acceptAcc s a
  else
    let e := denyEv s a.target a.tenant a.space (accFirst a) (accKind a) (accSource s a)
    failAcc (denyLatch s a.target a.tenant a.space (accFirst a) (accKind a) (accSource s a)) a Cs.weirDeny (accFirst a) 0 (some e)

/-- The target's own containment, service state and session meet an access (R195, R298, R324, R456), then the domain's power (R96, R99), then the weir. -/
def sendAcc (s : State) (a : Acc) : State :=
  let d := targetDomain a.target
  if targetAbsent s a.target then
    failAcc (s.incReg 0x10014) a Cs.islandAbsent (accFirst a) 0 (some (absentEv d (accClient s a) a.tenant (accFirst a)))
  else if a.target ≤ 1 ∧ s.portCause a.target ≠ 0 then
    failAcc s a Cs.contained (accFirst a) 0 (some { code := Ev.contained, src := srcPort a.target, key := a.target + 1 })
  else if a.target ≤ 1 ∧ (s.port a.target).st ≠ .inService then
    failAcc (s.incReg (paReg a.target 0x4C)) a Cs.islandAbsent (accFirst a) 0 (some { code := Ev.portNotInService, src := srcPort a.target, key := a.target + 1 })
  else if 2 ≤ a.target ∧ s.linkCause (a.target - 2) ≠ 0 then
    failAcc s a Cs.contained (accFirst a) 0 (some { code := Ev.contained, src := srcTarget a.target })
  else if 2 ≤ a.target ∧ ((s.link (a.target - 2)).st = .outOfService ∨ (s.link (a.target - 2)).stopMb.isSome) then
    failAcc s a Cs.islandAbsent (accFirst a) 0 (some { code := Ev.portNotInService, src := srcTarget a.target, key := 0x10 + a.target })
  else if domDisabled s d then
    failAcc (s.incReg 0x10014) a Cs.islandAbsent (accFirst a) 0 (some (absentEv d (accClient s a) a.tenant (accFirst a)))
  else if 2 ≤ a.target ∧ (s.link (a.target - 2)).st ≠ .up ∧ (s.link (a.target - 2)).st ≠ .held then
    failAcc s a Cs.linkDown (accFirst a) 0 (some { code := Ev.linkNotUp, src := srcTarget a.target, key := 0x10 + a.target })
  else if domUp s d then weirAcc s a
  else
    let a := { a with temp := some (accClient s a) }
    let s := raiseTemp s d (accClient s a)
    if domUp s d then weirAcc s a
    else s.modDom d fun x => { x with held := x.held ++ [.acc a] }

/-- The place of a target-space byte list after the ENDIAN exchange: whole units from the aligned base (R208). Byte enables move with their bytes. -/
def endianOut (code addr : Nat) (bs : List (Option Byte)) : Nat × List (Option Byte) :=
  let u := endianUnit code
  if u = 1 then (addr, bs)
  else
    let base := addr - addr % u
    let n := (addr % u + bs.length + u - 1) / u * u
    let padded := List.replicate (addr % u) none ++ bs
    (base, (List.range n).map fun j => nth padded (swapAddr code j) none)

/-- Returned bytes exchanged back to the requester's order: `len` bytes from `addr`, out of `bs` read from `base` (R208). -/
def endianBack (code addr len base : Nat) (bs : List (Option Byte)) : List (Option Byte) :=
  (List.range len).map fun i =>
    let a := if endianUnit code = 1 then addr + i else swapAddr code (addr + i)
    if a < base then none else nth bs (a - base) none

end Sys2Proof.Machine
end

