-- ==== Sys2Proof/Machine/Windows.lean ====
section
/-! DEFINITION. Windows (R202-R216): their fields, matching, the commit check, shadows and commits, the window commands. -/

namespace Sys2Proof.Machine

/-- A per-tenant quota of the image, or its factory value. -/
def quotaOf (l : List (Nat × Nat)) (t dflt : Nat) : Nat := ((l.find? fun e => decide (e.1 = t)).map fun e => e.2).getD dflt

/-- Word `i` (0 WIN_CTL .. 5 WIN_TGT_HI) of window `w` in a copy (R203). -/
def winWord (t : Tbl Word) (w i : Nat) : Nat := (Tbl.get (fun _ => 0#32) t (8 * w + i)).toNat

/-- A window's fields (R204), decoded from its words. -/
structure WinF where
  en : Bool
  tenant : Nat
  target : Nat
  rclass : Nat
  log2 : Nat
  endian : Nat
  width : Nat
  space : Nat
  prefetch : Nat
  aper : Nat
  base : Nat
  deriving DecidableEq, Repr

/-- The fields of the six words. -/
def winFields (word : Nat → Nat) : WinF :=
  { en := bit (word 0) 0, tenant := bits (word 0) 14 8, target := bits (word 0) 19 16, rclass := bits (word 0) 21 20
    log2 := bits (word 0) 29 24, endian := bits (word 1) 1 0, width := bits (word 1) 5 4, space := bits (word 1) 13 8
    prefetch := bits (word 1) 18 16
    aper := bits (word 2) 31 12 * 4096 + bits (word 3) 3 0 * 0x100000000
    base := bits (word 4) 31 12 * 4096 + word 5 * 0x100000000 }

/-- The working copy of a window. -/
def winWork (s : State) (w : Nat) : WinF := winFields (winWord s.win.work w)

/-- The defined bits of each shadow word (R203, R204). -/
def winMask (i : Nat) : Word :=
  match i with
  | 0 => 0x3F3F7F01#32
  | 1 => 0x00073F33#32
  | 2 => 0xFFFFF000#32
  | 3 => 0x0000000F#32
  | 4 => 0xFFFFF000#32
  | _ => 0xFFFFFFFF#32

/-- A function is enabled: PF0, PF1, and VF n while VF Enable is set and n ≤ NumVFs (R174). -/
def fnEnabled (s : State) (fn : Nat) : Bool := decide (fn ≤ 1) || (s.ep.vfEnable && decide (fn - 1 ≤ s.ep.numVfs))

/-- The size of a tenant's BAR2 (R179). -/
def bar2Size (s : State) (t : Nat) : Nat := if t = 0 then 2 ^ s.ep.bar2Log2 else 2 ^ s.img.vfBar2Log2

/-- A BAR's address: the two words of BAR pair `i` (0 BAR0, 1 BAR2, 2 BAR4). -/
def barBase (t : Tbl Word) (i : Nat) : Nat :=
  (Tbl.get (fun _ => 0#32) t (2 * i)).toNat / 16 * 16 + 0x100000000 * (Tbl.get (fun _ => 0#32) t (2 * i + 1)).toNat

/-- The address ranges that this device's BARs decode (R179): a physical function's while its Memory Space Enable is set, the VFs' while they exist. -/
def deviceBars (s : State) : List (Nat × Nat) :=
  let bar := fun (t : Tbl Word) (i n : Nat) => (barBase t i / n * n, n)
  let vf := fun (i n : Nat) => (barBase s.ep.vfBars i / n * n, n * s.ep.numVfs)
  (if (s.fn 0).memSpace then [bar (s.fn 0).bars 0 0x1000000, bar (s.fn 0).bars 1 (2 ^ s.ep.bar2Log2), bar (s.fn 0).bars 2 0x100000] else [])
    ++ (if (s.fn 1).memSpace then [bar (s.fn 1).bars 0 0x1000] else [])
    ++ (if s.ep.vfEnable ∧ 0 < s.ep.numVfs then [vf 0 0x10000, vf 1 (2 ^ s.img.vfBar2Log2)] else [])

/-- A host range meets a BAR of this device (R213 result 6, R223). -/
def meetsBar (s : State) (lo len : Nat) : Bool := (deviceBars s).any fun b => rangesMeet lo len b.1 b.2

/-- The window of a tenant that holds an aperture offset (R205); a followed tenant's windows do not translate (R480). -/
def winMatch (s : State) (t off : Nat) : Option WinF :=
  if s.followed t then none
  else ((List.range 256).map (winWork s)).find? fun f => f.en && decide (f.tenant = t ∧ f.aper ≤ off ∧ off < f.aper + 2 ^ f.log2)

/-- The tenant's window quota (R202). -/
def winQuota (s : State) (t : Nat) : Nat := quotaOf s.img.winQuota t (if t = 0 then 256 else 0)

/-- The copy of windows that a commit of `first..last` would make. -/
def winNext (s : State) (first last w : Nat) : WinF :=
  winFields (winWord (if first ≤ w ∧ w ≤ last then s.win.shadow else s.win.work) w)

/-- The commit check of one window of the range (R213), in the table's order; 0 when it passes. -/
def winCheck (s : State) (first last w : Nat) : Nat :=
  let f := winNext s first last w
  if !f.en then 0
  else if f.log2 = 0 then 1
  else if f.log2 < 12 ∨ 36 < f.log2 ∨ f.aper % 2 ^ f.log2 ≠ 0 then 2
  else if (List.range 256).any (fun v => let g := winNext s first last v
      decide (v ≠ w) && g.en && decide (g.tenant = f.tenant) && rangesMeet f.aper (2 ^ f.log2) g.aper (2 ^ g.log2)) then 3
  else if bar2Size s f.tenant < f.aper + 2 ^ f.log2 then 4
  else if f.target ≤ 5 ∧ targetAbsent s f.target then 5
  else if f.target = 6 ∧ meetsBar s f.base (2 ^ f.log2) then 6
  else if 64 < f.tenant ∨ !fnEnabled s (fnOf f.tenant)
      ∨ winQuota s f.tenant < ((List.range 256).filter fun v => let g := winNext s first last v; g.en && decide (g.tenant = f.tenant)).length then 7
  else if 6 < f.target ∨ f.rclass = 3 then 8
  else if f.target ≤ 1 ∧ !formatOffered s f.target f.space f.width f.base (2 ^ f.log2) then 9
  else 0

/-- The result of a commit's check and the window it names: the lowest failing one, or FIRST (R213, R230). -/
def commitCheck (s : State) (first last : Nat) : Nat × Nat :=
  match ((List.range (last + 1 - first)).map fun i => first + i).find? fun w => decide (winCheck s first last w ≠ 0) with
  | some w => (winCheck s first last w, w)
  | none => (0, first)

/-- A range's working copies replaced by its shadows. -/
def applyShadows (s : State) (first last : Nat) : State :=
  ((List.range (last + 1 - first)).foldl (fun s i =>
    (List.range 6).foldl (fun s j => s.modWin fun x => { x with
      work := x.work.set (fun _ => 0#32) (8 * (first + i) + j) (Tbl.get (fun _ => 0#32) x.shadow (8 * (first + i) + j)) }) s) s).modWin
    fun x => { x with unreach := x.unreach.filter fun w => !decide (first ≤ w ∧ w ≤ last) }

/-- WIN_COMMIT_STATUS after a commit: result, window, commits completed modulo 65,536 (R230). -/
def commitStatus (s : State) (result w : Nat) : State :=
  let n := ((s.reg 0x42004).toNat / 65536 + 1) % 65536
  s.setReg 0x42004 (w32 (result * 16 + w * 256 + n * 65536))

/-- A commit of one range ends: all of it or nothing changes (R213). -/
def endCommit (s : State) (first last result bad : Nat) : State :=
  commitStatus (if result = 0 then applyShadows s first last else s) result bad

/-- A shadow word written, in its defined bits (R203). -/
def setShadow (s : State) (w i : Nat) (v : Word) : State :=
  s.modWin fun x => { x with shadow := x.shadow.set (fun _ => 0#32) (8 * w + i) (v &&& winMask i) }

/-- A shadow write, held while a commit runs (R215). -/
def shadowWrite (s : State) (w i : Nat) (v : Word) : State :=
  match s.win.commit with
  | some c => s.modWin fun x => { x with commit := some { c with shadows := c.shadows ++ [(8 * w + i, v)] } }
  | none => setShadow s w i v

/-- WIN_COMMIT written (R212, R214, R215): GO clear is ignored, a commit in progress refuses it in WIN_ERR[0], else the check is made at this place in the order of requests and the commit runs. -/
def winCommitWrite (s : State) (v : Nat) : State :=
  if !bit v 31 then s
  else match s.win.commit with
    | some _ => s.setReg 0x42008 (s.reg 0x42008 ||| 1#32)
    | none =>
      let first := bits v 7 0
      let last := bits v 15 8
      let r := commitCheck s first last
      s.modWin fun x => { x with commit := some { first := first, last := last, result := r.1, bad := r.2, shadows := [], reqs := [] } }

/-- A window is owned by the tenant of its enabled working copy (R212). -/
def winOwner (s : State) (w : Nat) : Option Nat := let f := winWork s w; if f.en then some f.tenant else none

/-- A VF may act on a window that no other tenant owns; PF0 on any (R212). -/
def winAllowed (s : State) (mb w : Nat) : Bool :=
  decide (mbTenant mb = 0) || (match winOwner s w with
    | some t => decide (t = mbTenant mb)
    | none => true)

/-- The payload of WIN_SET (R212, R160). -/
def winSetParam (p : List Byte) : Bool :=
  decide (wordAt p 0 < 256 ∧ wordAt p 28 = 0) && (List.range 6).all (fun i => decide (w32 (wordAt p (4 * (i + 1))) &&& ~~~(winMask i) = 0#32))
    && decide (bits (wordAt p 4) 14 8 ≤ 64)

/-- The payload of WIN_GET and WIN_CLEAR: a window number. -/
def winNumParam (p : List Byte) : Bool := decide (wordAt p 0 < 256)

/-- A window's WIN_STATUS (R203). -/
def winStatus (s : State) (w : Nat) : Nat :=
  b2n (winWork s w).en + 2 * b2n (decide (w ∈ s.win.unreach))
    + 4 * b2n ((List.range 6).any fun i => decide (winWord s.win.shadow w i ≠ winWord s.win.work w i))

/-- WIN_SET's effect (R212, R213, R215). While a commit through WIN_COMMIT runs it waits its turn: the row is not enabled. -/
def winSetEff (s : State) (mb : Nat) (c : Cmd) : State :=
  let w := wordAt c.payload 0
  if s.win.commit.isSome then s
  else if !winAllowed s mb w ∨ (mbTenant mb ≠ 0 ∧ bits (wordAt c.payload 4) 14 8 ≠ mbTenant mb) then reject s mb Rej.notOwner
  else
    let s' := (List.range 6).foldl (fun s i => setShadow s w i (w32 (wordAt c.payload (4 * (i + 1))))) s
    let r := commitCheck s' w w
    if r.1 = 0 then done (endCommit s' w w r.1 r.2) mb [] else refuse (commitStatus s r.1 r.2) mb r.1 r.2

/-- WIN_SET (R212). -/
def execWinSet (s : State) : Host.Outcome State Fault Refusal := runCmd 0x0200 s winSetEff

/-- WIN_GET (R212): the eight words of R203, the shadow copy with its status. -/
def execWinGet (s : State) : Host.Outcome State Fault Refusal :=
  runCmd 0x0201 s fun s mb c =>
    let w := wordAt c.payload 0
    if !winAllowed s mb w then reject s mb Rej.notOwner
    else done s mb (bytesOfWords ((List.range 6).map (winWord s.win.shadow w) ++ [winStatus s w, 0]))

/-- WIN_CLEAR's effect (R212): every shadow field 0, and the window committed. -/
def winClearEff (s : State) (mb : Nat) (c : Cmd) : State :=
  let w := wordAt c.payload 0
  if s.win.commit.isSome then s
  else if !winAllowed s mb w then reject s mb Rej.notOwner
  else done (endCommit ((List.range 6).foldl (fun s i => setShadow s w i 0#32) s) w w 0 w) mb []

/-- WIN_CLEAR (R212). -/
def execWinClear (s : State) : Host.Outcome State Fault Refusal := runCmd 0x0202 s winClearEff

/-- WIN_SHADOW_WRITE: a PF0 write of a window's shadow word (R203, R212, R215). -/
def execWinShadowWrite (w : Fin 256) (word : Fin 6) (v : Word) (s : State) : Host.Outcome State Fault Refusal :=
  .next (shadowWrite s w.val word.val v)

/-- WIN_COMMIT: a write of WIN_COMMIT (R212-R215). -/
def execWinCommit (v : Word) (s : State) : Host.Outcome State Fault Refusal := .next (winCommitWrite s v.toNat)

/-- A tenant's windows cleared by one commit (R215, R115). -/
def clearWindowsOf (s : State) (t : Nat) : State :=
  let ws := (List.range 256).filter fun w => (winWork s w).en && decide ((winWork s w).tenant = t)
  if ws = [] then s
  else commitStatus (ws.foldl (fun s w => applyShadows ((List.range 6).foldl (fun s i => setShadow s w i 0#32) s) w w) s) 0 (ws.headD 0)

/-- After a resize of PF0 BAR2: each enabled window of tenant 0 outside it is UNREACHABLE and recorded once; one back inside loses the flag (R216). -/
def reachCheck (s : State) : State :=
  (List.range 256).foldl (fun s w =>
    let f := winWork s w
    if f.en ∧ f.tenant = 0 then
      if f.aper + 2 ^ f.log2 ≤ bar2Size s 0 then s.modWin fun x => { x with unreach := x.unreach.filter fun v => decide (v ≠ w) }
      else if w ∈ s.win.unreach then s
      else (s.modWin fun x => { x with unreach := insertAsc w x.unreach }).raise
        { code := Ev.winUnreachable, src := srcHc, tenant := 0, addr := f.aper, data := leBytes 4 w }
    else s) s

end Sys2Proof.Machine
end

