-- ==== Sys2Proof/Machine/Reads.lean ====
section
/-! DEFINITION. Reads through LT (R26, R206, R217, R218, R350-R354, R361, R539): admission, matching against the liquor buffer, reads at the target, their return and their early end. -/

namespace Sys2Proof.Machine

/-- A fresh number for a read or a segment: unique, and rising with time. -/
def newUid (s : State) : Nat × State := (s.qs.orderNext, s.modQs fun q => { q with orderNext := q.orderNext + 1 })

/-- The read with a number. -/
def getRead (s : State) (u : Nat) : Option HeldRead := s.reads.find? fun r => decide (r.uid = u)

/-- A read changed. -/
def modRead (s : State) (u : Nat) (f : HeldRead → HeldRead) : State := s.modReads (modFirst (fun r => decide (r.uid = u)) f)

/-- A read gone. -/
def delRead (s : State) (u : Nat) : State := s.modReads (List.filter fun r => decide (r.uid ≠ u))

/-- The addresses that a read requests. -/
def wantAddrs (r : HeldRead) : List Nat :=
  (List.range r.want.length).filterMap fun i => if nth r.want i false then some (r.addr + i) else none

/-- The read took this address from the buffer. -/
def keptAt (r : HeldRead) (a : Nat) : Option KeptByte := if a < r.addr then none else nth r.kept (a - r.addr) none

/-- The region of an address on a link (R453, R339): the first of entries 0-14 that matches, else entry 15. -/
def linkRegion (s : State) (k space addr : Nat) : Nat :=
  ((List.range 15).find? fun r =>
    let w0 := linkRegionWord s k r 0
    let m := bits w0 21 16
    let base := linkRegionWord s k r 1 + 0x100000000 * linkRegionWord s k r 2
    bit w0 0 && decide (space &&& m = bits w0 13 8 &&& m) && decide (base ≤ addr ∧ addr < base + 2 ^ bits w0 29 24)).getD 15

/-- The region of an access at its target, and that region's read class (R338, R453). -/
def targetRegion (s : State) (target space addr : Nat) : Nat :=
  if target ≤ 1 then regionOf s target space addr else if target ≤ 5 then linkRegion s (target - 2) space addr else 0
def targetClass (s : State) (target r : Nat) : Nat :=
  if target ≤ 1 then regionClass s target r else if target ≤ 5 then bits (linkRegionWord s (target - 2) r 3) 1 0 else 0

/-- The effective read class: the stricter of the map's and the region's (R22). -/
def effClass (s : State) (target space addr cls : Nat) : Nat := max cls (targetClass s target (targetRegion s target space addr))

/-- The retained byte that a read of a class matches, with what restores it (R354). -/
def liqFind (s : State) (t target space cls addr : Nat) : Option KeptByte :=
  s.liq.lines.findSome? fun l =>
    if liqLineIs s t target space l ∧ l.line = addr - addr % 128 ∧ (cls ≠ 2 ∨ l.pool = 0) then
      l.bytes.findSome? fun b => if b.off = addr % 128 then
        some { data := b.data, arrival := b.arrival, expires := b.expires, pool := l.pool, reason := l.reason } else none
    else none

/-- Bytes taken from the buffer and not delivered go back with their times (R352), those from address `lo` on, unless their window has ended or a write has covered them (R355, R356). -/
def liqRestore (s : State) (r : HeldRead) (lo : Nat) : State :=
  let back := (List.range r.kept.length).filterMap fun i => match nth r.kept i none with
    | some k => if lo ≤ r.addr + i ∧ s.now < k.expires ∧ !(r.stale.any fun q => decide (q.1 ≤ r.addr + i ∧ r.addr + i < q.1 + q.2)) then some (r.addr + i, k) else none
    | none => none
  back.foldl (fun s e =>
    let line := e.1 - e.1 % 128
    let b : LiqByte := { off := e.1 % 128, data := e.2.data, arrival := e.2.arrival, expires := e.2.expires }
    let same := fun l => liqLineIs s r.tenant r.target r.space l && decide (l.line = line ∧ l.pool = e.2.pool)
    let lines := if s.liq.lines.any same then modFirst same (fun l => { l with bytes := liqPutByte b l.bytes }) s.liq.lines
      else s.liq.lines ++ [{ tenant := r.tenant, gen := s.liqGen r.tenant, target := r.target, space := r.space, line := line
                             pool := e.2.pool, reason := e.2.reason, bytes := [b] }]
    dlogFate (s.modLiq fun l => { l with lines := lines }) r.tenant r.target r.space line 0) s

/-- Byte `a` is due from read `o` for a read of class `cls`: it is read at the target, will be retained on arrival, and no other read waits for it (R354, R356). -/
def isDue (s : State) (o : HeldRead) (t target space cls a : Nat) : Bool :=
  decide (o.tenant = t ∧ o.target = target ∧ o.space = space ∧ o.stage = .target ∧ o.res = none ∧ a ∈ o.asked)
    && (if a ∈ wantAddrs o then decide (2 ≤ o.ended) else decide (cls ≠ 2))
    && !(o.stale.any fun q => decide (q.1 ≤ a ∧ a < q.1 + q.2))
    && !(s.reads.any fun w => decide (o.uid ∈ w.dueOn ∧ a ∈ wantAddrs w ∧ keptAt w a = none ∧ a ∉ w.asked))

/-- The read in flight from which a byte is due. -/
def dueFrom (s : State) (r : HeldRead) (a : Nat) : Option Nat :=
  (s.reads.find? fun o => decide (o.uid ≠ r.uid) && isDue s o r.tenant r.target r.space r.cls a).map fun o => o.uid

/-- The addresses of the PREFETCH blocks that hold a read, without its requested bytes and without what is retained or due already (R204, R350, R354). -/
def wideAddrs (s : State) (r : HeldRead) : List Nat :=
  let b := 2 ^ (r.prefetch + 5)
  let lo := r.addr - r.addr % b
  let hi := (r.addr + r.want.length + b - 1) / b * b
  ((List.range (hi - lo)).map fun i => lo + i).filter fun a =>
    decide (a ∉ wantAddrs r) && (liqFind s r.tenant r.target r.space r.cls a).isNone && (dueFrom s r a).isNone

/-- The ring stop of a bed (R17). -/
def bedStop (b : Nat) : Nat := if b < 4 then b + 1 else b + 6

/-- The ring stop at which a read enters the rings: HC, or its bed (R17). -/
def readStop (r : HeldRead) : Nat :=
  match r.who with
  | .host _ _ => 0
  | .seg k _ => bedStop (k / 512)

/-- The access that reads the asked bytes of a read at its target. -/
def readAcc (r : HeldRead) : Acc :=
  let lo := r.asked.foldl min (r.asked.headD 0)
  let hi := r.asked.foldl max 0
  { kind := .read, tenant := r.tenant, target := r.target, addr := lo, space := r.space, width := r.width
    bytes := (List.range (hi + 1 - lo)).map fun i => if lo + i ∈ r.asked then some 0#8 else none
    region := r.region, ticket := 0, origin := .read r.uid, stop := readStop r, endian := 0, cls := r.cls, mask := 0
    value := 0, temp := none }

/-- The distinct lines of a list of addresses. -/
def linesIn (l : List Nat) : Nat := (l.map fun a => a / 128).dedup.length

/-- The read leaves LT for its target, widened where its class and the pools allow (R350, R353); `alone` for a read that is merged. -/
def readOut (s : State) (r : HeldRead) (miss : List Nat) (alone : Bool) : State :=
  let wide := if alone ∨ r.cls = 2 ∨ r.prefetch = 0 then [] else wideAddrs s r
  let n := linesIn wide
  let go := fun (s : State) (r : HeldRead) => sendAcc (modRead s r.uid fun _ => r) (readAcc r)
  if wide = [] then go s { r with asked := miss, stage := .target }
  else match reserveWide s r.cls n with
    | some s => go s { r with asked := miss ++ wide, wideLines := n, stage := .target }
    | none => go (s.incReg 0x1C001C) { r with asked := miss, stage := .target }

/-- An orphan tag of a twin takeover that a read matches: its line, and whether it ends the read (R361): a PREFETCH_OK read drops a tag that is not of the late pool and proceeds. -/
def orphanHits (s : State) (r : HeldRead) : List (Nat × Nat × Nat × Nat × Bool) :=
  s.liq.orphans.filter fun o => decide (o.1 = r.tenant ∧ o.2.1 = r.target ∧ o.2.2.1 = r.space)
    && (wantAddrs r).any (fun a => decide (a - a % 128 = o.2.2.2.1)) && (decide (r.cls ≠ 2) || o.2.2.2.2)

/-- A read arrives at LT (R26 step 3, R354, R539). -/
def ltArrive (s : State) (u : Nat) : State :=
  match getRead s u with
  | none => s
  | some r =>
    let orph := orphanHits s r
    let s := if orph = [] then s else s.modLiq fun l => { l with orphans := l.orphans.filter fun o => decide (o ∉ orph) }
    if orph.any fun o => o.2.2.2.2 || decide (r.cls = 1) then
      let line := ((orph.map fun o => o.2.2.2.1).headD 0)
      let s := s.raise { code := Ev.liqOrphan, src := srcLt, tenant := r.tenant, cs := Cs.farError, addr := line }
      modRead s u fun r => { r with stage := .back, res := some { cs := Cs.farError, addr := r.addr, data := [], beat := 0 } }
    else
      let kept := (List.range r.want.length).map fun i =>
        if nth r.want i false then liqFind s r.tenant r.target r.space r.cls (r.addr + i) else none
      let r := { r with kept := kept }
      let open_ := (wantAddrs r).filter fun a => (keptAt r a).isNone
      let dueOn := (open_.filterMap fun a => dueFrom s r a).dedup
      let miss := open_.filter fun a => (dueFrom s r a).isNone
      let took := (wantAddrs r).filter fun a => (keptAt r a).isSome
      let s := liqConsume s r.tenant r.target r.space took
      let r := { r with dueOn := dueOn }
      if miss = [] then
        let s := s.incReg 0x1C0008
        if dueOn = [] then
          modRead s u fun _ => { r with stage := .back, res := some { cs := Cs.done, addr := r.addr, data := [], beat := 0 } }
        else modRead s u fun _ => { r with stage := .due }
      else
        let merge := decide (took ≠ [] ∨ dueOn ≠ [])
        readOut (if merge then s.incReg 0x1C000C else s) r miss merge

/-- Every requested byte of a read has come or its read has failed. -/
def readReady (r : HeldRead) : Bool := r.res.isSome && decide (r.dueOn = [] ∧ r.stage = .back)

/-- The bytes of an answer by address. -/
def endBytes (base : Nat) (e : AccEnd) : List (Nat × Byte) :=
  (List.range e.data.length).filterMap fun i => (nth e.data i none).map fun b => (base + i, b)

/-- A read that waits for bytes of another, which has just passed LT with `cs` at `addr`, takes them or ends with that ending (R539). -/
def serveWaiter (s : State) (w : HeldRead) (from_ cs addr : Nat) (asked : List Nat) : State :=
  let mine := (wantAddrs w).filter fun a => (keptAt w a).isNone && decide (a ∈ asked ∧ a ∉ w.asked)
  let got := mine.map fun a => (a, liqFind s w.tenant w.target w.space w.cls a)
  let left := w.dueOn.filter fun u => decide (u ≠ from_)
  if got.all fun g => g.2.isSome then
    let s := liqConsume s w.tenant w.target w.space mine
    modRead s w.uid fun w => { w with
      kept := (List.range w.want.length).map fun i => match got.find? fun g => decide (g.1 = w.addr + i) with
        | some g => g.2
        | none => nth w.kept i none
      dueOn := left
      res := if w.asked = [] ∧ left = [] then some { cs := Cs.done, addr := w.addr, data := [], beat := 0 } else w.res
      stage := if w.asked = [] ∧ left = [] then .back else w.stage }
  else
    let cs := if cs = Cs.done then Cs.farTimeout else cs
    modRead s w.uid fun w => { w with
      dueOn := [], res := some { cs := cs, addr := addr, data := [], beat := 0 }, stage := if w.asked = [] then .back else w.stage }

/-- Every read that waits for a read's bytes is served (R539). -/
def serveWaiters (s : State) (r : HeldRead) (cs addr : Nat) : State :=
  (s.reads.filter fun w => decide (r.uid ∈ w.dueOn)).foldl (fun s w => serveWaiter s w r.uid cs addr r.asked) s

/-- LT's part of a read's return (R26 step 5, R352): unrequested bytes are retained, and the requested bytes of a read that has ended early, with the reason of its end (1: dropped). -/
def ltRetain (s : State) (r : HeldRead) (e : AccEnd) (base : Nat) : State :=
  let bs := endBytes base e
  let s := liqRetain s r.tenant r.target r.space (if r.cls = 1 then 1 else 2) 1 r.cls r.stale (bs.filter fun b => decide (b.1 ∉ wantAddrs r))
  let s := if 2 ≤ r.ended then liqRetain s r.tenant r.target r.space 0 r.ended r.cls r.stale (bs.filter fun b => decide (b.1 ∈ wantAddrs r)) else s
  serveWaiters s r e.cs e.addr

/-- The first asked address of a read: where its answer's data begins. -/
def askedBase (r : HeldRead) : Nat := r.asked.foldl min (r.asked.headD 0)

/-- A read's answer passes LT: what its requester gets (CS, failing address, the requested bytes that have come by place in `want`, beat), and the state without the read. Bytes it took from the buffer and does not deliver go back (R352): all of a failed host read's, those from the failing address on of a segment's. -/
def ltReturn (s : State) (r : HeldRead) (e : AccEnd) : AccEnd × State :=
  let base := askedBase r
  let s := ltRetain (modRead s r.uid fun r => { r with lines := 0, wideLines := 0 }) r e base
  let data := (List.range r.want.length).map fun i =>
    match nth r.kept i none with
    | some k => some k.data
    | none => if nth r.want i false ∧ base ≤ r.addr + i then nth e.data (r.addr + i - base) none else none
  let lo := match r.who with
    | .host _ _ => 0
    | .seg _ _ => e.addr
  let s := if e.cs = Cs.done then s else liqRestore s r lo
  ({ e with data := data }, delRead s r.uid)

/-- The access of a read, wherever it waits: held at a waking domain, at its port, or in its link's queue. -/
def isReadAcc (u : Nat) (a : Acc) : Bool :=
  match a.origin with
  | .read v => decide (u = v)
  | _ => false

/-- Accesses that `p` picks and that have not begun are taken out of the domains' waiting lists, the ports and the links; their temporary votes are withdrawn. -/
def pullAccs (s : State) (p : Acc → Bool) : List Acc × State :=
  let inDom := (List.range 12).flatMap fun i => (s.dom (4 + i)).held.filterMap fun h => match h with
    | .acc a => if p a then some a else none
    | _ => none
  let inPort := (List.range 2).flatMap fun k => (s.port k).waiting.filter p
  let inLink := (List.range 4).flatMap fun k => ((s.link k).txQ.filterMap fun m => m.req).filter p
  let s := (List.range 12).foldl (fun s i =>
    if (s.dom (4 + i)).held.any (fun h => match h with
        | .acc a => p a
        | _ => false) then
      s.modDom (4 + i) fun d => { d with held := d.held.filter fun h => match h with
        | .acc a => !p a
        | _ => true }
    else s) s
  let s := (List.range 2).foldl (fun s k => if (s.port k).waiting.any p then s.modPort k fun q => { q with waiting := q.waiting.filter fun a => !p a } else s) s
  let s := (List.range 4).foldl (fun s k =>
    if (s.link k).txQ.any (fun m => m.req.any p) then s.modLink k fun l => { l with txQ := l.txQ.filter fun m => !(m.req.any p) } else s) s
  let all := inDom ++ inPort ++ inLink
  (all, all.foldl dropAccVote s)

/-- The open master access of a read, with its port. -/
def openOf (s : State) (u : Nat) : Option (Nat × OpenAcc) :=
  (List.range 2).findSome? fun k => ((s.port k).opens.find? fun o => isReadAcc u o.acc).map fun o => (k, o)

/-- The read's request is outstanding on a link. -/
def onLink (s : State) (u : Nat) : Bool := (List.range 4).any fun k => (s.link k).reqs.any fun q => isReadAcc u q.acc

/-- A read ends before its answer: its requester gets nothing more from it. A cycle in progress runs on to its own end, no later cycle is issued (R218), and what it returns is treated by `why`: 2 HOLD_LIMIT, 3 LINK_DOWN (R352), 1 dropped. Bytes taken from the buffer go back (R352). A read of which nothing has begun is gone at once. -/
def dropRead (s : State) (r : HeldRead) (why : Nat) : State :=
  let s := liqRestore s r 0
  let r := { r with kept := [], ended := why, dueOn := [] }
  match r.res with
  | some e =>
    if r.stage = .back ∧ r.asked ≠ [] then delRead (ltRetain s r e (askedBase r)) r.uid else delRead s r.uid
  | none =>
    match openOf s r.uid with
    | some (k, o) =>
      if o.isOpen then
        let s := s.modPort k fun p => { p with opens := p.opens.map fun o => if isReadAcc r.uid o.acc then { o with rest := [] } else o }
        modRead s r.uid fun _ => { r with
          asked := r.asked.filter fun a => decide (a < o.cur.1 + o.cur.2) }
      else
        let s := s.modPort k fun p => { p with opens := p.opens.filter fun o => !isReadAcc r.uid o.acc }
        let s := dropAccVote s o.acc
        delRead (ltRetain s r { cs := Cs.farTimeout, addr := r.addr, data := o.got, beat := 0 } o.acc.addr) r.uid
    | none =>
      if onLink s r.uid then modRead s r.uid fun _ => r
      else
        let (_, s) := pullAccs s (isReadAcc r.uid)
        delRead (serveWaiters s r Cs.farTimeout r.addr) r.uid

/-- What HC answers a host read with (R26, R217): data in the request's own order (R208); an access to what is absent or out of service as all ones (R65, R99, R298); else Completer Abort, logged in AER (R186). -/
def hostAnswer (s : State) (r : HeldRead) (e : AccEnd) : State :=
  match r.who with
  | .seg _ _ => s
  | .host fn rid =>
    let data := endianBack r.endian r.haddr r.hlen r.addr (if e.cs = Cs.islandAbsent then r.want.map fun w => if w then some 0xFF#8 else none else e.data)
    if e.cs = Cs.done ∨ e.cs = Cs.islandAbsent then s.emit (.hostCpl fn rid .sc e.cs data)
    else (s.emit (.aer fn 1)).emit (.hostCpl fn rid .ca e.cs [])

/-- The tags a function may use (R182). -/
def tagLimit (f : FnState) : Nat := if f.tenBit then 768 else if f.extTag then 256 else 32

/-- A free tag of a function: neither outstanding nor in quarantine (R182, R228). -/
def freeTagNo (f : FnState) : Option Nat :=
  (List.range (tagLimit f)).find? fun n => decide (n ∉ f.quar) && !(f.tags.any fun t => decide (t.1 = n))

/-- A memory read request to the host for a tenant (R30, R182, R227), where the function has a free tag and may master the bus, the host link is up and the device is not contained (R195). -/
def hostRead (s : State) (t addr len : Nat) (use : TagUse) : Option State :=
  let f := s.fn (fnOf t)
  if s.cont.dev ∨ s.ep.link ≠ .l0 ∨ !f.busMaster ∨ f.flr then none
  else (freeTagNo f).map fun tag =>
    (s.modFn (fnOf t) fun f => { f with tags := f.tags ++ [(tag, use)] }).emit (.hostReadReq t tag addr len)

/-- The tag of an outstanding request with a use. -/
def tagOf (f : FnState) (use : TagUse) : Option Nat := (f.tags.find? fun t => decide (t.2 = use)).map fun t => t.1

/-- The first request of a host range within one MRRS-aligned block (R172). -/
def mrrsPiece (s : State) (t addr len : Nat) : Nat :=
  let m := max 128 (s.fn (fnOf t)).mrrs
  min len (m - addr % m)

/-- The bytes of a loopback read that have come. -/
def loopGot (r : HeldRead) : List (Option Byte) :=
  match r.res with
  | some e => e.data
  | none => []

/-- The next request of a loopback read goes out (R211); without a tag it waits in HC (R182). -/
def loopSend (s : State) (r : HeldRead) : State :=
  let a := r.addr + (loopGot r).length
  match hostRead s r.tenant a (mrrsPiece s r.tenant a (r.want.length - (loopGot r).length)) (.loopRead r.uid) with
  | some s => modRead s r.uid fun r => { r with stage := .target }
  | none => modRead s r.uid fun r => { r with stage := .room }

/-- A held host read ends early with a CS (R217, R196, R127): the host is answered, unless its completion is lost, and the read is dropped. -/
def abortHostRead (s : State) (r : HeldRead) (cs why : Nat) (answer : Bool) : State :=
  let s := if answer then hostAnswer s r { cs := cs, addr := r.haddr, data := [], beat := 0 } else s
  if r.target = 6 then
    delRead (s.modFn (fnOf r.tenant) fun f => { f with tags := f.tags.map fun t => if t.2 = .loopRead r.uid then (t.1, .drop) else t }) r.uid
  else dropRead s r why

/-- HELD_READ_ADMIT (R353): the oldest read that waits in HC gets its late-pool lines when there is room, and goes to LT; the oldest loopback read that waits for a tag is sent. -/
def heldReadAdmitEff (s : State) (u : Nat) : State :=
  match s.reads.find? fun r => decide (r.stage = .room ∧ (r.target = 6) = ((getRead s u).any fun r => decide (r.target = 6))) with
  | some r =>
    if r.target = 6 then (if r.uid = u then loopSend s r else s) else
    let n := linesIn (wantAddrs r)
    if r.uid = u ∧ lateRoom s n then ltArrive (modRead s u fun r => { r with lines := n, stage := .target }) u else s
  | none => s

/-- HELD_READ_ADMIT: HC admits a waiting held read (R26, R353, R354). -/
def execHeldReadAdmit (uid : Nat) (s : State) : Host.Outcome State Fault Refusal := .next (heldReadAdmitEff s uid)

/-- The record of a waiting read that ended with another's ending (R217, R539). -/
def waitEv (s : State) (r : HeldRead) (e : AccEnd) : State :=
  if r.asked ≠ [] then s
  else if e.cs = Cs.farError then s.raise { code := Ev.farError, src := srcTarget r.target, tenant := r.tenant, cs := e.cs, addr := e.addr }
  else if e.cs = Cs.farTimeout then s.raise { code := Ev.farTimeout, src := srcTarget r.target, tenant := r.tenant, cs := e.cs, addr := e.addr }
  else s

/-- How a request to the host ends: by its completion, or by the completion timeout (R227). -/
inductive HostEnd where
  | ok (data : List Byte)
  | ur
  | ca
  | poison
  | timeout
  deriving DecidableEq, Repr

/-- A completion's ending. -/
def hostEnd : HostRes → HostEnd
  | .ok d => .ok d
  | .ur => .ur
  | .ca => .ca
  | .poison => .poison

/-- The CS of a host answer (R14). -/
def hostCs : HostEnd → Nat
  | .ok _ => Cs.done
  | .ur => Cs.hostUr
  | .ca => Cs.hostCa
  | .poison => Cs.hostPoison
  | .timeout => Cs.hostTimeout

/-- Poisoned data received: logged in AER in the requesting function (R186). -/
def poisonAer (s : State) (fn : Nat) (res : HostEnd) : State :=
  match res with
  | .poison => s.emit (.aer fn 4)
  | _ => s

/-- The bytes of a host answer. -/
def hostData : HostEnd → List Byte
  | .ok d => d
  | _ => []

/-- A host answer's length is what was asked: shorter data is not the whole completion. -/
def resFits (res : HostEnd) (n : Nat) : Bool :=
  match res with
  | .ok d => decide (d.length = n)
  | _ => true

/-- A tag freed. -/
def freeTag (s : State) (fn tag : Nat) : State := s.modFn fn fun f => { f with tags := f.tags.filter fun t => decide (t.1 ≠ tag) }

/-- The host's answer to a loopback read's request (R211): its data, or Completer Abort with the host's CS. -/
def loopComplete (s : State) (r : HeldRead) (res : HostEnd) : State :=
  let fn := fnOf r.tenant
  let a := r.addr + (loopGot r).length
  let n := mrrsPiece s r.tenant a (r.want.length - (loopGot r).length)
  match tagOf (s.fn fn) (.loopRead r.uid) with
  | none => s
  | some tag =>
    if resFits res n then
      let s := poisonAer (freeTag s fn tag) fn res
      let e : AccEnd := { cs := hostCs res, addr := r.haddr, data := loopGot r ++ (hostData res).map some, beat := 0 }
      if e.cs = Cs.done ∧ e.data.length < r.want.length then
        let r := { r with res := some e }
        loopSend (modRead s r.uid fun _ => r) r
      else delRead (hostAnswer s r { e with data := (List.range r.want.length).map fun i => if nth r.want i false then nth e.data i none else none }) r.uid
    else s

/-- HELD_READ_COMPLETE (R26 step 5, R217, R352): a host read whose answer has come passes LT and HC sends the completion; one that has ended early leaves its late bytes behind. `loop` is the host's answer where the read is a loopback read. -/
def heldReadCompleteEff (s : State) (u : Nat) (loop : HostEnd) : State :=
  match getRead s u with
  | none => s
  | some r =>
    match r.who with
    | .seg _ _ => if r.ended ≠ 0 ∧ readReady r then
        match r.res with
        | some e => delRead (ltRetain s r e (askedBase r)) u
        | none => s
      else s
    | .host _ _ =>
      if r.target = 6 then loopComplete s r loop
      else match r.res with
        | none => s
        | some e =>
          if r.ended ≠ 0 then delRead (ltRetain s r e (askedBase r)) u
          else if readReady r then
            let (e, s) := ltReturn s r e
            hostAnswer (waitEv s r e) r e
          else s

/-- HELD_READ_COMPLETE: data or an error returns (R217). -/
def execHeldReadComplete (uid : Nat) (loop : HostRes) (s : State) : Host.Outcome State Fault Refusal :=
  .next (heldReadCompleteEff s uid (hostEnd loop))

/-- WIN_HOLD_LIMIT in ns (R230). -/
def holdLimit (s : State) : Nat := us (clampTo 100 50000 (s.reg 0x4200C).toNat)

/-- HOLD_LIMIT_EXPIRE (R217, R218): the host gets Completer Abort, FAR_TIMEOUT; the read's bytes go to the late pool as they come. -/
def holdLimitExpireEff (s : State) (u : Nat) : State :=
  match getRead s u with
  | none => s
  | some r =>
    match r.who with
    | .seg _ _ => s
    | .host _ _ =>
      if r.ended ≠ 0 then s
      else
        let s := (s.atTime (r.accepted + holdLimit s)).incReg 0x42028
        let s := s.raise { code := Ev.holdLimit, src := srcHc, tenant := r.tenant, cs := Cs.farTimeout, addr := r.haddr }
        abortHostRead s r Cs.farTimeout 2 true

/-- HOLD_LIMIT_EXPIRE (R217). -/
def execHoldLimitExpire (uid : Nat) (s : State) : Host.Outcome State Fault Refusal := .next (holdLimitExpireEff s uid)

end Sys2Proof.Machine
end

