-- ==== Sys2Proof/Machine/Contain.lean ====
section
/-! DEFINITION. Entering containment at its four levels (R195, R324, R459, R490, R536), and what persists (R198, R323). -/

namespace Sys2Proof.Machine

/-- A CONTAIN_ENTER record (R536). -/
def containRec (s : State) (lvl unit cause count srcId tenant : Nat) : State :=
  s.raise { code := Ev.containEnter, src := srcId, tenant := tenant, enters := if lvl = 0 then 2 else 1
            data := leBytes 1 lvl ++ leBytes 1 unit ++ leBytes 1 cause ++ leBytes 1 0 ++ leBytes 4 count }

/-- A CONTAIN_RELEASE record (R536): cause 0xFF, and the descriptors that the release ended. -/
def releaseRec (s : State) (lvl unit count srcId tenant : Nat) : State :=
  s.raise { code := Ev.containRelease, src := srcId, tenant := tenant
            data := leBytes 1 lvl ++ leBytes 1 unit ++ leBytes 1 0xFF ++ leBytes 1 0 ++ leBytes 4 count }

/-- An access of a window write. -/
def isWindowWrite (a : Acc) : Bool := decide (a.origin = .hostWrite)

/-- A chip of a formed pair that enters device containment relinquishes its tenants (R197, R495). -/
def twinRelinquish (s : State) : State :=
  if s.twin.st = .formed then (twinSend s 0x36 [1]).modTwin fun w => { w with lead := [] } else s

/-- The record of an access that meets containment (R25). -/
def containedEv (srcId : Nat) : Ev := { code := Ev.contained, src := srcId }

/-- The port latches an ended access (R320). -/
def latchErr (s : State) (p addr cs space stop : Nat) (slave : Bool) : State :=
  let s := s.setReg (paReg p 0x40) (w32 addr)
  let s := s.setReg (paReg p 0x44) (w32 (addr / 0x100000000))
  s.setReg (paReg p 0x48) (w32 (cs % 256 + space % 64 * 256 + b2n slave * 65536 + stop % 32 * 16777216))

/-- A rack-master cycle answered with bus error (R31, R309): counted and latched with the slave role. -/
def inboundErr (s : State) (p addr cs space : Nat) : State :=
  latchErr ((s.incReg (paReg p 0x38)).emit (.slaveErr p)) p addr cs space (if p = 0 then 6 else 9) true

/-- The tag of a rack-master read of a port, dropped: its completion is discarded on arrival. -/
def dropRackTag (s : State) (t p : Nat) (which : Option Nat) : State :=
  s.modFn (fnOf t) fun f => { f with tags := f.tags.map fun e => match e.2 with
    | .rack q k => if q = p ∧ which.getD 64 = k then (e.1, .drop) else e
    | _ => e }

/-- The held rack-master read of a port ends with bus error (R31); `ev` is its record, if it has one. -/
def endHeldRack (s : State) (p cs : Nat) (ev : Option Ev) : State :=
  match (s.port p).held with
  | none => s
  | some h =>
    let s := dropRackTag (s.modPort p fun q => { q with held := none }) h.tenant p none
    raiseOpt (inboundErr s p h.addr cs h.space) (ev.map fun e => { e with tenant := h.tenant, cs := cs, addr := h.addr })

/-- The discard timer of a port's delayed reads in ns (R230). -/
def discardTime (s : State) (p : Nat) : Nat := us (clampTo 10 100000 (s.reg (if p = 0 then 0x42010 else 0x42014)).toNat)

/-- A delayed read whose data has not come ends with an error in its slot (R222). -/
def endDtSlot (s : State) (p k cs : Nat) : State :=
  let d := Tbl.get dtInit (s.port p).dt k
  if d.used ∧ d.data = none ∧ d.err = 0 then
    (dropRackTag s d.tenant p (some k)).modPort p fun q => { q with
      dt := q.dt.set dtInit k { d with err := cs, expires := s.now + discardTime s p } }
  else s

/-- Rack-master reads of the tenants that `who` names end (R31, R195), with their number. -/
def endRackReads (s : State) (who : Nat → Bool) (cs : Nat) (ev : Option Ev) : Nat × State :=
  let hits := (List.range 2).filter fun p => (s.port p).held.any fun h => who h.tenant
  let slots := (List.range 2).flatMap fun p => ((List.range 8).filter fun k =>
    let d := Tbl.get dtInit (s.port p).dt k
    d.used && who d.tenant && d.data.isNone && decide (d.err = 0)).map fun k => (p, k)
  let s := hits.foldl (fun s p => endHeldRack s p cs (ev.map fun e => { e with src := srcPort p })) s
  (hits.length + slots.length, slots.foldl (fun s e => endDtSlot s e.1 e.2 cs) s)

/-- The 64th point record of a cycle, written with its count of the further transitions (R402, R531). -/
def flush64 (s : State) (c : HarCycle) : State :=
  match c.held64 with
  | some r => enqueueRec s { r with data := slice r.data 0 32 ++ leBytes 4 (c.trans - 64) }
  | none => s

/-- A harvest cycle in progress ends as under R408: nothing more is issued and it does not publish; its flood image read is discarded when it completes. -/
def endCycle (s : State) (h : Nat) : State :=
  let s := match (s.sched h).cycle with
    | some c => flush64 s c
    | none => s
  let fn := fnOf (s.sched h).tenant
  let s := s.modFn fn fun f => { f with tags := f.tags.map fun e => if e.2 = .selector h ∨ e.2 = .half h then (e.1, .drop) else e }
  (s.modSched h fun x => { x with cycle := none, flood := none }).modHar fun x => { x with
    floodWait := (List.range 6).foldl (fun w k => match Tbl.get (fun _ => none) w k with
      | some (h', _, _) => if h' = h then w.set (fun _ => none) k none else w
      | none => w) x.floodWait }

/-- The busy slots of the beds. -/
def busySlots (s : State) : List Nat := (s.qs.slots.rows.filter fun kv => kv.2.busy).map fun kv => kv.1

/-- Every pan freezes its started segments where they stand (R195, R256). -/
def freezePans (s : State) : State :=
  (busySlots s).foldl (fun s k => if (s.slot k).started then s.modSlot k fun x => { x with frozen := true } else s) s

/-- Window writes that have not begun settle CONTAINED (R195, R540, R367), with their number: the waiting accesses that `p` picks and the staging queues of the tenants that `who` names. -/
def containWrites (s : State) (who : Nat → Bool) (ev : Option Ev) : Nat × State :=
  let (n, s) := (List.range 65).foldl (fun (acc : Nat × State) t =>
    if who t then let (m, s) := drainStaged acc.2 t ev; (acc.1 + m, s) else acc) (0, s)
  let (as, s) := pullAccs s fun a => isWindowWrite a && who a.tenant
  (n + as.length, as.foldl (fun s a => failAcc s a Cs.contained (accFirst a) 0 ev) s)

/-- Device containment entered on a cause (R195, R536), or met again: the cause bit is added and the record written again. A cause that meets a release under way stops it (R537). -/
def enterDevice (s : State) (cause : Nat) : State :=
  let was := s.cont.dev
  let rel := s.cont.releasing
  let s := s.modCont fun c => { c with dev := true, devCause := c.devCause ||| BitVec.ofNat 6 (2 ^ cause), releasing := false
                                       relErr := if rel then c.relErr ||| 1#9 else c.relErr }
  if was then
    let s := containRec s 0 0 cause 0 srcHc 0xFF
    if rel then sendMsix s 0 1 else s
  else
    let (n, s) := containWrites s (fun _ => true) none
    let s := freezePans s
    let s := (List.range 8).foldl endCycle s
    let (m, s) := endRackReads s (fun _ => true) Cs.contained (some (containedEv srcHc))
    let s := containRec s 0 0 cause (n + m) srcHc 0xFF
    twinRelinquish (sendMsix s 0 1)

/-- Tenant containment entered (R195, R536), or met again: the first cause stays. -/
def enterTenant (s : State) (t cause : Nat) : State :=
  if s.tenantCause t ≠ 0 then containRec s 1 t cause 0 srcHc t
  else
    let s := s.modCont fun c => { c with tenants := c.tenants.set (fun _ => 0) t cause }
    let (n, s) := containWrites s (fun u => decide (u = t)) (some (containedEv srcHc))
    let rs := s.reads.filter fun r => decide (r.tenant = t ∧ r.ended = 0) && (match r.who with
      | .host _ _ => true
      | .seg _ _ => false)
    let s := rs.foldl (fun s r => abortHostRead (s.raise { containedEv srcHc with tenant := t, cs := Cs.contained, addr := r.haddr }) r Cs.contained 1 true) s
    let s := ((List.range 8).filter fun h => decide ((s.sched h).tenant = t)).foldl endCycle s
    let (m, s) := endRackReads s (fun u => decide (u = t)) Cs.contained (some (containedEv srcHc))
    let s := containRec s 1 t cause (n + rs.length + m) srcHc t
    let s := sendMsix s 0 1
    if t = 0 then s else sendMsix s (fnOf t) 1

/-! ## Ports -/

/-- The bus of a port released and its pins in their reset states (R49, R51, R324 steps 3 and 4): the transceiver enables negated, the interrupter's line released. -/
def releaseBus (s : State) (p : Nat) : State :=
  let s := if (s.port p).owned then s.emit (.portLine p 1 0 false) else s
  let s := if s.reg (paReg p 0x18C) ≠ 0 then (s.setReg (paReg p 0x18C) 0).emit (.portLine p 6 0 false) else s
  s.modPort p fun q => { q with owned := false, requesting := false, releaseAsked := false, oeN := 0xFF#8, dir := 0#8 }

/-- One open access of a port cut (R324 step 2): its strobes negated, latched where its cycle had begun, its CS returned without a record of its own. -/
def cutOpen (s : State) (p cs : Nat) (o : OpenAcc) : State :=
  let s := if o.isOpen then s.emit (.strobesOff p) else s
  let s := if o.isOpen ∨ 0 < o.retries ∨ o.got ≠ [] then latchErr s p o.cur.1 cs o.acc.space o.acc.stop false else s
  let drop := decide (o.acc.kind = .read) && s.reads.any fun r => decide (r.ended ≠ 0) && isReadAcc r.uid o.acc
  if drop then accEnd s o.acc { cs := cs, addr := o.cur.1, data := [], beat := 0 }
  else failAcc s o.acc cs o.cur.1 0 none

/-- Every access of a port ends with a CS, those under way cut (R324, R325), with their number. -/
def endPortAccs (s : State) (p cs : Nat) : Nat × State :=
  let opens := (s.port p).opens
  let waits := (s.port p).waiting
  let s := s.modPort p fun q => { q with opens := [], waiting := [] }
  let s := opens.foldl (fun s o => cutOpen s p cs o) s
  (opens.length + waits.length, waits.foldl (fun s a => failAcc s a cs (accFirst a) 0 none) s)

/-- The PORT_SERVICE commands of a port end: the one that stops it with a CS, those that wait by being decided afresh against containment: REFUSED 3 (R533, R296). -/
def endPortService (s : State) (p cs : Nat) : State :=
  let q := s.port p
  let s := s.modPort p fun q => { q with stopMb := none, svcWait := [] }
  let s := match q.stopMb with
    | some mb => ran s mb cs []
    | none => s
  q.svcWait.foldl (fun s w => if cs = Cs.contained then refuse s w.1 3 0 else ran s w.1 cs []) s

/-- A port's cause byte with a bit added. -/
def addPortCause (s : State) (p bitNo : Nat) : State :=
  s.modCont fun c => { c with ports := c.ports.set (fun _ => 0) p (s.portCause p ||| 2 ^ bitNo) }

/-- Port containment entered on a cause bit of R323 (R324), or met again (R195). -/
def enterPort (s : State) (p cause : Nat) : State :=
  let was := decide (s.portCause p ≠ 0)
  let s := addPortCause s p cause
  if was then containRec s 2 p cause 0 (srcPort p) 0xFF
  else
    let s := if cause ≤ 1 then s.incReg (paReg p 0x3C) else s
    let s := s.modPort p fun q => { q with st := .contained }
    let (n, s) := endPortAccs s p Cs.contained
    let m := b2n (s.port p).held.isSome
    let s := endHeldRack s p Cs.contained none
    let req := (s.port p).requesting
    let s := releaseBus s p
    let s := s.modPort p fun q => { q with requesting := req && decide (cause = 1), grant := none }
    let s := endPortService s p Cs.contained
    sendMsix (containRec s 2 p cause (n + m) (srcPort p) 0xFF) 0 1

/-- A bank of a port is out of range (R56, R77): its supply stands among the faulted ones. -/
def bankOut (s : State) (p : Nat) : Bool := (List.range 4).any fun b => decide (6 + 4 * p + b ∈ s.mon.faulted)

/-- A cause of a contained port persists (R198, R323, R490). -/
def portPersists (s : State) (p : Nat) : Bool :=
  let c := s.portCause p
  let q := s.port p
  (bit c 0 && decide (q.watched ≠ [])) || (bit c 1 && q.requesting) || (bit c 2 && q.sysfail)
    || (bit c 4 && bankOut s p) || bit c 5 || bit c 6 || (bit c 7 && decide (s.twin.st = .fenced))

/-! ## Links -/

/-- Link containment entered (R459), or met again. What the link's traffic meets is the caller's (R458). -/
def enterLink (s : State) (k cause count : Nat) : State :=
  let was := decide (s.linkCause k ≠ 0)
  let s := s.modCont fun c => { c with links := c.links.set (fun _ => 0) k (s.linkCause k ||| 2 ^ cause) }
  let s := containRec s 3 k cause count (srcLink k) 0xFF
  if was then s else sendMsix s 0 1

/-- A cause of a contained link persists (R198, R459, R490). -/
def linkPersists (s : State) (k : Nat) : Bool :=
  (bit (s.linkCause k) 2 && decide (k ∈ s.cont.linkVersion)) || bit (s.linkCause k) 3
    || (bit (s.linkCause k) 4 && decide (s.twin.st = .fenced))

/-- VF tenants hold kept state after a surprise link down (R535). -/
def keptState (s : State) : Bool := s.cont.linkWasDown && decide (s.ep.keptVfs ≠ [])

/-- The device causes that persist (R198, R201 [13:8]): the host link not in L0 or VF Enable not set again, both PLLs lost, a supply or the junction out of range, the TAP's takeover. -/
def devPersist (s : State) : Nat :=
  let c := s.cont.devCause.toNat
  b2n (bit c 0 && (decide (s.ep.link ≠ .l0) || keptState s)) + 4 * b2n (bit c 2 && s.cont.pllLost)
    + 8 * b2n (bit c 3 && s.mon.faulted.any fun k => decide (k < 6)) + 16 * b2n (bit c 4 && s.mon.shutdown)
    + 32 * b2n (bit c 5 && s.cont.tapTakeover)

/-- A device release is refused (R198): a cause persists, or the host link is not in L0, or VFs hold kept state. -/
def devReleaseRefused (s : State) : Bool := decide (devPersist s ≠ 0 ∨ s.ep.link ≠ .l0) || keptState s

end Sys2Proof.Machine
end

