-- ==== Sys2Proof/Machine/Fences.lean ====
section
/-! DEFINITION. Settle fences and the quota command (R365, R371-R374). -/

namespace Sys2Proof.Machine

/-- The payload of SETTLE_FENCE (R372). -/
def settleFenceParam (p : List Byte) : Bool := decide (wordAt p 4 ≤ 64)

/-- The payload of TALLY_QUOTA_SET (R365). -/
def tallyQuotaParam (p : List Byte) : Bool := decide (wordAt p 0 ≤ 64 ∧ 48 ≤ wordAt p 4 ∧ wordAt p 4 ≤ 3584)

/-- The 16 bytes that a fence answers with (R372). -/
def fenceBytes (q : TallyT) (n ticket cs addr : Nat) (clamped : Bool) : List Byte :=
  leBytes 4 ticket ++ leBytes 2 cs
    ++ leBytes 2 (min 255 (fenceKept q n).length + 256 * b2n q.overflow + 512 * b2n clamped) ++ leBytes 8 addr

/-- A fence ends with a CS, its ticket and address (R371, R372): the command's response, or the SETTLE descriptor's CS and RESIDUAL. -/
def endFence (s : State) (f : Fence) (cs ticket addr : Nat) : State :=
  let body := fenceBytes (s.tally f.tenant) f.n ticket (if ticket = 0 then Cs.done else cs) addr f.clamped
  let s := s.modTal fun x => { x with fences := x.fences.filter fun g => decide (g.id ≠ f.id) }
  let s := match f.queue with
    | some (q, u) => s.modQ q fun x => { x with descs := x.descs.map fun d => if d.uid = u then { d with fence := none, final := some (cs, ticket) } else d }
    | none => s
  match f.mb with
  | some mb => ran s mb cs body
  | none => s

/-- A fence whose condition holds ends (R371): DONE, or the first kept failure of its range. -/
def fenceCheck (s : State) (f : Fence) : State :=
  let q := s.tally f.tenant
  if fenceReached q f.n then
    match fenceKept q f.n with
    | [] => endFence s f Cs.done 0 0
    | k :: _ => endFence s f k.cs k.ticket k.addr
  else s

/-- SETTLE_FENCE_END (R371, R373). -/
def execSettleFenceEnd (fence : Nat) (s : State) : Host.Outcome State Fault Refusal :=
  .next (match s.tal.fences.find? fun f => decide (f.id = fence) with
    | some f => fenceCheck s f
    | none => s)

/-- The first unsettled ticket of a fence's range (R371). -/
def fenceUnsettled (q : TallyT) (n : Nat) : Option Unsettled :=
  (attached q).find? fun u => ticketAfter u.ticket (fenceFrom q) && atOrBefore u.ticket n

/-- FENCE_EXPIRED's effect (R371): FAR_TIMEOUT, naming the first unsettled ticket. -/
def fenceExpiredEff (s : State) (f : Fence) : State :=
  let q := s.tally f.tenant
  if fenceReached q f.n then s
  else
    let s := s.atTime f.limitAt
    let t := match fenceUnsettled q f.n with
      | some u => (u.ticket, u.addr)
      | none => (0, 0)
    let s := s.raise { code := Ev.fenceExpired, src := srcLt, tenant := f.tenant, cs := Cs.farTimeout, addr := t.2, ticket := t.1 }
    endFence s f Cs.farTimeout t.1 t.2

/-- FENCE_EXPIRED (R371). -/
def execFenceExpired (fence : Nat) (s : State) : Host.Outcome State Fault Refusal :=
  .next (match s.tal.fences.find? fun f => decide (f.id = fence) with
    | some f => fenceExpiredEff s f
    | none => s)

/-- The rank of the partner, which leads what this chip follows (R480). -/
def partnerRank (s : State) : Nat := 3 - s.img.pair.rank

/-- SETTLE_FENCE's effect (R371, R372, R480): it waits, or ends at once where its condition holds already. -/
def settleFenceEff (s : State) (mb : Nat) (c : Cmd) : State :=
  let t := wordAt c.payload 4
  if !ownsObject mb t then reject s mb Rej.notOwner
  else if s.followed t then refuse s mb 9 (partnerRank s)
  else
    let (n, clamped) := fenceTicket (s.tally t) (wordAt c.payload 0)
    let id := s.tal.nextFence
    let s := waitCmd (startFence s t n clamped (some mb) none) mb
    match s.tal.fences.find? fun f => decide (f.id = id) with
    | some f => fenceCheck s f
    | none => s

/-- SETTLE_FENCE (R371). -/
def execSettleFence (s : State) : Host.Outcome State Fault Refusal := runCmd 0x0404 s settleFenceEff

/-- The sum of the tenants' quotas (R364). -/
def quotaSum (s : State) : Nat := ((List.range 65).map fun t => (s.tally t).quota).sum

/-- TALLY_QUOTA_SET's effect (R365). -/
def tallyQuotaEff (s : State) (mb : Nat) (c : Cmd) : State :=
  let t := wordAt c.payload 0
  let q := wordAt c.payload 4
  if 3584 < quotaSum s - (s.tally t).quota + q then refuse s mb 1 0
  else done (s.modTally t fun x => { x with quota := q }) mb []

/-- TALLY_QUOTA_SET (R365). -/
def execTallyQuotaSet (s : State) : Host.Outcome State Fault Refusal := runCmd 0x0405 s tallyQuotaEff

/-- The fences of a tenant end ABORT_RESET (R371: an FLR of the tenant while a fence on it waits), with their number. -/
def abortFences (s : State) (t : Nat) : Nat × State :=
  let fs := s.tal.fences.filter fun f => decide (f.tenant = t)
  (fs.length, fs.foldl (fun s f => endFence s f Cs.abortReset 0 0) s)

end Sys2Proof.Machine
end

