-- ==== Sys2Proof/Machine/Host.lean ====
section
/-! DEFINITION. Host requests to the window apertures (R23-R26, R195, R205-R216) and what the host link reports about them (R186, R228). -/

namespace Sys2Proof.Machine

/-- A function's BARs answer memory requests (R116 step 8, R127, R179, R191): the host link is up, configuration space answers, the function exists and decodes, and is neither in D3hot nor under an FLR. In recovery PF0 alone exists (R120). -/
def fnAnswers (s : State) (fn : Nat) : Bool :=
  decide (s.ep.link = .l0 ∧ 8 ≤ s.boot.step) && fnEnabled s fn && (decide (fn = 0) || !s.boot.recovery)
    && (decide (2 ≤ fn) || (s.fn fn).memSpace) && !(s.fn fn).d3hot && !(s.fn fn).flr

/-- A commit in progress holds a tenant's BAR2 requests: it owns a window of the range, before or after (R214). -/
def commitHolds (s : State) (t : Nat) : Bool :=
  match s.win.commit with
  | none => false
  | some c => (List.range (c.last + 1 - c.first)).any fun i =>
      let w := c.first + i
      ((winWork s w).en && decide ((winWork s w).tenant = t))
        || (let g := winFields (winWord s.win.shadow w); g.en && decide (g.tenant = t))

/-- A host request waits behind the commit (R214). -/
def holdReq (s : State) (r : HostReq) : State :=
  s.modWin fun x => { x with commit := x.commit.map fun c => { c with reqs := c.reqs ++ [r] } }

/-- A window miss (R205, R25): counted, recorded with the aperture offset, reported as Unsupported Request. -/
def winMiss (s : State) (fn off : Nat) : State :=
  ((s.incReg 0x42018).raise { code := Ev.windowMiss, src := srcHc, tenant := tenantOf fn, cs := Cs.windowMiss, addr := off }).emit (.aer fn 0)

/-- Contiguous runs of enabled bytes: (offset, bytes). -/
def runsOf : List (Option Byte) → Nat → List (Nat × List Byte)
  | [], _ => []
  | none :: r, i => runsOf r (i + 1)
  | some b :: r, i => match r, runsOf r (i + 1) with
    | some _ :: _, (_, bs) :: more => (i, b :: bs) :: more
    | _, more => (i, [b]) :: more

/-- The bytes of a list written to host memory for a tenant, one write for each run. -/
def hostWriteRuns (s : State) (t addr : Nat) (bs : List (Option Byte)) : State :=
  (runsOf bs 0).foldl (fun s r => hostWrite s t (addr + r.1) r.2) s

/-- The access of a translated window write. -/
def writeAcc (s : State) (t : Nat) (f : WinF) (off : Nat) (bs : List (Option Byte)) : Acc :=
  let (addr, bytes) := endianOut f.endian (f.base + (off - f.aper)) bs
  { kind := .write, tenant := t, target := f.target, addr := addr, space := f.space, width := 2 ^ f.width, bytes := bytes
    region := targetRegion s f.target f.space (addr + firstSome bytes), ticket := 0, origin := .hostWrite, stop := 0, endian := 0
    cls := 0, mask := 0, value := 0, temp := none }

/-- A write gets its tenant's next ticket and enters the rings (R23 steps 2 and 3); with no enabled byte it settles at once. A leader's write enters the rings after the follower's acknowledgement (R484). -/
def ticketWrite (s : State) (a : Acc) : State :=
  let (n, s) := issueTicket s a.tenant a.target a.space (accFirst a) (a.bytes.length - firstSome a.bytes) false
  if countSome a.bytes = 0 then settle s a.tenant n Cs.done a.addr none
  else mirrorHold s a.tenant (.ticket a.tenant n 0xFFFF 0 0) (.write { a with ticket := n }) fun s => sendAcc s { a with ticket := n }

/-- TAL_STAGE_DROP (R24): the write is discarded and its tenant contained. -/
def stageDrop (s : State) (a : Acc) : State :=
  enterTenant (s.raise { code := Ev.talStageDrop, src := srcHc, tenant := a.tenant, cs := Cs.ledgerFull, addr := accFirst a }) a.tenant 1

/-- A translated write to a rack target (R23 step 2, R24, R540). -/
def stageWrite (s : State) (a : Acc) : State :=
  let q := s.tally a.tenant
  if s.tenantStopped a.tenant then settleContained s a.tenant a.target a.space (accFirst a) (a.bytes.length - firstSome a.bytes) (some (containedEv srcHc))
  else if q.waiters = [] ∧ entryFree s a.tenant then ticketWrite s a
  else if (staged q).length < 16 then s.modTally a.tenant fun q => { q with waiters := q.waiters ++ [.window a] }
  else stageDrop s a

/-- A posted write is accepted (R23 step 1): matched, translated once, and sent on its way; a loopback write takes no ticket (R362). -/
def acceptWrite (s : State) (fn off : Nat) (bs : List (Option Byte)) : State :=
  let t := tenantOf fn
  match winMatch s t off with
  | none => winMiss s fn off
  | some f =>
    let a := writeAcc s t f off bs
    if f.target = 6 then
      if s.tenantStopped t then s.raise { containedEv srcHc with tenant := t, cs := Cs.contained, addr := accFirst a }
      else hostWriteRuns s t a.addr a.bytes
    else stageWrite s a

/-- HOST_POSTED_WRITE's effect (R23, R127, R191, R214). -/
def hostPostedWriteEff (s : State) (fn off : Nat) (data : List Byte) (be : List Bool) : State :=
  if fn = 1 ∨ bar2Size s (tenantOf fn) ≤ off then s
  else if !fnAnswers s fn then (if (s.fn fn).flr then s else s.emit (.aer fn 0))
  else if commitHolds s (tenantOf fn) then holdReq s (.write fn off data be)
  else acceptWrite s fn off (enabled data be)

/-- HOST_POSTED_WRITE: a write to a BAR2 aperture (R23-R25). -/
def execHostPostedWrite (fn : Fn) (off : Nat) (data : List Byte) (be : List Bool) (s : State) : Host.Outcome State Fault Refusal :=
  .next (hostPostedWriteEff s fn.val off data be)

/-- The record of a translated host read (R26 step 1, R206). -/
def readRecord (s : State) (u t : Nat) (f : WinF) (fn rid off : Nat) (be : List Bool) : HeldRead :=
  let haddr := f.base + (off - f.aper)
  let (addr, bytes) := endianOut f.endian haddr (be.map fun b => if b then some 0#8 else none)
  let first := addr + firstSome bytes
  { uid := u, who := .host fn rid, tenant := t, target := f.target, haddr := haddr, hlen := be.length, addr := addr
    space := f.space, width := 2 ^ f.width, endian := f.endian, cls := effClass s f.target f.space first f.rclass
    prefetch := f.prefetch, region := targetRegion s f.target f.space first, want := bytes.map Option.isSome
    kept := [], asked := [], lines := 0, wideLines := 0, stale := [], stage := .room, res := none, ended := 0
    accepted := s.now, dueOn := [] }

/-- A host read is accepted (R26, R195, R205, R211, R217): it waits in HC for its late-pool room, a loopback read goes out on the host link. -/
def acceptRead (s : State) (fn rid off : Nat) (be : List Bool) : State :=
  let t := tenantOf fn
  match winMatch s t off with
  | none => (winMiss s fn off).emit (.hostCpl fn rid .ur Cs.windowMiss [])
  | some f =>
    let (u, s) := newUid s
    let r := readRecord s u t f fn rid off be
    if s.tenantStopped t then
      ((s.raise { containedEv srcHc with tenant := t, cs := Cs.contained, addr := r.haddr }).emit (.aer fn 1)).emit (.hostCpl fn rid .ca Cs.contained [])
    else
      let s := s.modReads fun rs => rs ++ [r]
      if f.target = 6 then loopSend s r else s

/-- HOST_READ's effect (R26, R127, R191, R214). -/
def hostReadEff (s : State) (fn rid off : Nat) (be : List Bool) : State :=
  if fn = 1 ∨ bar2Size s (tenantOf fn) ≤ off then s
  else if !fnAnswers s fn then (s.emit (.aer fn 0)).emit (.hostCpl fn rid .ur Cs.none [])
  else if commitHolds s (tenantOf fn) then holdReq s (.read fn rid off be)
  else acceptRead s fn rid off be

/-- HOST_READ: a read of a BAR2 aperture (R26). -/
def execHostRead (fn : Fn) (rid off : Nat) (be : List Bool) (s : State) : Host.Outcome State Fault Refusal :=
  .next (hostReadEff s fn.val rid off be)

/-- A request that waited behind a commit proceeds (R214). -/
def releaseReq (s : State) (r : HostReq) : State :=
  match r with
  | .write fn off data be => hostPostedWriteEff s fn off data be
  | .read fn rid off be => hostReadEff s fn rid off be

/-- WIN_COMMIT_DONE (R213-R215): the copies change or the failure is reported, then held shadow writes and held requests proceed in order. -/
def winCommitDoneEff (s : State) : State :=
  match s.win.commit with
  | none => s
  | some c =>
    let s := endCommit (s.modWin fun x => { x with commit := none }) c.first c.last c.result c.bad
    let s := c.shadows.foldl (fun s e => setShadow s (e.1 / 8) (e.1 % 8) e.2) s
    c.reqs.foldl releaseReq s

/-- WIN_COMMIT_DONE: the commit ends, within 2 µs of its start (R214). -/
def execWinCommitDone (s : State) : Host.Outcome State Fault Refusal := .next (winCommitDoneEff s)

/-- POISON_RECEIVED (R186): a poisoned write to a BAR is dropped before translation and takes no ticket. -/
def execPoisonReceived (fn : Fn) (addr : Nat) (s : State) : Host.Outcome State Fault Refusal :=
  .next ((s.raise { code := Ev.poisonReceived, src := srcHc, tenant := tenantOf fn.val, cs := Cs.hostPoison, addr := addr }).emit (.aer fn.val 4))

/-- HOST_LINK_CORRECTABLE (R186): logged in PF0 AER and recorded, at most 1,000 records per second. -/
def execHostLinkCorrectable (_kind : LinkCorr) (s : State) : Host.Outcome State Fault Refusal :=
  .next ((s.raise { code := Ev.hostLinkCorr, src := srcHc }).emit (.aer 0 5))

/-- LATE_COMPLETION (R228, R256): a completion for a quarantined tag is discarded, counted, recorded and reported; one for a request nobody waits for any more is discarded and its tag freed. -/
def lateCompletionEff (s : State) (fn tag : Nat) : State :=
  if tag ∈ (s.fn fn).quar then
    ((s.incReg 0x4201C).raise { code := Ev.lateCompletion, src := srcHc, tenant := tenantOf fn }).emit (.aer fn 3)
  else if (tag, TagUse.drop) ∈ (s.fn fn).tags then freeTag s fn tag
  else s

/-- LATE_COMPLETION (R228). -/
def execLateCompletion (fn : Fn) (tag : Nat) (s : State) : Host.Outcome State Fault Refusal := .next (lateCompletionEff s fn.val tag)

/-- TAG_QUARANTINE_EXPIRE (R228): four times the timeout has passed and the tag is free. -/
def execTagQuarantineExpire (fn : Fn) (tag : Nat) (s : State) : Host.Outcome State Fault Refusal :=
  .next (s.modFn fn.val fun f => { f with quar := f.quar.filter fun n => decide (n ≠ tag) })

end Sys2Proof.Machine
end

