-- ==== Sys2Proof/Machine/Budget.lean ====
section
/-! DEFINITION. Harvest points, routes and budgets (R383, R390, R399, R404, R405, R407). -/

namespace Sys2Proof.Machine

/-- Word `i` of point entry `e` (R383). -/
def ptWord (s : State) (e i : Nat) : Nat := (Tbl.get (fun _ => 0#32) s.har.pt (e * 8 + i)).toNat

/-- Fields of a point entry (R383). -/
def ptTarget (s : State) (e : Nat) : Nat := bits (ptWord s e 0) 2 0
def ptSpace (s : State) (e : Nat) : Nat := bits (ptWord s e 0) 13 8
def ptWidth (s : State) (e : Nat) : Nat := 2 ^ bits (ptWord s e 0) 17 16
def ptEncoding (s : State) (e : Nat) : Nat := bits (ptWord s e 0) 22 20
def ptScale (s : State) (e : Nat) : Nat := bits (ptWord s e 0) 25 24
def ptDfmt (s : State) (e : Nat) : Nat := bits (ptWord s e 0) 31 28
def ptLsb (s : State) (e : Nat) : Nat := bits (ptWord s e 1) 5 0
def ptFwidth (s : State) (e : Nat) : Nat := bits (ptWord s e 1) 13 8
def ptShift (s : State) (e : Nat) : Nat := bits (ptWord s e 1) 20 16
def ptAddr (s : State) (e : Nat) : Nat := ptWord s e 2 + 0x100000000 * ptWord s e 3
def ptOffset (s : State) (e : Nat) : Nat := ptWord s e 4
def ptMul (s : State) (e : Nat) : Nat := ptWord s e 5
def ptOfs (s : State) (e : Nat) : Nat := ptWord s e 6
def ptChgMode (s : State) (e : Nat) : Nat := bits (ptWord s e 7) 1 0
def ptChgIrq (s : State) (e : Nat) : Bool := bit (ptWord s e 7) 2
def ptDeadband (s : State) (e : Nat) : Nat := ptWord s e 7 / 256

/-- The region of a point (R340, R453). -/
def ptRegion (s : State) (e : Nat) : Nat := targetRegion s (ptTarget s e) (ptSpace s e) (ptAddr s e)

/-- A route at reset: converted, naming its port and region (R390). -/
def routeInit (k : Nat) : List Word := [w32 (k / 64 + k % 64 * 256), 0#32, 0#32, 0#32]

/-- Word `i` of a region's route (R390). -/
def routeWord (s : State) (p r i : Nat) : Nat := (nth (Tbl.get routeInit s.har.routes (p * 64 + r)) i 0#32).toNat

/-- A point in a tunnelled region is a frame point (R391). -/
def isFrame (s : State) (e : Nat) : Bool := decide (ptTarget s e ≤ 1) && bit (routeWord s (ptTarget s e) (ptRegion s e) 0) 16

/-- Fields of a point's route (R390). -/
def maxFrame (s : State) (e : Nat) : Nat := bits (routeWord s (ptTarget s e) (ptRegion s e) 1) 12 0
def lenSize (s : State) (e : Nat) : Nat := [1, 2, 4, 0].getD (bits (routeWord s (ptTarget s e) (ptRegion s e) 1) 17 16) 0
def lenBe (s : State) (e : Nat) : Bool := bit (routeWord s (ptTarget s e) (ptRegion s e) 1) 18
def frameFifo (s : State) (e : Nat) : Bool := bit (routeWord s (ptTarget s e) (ptRegion s e) 1) 19
def lenOffset (s : State) (e : Nat) : Nat := bits (routeWord s (ptTarget s e) (ptRegion s e) 2) 11 0
def lenAdjust (s : State) (e : Nat) : Int := signed 16 (bits (routeWord s (ptTarget s e) (ptRegion s e) 2) 31 16)

/-- The entries of a schedule's flood and harvest lists. -/
def floodEntries (x : Sched) : List Nat := if x.hasFlood then (List.range x.fCap).map fun i => x.fFirst + i else []
def harvestEntries (x : Sched) : List Nat := (List.range x.hCap).map fun i => x.hFirst + i

/-- A port's turnaround g in ns (R404). -/
def turnaround (s : State) (p : Nat) : Nat :=
  let t := persT s p
  if persKind t = 4 then (timing t 10 * 10000 + field t 8 2 - 1) / max 1 (field t 8 2) else perNs (timing t 4 + timing t 5)

/-- The figure t of a port region in ns, and whether it is cold (R404). -/
def regionTime (s : State) (p r : Nat) : Nat × Bool :=
  let x := s.prof (profKey p r)
  if warm x then (profMax x, false)
  else if (refOf s p r).2 ≠ 0 then ((refOf s p r).2, false)
  else (effTimeout x * 1000, true)

/-- A point's unit in ns, and whether it is cold (R404); a link point's is HAR_LINK_ALLOW. -/
def ptUnit (s : State) (e : Nat) : Nat × Bool :=
  let k := ptTarget s e
  if k ≤ 1 then
    let t := regionTime s k (ptRegion s e)
    (t.1 + turnaround s k, t.2)
  else ((s.reg (0x300810 + 4 * (k - 2))).toNat, false)

/-- A point's cost in ns (R404). -/
def ptCost (s : State) (e : Nat) : Nat :=
  if isFrame s e then (maxFrame s e + ptWidth s e - 1) / ptWidth s e * (ptUnit s e).1 else (ptUnit s e).1

/-- Schedule `a` has a higher priority than `b` (R399). -/
def schedBefore (s : State) (a b : Nat) : Bool :=
  let p := (s.sched a).period
  let q := (s.sched b).period
  decide (p < q ∨ (p = q ∧ a < b))

/-- All entries of a schedule on a target. -/
def entriesOn (s : State) (h k : Nat) : List Nat :=
  (floodEntries (s.sched h) ++ harvestEntries (s.sched h)).filter fun e => decide (ptTarget s e = k)

/-- S of R405. -/
def schedCost (s : State) (h k : Nat) : Nat := ((entriesOn s h k).map (ptCost s)).sum

/-- W of R405 for schedule `h` on target `k`, among the running schedules `run`. -/
def targetLoad (s : State) (run : List Nat) (h k : Nat) : Nat :=
  let x := s.sched h
  let a := if k ≤ 1 then us (s.reg (0x300800 + 4 * k)).toNat else 0
  let higher := run.filter fun g => decide (g ≠ h) && schedBefore s g h
  let lower := run.filter fun g => decide (g ≠ h) && schedBefore s h g
  let upper := (higher.map fun g => (x.period + (s.sched g).period - 1) / max 1 (s.sched g).period * schedCost s g k).sum
  let block := (lower.flatMap fun g => (entriesOn s g k).map fun e => (ptUnit s e).1).foldl max 0
  a + schedCost s h k + upper + block

/-- BUDGET of a schedule (R405) and the target of its largest W. -/
def budgetOf (s : State) (run : List Nat) (h : Nat) : Nat × Nat :=
  let ws := ((List.range 6).filter fun k => entriesOn s h k ≠ []).map fun k => (targetLoad s run h k, k)
  let top := ws.foldl (fun m w => if m.1 < w.1 then w else m) (0, 0)
  (200 + top.1 + 2000 + 5 * ((floodEntries (s.sched h)).length + (s.sched h).hCap), top.2)

/-- LOAD of R405. -/
def loadOf (s : State) (h budget : Nat) : Nat := 1000 * budget / max 1 (us (s.sched h).period)

/-- A budget fits: BUDGET ≤ FILL × P / 100 (R405). -/
def feasible (s : State) (h budget : Nat) : Bool := decide (budget ≤ (s.sched h).fill * us (s.sched h).period / 100)

/-- The flood points of a target forget what they last wrote: the next cycle writes each (R389). -/
def forgetFlood (s : State) (target : Nat) : State :=
  ((List.range 8).flatMap fun h => (floodEntries (s.sched h)).filter fun e => decide (ptTarget s e = target)).foldl
    (fun s e => s.modPtSt e fun p => { p with ref := none }) s

/-- The running schedules. -/
def runningScheds (s : State) : List Nat := (List.range 8).filter fun h => decide ((s.sched h).st = .running)

/-- A record about a schedule's budget (R407): the schedule and BUDGET. -/
def riskRec (s : State) (code h budget : Nat) : State :=
  s.raise { code := code, src := src 16 0, tenant := (s.sched h).tenant, data := bytesOfWords [h, budget] }

/-- One running schedule's budget put in force with its flags and records (R407). -/
def applyBudget (s : State) (h : Nat) : State :=
  let b := (budgetOf s (runningScheds s) h).1
  let x := s.sched h
  let risk := !feasible s h b
  let inf := decide (us x.period < b)
  let s := s.modSched h fun x => { x with budget := b, load := loadOf s h b, atRisk := risk, infeasible := inf }
  let s := if risk ∧ !x.atRisk then riskRec s Ev.harvestAtRisk h b else s
  let s := if inf ∧ !x.infeasible then riskRec s Ev.harvestInfeasible h b else s
  if (x.atRisk ∧ !risk) ∨ (x.infeasible ∧ !inf) then riskRec s Ev.harvestRiskEnd h b else s

/-- Every running schedule's budget recomputed (R407). -/
def recheckBudgets (s : State) : State := (runningScheds s).foldl applyBudget s

/-- What a change of a profile may move: each region's MAX and effective timeout (R407). -/
def regionFigures (s : State) (p r : Nat) : Nat × Nat := (profMax (s.prof (profKey p r)), effTimeout (s.prof (profKey p r)))

/-- A sample taken, and the budgets recomputed where a region's figures moved (R343, R407, R409). -/
def sampleTaken (s : State) (p r sample beat : Nat) : State :=
  let s' := takeSample s p r sample beat
  if regionFigures s' p r ≠ regionFigures s p r then recheckBudgets s' else s'

/-- PROFILE_GET (R346). -/
def execProfileGet (s : State) : Host.Outcome State Fault Refusal :=
  runCmd 0x0502 s fun s mb c => done s mb (bytesOfWords (profWords s (wordAt c.payload 0 % 2) (bits (wordAt c.payload 0) 13 8)))

/-- PROFILE_SET's effect (R346, R347): the class stays, the settings change, and a warm region is evaluated at once. -/
def profileSetEff (s : State) (mb : Nat) (c : Cmd) : State :=
  let p := wordAt c.payload 0 % 2
  let r := bits (wordAt c.payload 0) 13 8
  let s := s.modProf (profKey p r) fun x => { x with
    w3 := w32 (x.w3.toNat % 4 + wordAt c.payload 4), w4 := w32 (wordAt c.payload 8), w5 := w32 (wordAt c.payload 12) }
  let s := if warm (s.prof (profKey p r)) then evalProfile s p r else s.modProf (profKey p r) fun x => { x with t := profTimeout x }
  done (recheckBudgets s) mb []

/-- PROFILE_SET (R347). -/
def execProfileSet (s : State) : Host.Outcome State Fault Refusal := runCmd 0x0503 s profileSetEff

/-- The samples of a region's accesses under way are discarded (R347). -/
def discardSamples (s : State) (p : Nat) (rs : List Nat) : State :=
  s.modPort p fun q => { q with opens := q.opens.map fun o => if o.acc.region ∈ rs then { o with noSample := true } else o }

/-- PROFILE_CLEAR's effect (R346, R347). -/
def profileClearEff (s : State) (mb : Nat) (c : Cmd) : State :=
  let p := wordAt c.payload 0 % 2
  let w1 := wordAt c.payload 4
  let rs := if bit w1 1 then List.range (persRegions (persT s p)) else [bits (wordAt c.payload 0) 13 8]
  let s := rs.foldl (fun s r => clearProfile s p r (bit w1 0)) (discardSamples s p rs)
  done (recheckBudgets s) mb []

/-- PROFILE_CLEAR (R347). -/
def execProfileClear (s : State) : Host.Outcome State Fault Refusal := runCmd 0x0504 s profileClearEff

end Sys2Proof.Machine
end

