-- ==== Sys2Proof/Machine/Ports.lean ====
section
/-! DEFINITION. The parallel ports as masters (R299-R303, R310-R312, R318, R320-R324, R336, R341): choosing accesses, splitting them into cycles, their endings, bus ownership, the arbiter and system controller, and the line monitor. -/

namespace Sys2Proof.Machine

/-- The personality of a port's loaded table (R294). -/
def portKind (s : State) (p : Nat) : Nat := persKind ((s.port p).loaded.getD [])

/-- The table loaded into a port's sequencer. -/
def portTable (s : State) (p : Nat) : List Byte := (s.port p).loaded.getD []

/-- PA_ARB_CTL as it stood at the entry into service (R328). -/
def arbCtl (s : State) (p : Nat) : Nat := (s.port p).arbCtl.toNat

/-- The port is the P1 system controller (R311). -/
def isSysctl (s : State) (p : Nat) : Bool := decide (portKind s p = 1 ∧ (bits (arbCtl s p) 5 4 ≠ 0 ∨ (s.port p).sysctl = true))

/-- Under P3 and P4 with no request and grant lines the device is the only master (R294). -/
def soleMaster (s : State) (p : Nat) : Bool :=
  decide (3 ≤ portKind s p) && ((roleLine (portTable s p) 0x94).isNone || (roleLine (portTable s p) 0x95).isNone)

/-- The line monitor runs (R322). -/
def monitorRuns (s : State) (p : Nat) : Bool := decide ((s.port p).st = .inService ∨ (s.port p).st = .stopping ∨ (s.port p).st = .contained)

/-! ## Cycles -/

/-- The single-cycle data code of a block code's space and privilege (R302). -/
def singleCode (c : Nat) : Nat :=
  if c = 0x3B ∨ c = 0x38 then 0x39 else if c = 0x3F ∨ c = 0x3C then 0x3D else if c = 0x0B ∨ c = 0x08 then 0x09
  else if c = 0x0F ∨ c = 0x0C then 0x0D else c

/-- The bytes `[i, i + w)` of an access are all enabled. -/
def allOn (bs : List (Option Byte)) (i w : Nat) : Bool := (List.range w).all fun j => (nth bs (i + j) none).isSome

/-- The widest naturally aligned cycle at byte `i`, no wider than 2^k, that carries only enabled bytes (R209). -/
def cycleWidth (addr : Nat) (bs : List (Option Byte)) (i : Nat) : Nat → Nat
  | 0 => 1
  | k + 1 => if (addr + i) % 2 ^ (k + 1) = 0 ∧ allOn bs i (2 ^ (k + 1)) then 2 ^ (k + 1) else cycleWidth addr bs i k

/-- The naturally aligned cycles of an access in ascending order, as (offset, length) (R209). -/
def splitFrom (addr : Nat) (bs : List (Option Byte)) (k i : Nat) : Nat → List (Nat × Nat)
  | 0 => []
  | fuel + 1 =>
    if bs.length ≤ i then []
    else if (nth bs i none).isNone then splitFrom addr bs k (i + 1) fuel
    else
      let w := cycleWidth addr bs i k
      (i, w) :: splitFrom addr bs k (i + w) fuel

/-- Adjacent cycles joined into blocks that cross no multiple of `bound` (0: no boundary) and hold at most `most` bytes, built from the front (R302, R333). -/
def blocksFrom (addr bound most : Nat) : List (Nat × Nat) → List (Nat × Nat) → List (Nat × Nat)
  | acc, [] => acc.reverse
  | [], c :: r => blocksFrom addr bound most [c] r
  | b :: acc, c :: r =>
    if b.1 + b.2 = c.1 ∧ b.2 + c.2 ≤ most ∧ (bound = 0 ∨ (addr + b.1) / bound = (addr + c.1 + c.2 - 1) / bound) then
      blocksFrom addr bound most ((b.1, b.2 + c.2) :: acc) r
    else blocksFrom addr bound most (c :: b :: acc) r

/-- log2 of a width in bytes. -/
def widthLog (w : Nat) : Nat := if w ≥ 8 then 3 else if w ≥ 4 then 2 else if w ≥ 2 then 1 else 0

/-- The code driven and the cycles or blocks of an access on a port (R209, R301, R302, R318): a BLT or MBLT request whose cycles are all whole and at least two runs as blocks, under P4 full-width cycles run as bursts, a read-modify-write is one operation. -/
def cyclesOf (s : State) (p : Nat) (a : Acc) : Nat × List (Nat × Nat) :=
  if a.kind = .rmw then (a.space, [(0, a.bytes.length)])
  else
    let k := portKind s p
    let w := widthLog a.width
    let cs := splitFrom a.addr a.bytes w 0 a.bytes.length
    let whole := cs.all (fun c => decide (c.2 = 2 ^ w)) && decide (2 ≤ cs.length)
    if k = 1 ∧ (isBlt a.space ∨ isMblt a.space) then
      if whole then (a.space, blocksFrom a.addr (if isMblt a.space then 2048 else 256) 4096 [] cs)
      else (singleCode a.space, splitFrom a.addr a.bytes (min w 2) 0 a.bytes.length)
    else if k = 4 then (a.space, blocksFrom a.addr 0 (max 8 (timing (portTable s p) 11)) [] cs)
    else (a.space, cs)

/-! ## The master engine -/

/-- The accesses of a stop: one open, or the oldest waiting (R299). -/
def stopReady (q : Port) (stop : Nat) : Bool :=
  match q.opens.find? fun o => decide (o.acc.stop = stop) with
  | some o => !o.delaying
  | none => q.waiting.any fun a => decide (a.stop = stop)

/-- The stop served next (R299): HV when it has an access due, else round robin after the last. -/
def nextStop (q : Port) : Option Nat :=
  if stopReady q 15 then some 15
  else ((List.range 17).map fun i => (q.rr + 1 + i) % 17).find? fun st => decide (st ≠ 15) && stopReady q st

/-- A port has an access ready. -/
def portReady (q : Port) : Bool := (nextStop q).isSome

/-- The transceiver directions of a cycle (R52, R53): each group of a data byte lane is set toward the rack for a write, and the groups of the lanes that carry the address of P1 and P2 always. -/
def cycleDir (t : List Byte) (write : Bool) : BitVec 8 :=
  (List.range 8).foldl (fun d k =>
    let g := byteAt t (0xE4 + k)
    let addrLane := decide (persKind t = 1 ∧ 4 ≤ k) || decide (persKind t = 2 ∧ 4 ≤ k ∧ k ≤ 6)
    if 8 ≤ g then d else if write ∨ addrLane then d ||| BitVec.ofNat 8 (2 ^ (g % 8)) else d) 0#8

/-- The groups that the table uses, whose enables are low while the port is in service (R53, R54). -/
def groupsUsed (t : List Byte) : BitVec 8 :=
  let lanes := (List.range 8).filterMap fun k => if byteAt t (0xE4 + k) < 8 then some (byteAt t (0xE4 + k)) else none
  let ctl := (List.range 49).filterMap fun k => if lineRole t k ≠ 0 ∧ !bit (lineMap t k) 15 then some (bits (lineMap t k) 14 12) else none
  (lanes ++ ctl).foldl (fun d g => d ||| BitVec.ofNat 8 (2 ^ (g % 8))) 0#8

/-- The kind code of a bus cycle on the ports: 0 read, 1 write, 2 read-modify-write. -/
def busKind (a : Acc) : Nat := accKind a

/-- The value a read-modify-write writes, as bytes: its mask and value (R278). -/
def rmwBytes (a : Acc) : List (Option Byte) := ((leBytes a.bytes.length a.value).map some)

/-- The next cycle of an open access begins (R300, R342): its effective timeout is the one in force at its first strobe. -/
def strobe (s : State) (p space : Nat) (o : OpenAcc) : State :=
  let write := decide (o.acc.kind ≠ .read)
  let s := s.modPort p fun q => { q with dir := cycleDir (portTable s p) write }
  s.emit (.busCycle p (busKind o.acc) o.cur.1 space o.cur.2
    (if o.acc.kind = .write then (o.acc.bytes.drop (o.cur.1 - o.acc.addr)).take o.cur.2
     else if o.acc.kind = .rmw then rmwBytes o.acc else []))

/-- The access of a stop goes on: its next cycle, or its last one again after a retry. -/
def startStop (s : State) (p stop : Nat) : State :=
  let q := s.port p
  match q.opens.find? fun o => decide (o.acc.stop = stop) with
  | some o =>
    let o := match o.rest with
      | c :: r => if o.retries = 0 then { o with cur := c, rest := r, isOpen := true } else { o with isOpen := true }
      | [] => { o with isOpen := true }
    let s := s.modPort p fun q => { q with opens := modFirst (fun x => decide (x.acc.stop = stop)) (fun _ => o) q.opens, rr := stop }
    strobe s p (cyclesOf s p o.acc).1 o
  | none =>
    match q.waiting.find? fun a => decide (a.stop = stop) with
    | none => s
    | some a =>
      let cs := (cyclesOf s p a).2.map fun c => (a.addr + c.1, c.2)
      let o : OpenAcc := { acc := a, cur := cs.headD (a.addr, 0), isOpen := true, rest := cs.tail
                           got := List.replicate a.bytes.length none, retries := 0, delaying := false
                           timeoutUs := effTimeout (s.prof (profKey p a.region)), noSample := false, sample := none, beat := 0 }
      let s := s.modPort p fun q => { q with waiting := dropFirst (fun x => decide (x.stop = stop)) q.waiting, opens := q.opens ++ [o], rr := stop }
      strobe s p (cyclesOf s p a).1 o

/-- A cycle runs on the port now. -/
def cycleOpen (q : Port) : Bool := q.opens.any fun o => o.isOpen

/-- The bus is the port's: owned, or it has no other master. -/
def hasBus (s : State) (p : Nat) : Bool := (s.port p).owned || soleMaster s p

/-! ## Service (R295-R298, R533) -/

/-- The measured voltage of bank `b` of a port, in mV (R77). -/
def bankMv (s : State) (p b : Nat) : Nat := Tbl.get mvInit s.mon.mv (6 + 4 * p + b)

/-- The declared voltage of a bank in mV (R77). -/
def bankNominal (s : State) (p b : Nat) : Nat := nth (imgPort s p).banks b 3300

/-- The bank is at its declared voltage: within the 5 % of R67 (R296 step 1). -/
def bankOk (s : State) (p b : Nat) : Bool :=
  decide (95 * bankNominal s p b ≤ 100 * bankMv s p b ∧ 100 * bankMv s p b ≤ 105 * bankNominal s p b)

/-- A measured bank voltage lies beyond the fault threshold, 3 % beyond the edges of R67 (R77). -/
def bankFaulty (s : State) (p b mv : Nat) : Bool :=
  decide (10000 * mv < 97 * 95 * bankNominal s p b ∨ 103 * 105 * bankNominal s p b < 10000 * mv)

/-- A port enters service (R296 steps 3 and 4, R54, R90): transceivers enabled, the line monitor and its filters begun, Saltmaster's vote raised. -/
def portUp (s : State) (p : Nat) : State :=
  let s := s.modPort p fun q => { q with st := .inService, oeN := ~~~(groupsUsed ((q.loaded).getD [])), dir := 0#8, sysfail := false, watched := [] }
  let s := if (s.port p).rackReset then s.raise { code := Ev.rackReset, src := srcPort p, data := leBytes 4 0 } else s
  raiseVote s (12 + p) Client.saltmaster

/-- PORT_SERVICE into service on a port that is OUT_OF_SERVICE (R296). -/
def svcStart (s : State) (p mb : Nat) : State :=
  if !((List.range 4).all fun b => bankOk s p b) then refuse s mb 4 0
  else match persFail s p with
    | some (kind, off) => refuse (persInvalid s p kind off) mb 5 0
    | none => done (portUp (loadPers s p).2 p) mb []

/-- The port stops (R297): STOPPING, and every access that has not begun ends under R298. -/
def svcStop (s : State) (p mb : Nat) : State :=
  let waits := (s.port p).waiting
  let s := s.modPort p fun q => { q with st := .stopping, stopMb := some mb, waiting := [] }
  waitCmd (waits.foldl (fun s a => failAcc (s.incReg (paReg p 0x4C)) a Cs.islandAbsent (accFirst a) 0
    (some { code := Ev.portNotInService, src := srcPort p, key := p + 1 })) s) mb

/-- A PORT_SERVICE decided against the port's present state (R296, R533). -/
def svcDecide (s : State) (p mb : Nat) (into : Bool) : State :=
  if targetAbsent s p then refuse s mb 1 0
  else match (s.port p).st with
    | .contained => refuse s mb 3 0
    | .inService => if into then done s mb [] else svcStop s p mb
    | .outOfService => if into then svcStart s p mb else done s mb []
    | .absent => refuse s mb 1 0
    | .starting | .stopping => waitCmd (s.modPort p fun q => { q with svcWait := q.svcWait ++ [(mb, into)] }) mb

/-- Nothing is under way any more on a stopping port. -/
def stopReached (s : State) (p : Nat) : Bool :=
  decide ((s.port p).st = .stopping ∧ (s.port p).opens = []) && (s.port p).held.isNone

/-- A stopping port whose cycles have ended goes out of service (R297): the interrupter's line is released, the handler stops, the bus is released, the vote withdrawn, and the command is answered. -/
def stopEnd (s : State) (p : Nat) : State :=
  if stopReached s p then
    let q := s.port p
    let s := releaseBus s p
    let s := s.modPort p fun q => { q with st := .outOfService, stopMb := none, grant := none }
    let s := dropVote s (12 + p) Client.saltmaster
    match q.stopMb with
    | some mb => done s mb []
    | none => s
  else s

/-- The PORT_SERVICE commands that waited for a transition to end are decided afresh, in order (R533). -/
def svcResume (s : State) (p : Nat) : State :=
  let ws := (s.port p).svcWait
  ws.foldl (fun s w => stopEnd (svcDecide s p w.1 w.2) p) (s.modPort p fun q => { q with svcWait := [] })

/-- The end of a stop, and the commands that waited for it (R297, R533). -/
def finishStop (s : State) (p : Nat) : State := if stopReached s p then svcResume (stopEnd s p) p else s

/-- MASTER_CYCLE_START (R299, R300): at a boundary the engine takes the next access and starts its cycle, where the port owns the bus and no watched line or rack reset holds it; else it requests the bus (R310, R312). -/
def masterCycleStartEff (s : State) (p : Nat) : State :=
  let q := s.port p
  if (q.st = .inService ∨ (q.st = .stopping ∧ q.opens ≠ [])) ∧ !q.rackReset ∧ q.watched = [] ∧ q.held.isNone ∧ !cycleOpen q
      ∧ domUp s (12 + p) ∧ !s.tide.active then
    match nextStop q with
    | none => s
    | some stop =>
      if hasBus s p then startStop s p stop
      else if q.requesting then s
      else (s.modPort p fun q => { q with requesting := true }).emit (.portLine p 0 (arbCtl s p % 4) true)
  else finishStop s p

/-- MASTER_CYCLE_START (R299). -/
def execMasterCycleStart (p : PortId) (s : State) : Host.Outcome State Fault Refusal := .next (masterCycleStartEff s p.val)

/-- The bus given up (R310, R312). -/
def giveBus (s : State) (p : Nat) : State :=
  if (s.port p).owned then (s.modPort p fun q => { q with owned := false, releaseAsked := false }).emit (.portLine p 1 0 false)
  else s.modPort p fun q => { q with releaseAsked := false }

/-- A cycle or block boundary (R310, R312): the bus goes where a release is asked; under RWD and P2 it is kept only while accesses are ready. -/
def boundary (s : State) (p : Nat) : State :=
  let q := s.port p
  if cycleOpen q then s
  else if q.releaseAsked then giveBus s p
  else if ((portKind s p = 1 ∧ bit (arbCtl s p) 2) ∨ portKind s p = 2) ∧ !portReady q then giveBus s p
  else s

/-- After an ending: the boundary, and the end of a stop. -/
def afterCycle (s : State) (p : Nat) : State := finishStop (boundary s p) p

/-- The port's running access. -/
def running (s : State) (p : Nat) : Option OpenAcc := (s.port p).opens.find? fun o => o.isOpen

/-- The running access leaves the port. -/
def dropOpen (s : State) (p : Nat) : State := s.modPort p fun q => { q with opens := q.opens.filter fun o => !o.isOpen }

/-- The event template of an access's ending, by code (R25, R320); its block data name the beat's width. -/
def endEv (code p : Nat) : Ev := { code := code, src := srcPort p }

/-- The running access fails (R210, R320): latched, counted in `cnt` (PA_BERR_CNT or PA_TIMEOUT_CNT), its CS returned by its path. -/
def failOpen (s : State) (p cs cnt : Nat) (o : OpenAcc) (ev : Option Ev) : State :=
  let s := latchErr ((dropOpen s p).incReg (paReg p cnt)) p o.cur.1 cs o.acc.space o.acc.stop false
  failAccGot s o.acc cs o.cur.1 o.cur.2 o.got ev

/-- The 64-bit count of master cycles completed (R328). -/
def countCycle (s : State) (p : Nat) : State :=
  let s := s.incReg (paReg p 0x20)
  if s.reg (paReg p 0x20) = 0 then s.incReg (paReg p 0x24) else s

/-- An access acknowledged to its last cycle ends DONE (R320, R341, R367). -/
def finishAcc (s : State) (p : Nat) (o : OpenAcc) : State :=
  let s := dropOpen s p
  let s := match o.sample with
    | some x => if o.acc.kind ≠ .rmw ∧ !o.noSample then sampleTaken s p o.acc.region x o.beat else s
    | none => s
  let s := if o.acc.ticket ≠ 0 then settle s o.acc.tenant o.acc.ticket Cs.done o.cur.1 none else s
  accEnd s o.acc { cs := Cs.done, addr := o.acc.addr, data := if o.acc.kind = .write then [] else o.got, beat := 0 }

/-- An acknowledged cycle (R320): its data taken, the next cycle left to the engine, or the access ended. -/
def ackCycle (s : State) (p : Nat) (o : OpenAcc) (data : List Byte) (sample beat : Nat) : State :=
  let i := o.cur.1 - o.acc.addr
  let got := if o.acc.kind = .write then o.got else
    (List.range o.got.length).map fun j => if i ≤ j ∧ j < i + o.cur.2 then some (nth data (j - i) 0#8) else nth o.got j none
  let o := { o with got := got, retries := 0, sample := o.sample.or (some sample), beat := max o.beat beat }
  let s := countCycle s p
  match o.rest with
  | [] => finishAcc (s.modPort p fun q => { q with opens := q.opens.map fun x => if x.isOpen then { o with isOpen := true } else x }) p o
  | _ :: _ => s.modPort p fun q => { q with opens := q.opens.map fun x => if x.isOpen then { o with isOpen := false } else x }

/-- BUS_CYCLE_END (R320): acknowledge with the data read, or error. An acknowledge must carry the cycle's bytes. -/
def busCycleEndEff (s : State) (p : Nat) (e : BusEnd) : State :=
  match running s p with
  | none => s
  | some o => match e with
    | .ack data sample beat =>
      if o.acc.kind = .write ∨ data.length = o.cur.2 then afterCycle (ackCycle s p o data sample beat) p else s
    | .berr => afterCycle (failOpen s p Cs.farError 0x28 o (some (endEv Ev.farError p))) p

/-- BUS_CYCLE_END (R320). -/
def execBusCycleEnd (p : PortId) (e : BusEnd) (s : State) : Host.Outcome State Fault Refusal := .next (busCycleEndEff s p.val e)

/-- The running access times out (R320): its strobes are negated. -/
def timeoutOpen (s : State) (p code : Nat) : State :=
  match running s p with
  | none => s
  | some o => afterCycle (failOpen (s.emit (.strobesOff p)) p Cs.farTimeout 0x2C o (some (endEv code p))) p

/-- REGION_BUS_TIMEOUT (R320, R342). -/
def execRegionBusTimeout (p : PortId) (s : State) : Host.Outcome State Fault Refusal := .next (timeoutOpen s p.val Ev.farTimeout)

/-- TARGET_RETRY (R321): a P3 target answers on the line with role RETRY; the strobes are released and the cycle waits 1 µs. -/
def targetRetryEff (s : State) (p : Nat) : State :=
  match running s p with
  | none => s
  | some o =>
    if portKind s p = 3 ∧ (roleLine (portTable s p) 0x85).isSome then
      let o := { o with isOpen := false, delaying := true, retries := o.retries + 1 }
      let s := s.modPort p fun q => { q with opens := (q.opens.filter fun x => !x.isOpen) ++ [o] }
      boundary ((s.incReg (paReg p 0x30)).emit (.strobesOff p)) p
    else s

/-- TARGET_RETRY (R321). -/
def execTargetRetry (p : PortId) (s : State) : Host.Outcome State Fault Refusal := .next (targetRetryEff s p.val)

/-- RETRY_DELAY_EXPIRE (R321): the access that has waited longest is ready to repeat its cycle, or ends at the retry limit. -/
def retryDelayEff (s : State) (p : Nat) : State :=
  match (s.port p).opens.find? fun o => o.delaying with
  | none => s
  | some o =>
    if clampTo 1 255 ((s.reg (paReg p 0x14)).toNat % 256) ≤ o.retries then
      let s := s.modPort p fun q => { q with opens := dropFirst (fun x => x.delaying) q.opens }
      let s := latchErr (s.incReg (paReg p 0x2C)) p o.cur.1 Cs.farTimeout o.acc.space o.acc.stop false
      afterCycle (failAccGot s o.acc Cs.farTimeout o.cur.1 o.cur.2 o.got (some (endEv Ev.farRetryLimit p))) p
    else s.modPort p fun q => { q with opens := modFirst (fun x => x.delaying) (fun x => { x with delaying := false }) q.opens }

/-- RETRY_DELAY_EXPIRE (R321). -/
def execRetryDelayExpire (p : PortId) (s : State) : Host.Outcome State Fault Refusal := .next (retryDelayEff s p.val)

/-! ## Ownership -/

/-- BUS_GRANTED (R310, R312, R323): the requesting port takes the bus; one contained for NO_GRANT releases it at once, and the cause no longer persists. -/
def busGrantedEff (s : State) (p : Nat) : State :=
  let q := s.port p
  if !q.requesting then s
  else if q.st = .contained then (s.modPort p fun q => { q with requesting := false }).emit (.portLine p 0 0 false)
  else (s.modPort p fun q => { q with requesting := false, owned := true, ownedAt := s.now, releaseAsked := false }).emit (.portLine p 1 0 true)

/-- BUS_GRANTED (R310). -/
def execBusGranted (p : PortId) (s : State) : Host.Outcome State Fault Refusal := .next (busGrantedEff s p.val)

/-- OWN_LIMIT in ns (R328). -/
def ownLimit (s : State) (p : Nat) : Nat := us (max 1 (bits (arbCtl s p) 15 8))

/-- The port must release at its next boundary when another master asks (R310, R312): under ROR, on BCLR*, under P3 and P4 when the grant is negated, and otherwise once OWN_LIMIT of ownership has passed. -/
def mustRelease (s : State) (p : Nat) (bclr : Bool) : Bool :=
  let k := portKind s p
  (decide (k = 1) && (bclr || !bit (arbCtl s p) 2)) || decide (3 ≤ k) || decide ((s.port p).ownedAt + ownLimit s p ≤ s.now)

/-- BUS_RELEASE_REQUEST (R310, R312). -/
def execBusReleaseRequest (p : PortId) (bclr : Bool) (s : State) : Host.Outcome State Fault Refusal :=
  .next (if (s.port p.val).owned ∧ mustRelease s p.val bclr then boundary (s.modPort p.val fun q => { q with releaseAsked := true }) p.val else s)

/-- OWN_LIMIT_EXPIRE (R310, R312): the ownership limit passes with a competing request. -/
def execOwnLimitExpire (p : PortId) (s : State) : Host.Outcome State Fault Refusal :=
  .next (if (s.port p.val).owned then
      boundary ((s.atTime ((s.port p.val).ownedAt + ownLimit s p.val)).modPort p.val fun q => { q with releaseAsked := true }) p.val
    else s)

/-- The arbiter serves a level: only 3 in single-level mode, any in round robin (R311). -/
def arbServes (s : State) (p level : Nat) : Bool := isSysctl s p && (decide (bits (arbCtl s p) 5 4 ≠ 1) || decide (level = 3))

/-- ARBITER_REQUEST (R311): the arbiter grants the level asked for. Which of several levels is asked first is the row's operand. -/
def execArbiterRequest (p : PortId) (level : Fin 4) (s : State) : Host.Outcome State Fault Refusal :=
  .next (if (s.port p.val).st = .inService ∧ arbServes s p.val level.val then
      (s.modPort p.val fun q => { q with grant := some level.val }).emit (.portLine p.val 2 level.val true)
    else s)

/-- RACK_ARB_TIMEOUT (R311): a grant that BBSY* has not answered within 2 µs is withdrawn. -/
def execRackArbTimeout (p : PortId) (s : State) : Host.Outcome State Fault Refusal :=
  .next (match (s.port p.val).grant with
    | none => s
    | some l => ((s.modPort p.val fun q => { q with grant := none }).emit (.portLine p.val 2 l false)).raise
        { code := Ev.rackArbTimeout, src := srcPort p.val, data := leBytes 1 l })

/-- A held rack-master read abandoned (R221, R322): its host completion is discarded when it arrives. -/
def abandonRack (s : State) (p : Nat) : State :=
  match (s.port p).held with
  | none => s
  | some h =>
    let s := dropRackTag (s.modPort p fun q => { q with held := none }) h.tenant p none
    s.raise { code := Ev.inboundAbandoned, src := srcPort p, tenant := h.tenant, addr := h.addr }

/-- SYS_BUS_TIMER_EXPIRE (R311, R320, R221): the system controller asserts BERR*; the device's own cycle ends FAR_TIMEOUT, a rack-master read it holds is abandoned. -/
def sysBusTimerEff (s : State) (p : Nat) : State :=
  if isSysctl s p ∧ bit (arbCtl s p) 6 ∧ (s.port p).st = .inService then
    let s := (s.emit (.portLine p 4 0 true)).emit (.portLine p 4 0 false)
    match running s p with
    | some _ => timeoutOpen s p Ev.farTimeout
    | none => finishStop (abandonRack s p) p
  else s

/-- SYS_BUS_TIMER_EXPIRE (R311). -/
def execSysBusTimerExpire (p : PortId) (s : State) : Host.Outcome State Fault Refusal := .next (sysBusTimerEff s p.val)

/-- PA_SYSRESET_GO written, ignored unless system controller (R311, R328). -/
def sysresetGo (s : State) (p : Nat) : State :=
  if isSysctl s p ∧ (s.port p).st = .inService then (s.modPort p fun q => { q with sysreset := true }).emit (.portLine p 5 0 true) else s

/-- SYSRESET_PULSE: a write of PA_SYSRESET_GO (R311). -/
def execSysresetPulse (p : PortId) (s : State) : Host.Outcome State Fault Refusal := .next (sysresetGo s p.val)

/-- SYSRESET_PULSE_END (R311). -/
def execSysresetPulseEnd (p : PortId) (s : State) : Host.Outcome State Fault Refusal :=
  .next (if (s.port p.val).sysreset then (s.modPort p.val fun q => { q with sysreset := false }).emit (.portLine p.val 5 0 false) else s)

/-- The interrupter of a port asserts its line on a level (R317). -/
def irqiOn (s : State) (p level : Nat) : Bool :=
  (s.reg (paReg p 0x18C)).getLsbD 0 && decide (portKind s p = 1 ∧ (s.reg (paReg p 0x180)).toNat % 8 = level)

/-- IACKIN_PASS (R310): passed to IACKOUT* for a level the device is not answering. -/
def execIackinPass (p : PortId) (level : Fin 8) (s : State) : Host.Outcome State Fault Refusal :=
  .next (if portKind s p.val = 1 ∧ (s.port p.val).st = .inService ∧ !irqiOn s p.val level.val then s.emit (.portLine p.val 3 level.val true) else s)

/-- BPRN_PASS (R312): under P2 BPRN* is passed to BPRO* while the device is not requesting. -/
def execBprnPass (p : PortId) (s : State) : Host.Outcome State Fault Refusal :=
  .next (if portKind s p.val = 2 ∧ (s.port p.val).st = .inService ∧ !(s.port p.val).requesting then s.emit (.portLine p.val 7 0 true) else s)

/-! ## The line monitor -/

/-- What a rack reset does to a port whose monitor sees it (R322): an open master cycle ends FAR_ERROR and an open slave cycle is abandoned, counted in the RACK_RESET record; the interrupter's line is released (R317). -/
def rackResetSeen (s : State) (p : Nat) : State :=
  let n := b2n (running s p).isSome + b2n (s.port p).held.isSome
  let s := match running s p with
    | some o => failOpen (s.emit (.strobesOff p)) p Cs.farError 0x28 o none
    | none => s
  let s := abandonRack s p
  let s := s.setReg (paReg p 0x18C) 0
  finishStop (s.raise { code := Ev.rackReset, src := srcPort p, data := leBytes 4 n }) p

/-- RACK_RESET (R322): the rack reset line is asserted. -/
def rackResetEff (s : State) (p : Nat) : State :=
  if (s.port p).rackReset then s
  else
    let s := s.modPort p fun q => { q with rackReset := true }
    if monitorRuns s p then rackResetSeen s p else s

/-- RACK_RESET (R322). -/
def execRackReset (p : PortId) (s : State) : Host.Outcome State Fault Refusal := .next (rackResetEff s p.val)

/-- RACK_RESET_END (R322). -/
def execRackResetEnd (p : PortId) (s : State) : Host.Outcome State Fault Refusal :=
  .next (if (s.port p.val).rackReset then
      let s := s.modPort p.val fun q => { q with rackReset := false }
      if monitorRuns s p.val then s.raise { code := Ev.rackResetEnd, src := srcPort p.val } else s
    else s)

/-- A line is watched for STUCK_LINE (R323): by role under P1 and P2, by mark under P3 and P4; line 48 stands for a clock that the rack drives. -/
def isWatched (s : State) (p line : Nat) : Bool :=
  let t := portTable s p
  match persKind t with
  | 1 => decide (lineRole t line ∈ [1, 2, 3, 5, 6, 0x0A])
  | 2 => decide (lineRole t line ∈ [0x41, 0x42, 0x43, 0x44, 0x45, 0x4C])
  | _ => (bit (lineMap t line) 17 && decide (lineRole t line ≠ 0)) || (decide (line = 48 ∧ persKind t = 4) && !persClkOut t)

/-- STUCK_LINE (R323). -/
def stuckLineEff (s : State) (p line : Nat) : State :=
  if monitorRuns s p ∧ isWatched s p line ∧ !cycleOpen (s.port p) then
    enterPort (s.modPort p fun q => { q with watched := insertAsc line q.watched }) p 0
  else s

/-- STUCK_LINE: a watched line stays asserted, or the rack's clock stopped, for PA_STUCK_LIMIT (R323). -/
def execStuckLine (p : PortId) (line : Fin 49) (s : State) : Host.Outcome State Fault Refusal := .next (stuckLineEff s p.val line.val)

/-- NO_GRANT (R323): a requested bus is not granted within PA_STUCK_LIMIT. -/
def execNoGrant (p : PortId) (s : State) : Host.Outcome State Fault Refusal :=
  .next (if (s.port p.val).requesting ∧ ((s.port p.val).st = .inService ∨ (s.port p.val).st = .stopping) then enterPort s p.val 1 else s)

/-- The role of a port's system-fail line (R323): SYSFAIL* under P1, the assigned line under P3 and P4. -/
def sysfailRole (s : State) (p : Nat) : Nat := if portKind s p = 1 then 0x26 else 0x98

/-- SYSFAIL_FILTER_EXPIRE (R323): the line has been asserted for the filter time; with LOG_ONLY one record for each assertion, else containment. -/
def sysfailEff (s : State) (p : Nat) : State :=
  if monitorRuns s p ∧ portKind s p ≠ 2 ∧ !(s.port p).sysfail then
    let s := s.modPort p fun q => { q with sysfail := true }
    if (s.reg (paReg p 0x10)).getLsbD 0 then s.raise { code := Ev.rackSysfail, src := srcPort p } else enterPort s p 2
  else s

/-- SYSFAIL_FILTER_EXPIRE (R323). -/
def execSysfailFilterExpire (p : PortId) (s : State) : Host.Outcome State Fault Refusal := .next (sysfailEff s p.val)

/-- RACK_ACFAIL (R323): under P1 one record for each assertion. -/
def execRackAcfail (p : PortId) (s : State) : Host.Outcome State Fault Refusal :=
  .next (if portKind s p.val = 1 ∧ monitorRuns s p.val ∧ !(s.port p.val).acfail then
      (s.modPort p.val fun q => { q with acfail := true }).raise { code := Ev.rackAcfail, src := srcPort p.val }
    else s)

/-- WATCHED_LINE_NEGATED (R323): a stuck line, the system-fail line or ACFAIL* is negated; the cause it held no longer persists, and a further assertion is a new one. -/
def execWatchedLineNegated (p : PortId) (line : Fin 49) (s : State) : Host.Outcome State Fault Refusal :=
  .next (s.modPort p.val fun q =>
    let role := lineRole (portTable s p.val) line.val
    { q with watched := q.watched.filter fun l => decide (l ≠ line.val)
             sysfail := q.sysfail && decide (role ≠ sysfailRole s p.val)
             acfail := q.acfail && !decide (portKind s p.val = 1 ∧ role = 0x27) })

/-- PERSONALITY_FAULT (R336): a parity error, or a forbidden sequence while the port owns the bus. -/
def personalityFaultEff (s : State) (p : Nat) (forbidden : Bool) (line : Nat) : State :=
  if monitorRuns s p ∧ (!forbidden ∨ hasBus s p) then
    enterPort (s.setReg (paReg p 0x1008) (w32 ((if forbidden then 3 else 1) + line * 256))) p 3
  else s

/-- PERSONALITY_FAULT (R336). -/
def execPersonalityFault (p : PortId) (forbidden : Bool) (line : Fin 49) (s : State) : Host.Outcome State Fault Refusal :=
  .next (personalityFaultEff s p.val forbidden line.val)

end Sys2Proof.Machine
end

