-- ==== Sys2Proof/Machine/PortSvc.lean ====
section
/-! DEFINITION. Taking a port into and out of service, its release from containment, its bank supplies (R55, R56, R64, R77, R295-R298, R326, R533, R538). -/

namespace Sys2Proof.Machine

/-- The payload of PORT_SERVICE: [0] port, [8] direction (R295). -/
def portServiceParam (p : List Byte) : Bool := decide (wordAt p 0 &&& 0xFFFFFEFE = 0)

/-- PORT_SERVICE in one direction (R295). -/
def portServiceEff (into : Bool) (s : State) (mb : Nat) (c : Cmd) : State :=
  let w := wordAt c.payload 0
  if bit w 8 = into then finishStop (svcDecide s (w % 2) mb into) (w % 2) else s

/-- PORT_SERVICE_IN (R296). -/
def execPortServiceIn (s : State) : Host.Outcome State Fault Refusal := runCmd 0x0500 s (portServiceEff true)

/-- PORT_SERVICE_OUT (R297). -/
def execPortServiceOut (s : State) : Host.Outcome State Fault Refusal := runCmd 0x0500 s (portServiceEff false)

/-- A refused or failed release noted in HEP_REL_ERR (R198, R201). -/
def relErr (s : State) (b : Nat) : State := s.modCont fun c => { c with relErr := c.relErr ||| BitVec.ofNat 9 (2 ^ b) }

/-- The release of one contained port (R198, R326, R389, R538). One that a forced power-down has taken out of service meanwhile (R95) stays there. -/
def portRelease (s : State) (p : Nat) : State :=
  if s.portCause p = 0 then s
  else if portPersists s p then relErr s (1 + p)
  else if (s.port p).st ≠ .contained then
    sendMsix (releaseRec (s.modCont fun c => { c with ports := c.ports.set (fun _ => 0) p 0 }) 2 p 0 (srcPort p) 0xFF) 0 1
  else
    let (ok, s) := loadPers s p
    if ok then
      let s := s.modCont fun c => { c with ports := c.ports.set (fun _ => 0) p 0 }
      sendMsix (releaseRec (forgetFlood (portUp s p) p) 2 p 0 (srcPort p) 0xFF) 0 1
    else
      sendMsix (containRec (relErr (addPortCause s p 3) (1 + p)) 2 p 3 0 (srcPort p) 0xFF) 0 1

/-- PORT_CONTAIN_RELEASE: a write of HEP_PORT_RELEASE, [0] port A, [1] port B (R201, R326). -/
def execPortContainRelease (v : Word) (s : State) : Host.Outcome State Fault Refusal :=
  .next ((List.range 2).foldl (fun s p => if v.getLsbD p then portRelease s p else s) s)

/-- A supply warning noted once for each excursion, with its record, its alert and PF0's entry 6 (R59, R77, R80, R183). -/
def warnOnce (s : State) (k mv : Nat) : State :=
  if k ∈ s.mon.warned then s
  else sendMsix (raiseAlert ((s.modMon fun m => { m with warned := insertAsc k m.warned }).raise
    { code := Ev.supplyWarn, src := srcAo, data := leBytes 4 k ++ leBytes 4 mv }) 1) 0 6

/-- PORT_BANK_POWER (R56, R77): the bank's measured voltage passes its fault threshold. A port in service is contained, and a contained port gains the cause (R195); the bank of any other port is only noted, and keeps its port out of service (R295, R296). -/
def portBankPowerEff (s : State) (p b mv : Nat) : State :=
  let k := 6 + 4 * p + b
  let s := s.modMon fun m => { m with mv := m.mv.set mvInit k mv }
  if bankFaulty s p b mv ∧ k ∉ s.mon.faulted then
    let s := (warnOnce s k mv).modMon fun m => { m with faulted := insertAsc k m.faulted }
    if monitorRuns s p then
      enterPort (s.raise { code := Ev.portBankPower, src := srcPort p, cs := Cs.contained, data := leBytes 1 p ++ leBytes 1 b }) p 4
    else s
  else s

/-- PORT_BANK_POWER (R56). -/
def execPortBankPower (p : PortId) (b : Fin 4) (mv : Nat) (s : State) : Host.Outcome State Fault Refusal :=
  .next (portBankPowerEff s p.val b.val mv)

/-- BANK_SUPPLY_VALID (R55): VDDIO_PA3 (or PB3) becomes valid; the device drives the port's transceiver enables high on its own, unless the port is in service. -/
def execBankSupplyValid (p : PortId) (mv : Nat) (s : State) : Host.Outcome State Fault Refusal :=
  .next (let s := s.modMon fun m => { m with mv := m.mv.set mvInit (9 + 4 * p.val) mv }
    if (s.port p.val).st = .inService ∨ (s.port p.val).st = .stopping then s
    else s.modPort p.val fun q => { q with oeN := 0xFF#8 })

/-- The service of a present port at step 9 of R116 (R64, R295): contained where its banks mismatch, out of service with its record where R296 would refuse it, else in service. -/
def portAtBoot (s : State) (p : Nat) : State :=
  let up := (List.range 4).filter fun b => decide (1000 < bankMv s p b)
  if (imgPort s p).absent ∨ up = [] then s.modPort p fun q => { q with st := .absent }
  else if up.length < 4 then enterPort s p 5
  else if !(imgPort s p).inService then s
  else match (List.range 4).filter fun b => !bankOk s p b with
    | [] => let (ok, s) := loadPers s p
      if ok then portUp s p else s
    | bad => bad.foldl (fun s b => s.raise { code := Ev.portBankPower, src := srcPort p, data := leBytes 1 p ++ leBytes 1 b }) s

end Sys2Proof.Machine
end

