-- ==== Sys2Proof/Machine/Slave.lean ====
section
/-! DEFINITION. The slave side of a port: rack masters' reads, writes and read-modify-writes of host memory, delayed reads, the slave regions (R30, R31, R221-R223, R304-R309, R319). -/

namespace Sys2Proof.Machine

/-- Fields of slave region `r` of a port (R304). -/
def slvEn (s : State) (p r : Nat) : Bool := bit (slvWord s p r 1) 0
def slvTenant (s : State) (p r : Nat) : Nat := bits (slvWord s p r 1) 14 8
def slvEndian (s : State) (p r : Nat) : Nat := bits (slvWord s p r 1) 17 16
def slvSize (s : State) (p r : Nat) : Nat := 2 ^ bits (slvWord s p r 1) 29 24
def slvBase (s : State) (p r : Nat) : Nat := slvWord s p r 3 + 0x100000000 * slvWord s p r 4
def slvHost (s : State) (p r : Nat) : Nat := slvWord s p r 5 + 0x100000000 * slvWord s p r 6

/-- A slave region decodes nothing: its tenant is followed, or a dissolved pair has left it inactive (R480, R497). -/
def slvIdle (s : State) (p r : Nat) : Bool := s.followed (slvTenant s p r) || decide (16 * p + r ∈ s.twin.inactive)

/-- The enabled region that a rack cycle matches (R304, R306). -/
def slvMatch (s : State) (p addr space : Nat) : Option Nat :=
  (List.range 16).find? fun r =>
    let m := bits (slvWord s p r 2) 13 8
    slvEn s p r && !slvIdle s p r && decide (space &&& m = bits (slvWord s p r 2) 5 0 &&& m)
      && decide (slvBase s p r ≤ addr ∧ addr < slvBase s p r + slvSize s p r)

/-- The port's decoder answers a rack master's cycle: in service, out of rack reset, no cycle of its own or of another read on the bus. -/
def slvReady (s : State) (p : Nat) : Bool :=
  decide ((s.port p).st = .inService ∧ (s.port p).held = none) && !(s.port p).rackReset && !cycleOpen (s.port p)
    && decide (portKind s p ≤ 2 ∨ ((roleLine (portTable s p) 0x94).isSome ∧ (roleLine (portTable s p) 0x95).isSome))

/-- The port answers rack reads by retry (R222, R294). -/
def retryAnswers (s : State) (p : Nat) : Bool := decide (portKind s p = 3) && persRetryEn (portTable s p)

/-- Why a matched rack cycle is answered with bus error before any host request, with the event it writes (R309, R31, R223, R127); `rd` and `wr` name what the cycle needs. -/
def inboundDenial (s : State) (p r haddr len : Nat) (rd wr rmw : Bool) : Option (Nat × Option Nat) :=
  let w1 := slvWord s p r 1
  let t := slvTenant s p r
  let f := s.fn (fnOf t)
  if (rd && !bit w1 1) || (wr && !bit w1 2) || (rmw && bit w1 3) then some (Cs.hostUr, some Ev.inboundDeny)
  else if f.flr then some (Cs.abortReset, none)
  else if s.tenantCause t ≠ 0 ∨ (rd ∧ s.cont.dev) then some (Cs.contained, some Ev.contained)
  else if !fnEnabled s (fnOf t) ∨ !f.busMaster ∨ f.d3hot then some (Cs.hostUr, some Ev.inboundNoBme)
  else if meetsBar s haddr len then some (Cs.hostUr, some Ev.inboundSelf)
  else none

/-- A denial given to the rack master (R31, R309). -/
def denyInbound (s : State) (p addr space t : Nat) (d : Nat × Option Nat) : State :=
  raiseOpt (inboundErr s p addr d.1 space) (d.2.map fun c => { code := c, src := srcPort p, tenant := t, cs := d.1, addr := addr })

/-- The host range of a rack request: base of its exchanged bytes in host memory, first byte and length (R304, R208). -/
def hostRange (s : State) (p r addr : Nat) (be : List Bool) : Nat × Nat × Nat :=
  let e := endianOut (slvEndian s p r) addr (be.map fun b => if b then some 0#8 else none)
  let base := slvHost s p r + e.1 - slvBase s p r
  let lo := firstSome e.2
  let hi := e.2.length - firstSome e.2.reverse
  (base, base + lo, hi - lo)

/-- The bytes that a rack read takes: those of its cycle, or of a block up to the next boundary of R302 or the end of the region (R308). -/
def rackReadBe (s : State) (p r addr space width : Nat) (be : List Bool) (block : Bool) : List Bool :=
  if block then
    let b := if isMblt space then 2048 else 256
    let stop := min (addr - addr % b + b) (slvBase s p r + slvSize s p r)
    List.replicate (stop - addr) true
  else be.take (max 1 width)

/-- The next host request of a held rack-master read (R30 step 4, R172); where no tag is free it waits. -/
def rackSend (s : State) (p : Nat) : State :=
  match (s.port p).held with
  | none => s
  | some h =>
    if (tagOf (s.fn (fnOf h.tenant)) (.rack p 64)).isSome then s
    else
      let a := h.haddr + h.got.length
      (hostRead s h.tenant a (mrrsPiece s h.tenant a (h.len - h.got.length)) (.rack p 64)).getD s

/-- The host request of a delayed-read slot. -/
def dtSend (s : State) (p k : Nat) : State :=
  let d := Tbl.get dtInit (s.port p).dt k
  if d.used ∧ d.data = none ∧ d.err = 0 ∧ (tagOf (s.fn (fnOf d.tenant)) (.rack p k)).isNone then
    (hostRead s d.tenant d.haddr d.len (.rack p k)).getD s
  else s

/-- A delayed-read slot written. -/
def setDt (s : State) (p k : Nat) (d : DtSlot) : State := s.modPort p fun q => { q with dt := q.dt.set dtInit k d }

/-- The slot that a read matches exactly (R222). -/
def dtMatch (s : State) (p addr space width : Nat) (be : List Bool) : Option Nat :=
  (List.range 8).find? fun k =>
    let d := Tbl.get dtInit (s.port p).dt k
    d.used && decide (d.addr = addr ∧ d.space = space ∧ d.width = width ∧ d.be = be)

/-- The event of a rack-master read that a CS ends (R31). -/
def rackEv (p cs : Nat) : Option Ev :=
  if cs = Cs.hostUr ∨ cs = Cs.hostCa ∨ cs = Cs.hostPoison then some { code := Ev.inboundHostError, src := srcPort p }
  else if cs = Cs.hostTimeout then some { code := Ev.inboundHostTimeout, src := srcPort p }
  else if cs = Cs.contained then some { code := Ev.contained, src := srcPort p }
  else none

/-- The rack bytes of a host answer, in the rack's order (R208). -/
def rackData (endian addr base slvBaseToHost : Nat) (be : List Bool) (data : List Byte) : List Byte :=
  ((endianBack endian addr be.length (base + slvBaseToHost) (data.map some)).zip be).filterMap fun e => if e.2 then some (e.1.getD 0#8) else none

/-- A matching retry meets its slot (R222 steps 2 and 3). -/
def dtCollect (s : State) (p k : Nat) : State :=
  let d := Tbl.get dtInit (s.port p).dt k
  match d.data with
  | some data => (setDt s p k (dtInit 0)).emit (.slaveAck p data)
  | none =>
    if d.err ≠ 0 then
      raiseOpt (inboundErr (setDt s p k (dtInit 0)) p d.addr d.err d.space)
        ((rackEv p d.err).map fun e => { e with tenant := d.tenant, cs := d.err, addr := d.addr })
    else (dtSend s p k).emit (.slaveRetry p)

/-- A rack-master read that matches a region (R30, R222, R308). -/
def rackReadMatched (s : State) (p r addr space width : Nat) (be : List Bool) (block : Bool) : State :=
  let s := s.incReg (paReg p 0x34)
  let t := slvTenant s p r
  let be' := rackReadBe s p r addr space width be block
  let (base, haddr, len) := hostRange s p r addr be'
  match inboundDenial s p r haddr len true false false with
  | some d => denyInbound s p addr space t d
  | none =>
    if retryAnswers s p then
      match (List.range 8).find? fun k => !(Tbl.get dtInit (s.port p).dt k).used with
      | none => s.emit (.slaveRetry p)
      | some k =>
        (dtSend (setDt s p k { used := true, addr := addr, space := space, width := width, be := be, data := none, err := 0,
                               tenant := t, endian := slvEndian s p r, base := base, haddr := haddr, len := len, expires := 0 }) p k).emit (.slaveRetry p)
    else
      let h : HeldRack := { addr := addr, space := space, be := be', tenant := t, endian := slvEndian s p r, base := base, haddr := haddr, len := len, got := [] }
      rackSend (s.modPort p fun q => { q with held := some h }) p

/-- RACK_MASTER_READ's effect: a retry of an open slot is met by it; a cycle that matches no region is not answered (R306). -/
def rackReadEff (s : State) (p addr space width : Nat) (be : List Bool) (block : Bool) : State :=
  if slvReady s p then
    match (if retryAnswers s p then dtMatch s p addr space width be else none) with
    | some k => dtCollect s p k
    | none => match slvMatch s p addr space with
      | some r => rackReadMatched s p r addr space width be block
      | none => s
  else s

/-- RACK_MASTER_READ (R30). -/
def execRackMasterRead (p : PortId) (addr space width : Nat) (be : List Bool) (block : Bool) (s : State) : Host.Outcome State Fault Refusal :=
  .next (rackReadEff s p.val addr space width be block)

/-- The host's answer to a held rack-master read (R31, R221): its next request, the data driven, or the bus error. -/
def heldRackAnswer (s : State) (p : Nat) (h : HeldRack) (res : HostEnd) : State :=
  let fn := fnOf h.tenant
  match tagOf (s.fn fn) (.rack p 64) with
  | none => rackSend s p
  | some tag =>
    let a := h.haddr + h.got.length
    let n := mrrsPiece s h.tenant a (h.len - h.got.length)
    if resFits res n then
      let s := poisonAer (freeTag s fn tag) fn res
      if hostCs res ≠ Cs.done then finishStop (endHeldRack s p (hostCs res) (rackEv p (hostCs res))) p
      else
        let got := h.got ++ hostData res
        if got.length < h.len then rackSend (s.modPort p fun q => { q with held := some { h with got := got } }) p
        else
          finishStop ((s.modPort p fun q => { q with held := none }).emit
            (.slaveAck p (rackData h.endian h.addr (h.addr - h.addr % endianUnit h.endian) (h.haddr - h.base) h.be got))) p
    else s

/-- The host's answer to a delayed-read slot (R222). -/
def dtAnswer (s : State) (p k : Nat) (res : HostEnd) : State :=
  let d := Tbl.get dtInit (s.port p).dt k
  let fn := fnOf d.tenant
  match tagOf (s.fn fn) (.rack p k) with
  | none => dtSend s p k
  | some tag =>
    if resFits res d.len then
      let s := poisonAer (freeTag s fn tag) fn res
      let exp := s.now + discardTime s p
      if hostCs res ≠ Cs.done then setDt s p k { d with err := hostCs res, expires := exp }
      else setDt s p k { d with
        data := some (rackData d.endian d.addr (d.addr - d.addr % endianUnit d.endian) (d.haddr - d.base) (d.be.take (max 1 d.width)) (hostData res))
        expires := exp }
    else s

/-- RACK_MASTER_READ_COMPLETION (R31): slot 64 is the read that holds the bus, 0-7 the delayed-read slots. -/
def execRackMasterReadCompletion (p : PortId) (slot : Nat) (res : HostRes) (s : State) : Host.Outcome State Fault Refusal :=
  .next (if slot < 8 then dtAnswer s p.val slot (hostEnd res)
    else match (s.port p.val).held with
      | some h => heldRackAnswer s p.val h (hostEnd res)
      | none => s)

/-- DT_RETRY (R222): a retry that matches an open slot exactly. -/
def execDtRetry (p : PortId) (addr space width : Nat) (be : List Bool) (s : State) : Host.Outcome State Fault Refusal :=
  .next (if slvReady s p.val then
      match dtMatch s p.val addr space width be with
      | some k => dtCollect s p.val k
      | none => s
    else s)

/-- DELAYED_DISCARD (R222 step 5, R31): counted in its port's half of WIN_DT_DISCARD_CNT. -/
def delayedDiscardEff (s : State) (p k : Nat) : State :=
  let d := Tbl.get dtInit (s.port p).dt k
  if d.used ∧ (d.data.isSome ∨ d.err ≠ 0) then
    let s := (s.atTime d.expires).addReg 0x42024 (65536 ^ p)
    (setDt s p k (dtInit 0)).raise { code := Ev.delayedDiscard, src := srcPort p, tenant := d.tenant, addr := d.addr }
  else s

/-- DELAYED_DISCARD (R222). -/
def execDelayedDiscard (p : PortId) (slot : Nat) (s : State) : Host.Outcome State Fault Refusal := .next (delayedDiscardEff s p.val slot)

/-- INBOUND_ABANDONED (R221): the rack's bus timer ends a held read first. -/
def execInboundAbandoned (p : PortId) (s : State) : Host.Outcome State Fault Refusal :=
  .next (if (s.port p.val).held.isSome then finishStop (abandonRack s p.val) p.val else s)

/-- The bytes of a rack write sent to the host in the exchanged order (R208, R304, R307). -/
def rackHostWrite (s : State) (p r addr : Nat) (bs : List (Option Byte)) : State :=
  let e := endianOut (slvEndian s p r) addr bs
  hostWriteRuns s (slvTenant s p r) (slvHost s p r + e.1 - slvBase s p r) e.2

/-- RACK_MASTER_WRITE (R307, R309): acknowledged, and on its way to host memory in the order acknowledged. -/
def rackWriteEff (s : State) (p addr space : Nat) (bs : List (Option Byte)) : State :=
  match (if slvReady s p then slvMatch s p addr space else none) with
  | none => s
  | some r =>
    let s := s.incReg (paReg p 0x34)
    let (_, haddr, len) := hostRange s p r addr (bs.map Option.isSome)
    match inboundDenial s p r haddr len false true false with
    | some d => denyInbound s p addr space (slvTenant s p r) d
    | none => rackHostWrite (s.emit (.slaveAck p [])) p r addr bs

/-- RACK_MASTER_WRITE (R307). -/
def execRackMasterWrite (p : PortId) (addr space : Nat) (data : List Byte) (be : List Bool) (s : State) : Host.Outcome State Fault Refusal :=
  .next (rackWriteEff s p.val addr space (enabled data be))

/-- RACK_MASTER_RMW (R319): the rack bus held through a host read and a host write; `old` is the host's answer to the read. -/
def rackRmwEff (s : State) (p addr space : Nat) (old : HostEnd) (new : List Byte) : State :=
  match (if slvReady s p then slvMatch s p addr space else none) with
  | none => s
  | some r =>
    let s := s.incReg (paReg p 0x34)
    let t := slvTenant s p r
    let be := List.replicate new.length true
    let (base, haddr, len) := hostRange s p r addr be
    match inboundDenial s p r haddr len true true true with
    | some d => denyInbound s p addr space t d
    | none => match hostRead s t haddr len (.rack p 65) with
      | none => s
      | some s' =>
        if resFits old len then
          let s := poisonAer (s'.modFn (fnOf t) fun f => { f with tags := f.tags.filter fun e => decide (e.2 ≠ .rack p 65) }) (fnOf t) old
          if hostCs old ≠ Cs.done then
            raiseOpt (inboundErr s p addr (hostCs old) space) ((rackEv p (hostCs old)).map fun e => { e with tenant := t, cs := hostCs old, addr := addr })
          else
            rackHostWrite (s.emit (.slaveAck p (rackData (slvEndian s p r) addr (addr - addr % endianUnit (slvEndian s p r)) (haddr - base) be (hostData old))))
              p r addr (new.map some)
        else s

/-- RACK_MASTER_RMW (R319). -/
def execRackMasterRmw (p : PortId) (addr space : Nat) (old : HostRes) (new : List Byte) (s : State) : Host.Outcome State Fault Refusal :=
  .next (rackRmwEff s p.val addr space (hostEnd old) new)

/-- The payload of PORT_SLAVE_SET has no reserved bit set and names a tenant (R160, R163, R304). -/
def portSlaveParam (p : List Byte) : Bool :=
  decide (wordAt p 0 &&& 0xFFFFF0FE = 0 ∧ wordAt p 4 &&& 0xC0FC80F0 = 0 ∧ wordAt p 8 &&& 0xFFFFC0C0 = 0
    ∧ wordAt p 12 % 4096 = 0 ∧ wordAt p 20 % 4096 = 0 ∧ wordAt p 28 = 0 ∧ bits (wordAt p 4) 14 8 ≤ 64)

/-- Two matched code sets meet. -/
def codesMeet (c1 m1 c2 m2 : Nat) : Bool := decide ((c1 ^^^ c2) &&& m1 &&& m2 = 0)

/-- The reason for which PORT_SLAVE_SET is refused, 0 for none (R305). -/
def slaveRefusal (s : State) (p r : Nat) (ws : List Nat) : Nat :=
  let w1 := nth ws 1 0
  let w2 := nth ws 2 0
  let l := bits w1 29 24
  let base := nth ws 3 0 + 0x100000000 * nth ws 4 0
  let host := nth ws 5 0 + 0x100000000 * nth ws 6 0
  if !bit w1 0 then 0
  else if l = 0 then 1
  else if l < 12 ∨ 36 < l ∨ base % 2 ^ l ≠ 0 then 2
  else if (List.range 16).any fun q => decide (q ≠ r) && slvEn s p q && rangesMeet base (2 ^ l) (slvBase s p q) (slvSize s p q)
      && codesMeet (bits w2 5 0) (bits w2 13 8) (bits (slvWord s p q 2) 5 0) (bits (slvWord s p q 2) 13 8) then 3
  else if meetsBar s host (2 ^ l) then 6
  else if !fnEnabled s (fnOf (bits w1 14 8)) then 7
  else 0

/-- PORT_SLAVE_SET's effect (R304, R305); the region is active again where a dissolved pair had left it inactive (R497). -/
def portSlaveEff (s : State) (mb : Nat) (c : Cmd) : State :=
  let p := wordAt c.payload 0 % 2
  let r := bits (wordAt c.payload 0) 11 8
  let ws := wordsOf c.payload 8
  let why := slaveRefusal s p r ws
  if why ≠ 0 then refuse s mb why 0
  else
    let s := s.modPort p fun q => { q with slv := (List.range 8).foldl (fun t i => t.set (fun _ => 0#32) (r * 8 + i) (w32 (nth ws i 0))) q.slv }
    done (s.modTwin fun w => { w with inactive := w.inactive.filter fun n => decide (n ≠ 16 * p + r) }) mb []

/-- PORT_SLAVE_SET (R305). -/
def execPortSlaveSet (s : State) : Host.Outcome State Fault Refusal := runCmd 0x0501 s portSlaveEff

end Sys2Proof.Machine
end

