-- ==== Sys2Proof/Machine/RackIrq.lean ====
section
/-! DEFINITION. Rack interrupts: the handler's routes and acknowledge cycles, PENDING, and the interrupter (R313-R317). -/

namespace Sys2Proof.Machine

/-- Word `i` (0 route, 1 ID, 2 STAT, 3 CNT) of level `l` of a port's handler (R328). -/
def irqhReg (p l i : Nat) : Nat := paReg p (0x100 + 0x10 * l + 4 * i)

/-- Fields of a route. -/
def routeTenant (s : State) (p l : Nat) : Nat := bits (s.reg (irqhReg p l 0)).toNat 14 8
def routeVector (s : State) (p l : Nat) : Nat := bits (s.reg (irqhReg p l 0)).toNat 23 16
def routeIack (s : State) (p l : Nat) : Nat := bits (s.reg (irqhReg p l 0)).toNat 25 24

/-- An MSI-X entry that objects of a function may be given (R183). -/
def vecAssignable (fn v : Nat) : Bool := if fn = 0 then decide (8 ≤ v ∧ v ≤ 255) else decide (3 ≤ v ∧ v ≤ 31)

/-- A route serves nothing: its tenant is followed, or a dissolved pair has left it inactive (R480, R497). -/
def routeIdle (s : State) (p l : Nat) : Bool := s.followed (routeTenant s p l) || decide (32 + 8 * p + l ∈ s.twin.inactive)

/-- The handler may serve a level whose line is asserted (R313, R324). -/
def irqEligible (s : State) (p l : Nat) : Bool :=
  decide ((s.port p).st = .inService) && bit (s.reg (irqhReg p l 0)).toNat 0 && !routeIdle s p l
    && !bit (s.reg (irqhReg p l 2)).toNat 0 && (decide (portKind s p ≠ 1) || decide (1 ≤ l))
    && (decide (portKind s p ≠ 1) || (!(s.port p).rackReset && !cycleOpen (s.port p) && (s.port p).held.isNone))

/-- A level is reported: ID stored, PENDING set, counted, and the route's vector sent; a route that names no function or no assignable vector is UNROUTED (R313, R316). -/
def irqReport (s : State) (p l : Nat) (id : Word) : State :=
  let s := (s.setReg (irqhReg p l 1) id).incReg (irqhReg p l 3)
  let t := routeTenant s p l
  if t ≤ 64 ∧ fnEnabled s (fnOf t) ∧ vecAssignable (fnOf t) (routeVector s p l) then
    sendMsix (s.setReg (irqhReg p l 2) (s.reg (irqhReg p l 2) ||| 1#32)) (fnOf t) (routeVector s p l)
  else (s.setReg (irqhReg p l 2) (s.reg (irqhReg p l 2) ||| 3#32)).raise
    { code := Ev.rackIrqUnrouted, src := srcPort p, tenant := t, data := leBytes 1 l }

/-- A failed IACK cycle (R316, R320): latched with A03-A01 = L, recorded at most once a second per level, retried after 1 ms. -/
def iackFail (s : State) (p l cs : Nat) : State :=
  let s := latchErr s p (2 * l) cs 0 (if p = 0 then 6 else 9) false
  (s.modPort p fun q => { q with irqRetry := insertAsc l q.irqRetry }).raise
    { code := Ev.rackIackFail, src := srcPort p, tenant := routeTenant s p l, cs := cs, addr := 2 * l, data := leBytes 1 l, key := 8 * p + l }

/-- The handler serves a level (R313): under P1 by an IACK cycle of the route's width, else at once. -/
def irqServe (s : State) (p l : Nat) (e : IackEnd) : State :=
  if portKind s p = 1 then
    let s := (s.emit (.iackCycle p l)).modPort p fun q => { q with irqRetry := q.irqRetry.filter fun n => decide (n ≠ l) }
    match e with
    | .id v => irqReport s p l (w32 (v.toNat % 2 ^ (8 * 2 ^ min 2 (routeIack s p l))))
    | .berr => iackFail s p l Cs.farError
    | .timeout => iackFail s p l Cs.farTimeout
  else irqReport s p l (w32 l)

/-- RACK_IRQ_ASSERT (R313): an enabled level whose line is asserted becomes eligible; `e` is how its IACK cycle ends. -/
def execRackIrqAssert (p : PortId) (level : Fin 8) (e : IackEnd) (s : State) : Host.Outcome State Fault Refusal :=
  .next (if irqEligible s p.val level.val ∧ level.val ∉ (s.port p.val).irqRetry then irqServe s p.val level.val e else s)

/-- RACK_IACK_RETRY (R316): 1 ms after a failed IACK. -/
def execRackIackRetry (p : PortId) (level : Fin 8) (e : IackEnd) (s : State) : Host.Outcome State Fault Refusal :=
  .next (if irqEligible s p.val level.val ∧ level.val ∈ (s.port p.val).irqRetry then irqServe s p.val level.val e else s)

/-- RIRQ_PENDING_CLEAR (R315, R316): PF0 clears PENDING and UNROUTED; the routed tenant clears PENDING of a level that is not UNROUTED. -/
def rirqClear (s : State) (fn p l : Nat) (v : Word) : State :=
  let st := s.reg (irqhReg p l 2)
  if fn = 0 then s.setReg (irqhReg p l 2) (clearBits st (v &&& 3#32))
  else if 2 ≤ fn ∧ routeTenant s p l = tenantOf fn ∧ !st.getLsbD 1 then s.setReg (irqhReg p l 2) (clearBits st (v &&& 1#32))
  else s

/-- RIRQ_PENDING_CLEAR (R315). -/
def execRirqPendingClear (fn : Fn) (p : PortId) (level : Fin 8) (v : Word) (s : State) : Host.Outcome State Fault Refusal :=
  .next (rirqClear s fn.val p.val level.val v)

/-- RAISE of PA_IRQI_RAISE (R317): ignored while the line is asserted; under P1 the level must be named. -/
def irqiRaiseEff (s : State) (p : Nat) : State :=
  let l := (s.reg (paReg p 0x180)).toNat % 8
  if (s.port p).st = .inService ∧ s.reg (paReg p 0x18C) = 0 ∧ !(s.port p).rackReset ∧ (portKind s p ≠ 1 ∨ l ≠ 0) then
    (s.setReg (paReg p 0x18C) 1#32).emit (.portLine p 6 l true)
  else s

/-- IRQI_RAISE (R317). -/
def execIrqiRaise (p : PortId) (s : State) : Host.Outcome State Fault Refusal := .next (irqiRaiseEff s p.val)

/-- DROP of PA_IRQI_RAISE (R317): under P2 to P4. -/
def irqiDropEff (s : State) (p : Nat) : State :=
  if portKind s p ≠ 1 ∧ s.reg (paReg p 0x18C) ≠ 0 then
    (s.setReg (paReg p 0x18C) 0).emit (.portLine p 6 ((s.reg (paReg p 0x180)).toNat % 8) false)
  else s

/-- IRQI_DROP (R317). -/
def execIrqiDrop (p : PortId) (s : State) : Host.Outcome State Fault Refusal := .next (irqiDropEff s p.val)

/-- IRQI_ACKNOWLEDGE (R317): the ID at the width of the cycle (0 D08(O), 1 D16, 2 D32), the line released, counted, PF0's vector sent when it is 8 or above. -/
def irqiAckEff (s : State) (p l w : Nat) : State :=
  if irqiOn s p l ∧ (s.port p).st = .inService then
    let id := w32 ((s.reg (paReg p 0x184)).toNat % 2 ^ (8 * 2 ^ min 2 w))
    let s := ((s.emit (.iackId p id)).setReg (paReg p 0x18C) 0).emit (.portLine p 6 l false)
    let s := s.incReg (paReg p 0x190)
    let v := bits (s.reg (paReg p 0x180)).toNat 15 8
    if 8 ≤ v then sendMsix s 0 v else s
  else s

/-- IRQI_ACKNOWLEDGE (R317). -/
def execIrqiAcknowledge (p : PortId) (level : Fin 8) (width : Fin 3) (s : State) : Host.Outcome State Fault Refusal :=
  .next (irqiAckEff s p.val level.val width.val)

end Sys2Proof.Machine
end

