-- ==== Sys2Proof/Machine/Queues.lean ====
section
/-! DEFINITION. The queue front end (R233, R234, R236, R252-R254, R266-R292): contexts, doorbells, descriptor fetch and cutting, completion entries, interrupts, faults and halts. -/

namespace Sys2Proof.Machine

/-! ## Contexts -/

/-- The CFG code of a queue state (R268 QCX_STATE). -/
def qstateCode : QState → Nat
  | .free => 0
  | .active => 1
  | .halted => 2
  | .disabled => 3
  | .resetting => 4

/-- The state of a code. -/
def qstateOf (n : Nat) : QState :=
  match n with
  | 1 => .active
  | 2 => .halted
  | 3 => .disabled
  | 4 => .resetting
  | _ => .free

/-- The slots that a queue occupies. -/
def slotsOf (s : State) (q : Nat) : List Nat := (busySlots s).filter fun k => decide ((s.slot k).queue = q)

/-- The open span of a queue (R268, R284): the last one begun and not wholly released. -/
def openSpan (c : QCtx) : Span := c.spans.getLastD { id := 0, total := 0, ended := false, released := 0, half := false }

/-- The high word of a number. -/
def hi32 (n : Nat) : Nat := n / 0x100000000

/-- The words +0x00 to +0x6C of a context (R268). -/
def qcxHead (c : QCtx) : List Nat :=
  let sp := openSpan c
  [b2n c.chain + 2 * b2n c.cont + 4 * b2n c.homeOnly + c.bed * 16 + c.pin * 256 + c.tenant * 65536 + c.depth * 2 ^ 24 + b2n (decide (c.st ≠ .free)) * 2 ^ 31,
   qstateCode c.st + c.faultCs % 256 * 256 + c.dbIdx * 65536,
   c.ring % 2 ^ 32, hi32 c.ring, c.ringLog2, c.head, c.tail, c.relIdx, c.cur % 2 ^ 32, hi32 c.cur, c.cq % 2 ^ 32, hi32 c.cq, c.cqLog2,
   c.cqTail + b2n c.phase * 65536, c.cqHead, c.vec + c.cnt * 256 + c.timer * 65536, c.chainLimit, c.hwm,
   if sp.ended then sp.total else 0, sp.released, c.descCnt % 2 ^ 32, hi32 c.descCnt, c.bytes % 2 ^ 32, hi32 c.bytes,
   c.faultAddr % 2 ^ 32, hi32 c.faultAddr, c.faultDesc % 2 ^ 32, hi32 c.faultDesc]

/-- The 64 words of a context (R268). -/
def qctxWords (s : State) (q : Nat) : List Nat :=
  let c := s.q q
  qcxHead c
    ++ [(s.reg (0x100070 + 0x100 * q)).toNat, (s.reg (0x100074 + 0x100 * q)).toNat, (slotsOf s q).length + c.descs.length * 65536]
    ++ List.replicate 29 0 ++ [0, 0, 0, qstateCode c.st + c.faultCs % 256 * 256]

/-- A context rebuilt from mirrored words (R484). -/
def ctxOfWords (c : QCtx) (w : List Nat) : QCtx :=
  let w0 := nth w 0 0
  let w1 := nth w 1 0
  { c with
    chain := bit w0 0, cont := bit w0 1, homeOnly := bit w0 2, bed := bits w0 6 4, pin := bits w0 11 8, tenant := bits w0 22 16
    depth := bits w0 30 24, st := qstateOf (w1 % 8), faultCs := bits w1 15 8, dbIdx := bits w1 25 16
    ring := nth w 2 0 + 0x100000000 * nth w 3 0, ringLog2 := nth w 4 0, head := nth w 5 0, tail := nth w 6 0, relIdx := nth w 7 0
    cur := nth w 8 0 + 0x100000000 * nth w 9 0, cq := nth w 10 0 + 0x100000000 * nth w 11 0, cqLog2 := nth w 12 0
    cqTail := nth w 13 0 % 65536, phase := bit (nth w 13 0) 16, cqHead := nth w 14 0, vec := bits (nth w 15 0) 7 0
    cnt := bits (nth w 15 0) 15 8, timer := bits (nth w 15 0) 31 16, chainLimit := nth w 16 0, hwm := nth w 17 0
    descCnt := nth w 20 0 + 0x100000000 * nth w 21 0, bytes := nth w 22 0 + 0x100000000 * nth w 23 0
    faultAddr := nth w 24 0 + 0x100000000 * nth w 25 0, faultDesc := nth w 26 0 + 0x100000000 * nth w 27 0 }

/-- The record that mirrors a queue's state (R484). -/
def ctxRec (s : State) (q : Nat) : MirrorRec := .queueState q ((qcxHead (s.q q)).map w32)

/-! ## Beds and positions -/

/-- A bed's island is DISABLED (R99). -/
def bedDead (s : State) (b : Nat) : Bool := domDisabled s (4 + b)

/-- The queues homed on a bed, and those pinned to a position of it. -/
def queuesOn (s : State) (b : Nat) : Nat := (s.qs.ctx.rows.filter fun kv => decide (kv.2.st ≠ .free ∧ kv.2.bed = b)).length
def pinnedTo (s : State) (b i : Nat) : Nat := (s.qs.ctx.rows.filter fun kv => decide (kv.2.st ≠ .free ∧ kv.2.bed = b ∧ kv.2.pin = i)).length

/-- A position of a bed is closed (R258, R260). -/
def posClosed (s : State) (b i : Nat) : Bool := (s.bed b).closed.any fun c => decide (c.1 = i)

/-- The element of a list with the smallest figure, the first on a tie. -/
def minBy (l : List Nat) (f : Nat → Nat) : Option Nat :=
  l.foldl (fun acc x => match acc with
    | none => some x
    | some y => if f x < f y then some x else some y) none

/-- The pin position chosen in a bed: the one with the fewest queues pinned to it (R236). -/
def choosePin (s : State) (b : Nat) : Nat := (minBy ((List.range 16).filter fun i => !posClosed s b i) (pinnedTo s b)).getD 0

/-- The bed for a queue that may go to any: the one with the fewest queues (R236). -/
def chooseBed (s : State) : Option Nat := minBy ((List.range 8).filter fun b => !bedDead s b) (queuesOn s)

/-! ## Creating a queue -/

/-- The payload of QUEUE_CREATE (R266, R267, R160). -/
def queueCreateParam (p : List Byte) : Bool :=
  let cfg := wordAt p 0
  let t := bits cfg 14 8
  let chain := bit cfg 0
  decide (cfg &&& 0x80FF8008 = 0 ∧ wordAt p 4 = 0 ∧ t ≤ 64 ∧ bits cfg 30 24 ≤ 64)
    && decide (bits cfg 7 4 < 8 ∨ bits cfg 7 4 = 15) && (chain || decide (wordAt p 0x10 ≤ 16))
    && decide (wordAt p 0x20 = 0 ∨ (4 ≤ wordAt p 0x20 ∧ wordAt p 0x20 ≤ 16)) && vecAssignable (fnOf t) (byteAt p 0x14)
    && decide (wordAt p 0x24 < 0x1000000 ∧ field p 0x28 24 = 0)

/-- The tenant's queue quota (R266). -/
def queueQuota (s : State) (t : Nat) : Nat := quotaOf s.img.queueQuota t (if t = 0 then 2048 else 0)

/-- The queues of a tenant. -/
def queuesOf (s : State) (t : Nat) : List Nat := (s.qs.ctx.rows.filter fun kv => decide (kv.2.st ≠ .free ∧ kv.2.tenant = t)).map fun kv => kv.1

/-- The lowest free context (R266). -/
def freeQueue (s : State) : Option Nat :=
  (List.range 2048).find? fun q => decide ((s.q q).st = .free) && s.twin.holds.all fun h => match h.2.2 with
    | .cmd _ r => decide (r ≠ q)
    | _ => true

/-- The lowest free doorbell index of a VF (R269). -/
def freeDoorbell (s : State) (t : Nat) : Nat :=
  if t = 0 then 0 else ((List.range 1024).find? fun k => !((queuesOf s t).any fun q => decide ((s.q q).dbIdx = k))).getD 0

/-- Why QUEUE_CREATE is refused, 0 for none (R267). -/
def createRefusal (s : State) (p : List Byte) : Nat :=
  let cfg := wordAt p 0
  let t := bits cfg 14 8
  if (!bit cfg 0 ∧ wordAt p 0x10 = 0) ∨ wordAt p 0x20 = 0 then 1
  else if field p 8 8 % 64 ≠ 0 ∨ field p 0x18 8 % 64 ≠ 0 then 2
  else if queueQuota s t ≤ (queuesOf s t).length ∨ freeQueue s = none then 3
  else if bits cfg 7 4 < 8 then (if bedDead s (bits cfg 7 4) then 4 else 0)
  else if chooseBed s = none then 4 else 0

/-- The context that a payload describes, ACTIVE and idle (R266, R267). -/
def newContext (s : State) (p : List Byte) : QCtx :=
  let cfg := wordAt p 0
  let t := bits cfg 14 8
  let b := if bits cfg 7 4 < 8 then bits cfg 7 4 else (chooseBed s).getD 0
  let irq := wordAt p 0x14
  { qctxInit 0 with
    st := .active, chain := bit cfg 0, cont := bit cfg 1, homeOnly := bit cfg 2, bed := b, pin := choosePin s b, tenant := t
    depth := if bits cfg 30 24 = 0 then 16 else bits cfg 30 24, dbIdx := freeDoorbell s t, ring := field p 8 8
    ringLog2 := if bit cfg 0 then 0 else wordAt p 0x10, cq := field p 0x18 8, cqLog2 := wordAt p 0x20, phase := true
    vec := irq % 256, cnt := if bits irq 15 8 = 0 then 1 else bits irq 15 8, timer := bits irq 31 16
    chainLimit := if wordAt p 0x24 = 0 then 65536 else wordAt p 0x24, lastPos := 15 }

/-- The queue is created and the command answered (R266). -/
def createNow (s : State) (mb q : Nat) (p : List Byte) : State :=
  let c := newContext s p
  done (s.setQ q c) mb (leBytes 4 (q + c.dbIdx * 65536))

/-- QUEUE_CREATE's effect (R266, R267, R480, R484). -/
def queueCreateEff (s : State) (mb : Nat) (c : Cmd) : State :=
  let t := bits (wordAt c.payload 0) 14 8
  let why := createRefusal s c.payload
  if !ownsObject mb t then reject s mb Rej.notOwner
  else if s.followed t then refuse s mb 9 (partnerRank s)
  else if why ≠ 0 then refuse s mb why 0
  else if s.leads t then
    let q := (freeQueue s).getD 0
    mirrorHold s t (ctxRec (s.setQ q (newContext s c.payload)) q) (.cmd mb q) id
  else createNow s mb ((freeQueue s).getD 0) c.payload

/-- QUEUE_CREATE (R266). -/
def execQueueCreate (s : State) : Host.Outcome State Fault Refusal := runCmd 0x0400 s queueCreateEff

/-- A queue number in a command's payload. -/
def queueNumParam (p : List Byte) : Bool := decide (wordAt p 0 < 2048)

/-- QUEUE_GET (R268). -/
def execQueueGet (s : State) : Host.Outcome State Fault Refusal :=
  runCmd 0x0403 s fun s mb c =>
    let q := wordAt c.payload 0
    if !ownsObject mb (s.q q).tenant then reject s mb Rej.notOwner else done s mb (bytesOfWords (qctxWords s q))

/-! ## Fetching -/

/-- The front end may fetch for a queue (R191, R195, R272, R289, R292, R480). -/
def mayFetch (s : State) (q : Nat) : Bool :=
  let c := s.q q
  decide (c.st = .active ∧ c.fetching = none) && !c.halting && !s.tenantStopped c.tenant && !s.followed c.tenant && !s.handing c.tenant
    && !(s.fn (fnOf c.tenant)).d3hot && !(s.fn (fnOf c.tenant)).flr && !c.mirrorWait

/-- A fetch sent: its tag is the one in use for it. -/
def sendFetch (s : State) (q addr len n : Nat) (use : TagUse) : State :=
  match hostRead s (s.q q).tenant addr len use with
  | some s => s.modQ q fun c => { c with fetching := some (0, addr, n) }
  | none => s

/-- The next fetch of a queue (R272, R273): contiguous pending ring entries within FETCH_DEPTH and one read, the chain's next descriptor, or the parked one's NEXT again. -/
def fetchNext (s : State) (q : Nat) : State :=
  let c := s.q q
  if !mayFetch s q then s
  else if c.chain then
    if c.parked then (if c.owed then sendFetch (s.modQ q fun c => { c with owed := false }) q (c.cur + 0x20) 8 0 (.reNext q) else s)
    else if c.started ∧ c.descs.length < c.depth then sendFetch s q c.nextA 64 1 (.fetch q)
    else s
  else
    let size := 2 ^ c.ringLog2
    let n := min (min ((c.tail + size - c.head) % size) (size - c.head)) (c.depth - c.descs.length)
    if n = 0 then s
    else
      let a := c.ring + 64 * c.head
      let k := max 1 (mrrsPiece s c.tenant a (64 * n) / 64)
      sendFetch s q a (64 * k) k (.fetch q)

/-! ## Cutting -/

/-- The translation of a map value (R277): host memory, or a window of the tenant; none is WINDOW_MISS. -/
def mapEnd (s : State) (t map addr len : Nat) : Option Endpt :=
  if map = 0xFFFF then some (.host addr 0)
  else if 256 ≤ map then none
  else
    let f := winWork s map
    if !f.en ∨ f.tenant ≠ t ∨ 2 ^ f.log2 < addr + len then none
    else if f.target = 6 then some (.host (f.base + addr) f.endian)
    else some (.rack f.target (f.base + addr) f.space (2 ^ f.width) f.endian f.rclass f.prefetch 0)

/-- An end moved on by an offset, its region and effective class fixed there (R22, R234). -/
def endAt (s : State) (e : Endpt) (o : Nat) : Endpt :=
  match e with
  | .host a en => .host (a + o) en
  | .rack k a sp w en cl pf _ => .rack k (a + o) sp w en (effClass s k sp (a + o) cl) pf (targetRegion s k sp (a + o))
  | .none => .none

/-- The address of an end, for the cuts of R233. -/
def endAddr : Endpt → Option Nat
  | .host a _ => some a
  | .rack _ a _ _ _ _ _ _ => some a
  | .none => Option.none

/-- An end is of class SIDE_EFFECT (R244). -/
def endSideEffect : Endpt → Bool
  | .rack _ _ _ _ _ cl _ _ => decide (cl = 2)
  | _ => false

/-- The bytes from address `a` to the next 4 KiB boundary. -/
def toBoundary (e : Endpt) (o : Nat) : Nat :=
  match endAddr e with
  | some a => 4096 - (a + o) % 4096
  | none => 0x100000000

/-- The pieces of R233 from offset `o`, `n` bytes left. `fuel` bounds their number: one more than twice the pages, plus the ends. -/
def cutFrom (src dst : Endpt) : Nat → Nat → Nat → List (Nat × Nat)
  | 0, _, _ => []
  | fuel + 1, o, n =>
    if n = 0 then []
    else
      let k := min n (min (toBoundary src o) (toBoundary dst o))
      (o, k) :: cutFrom src dst fuel (o + k) (n - k)

/-- The segments of a descriptor (R233, R244). -/
def cutSegs (s : State) (src dst : Endpt) (len : Nat) (ordered rmw : Bool) : List SegPlan :=
  (cutFrom src dst (2 * (len / 4096 + 1) + 2) 0 len).map fun c =>
    let a := endAt s src c.1
    let b := endAt s dst c.1
    { off := c.1, len := c.2, src := a, dst := b, pinned := ordered || rmw || endSideEffect a || endSideEffect b }

/-- The fields of a fetched descriptor (R275). SETTLE ignores LENGTH (R276): it moves no bytes. -/
def parseDesc (uid index addr : Nat) (b : List Byte) : Desc :=
  let fl := field b 2 2
  { uid := uid, index := index, addr := addr, opcode := byteAt b 0, flags := fl, len := if byteAt b 0 = 4 then 0 else wordAt b 4, next := field b 0x20 8
    settleN := wordAt b 0x1C, op0 := field b 0x28 8, op1 := field b 0x30 8, toPush := [], inPans := [], done := [], fails := []
    halfDone := false, fence := none, final := none, ordered := bit fl 2, pinnedAny := false, span := none, fetchFail := false, deferred := false }

/-- The descriptor cut (R233, R276-R278): its segments, or its ending at once; true where the maps fail. -/
def cutDesc (s : State) (t : Nat) (d : Desc) (b : List Byte) : Desc × Bool :=
  let rmw := decide (d.opcode = 3)
  if d.opcode = 4 then (d, false)
  else if d.opcode = 0 ∨ 4 < d.opcode ∨ d.len = 0 ∨ (rmw ∧ d.len ∉ [1, 2, 4]) then ({ d with final := some (Cs.doneZero, 0) }, false)
  else
    let src := if d.opcode = 2 then some Endpt.none else mapEnd s t (field b 0x18 2) (field b 8 8) d.len
    let dst := mapEnd s t (field b 0x1A 2) (field b 0x10 8) d.len
    let bad := rmw && (decide (field b 0x18 2 ≠ 0xFFFF) || (match dst with
      | some (.rack _ _ _ _ _ _ _ _) => false
      | _ => true))
    match src, dst with
    | some x, some y =>
      if bad then ({ d with final := some (Cs.windowMiss, d.len) }, true)
      else
        let segs := if rmw then [{ off := 0, len := d.len, src := endAt s x 0, dst := endAt s y 0, pinned := true }] else cutSegs s x y d.len d.ordered rmw
        ({ d with toPush := segs, pinnedAny := segs.any fun g => g.pinned }, false)
    | _, _ => ({ d with final := some (Cs.windowMiss, d.len) }, true)

/-- The address a failed translation is recorded under: the source where its map fails, else the destination. -/
def missAddr (s : State) (t : Nat) (d : Desc) (b : List Byte) : Nat :=
  if d.opcode = 2 ∨ (mapEnd s t (field b 0x18 2) (field b 8 8) d.len).isSome then field b 0x10 8 else field b 8 8

/-! ## Faults and halts -/

/-- The INDEX or address that QCX_FAULT_DESC holds (R268). -/
def faultDescOf (c : QCtx) (d : Desc) : Nat := if c.chain then d.addr else d.index

/-- A queue fault (R286, R289): the fault fields updated; under FAULT_MODE HALT, or where `always`, the halt begins. Under HALT they keep the first fault. -/
def queueFault (s : State) (q : Nat) (d : Desc) (cs addr : Nat) (always : Bool) : State :=
  s.modQ q fun c =>
    let c := if c.halting then c else { c with faultCs := cs, faultAddr := addr, faultDesc := faultDescOf c d }
    if always || !c.cont then { c with halting := true } else c

/-- The record of a queue fault (R286). -/
def queueFaultRec (s : State) (q : Nat) (d : Desc) (code cs addr : Nat) : State :=
  s.raise { queueEv s q d.index { code := code, src := srcHc } with tenant := (s.q q).tenant, cs := cs, addr := addr }

/-- The queue's span accounts take a fetched descriptor (R284). -/
def spanFetch (c : QCtx) (d : Desc) : QCtx × Option Nat :=
  let start := bit d.flags 3
  let fin := bit d.flags 4
  let last := openSpan c
  if start then
    let id := c.nextUid
    ({ c with spans := c.spans ++ [{ id := id, total := d.len, ended := fin, released := 0, half := false }] }, some id)
  else if c.spans ≠ [] ∧ !last.ended then
    ({ c with spans := c.spans.map fun x => if x.id = last.id then { x with total := x.total + d.len, ended := fin } else x }, some last.id)
  else (c, none)

/-- The mirrored records of one descriptor of a queue. -/
def descMarks (s : State) (q index : Nat) : List MirrorRec :=
  s.twin.mirror.filter fun r => match r with
    | .fetched a i _ | .rackRead a i _ | .segDone a i _ => decide (a = q ∧ i = index)
    | .ticket _ _ a i _ => decide (a = q ∧ i = index)
    | .release a e _ => decide (a = q ∧ field e 0 2 = index)
    | _ => false

/-- The ticket that a mirror record gives the segment at an offset. -/
def markTicket (m : List MirrorRec) (off : Nat) : Option Nat :=
  m.findSome? fun r => match r with
    | .ticket _ n _ _ o => if o = off then some n else none
    | _ => none

/-- A segment marked done, or with its rack read issued. -/
def markDone (m : List MirrorRec) (off : Nat) : Bool := m.any fun r => match r with
  | .segDone _ _ o => decide (o = off)
  | _ => false
def markRead (m : List MirrorRec) (off : Nat) : Bool := m.any fun r => match r with
  | .rackRead _ _ o => decide (o = off)
  | _ => false

/-- A descriptor taken over from the partner's mirror (R492): segments marked done or ticketed are not run; it ends at the first one whose rack read was issued and not done. Answers the failed one. -/
def resumeDesc (m : List MirrorRec) (d : Desc) : Desc × Option SegPlan :=
  let stop := d.toPush.find? fun (g : SegPlan) => markRead m g.off && !markDone m g.off
  let run : List SegPlan := match stop with
    | some x => d.toPush.filter fun g => decide (g.off < x.off)
    | none => d.toPush
  let skip := fun (g : SegPlan) => markDone m g.off || (markTicket m g.off).isSome
  let half := m.any fun r => match r with
    | .release _ e _ => bit (byteAt e 12) 1
    | _ => false
  ({ d with
      toPush := run.filter fun g => !skip g
      done := d.done ++ (run.filter skip).map fun g => (g.off, g.len, (markTicket m g.off).getD 0)
      fails := match stop with
        | some x => [(x.off, Cs.farError, (endAddr x.src).getD ((endAddr x.dst).getD 0), d.len - x.off)]
        | none => d.fails
      halfDone := d.halfDone || half }, stop)

/-- A freshly cut descriptor with what the mirror knows of it: the marks are used up, and an unknown read is a fault of the queue (R492). -/
def resumeMarks (s : State) (q : Nat) (d : Desc) : Desc × State :=
  let m := descMarks s q d.index
  if m = [] then (d, s)
  else
    let s := s.modTwin fun w => { w with mirror := w.mirror.filter fun r => decide (r ∉ m) }
    let (d, stop) := resumeDesc m d
    match stop with
    | some x =>
      let a := (endAddr x.src).getD ((endAddr x.dst).getD 0)
      (d, queueFaultRec (queueFault s q d Cs.farError a false) q d Ev.twinReadUnknown Cs.farError a)
    | none => (d, s)

/-- One fetched descriptor enters the queue (R272-R278, R274). -/
def takeDesc (s : State) (q addr : Nat) (b : List Byte) : State :=
  let c := s.q q
  let index := if c.chain then (c.relIdx + c.descs.length) % 65536 else c.head
  let d := parseDesc c.nextUid index addr b
  let (c', span) := spanFetch { c with nextUid := c.nextUid + 1 } d
  let loop := c.chain && decide (c.chainLimit < c.chainCount + 1)
  let (d, miss) := if loop then ({ d with final := some (Cs.chainLoop, d.len) }, false) else cutDesc s c.tenant d b
  let (d, s) := resumeMarks s q { d with span := span }
  let c' := { c' with halting := (s.q q).halting, faultCs := (s.q q).faultCs, faultAddr := (s.q q).faultAddr, faultDesc := (s.q q).faultDesc }
  let nx := d.next / 64 * 64
  let c' := { c' with
    descs := c'.descs ++ [d], cur := addr
    head := if c.chain then c'.head else (c'.head + 1) % 2 ^ c.ringLog2
    chainCount := if c.chain ∧ !loop then (if nx = 0 then 0 else c'.chainCount + 1) else c'.chainCount
    nextA := if c.chain ∧ !loop then nx else c'.nextA
    parked := c.chain && !loop && decide (nx = 0) }
  let s := mirrorNote (s.setQ q c') c.tenant (.fetched q index addr)
  let s := if loop then queueFaultRec (queueFault s q d Cs.chainLoop addr true) q d Ev.chainLoop Cs.chainLoop addr else s
  let s := if miss then
      let a := missAddr s c.tenant d b
      queueFaultRec (queueFault s q d Cs.windowMiss a false) q d Ev.windowMiss Cs.windowMiss a
    else s
  if !loop ∧ d.opcode ≠ 4 ∧ (d.opcode = 0 ∨ 4 < d.opcode ∨ (d.opcode = 3 ∧ d.len ∉ [0, 1, 2, 4])) then
    s.raise { code := Ev.descReserved, src := srcHc, tenant := c.tenant, cs := Cs.doneZero, data := leBytes 4 q ++ leBytes 4 index }
  else s

/-- A fetch that failed (R286, R288): an entry with the INDEX of its first descriptor, and the halt. -/
def fetchFailed (s : State) (q addr cs code : Nat) : State :=
  let c := s.q q
  let index := if c.chain then (c.relIdx + c.descs.length) % 65536 else c.head
  let d := { parseDesc c.nextUid index addr [] with final := some (cs, 0xFFFFFFFF), fetchFail := true }
  let s := s.modQ q fun c => { c with fetching := none, nextUid := c.nextUid + 1, descs := c.descs ++ [d] }
  queueFaultRec (queueFault s q d cs addr true) q d code cs addr

/-- The descriptors of a fetch that has come whole. -/
def takeFetch (s : State) (q addr : Nat) : Nat → List Byte → State
  | 0, _ => s
  | n + 1, b => if (s.q q).halting then s else takeFetch (takeDesc s q addr (b.take 64)) q (addr + 64) n (b.drop 64)

/-- The reread NEXT of a parked chain (R273). -/
def takeNext (s : State) (q : Nat) (b : List Byte) : State :=
  let nx := leNat b / 64 * 64
  s.modQ q fun c => if nx = 0 then c else { c with nextA := nx, parked := false }

/-- DESC_FETCH_DONE (R272, R273, R286, R288): the host answers the fetch in flight; with none in flight the front end looks for work. -/
def descFetchEff (s : State) (q : Nat) (res : HostEnd) : State :=
  let c := s.q q
  match c.fetching with
  | none => fetchNext s q
  | some (_, addr, n) =>
    let fn := fnOf c.tenant
    let use := if n = 0 then TagUse.reNext q else .fetch q
    match tagOf (s.fn fn) use with
    | none => s
    | some tag =>
      if !resFits res (if n = 0 then 8 else 64 * n) then s
      else
        let s := poisonAer (freeTag s fn tag) fn res
        if hostCs res ≠ Cs.done then
          let none_ := decide (hostCs res = Cs.hostTimeout)
          fetchFailed (if n = 0 then s.modQ q fun c => { c with owed := true } else s) q addr
            (if none_ then Cs.descFetchFail else hostCs res) (if none_ then Ev.descFetchFail else Ev.queueHostError)
        else
          let s := s.modQ q fun c => { c with fetching := none }
          if c.halting then s
          else fetchNext (if n = 0 then takeNext s q (hostData res) else takeFetch s q addr n (hostData res)) q

/-- DESC_FETCH_DONE (R272). -/
def execDescFetchDone (q : Fin 2048) (res : HostRes) (s : State) : Host.Outcome State Fault Refusal := .next (descFetchEff s q.val (hostEnd res))

/-! ## Doorbells -/

/-- The queue that a function's doorbell index names (R269): PF0's is the queue number. -/
def doorbellQueue (s : State) (fn idx : Nat) : Option Nat :=
  if fn = 0 then (if idx < 2048 ∧ (s.q idx).st ≠ .free then some idx else none)
  else if fn = 1 then none
  else (queuesOf s (tenantOf fn)).find? fun q => decide ((s.q q).dbIdx = idx)

/-- A doorbell write ignored and counted (R271). -/
def dbIgnored (s : State) (q : Nat) : State := s.incReg (0x100070 + 0x100 * q)

/-- The queue ignores doorbells (R271). -/
def dbDeaf (s : State) (q : Nat) : Bool := decide ((s.q q).st = .disabled ∨ (s.q q).st = .resetting)

/-- QDB_TAIL written (R269, R271-R273, R480). -/
def tailWrite (s : State) (q v : Nat) : State :=
  let c := s.q q
  if dbDeaf s q then dbIgnored s q
  else if c.chain then
    fetchNext (s.modQ q fun c => if c.started then { c with owed := true } else { c with started := true, nextA := c.ring, owed := false }) q
  else if 2 ^ c.ringLog2 ≤ v % 65536 then dbIgnored s q
  else fetchNext (s.modQ q fun c => { c with tail := v % 65536 }) q

/-- QDB_CQHEAD written (R271, R282). -/
def cqHeadWrite (s : State) (q v : Nat) : State :=
  if dbDeaf s q ∨ 2 ^ (s.q q).cqLog2 ≤ v % 65536 then dbIgnored s q
  else s.modQ q fun c => { c with cqHead := v % 65536 }

/-- A doorbell that reaches its queue: the function's BAR0 answers (R127, R191) and the index names a queue. -/
def onDoorbell (s : State) (fn idx : Nat) (f : State → Nat → State) : State :=
  match (if fnAnswers s fn then doorbellQueue s fn idx else none) with
  | some q => f s q
  | none => s

/-- DOORBELL_TAIL (R272, R273). -/
def execDoorbellTail (fn : Fn) (idx : Nat) (v : Word) (s : State) : Host.Outcome State Fault Refusal :=
  .next (onDoorbell s fn.val idx fun s q => tailWrite s q v.toNat)

/-- DOORBELL_CQHEAD (R282). -/
def execDoorbellCqhead (fn : Fn) (idx : Nat) (v : Word) (s : State) : Host.Outcome State Fault Refusal :=
  .next (onDoorbell s fn.val idx fun s q => cqHeadWrite s q v.toNat)

/-- RESUME acts (R274, R289): ACTIVE again, the chain count begun anew, fetching at HEAD. -/
def resumeNow (s : State) (q : Nat) : State :=
  fetchNext (s.modQ q fun c => { c with st := .active, halting := false, chainCount := 0, mirrorWait := false }) q

/-- RESUME written (R289, R292): acts on a HALTED queue that does not need QUEUE_RESET. -/
def resumeWrite (s : State) (q : Nat) : State :=
  if dbDeaf s q then dbIgnored s q
  else if (s.q q).st = .halted ∧ !(s.q q).needReset ∧ !s.followed (s.q q).tenant then
    mirrorHold s (s.q q).tenant (ctxRec (s.modQ q fun c => { c with st := .active }) q) (.queueOp q 2) fun s => resumeNow s q
  else s

/-- QUEUE_RESUME (R289). -/
def execQueueResume (fn : Fn) (idx : Nat) (s : State) : Host.Outcome State Fault Refusal := .next (onDoorbell s fn.val idx resumeWrite)

/-! ## Entries and interrupts -/

/-- The later of two marks, 0 standing for none (R254). -/
def markMax (a b : Nat) : Nat := if a = 0 then b else if b = 0 then a else ticketMax a b

/-- The highest ticket of a descriptor's segments, 0 for none. -/
def descMark (d : Desc) : Nat := d.done.foldl (fun m x => markMax m x.2.2) 0

/-- The 16 bytes of a completion entry (R279). -/
def entryBytes (index cs residual ticket flags q : Nat) : List Byte :=
  leBytes 2 index ++ leBytes 2 cs ++ leBytes 4 residual ++ leBytes 4 ticket ++ leBytes 1 flags ++ leBytes 1 0 ++ leBytes 2 q

/-- The completion ring has room (R282). -/
def cqRoom (c : QCtx) : Bool := decide ((c.cqTail + 1) % 2 ^ c.cqLog2 ≠ c.cqHead)

/-- An entry written at the tail, which moves on; PHASE inverts when it wraps (R279, R282). -/
def putEntry (s : State) (q : Nat) (e : List Byte) : State :=
  let c := s.q q
  let t := (c.cqTail + 1) % 2 ^ c.cqLog2
  (hostWrite s c.tenant (c.cq + 16 * c.cqTail) e).modQ q fun c => { c with
    cqTail := t, phase := if t = 0 then !c.phase else c.phase, stalled := false }

/-- The queue's message sent, and its pending events cleared (R285). -/
def queueIrq (s : State) (q : Nat) : State :=
  sendMsix (s.modQ q fun c => { c with irqPend := 0 }) (fnOf (s.q q).tenant) (s.q q).vec

/-- An interrupt event (R285). -/
def irqEvent (s : State) (q : Nat) : State :=
  let c := s.q q
  if c.cnt ≤ c.irqPend + 1 then queueIrq s q
  else s.modQ q fun c => { c with irqPend := c.irqPend + 1, irqAt := if c.irqPend = 0 then s.now + us c.timer else c.irqAt }

/-- IRQ_MODERATION_TIMER (R285): TIMER µs after the first pending event. -/
def execIrqModerationTimer (q : Fin 2048) (s : State) : Host.Outcome State Fault Refusal :=
  .next (if 0 < (s.q q.val).irqPend ∧ 0 < (s.q q.val).timer then queueIrq (s.atTime (s.q q.val).irqAt) q.val else s)

/-- The descriptor of a uid. -/
def getDesc (s : State) (q u : Nat) : Option Desc := (s.q q).descs.find? fun d => decide (d.uid = u)

/-- A descriptor changed. -/
def modDesc (s : State) (q u : Nat) (f : Desc → Desc) : State :=
  s.modQ q fun c => { c with descs := modFirst (fun d => decide (d.uid = u)) f c.descs }

/-- Every segment of a descriptor has been reported done, none is left to push. -/
def segsDone (d : Desc) : Bool := decide (d.toPush = [] ∧ d.inPans = [])

/-- The failed segment with the lowest offset (R255). -/
def worstFail (d : Desc) : Option (Nat × Nat × Nat × Nat) :=
  d.fails.foldl (fun acc f => match acc with
    | none => some f
    | some g => if f.1 < g.1 then some f else some g) none

/-- CS and RESIDUAL of a descriptor that has run (R255, R280). -/
def descOutcome (d : Desc) : Nat × Nat :=
  match d.final with
  | some r => r
  | none => match worstFail d with
    | some f => (f.2.1, f.2.2.2)
    | none => (Cs.done, 0)

/-- A fault CS. -/
def isFault (cs : Nat) : Bool := decide (0x10 ≤ cs)

/-- A descriptor leaves the queue: marks, counts and span (R254, R268, R284). Answers whether its entry carries SPAN_HALF. -/
def retireDesc (s : State) (q : Nat) (d : Desc) (cs : Nat) : Bool × State :=
  let c := s.q q
  let mark := match c.spans.find? fun x => decide (some x.id = d.span) with
    | some x => x.ended && !x.half && decide ((x.total + 1) / 2 ≤ x.released + d.len)
    | none => false
  let spans := (c.spans.map fun x => if some x.id = d.span then { x with released := x.released + d.len, half := x.half || mark } else x)
  let gone := bit d.flags 4
  (mark, s.modQ q fun c => { c with
    descs := c.descs.filter fun e => decide (e.uid ≠ d.uid)
    hwm := markMax c.hwm (descMark d), descCnt := c.descCnt + 1, bytes := if cs = Cs.done then c.bytes + d.len else c.bytes
    relIdx := if d.fetchFail then c.relIdx else if c.chain then (c.relIdx + 1) % 65536 else (d.index + 1) % 2 ^ c.ringLog2
    spans := if gone then spans.filter fun x => decide (some x.id ≠ d.span) else spans })

/-- A halting queue with nothing left enters HALTED and reports it at once (R285, R289). -/
def haltNow (s : State) (q : Nat) : State := queueIrq (s.modQ q fun c => { c with st := .halted, mirrorWait := false }) q

/-- The halt, once every fetched descriptor is released (R289), after the follower knows (R484). -/
def haltCheck (s : State) (q : Nat) : State :=
  let c := s.q q
  if c.halting ∧ c.st = .active ∧ c.descs = [] ∧ !c.mirrorWait then
    if s.leads c.tenant then
      mirrorHold (s.modQ q fun c => { c with mirrorWait := true }) c.tenant (ctxRec (s.modQ q fun c => { c with st := .halted }) q) (.queueOp q 0) id
    else haltNow s q
  else s

/-- The full entry of the oldest descriptor (R252-R254, R279, R285). -/
def fullEntry (s : State) (q : Nat) (d : Desc) : State :=
  let r := descOutcome d
  let c := s.q q
  let slot := c.cqTail
  let phase := b2n c.phase
  let (mark, s) := retireDesc s q d r.1
  let e := entryBytes d.index r.1 r.2 (s.q q).hwm (phase + 4 * b2n mark) q
  let s := putEntry s q e
  let s := mirrorNote s c.tenant (.release q e slot)
  let s := if bit d.flags 0 ∨ bit d.flags 4 ∨ mark ∨ isFault r.1 then irqEvent s q else s
  fetchNext (haltCheck s q) q

/-- The segments of a descriptor that its half entry covers (R283): offset and end. -/
def halfPieces (d : Desc) : List (Nat × Nat × Nat) := d.done.filter fun x => decide (x.1 < (d.len + 1) / 2)

/-- A half entry is due (R283). -/
def halfDue (d : Desc) : Bool :=
  bit d.flags 1 && !d.halfDone && decide (d.final = none ∧ d.fails = [] ∧ 0 < d.len ∧ d.opcode ≠ 4)
    && d.toPush.all (fun g => decide ((d.len + 1) / 2 ≤ g.off)) && d.inPans.all (fun g => decide ((d.len + 1) / 2 ≤ g.1))

/-- The half entry of the oldest descriptor (R283). -/
def halfEntry (s : State) (q : Nat) (d : Desc) : State :=
  let c := s.q q
  let top := (halfPieces d).foldl (fun m x => max m (x.1 + x.2.1)) 0
  let mark := (halfPieces d).foldl (fun m x => markMax m x.2.2) c.hwm
  let e := entryBytes d.index Cs.done (d.len - top) mark (b2n c.phase + 2) q
  let slot := c.cqTail
  let s := putEntry (modDesc s q d.uid fun d => { d with halfDone := true }) q e
  irqEvent (mirrorNote s c.tenant (.release q e slot)) q

/-- An entry released, half or full (R252, R283). -/
def releaseNow (s : State) (q : Nat) : State :=
  let s := s.modQ q fun c => { c with mirrorWait := false }
  match (s.q q).descs with
  | [] => haltCheck s q
  | d :: _ => if halfDue d then halfEntry s q d else if segsDone d then fullEntry s q d else s

/-- The content of the entry about to be released, for the mirror (R484). -/
def releaseRecOf (s : State) (q : Nat) (d : Desc) : MirrorRec :=
  let r := descOutcome d
  .release q (entryBytes d.index r.1 r.2 (markMax (s.q q).hwm (descMark d)) (b2n (s.q q).phase) q) (s.q q).cqTail

/-- A SETTLE descriptor that has become the oldest starts its fence (R281). -/
def settleStart (s : State) (q : Nat) (d : Desc) : State :=
  let c := s.q q
  let n := if d.settleN = 0 then c.hwm else d.settleN
  if n = 0 then modDesc s q d.uid fun d => { d with final := some (Cs.done, 0) }
  else
    let (n, clamped) := fenceTicket (s.tally c.tenant) n
    let id := s.tal.nextFence
    let s := startFence (modDesc s q d.uid fun d => { d with fence := some id }) c.tenant n clamped none (some (q, d.uid))
    match s.tal.fences.find? fun f => decide (f.id = id) with
    | some f => fenceCheck s f
    | none => s

/-- The queue may write entries: its tenant is led here, its requests may leave (R195, R292, R480). -/
def mayRelease (s : State) (q : Nat) : Bool :=
  let c := s.q q
  decide (c.st = .active ∧ s.ep.link = .l0) && !s.followed c.tenant && !s.cont.dev && !c.mirrorWait
    && ((s.fn (fnOf c.tenant)).busMaster || (s.fn (fnOf c.tenant)).d3hot) && !(s.fn (fnOf c.tenant)).flr

/-- COMPLETION_RELEASE (R252, R281-R283): the oldest descriptor's fence begins, or its half or full entry is written when the ring has room. -/
def completionReleaseEff (s : State) (q : Nat) : State :=
  if !mayRelease s q then s
  else match (s.q q).descs with
    | [] => haltCheck s q
    | d :: _ =>
      if d.opcode = 4 ∧ d.final = none then (if d.fence.isSome then s else settleStart s q d)
      else if !halfDue d && !segsDone d then s
      else if !cqRoom (s.q q) then
        if (s.q q).stalled then s else (s.modQ q fun c => { c with stalled := true }).incReg (0x100074 + 0x100 * q)
      else if s.leads (s.q q).tenant then
        mirrorHold (s.modQ q fun c => { c with mirrorWait := true }) (s.q q).tenant (releaseRecOf s q d) (.release q) id
      else releaseNow s q

/-- COMPLETION_RELEASE (R252). -/
def execCompletionRelease (q : Fin 2048) (s : State) : Host.Outcome State Fault Refusal := .next (completionReleaseEff s q.val)

end Sys2Proof.Machine
end

