-- ==== Sys2Proof/Machine/Pans.lean ====
section
/-! DEFINITION. Pans and beds (R231-R251, R255): pushing segments, starting them, their reads and writes, their end, cancelling and raking. -/

namespace Sys2Proof.Machine

/-! ## Slots -/

/-- Bed and position of a slot, and the slots of a position (R231). -/
def slotBed (k : Nat) : Nat := k / 512
def slotPos (k : Nat) : Nat := k / 32 % 16
def posSlots (b i : Nat) : List Nat := (List.range 32).map fun j => (b * 16 + i) * 32 + j

/-- The occupied slots of a position. -/
def posBusy (s : State) (b i : Nat) : List Nat := (busySlots s).filter fun k => decide (slotBed k = b ∧ slotPos k = i)

/-- Slots that a rake across beds holds free for what is on its way (R249). -/
def posReserved (s : State) (b i : Nat) : Nat :=
  ((s.qs.xrakes.filter fun r => decide (r.1 = 16 * b + i)).map fun r => r.2.length).sum

/-- The free slots of a position. -/
def posFree (s : State) (b i : Nat) : Nat := 32 - (posBusy s b i).length - posReserved s b i

/-- The lowest free slot of a position (the spec names no choice among them). -/
def freeSlotOf (s : State) (b i : Nat) : Option Nat := (posSlots b i).find? fun k => !(s.slot k).busy

/-- The domain of a rack end. -/
def endDomain : Endpt → List Nat
  | .rack t _ _ _ _ _ _ _ => [targetDomain t]
  | _ => []

/-- The domains on which a segment's transfer holds votes: source, target and bed (R89). -/
def slotDomains (s : State) (k : Nat) : List Nat :=
  ((4 + slotBed k) :: (endDomain (s.slot k).src ++ endDomain (s.slot k).dst)).dedup

/-- A segment's transfer votes raised, but on a DISABLED domain (R89, R99). -/
def raiseSlotVotes (s : State) (k : Nat) : State :=
  (slotDomains s k).foldl (fun s d => if domDisabled s d then s else raiseVote s d (xferClient s k)) s

/-- A segment's transfer votes withdrawn (R242). -/
def dropSlotVotes (s : State) (k : Nat) : State := (slotDomains s k).foldl (fun s d => dropVote s d (xferClient s k)) s

/-- A slot freed with its votes. -/
def emptySlot (s : State) (k : Nat) : State := (dropSlotVotes s k).setSlot k (slotInit k)

/-- A PAN_ register (R262), and a 64-bit pair of registers increased. -/
def panReg (p off : Nat) : Nat := 0x180000 + 0x40 * p + off
def addReg64 (s : State) (k n : Nat) : State :=
  let v := (s.reg k).toNat + 0x100000000 * (s.reg (k + 4)).toNat + n
  (s.setReg k (w32 v)).setReg (k + 4) (w32 (v / 0x100000000))

/-- The segment's descriptor is a read-modify-write (R278). -/
def isRmwSlot (s : State) (k : Nat) : Bool :=
  match getDesc s (s.slot k).queue (s.slot k).uid with
  | some d => decide (d.opcode = 3)
  | none => false

/-! ## Pushing -/

/-- The home bed, or the next one upward whose island is not DISABLED (R236, R256). -/
def pushBed (s : State) (b : Nat) : Option Nat := ((List.range 8).map fun i => (b + i) % 8).find? fun b => !bedDead s b

/-- The position for a segment (R237): the pin position, or the one with the fewest occupied slots, first after the last one used. -/
def pushPos (s : State) (c : QCtx) (b : Nat) (pinned : Bool) : Option Nat :=
  if pinned then (if 0 < posFree s b c.pin then some c.pin else none)
  else minBy (((List.range 16).map fun i => (c.lastPos + 1 + i) % 16).filter fun i => !posClosed s b i && decide (0 < posFree s b i))
    fun i => (posBusy s b i).length

/-- A descriptor still has an unpinned segment that is not done. -/
def unpinnedOpen (d : Desc) : Bool := (d.toPush.any fun g => !g.pinned) || d.inPans.any fun g => !g.2.2

/-- The descriptors of which the next segment may be pushed, in order (R237, R246, R281). `open_`: an earlier unpinned segment is not done; `held`: an earlier pinned descriptor is not wholly pushed. -/
def pushable : List Desc → Bool → Bool → List Desc
  | [], _, _ => []
  | d :: r, open_, held =>
    if d.opcode = 4 ∧ d.ordered then []
    else
      let more := fun h => pushable r (open_ || unpinnedOpen d) h
      if d.toPush = [] then more held
      else if d.pinnedAny then (if open_ || held then more true else d :: more true)
      else d :: more held

/-- The tenant's segment cap is reached (R238). -/
def atCap (s : State) (t : Nat) : Bool :=
  decide (quotaOf s.img.segCap t 4096 ≤ ((busySlots s).filter fun k => decide ((s.slot k).tenant = t)).length)

/-- The queue may push and its unstarted segments may start (R191, R195, R480). -/
def mayRun (s : State) (t : Nat) : Bool :=
  !s.tenantStopped t && !s.followed t && !s.handing t && !(s.fn (fnOf t)).d3hot && !(s.fn (fnOf t)).flr

/-- A segment put into a slot, with its votes (R89, R237, R239). -/
def putSegment (s : State) (q b i : Nat) (d : Desc) (g : SegPlan) : State :=
  match freeSlotOf s b i with
  | none => s
  | some k =>
    let (o, s) := newUid s
    let x : Slot := { slotInit k with
      busy := true, queue := q, uid := d.uid, off := g.off, len := g.len, tenant := (s.q q).tenant, src := g.src, dst := g.dst
      pinned := g.pinned, order := o }
    let s := modDesc s q d.uid fun d => { d with toPush := d.toPush.tail, inPans := d.inPans ++ [(g.off, g.len, g.pinned)] }
    let s := if g.pinned then s else s.modQ q fun c => { c with lastPos := i }
    raiseSlotVotes (s.setSlot k x) k

/-- The first of the descriptors whose next segment finds a slot is pushed; an unpinned one that waits holds back those behind it (R237, R246). -/
def pushFirst (s : State) (q b : Nat) : List Desc → State
  | [] => s
  | d :: r => match d.toPush with
    | [] => pushFirst s q b r
    | g :: _ => match pushPos s (s.q q) b g.pinned with
      | some i => putSegment s q b i d g
      | none => if g.pinned then pushFirst s q b r else s

/-- A pinned descriptor that waits for earlier unpinned work is counted once, at its first attempt (R246). -/
def countDeferred (s : State) (q : Nat) : List Desc → Bool → State
  | [], _ => s
  | d :: r, open_ =>
    let s := if d.pinnedAny ∧ open_ ∧ !d.deferred ∧ d.toPush ≠ [] then
        (modDesc s q d.uid fun d => { d with deferred := true }).incReg 0x18800C
      else s
    countDeferred s q r (open_ || unpinnedOpen d)

/-- SEGMENT_PUSH (R237-R239, R246): the front end pushes the next segment of a queue. -/
def segmentPushEff (s : State) (q : Nat) : State :=
  let c := s.q q
  if !decide (c.st = .active) || !mayRun s c.tenant then s
  else
    let s := countDeferred s q c.descs false
    if atCap s c.tenant then s
    else match pushBed s c.bed with
      | some b => pushFirst s q b (pushable c.descs false false)
      | none => s

/-- SEGMENT_PUSH (R237). -/
def execSegmentPush (q : Fin 2048) (s : State) : Host.Outcome State Fault Refusal := .next (segmentPushEff s q.val)

/-! ## Writing -/

/-- The tag range of a host source in whole ENDIAN units (R208, R211). -/
def segSpan (x : Slot) : Nat × Nat :=
  match x.src with
  | .host a en =>
    let u := endianUnit en
    (a - a % u, (a + x.len + u - 1) / u * u - (a - a % u))
  | _ => (0, 0)

/-- The posted write that a segment makes of its first `n` bytes (R235). -/
def segWriteAcc (s : State) (k n : Nat) : Option Acc :=
  let x := s.slot k
  match x.dst with
  | .rack t a sp w en _ _ _ =>
    let (addr, bytes) := endianOut en a ((x.buf.take n).map some)
    some { kind := .write, tenant := x.tenant, target := t, addr := addr, space := sp, width := w, bytes := bytes
           region := targetRegion s t sp (addr + firstSome bytes), ticket := x.ticket, origin := .seg k x.order
           stop := bedStop (slotBed k), endian := 0, cls := 0, mask := 0, value := 0, temp := none }
  | _ => none

/-- A segment write takes its ticket when its first data is sent (R235), or waits in the tenant's order for an entry (R366). -/
def segTicket (s : State) (k : Nat) : State :=
  let x := s.slot k
  if x.ticket ≠ 0 ∨ x.waitEntry then s
  else match segWriteAcc s k x.rd with
    | none => s
    | some a =>
      if (s.tally x.tenant).waiters = [] ∧ entryFree s x.tenant then
        let (n, s) := issueTicket s x.tenant a.target a.space (accFirst a) x.len false
        s.modSlot k fun x => { x with ticket := n }
      else (s.modTally x.tenant fun t => { t with waiters := t.waiters ++ [.seg k] }).modSlot k fun x => { x with waitEntry := true }

/-- The posted write of a segment's bytes leaves for its target stop, after the follower's acknowledgement where the tenant is led (R484). -/
def segSend (s : State) (k : Nat) : State :=
  let x := s.slot k
  match segWriteAcc s k x.rd with
  | none => s
  | some a => mirrorHold (s.modSlot k fun x => { x with sent := true }) x.tenant (.ticket x.tenant x.ticket x.queue (slotIndex s k) x.off)
      (.write a) fun s => sendAcc s a

/-- Bytes for host memory leave as soon as they are in the buffer (R241); a loopback window's ENDIAN exchange needs them all (R208). -/
def flushHost (s : State) (k a en : Nat) : State :=
  let x := s.slot k
  if en % 4 = 0 then
    (hostWrite s x.tenant (a + x.wr) ((x.buf.take x.rd).drop x.wr)).modSlot k fun x => { x with wr := x.rd, sent := decide (x.rd = x.len) }
  else if x.rd = x.len ∨ x.fail.isSome then
    let (addr, bytes) := endianOut en a ((x.buf.take x.rd).map some)
    (hostWriteRuns s x.tenant addr bytes).modSlot k fun x => { x with wr := x.rd, sent := decide (x.rd = x.len) }
  else s

/-- A started segment writes what it can: to host memory as data comes, to the rack in one posted write once its data, or what came before a failure, is in the buffer (R235, R241). A frozen one writes nothing (R195). -/
def slotFlush (s : State) (k : Nat) : State :=
  let x := s.slot k
  if x.frozen ∨ x.rd = 0 ∨ x.sent then s
  else match x.dst with
    | .host a en => if x.wr < x.rd ∧ ((s.fn (fnOf x.tenant)).busMaster || (s.fn (fnOf x.tenant)).d3hot) then flushHost s k a en else s
    | .rack _ _ _ _ _ _ _ _ =>
      let s := segTicket s k
      if (s.slot k).ticket ≠ 0 ∧ (x.rd = x.len ∨ x.fail.isSome) then segSend s k else s
    | .none => s

/-! ## Starting -/

/-- Bytes that a position has requested and not received (R240). -/
def windowUsed (s : State) (b i : Nat) : Nat :=
  ((posBusy s b i).map fun k => if (s.slot k).started ∧ (s.slot k).fail = none then (s.slot k).len - (s.slot k).rd else 0).sum

/-- A segment's unread bytes fit the read window; a FILL reads nothing (R240, R276). -/
def windowFits (s : State) (b i k : Nat) : Bool := decide ((s.slot k).src = .none ∨ windowUsed s b i + (s.slot k).len ≤ 16384)

/-- Every earlier pinned segment of the queue has its data in the buffer and its writes in the ring (R245). -/
def pinnedClear (s : State) (k : Nat) : Bool :=
  !((slotsOf s (s.slot k).queue).any fun j => let y := s.slot j; y.pinned && decide (y.order < (s.slot k).order) && !y.sent && !y.cancelled)

/-- A segment may start (R240, R245). -/
def startable (s : State) (k : Nat) : Bool :=
  let x := s.slot k
  x.busy && !x.started && !x.cancelled && !x.frozen && x.moving.isNone && mayRun s x.tenant && (!x.pinned || pinnedClear s k)

/-- The read of a segment's rack source through LT (R206, R234, R354). -/
def segRead (s : State) (k u : Nat) : Option HeldRead :=
  let x := s.slot k
  match x.src with
  | .rack t a sp w en cl pf _ =>
    let (addr, bytes) := endianOut en a (List.replicate x.len (some 0#8))
    let first := addr + firstSome bytes
    some { uid := u, who := .seg k x.order, tenant := x.tenant, target := t, haddr := a, hlen := x.len, addr := addr, space := sp
           width := w, endian := en, cls := cl, prefetch := pf, region := targetRegion s t sp first, want := bytes.map Option.isSome
           kept := [], asked := [], lines := 0, wideLines := 0, stale := [], stage := .target, res := none, ended := 0
           accepted := s.now, dueOn := [] }
  | _ => none

/-- A rack source is read: one request through LT (R241). -/
def sendSegRead (s : State) (k : Nat) : State :=
  let (u, s) := newUid s
  match segRead s k u with
  | some r => ltArrive (s.modReads fun rs => rs ++ [r]) u
  | none => s

/-- The contiguous bytes between the first and the last that a list holds, an absent one as 0. -/
def runBytes (bs : List (Option Byte)) : List Byte :=
  let l := (bs.drop (firstSome bs)).reverse
  ((l.drop (firstSome l)).reverse).map fun b => b.getD 0#8

/-- The port's personality offers a read-modify-write cycle over the n bytes at an address (R278, R318, R337): P1 of 1, 2 or 4 bytes and P2 of 1 or 2, aligned; P3 with a lock line within one DATA_WIDTH; P4 none. Links offer it. -/
def rmwOffered (s : State) (t addr n : Nat) : Bool :=
  if 2 ≤ t then true
  else
    let tb := portTable s t
    match persKind tb with
    | 1 => decide (n ∈ [1, 2, 4] ∧ addr % n = 0)
    | 2 => decide (n ∈ [1, 2] ∧ addr % n = 0)
    | 3 =>
      let w := byteAt tb 6 / 8
      (roleLine tb 0x96).isSome && decide (addr % w + n ≤ w)
    | _ => false

/-- A read-modify-write is sent to its target (R276, R278): mask and value exchanged with their bytes (R208). -/
def sendRmw (s : State) (k : Nat) : State :=
  let x := s.slot k
  match x.dst, getDesc s x.queue x.uid with
  | .rack t a sp w en cl _ _, some d =>
    let (addr, m) := endianOut en a ((leBytes x.len d.op0).map some)
    let v := (endianOut en a ((leBytes x.len d.op1).map some)).2
    let a : Acc := { kind := .rmw, tenant := x.tenant, target := t, addr := addr + firstSome m, space := sp, width := w
                     bytes := (runBytes m).map fun _ => some 0#8, region := targetRegion s t sp (addr + firstSome m), ticket := 0
                     origin := .seg k x.order, stop := bedStop (slotBed k), endian := 0, cls := cl, mask := leNat (runBytes m)
                     value := leNat (runBytes v), temp := none }
    if t ≤ 1 ∧ s.portCause t = 0 ∧ (s.port t).st = .inService ∧ !rmwOffered s t a.addr a.bytes.length
        ∧ weirAllows s t a.tenant sp a.addr true true then
      failAcc s a Cs.farError a.addr 0 (some { code := Ev.rmwUnsupported, src := srcPort t })
    else sendAcc s a
  | _, _ => s

/-- The next host request of a segment: within one MRRS-aligned block (R241, R172). -/
def segHostRead (s : State) (k : Nat) : State :=
  let x := s.slot k
  let (b, n) := segSpan x
  let a := b + x.buf.length
  match hostRead s x.tenant a (mrrsPiece s x.tenant a (n - x.buf.length)) (.seg k) with
  | some s => s.modSlot k fun x => { x with started := true, readReq := true }
  | none => s.modSlot k fun x => { x with readReq := false }

/-- The bytes of a FILL: byte `a mod 8` of OPERAND0 at destination address a (R276). -/
def fillBytes (pattern a n : Nat) : List Byte := (List.range n).map fun i => BitVec.ofNat 8 (pattern / 2 ^ (8 * ((a + i) % 8)))

/-- A segment starts (R240, R484). -/
def startSlot (s : State) (k : Nat) : State :=
  let x := s.slot k
  let go := fun s => State.modSlot s k fun x => { x with started := true }
  if isRmwSlot s k then
    mirrorHold (go s) x.tenant (.rackRead x.queue (slotIndex s k) x.off) (.slotRead k x.order) fun s => sendRmw s k
  else match x.src with
    | .none =>
      let pat := match getDesc s x.queue x.uid with
        | some d => d.op0
        | none => 0
      slotFlush ((go s).modSlot k fun x => { x with rd := x.len, buf := fillBytes pat ((endAddr x.dst).getD 0) x.len }) k
    | .host _ _ => segHostRead s k
    | .rack _ _ _ _ _ cl _ _ =>
      if cl = 0 then sendSegRead (go s) k
      else mirrorHold (go s) x.tenant (.rackRead x.queue (slotIndex s k) x.off) (.slotRead k x.order) fun s => sendSegRead s k

/-- The oldest of some slots, and the newest. -/
def oldestOf (s : State) (l : List Nat) : Option Nat := minBy l fun k => (s.slot k).order
def newestOf (s : State) (l : List Nat) : Option Nat := minBy l fun k => s.qs.orderNext - (s.slot k).order

/-- SEGMENT_START (R240): a pan starts the oldest startable segment of its position when it fits the read window. -/
def segmentStartEff (s : State) (b i : Nat) : State :=
  if s.cont.dev ∨ !domUp (refreshDom s (4 + b)) (4 + b) then s
  else match oldestOf s ((posBusy s b i).filter fun k => startable s k) with
    | some k => if windowFits s b i k then startSlot s k else s
    | none => s

/-- SEGMENT_START (R240). -/
def execSegmentStart (b : Fin 8) (pos : Fin 16) (s : State) : Host.Outcome State Fault Refusal :=
  .next (segmentStartEff s b.val pos.val)

/-! ## Reading -/

/-- The read of a started segment. -/
def slotReadOf (s : State) (k : Nat) : Option HeldRead := s.reads.find? fun r => decide (r.who = .seg k (s.slot k).order)

/-- A host source's data comes (R241, R286): appended, and exchanged when whole (R208). -/
def segHostData (s : State) (k : Nat) (res : HostEnd) : State :=
  let x := s.slot k
  let (b, n) := segSpan x
  let a := b + x.buf.length
  let fn := fnOf x.tenant
  match tagOf (s.fn fn) (.seg k) with
  | none => if x.buf.length < n ∧ x.fail = none ∧ !x.frozen then segHostRead s k else s
  | some tag =>
    if !resFits res (mrrsPiece s x.tenant a (n - x.buf.length)) then s
    else
      let s := (poisonAer (freeTag s fn tag) fn res).modSlot k fun x => { x with readReq := false }
      if hostCs res ≠ Cs.done then
        let s := match getDesc s x.queue x.uid with
          | some d => queueFaultRec s x.queue d Ev.queueHostError (hostCs res) a
          | none => s
        slotFlush (s.modSlot k fun x => { x with fail := some (hostCs res, a, 0) }) k
      else
        let buf := x.buf ++ hostData res
        let s := match x.src with
          | .host h en =>
            if en % 4 = 0 then s.modSlot k fun x => { x with buf := buf, rd := buf.length }
            else if buf.length = n then
              s.modSlot k fun x => { x with buf := (endianBack en h x.len b (buf.map some)).map fun b => b.getD 0#8, rd := x.len }
            else s.modSlot k fun x => { x with buf := buf }
          | _ => s
        let s := slotFlush s k
        if buf.length < n ∧ !x.frozen then segHostRead s k else s

/-- The bytes before the first that is missing. -/
def prefixBytes : List (Option Byte) → List Byte
  | some b :: r => b :: prefixBytes r
  | _ => []

/-- The failing cycle carried the descriptor's last source bytes (R286, R287). -/
def isLate (s : State) (k : Nat) (r : HeldRead) (e : AccEnd) : Bool :=
  let x := s.slot k
  let last := swapAddr r.endian (r.haddr + x.len - 1)
  match getDesc s x.queue x.uid with
  | some d => decide (e.cs = Cs.farError ∧ x.off + x.len = d.len ∧ e.addr ≤ last ∧ last < e.addr + e.beat)
  | none => false

/-- The record of a segment read's failure that the port or link has left to the queue (R286). -/
def segReadRec (s : State) (k cs addr : Nat) (alone : Bool) : State :=
  let x := s.slot k
  match getDesc s x.queue x.uid with
  | none => s
  | some d =>
    if cs = Cs.lateError then queueFaultRec s x.queue d Ev.lateError cs addr
    else if cs = Cs.farError then queueFaultRec s x.queue d Ev.farError cs addr
    else if cs = Cs.farTimeout ∧ alone then queueFaultRec s x.queue d Ev.farTimeout cs addr
    else s

/-- A rack source's answer reaches the slot (R232, R241, R286, R287). -/
def segRackData (s : State) (k : Nat) : State :=
  match slotReadOf s k with
  | none => s
  | some r => match r.res with
    | none => s
    | some e0 =>
      if !readReady r then s
      else
        let (e, s) := ltReturn s r e0
        let bs := endianBack r.endian r.haddr r.hlen r.addr e.data
        if e.cs = Cs.done then
          slotFlush (s.modSlot k fun x => { x with buf := bs.map fun b => b.getD 0#8, rd := x.len }) k
        else
          let late := isLate s k r e
          let cs := if late then Cs.lateError else e.cs
          let got := if e.cs = Cs.islandAbsent then [] else prefixBytes bs
          let s := segReadRec s k cs e.addr (decide (r.asked = []))
          slotFlush (s.modSlot k fun x => { x with buf := got, rd := got.length, fail := some (cs, e.addr, if late then e.beat else 0) }) k

/-- A read-modify-write's end reaches the pan (R276, R278): the old value is written to SRC, unless the cycle failed. -/
def segRmwData (s : State) (k : Nat) : State :=
  let x := s.slot k
  match x.rackBack with
  | none => s
  | some e =>
    let s := s.modSlot k fun x => { x with rackBack := none, accepted := true, sent := true }
    if e.cs ≠ Cs.done then s.modSlot k fun x => { x with fail := some (e.cs, e.addr, 0) }
    else
      let old := match x.dst with
        | .rack _ a _ _ en _ _ _ =>
          let base := a - a % endianUnit en
          let at_ := (endianOut en a (List.replicate x.len (some 0#8))).2
          (endianBack en a x.len base (List.replicate (firstSome at_) none ++ e.data)).map fun b => b.getD 0#8
        | _ => []
      let s := s.modSlot k fun x => { x with rd := x.len, wr := x.len, buf := old }
      match x.src with
      | .host h _ => hostWrite s x.tenant h old
      | _ => s

/-- SEGMENT_READ_DATA (R232, R241): the answer to a read of the segment in slot `k` comes. -/
def segReadDataEff (s : State) (k : Nat) (res : HostEnd) : State :=
  let x := s.slot k
  if !x.busy ∨ !x.started then s
  else if isRmwSlot s k then (if x.frozen then s else segRmwData s k)
  else match x.src with
    | .host _ _ => segHostData s k res
    | .rack _ _ _ _ _ _ _ _ => segRackData s k
    | .none => s

/-- SEGMENT_READ_DATA (R241). -/
def execSegmentReadData (b : Fin 8) (pos : Fin 16) (slot : Fin 32) (res : HostRes) (s : State) : Host.Outcome State Fault Refusal :=
  .next (segReadDataEff s ((b.val * 16 + pos.val) * 32 + slot.val) (hostEnd res))

/-! ## Done -/

/-- A segment has read and written all, or failed and written what came before (R242, R280). -/
def segFinished (x : Slot) : Bool :=
  x.busy && x.started && !x.frozen && (match x.dst with
    | .host _ _ => decide (x.wr = x.len) || (x.fail.isSome && decide (x.wr = x.rd))
    | .rack _ _ _ _ _ _ _ _ => x.accepted || (x.fail.isSome && decide (x.rd = 0))
    | .none => true)

/-- The unstarted segments of a descriptor are cancelled (R251, R255). -/
def cancelDesc (s : State) (q u : Nat) : State :=
  let s := modDesc s q u fun d => { d with toPush := [] }
  ((slotsOf s q).filter fun k => decide ((s.slot k).uid = u) && !(s.slot k).started).foldl
    (fun s k => s.modSlot k fun x => { x with cancelled := true }) s

/-- A descriptor's account of a segment that has ended with a failure (R255, R286): its queue faults and its unstarted segments are cancelled. -/
def segFault (s : State) (q u off cs addr residual : Nat) : State :=
  match getDesc s q u with
  | none => s
  | some d => cancelDesc (queueFault (modDesc s q u fun d => { d with fails := d.fails ++ [(off, cs, addr, residual)] }) q d cs addr false) q u

/-- A segment's account in its descriptor closed: reported done with its ticket. -/
def segClose (s : State) (k : Nat) : State :=
  let x := s.slot k
  modDesc s x.queue x.uid fun d => { d with
    inPans := dropFirst (fun g => decide (g.1 = x.off)) d.inPans, done := d.done ++ [(x.off, x.len, x.ticket)] }

/-- RESIDUAL of a failed segment (R280, R287). -/
def segResidual (d : Desc) (x : Slot) (cs beat : Nat) : Nat := if cs = Cs.lateError then beat else d.len - (x.off + x.wr)

/-- The half entry of a queue's oldest descriptor, when the segment just done makes it due (R283). -/
def halfNow (s : State) (q : Nat) : State :=
  match (s.q q).descs with
  | d :: _ => if halfDue d then completionReleaseEff s q else s
  | [] => s

/-- SEGMENT_DONE's effect (R242, R255, R283): reported done, slot and votes freed. -/
def segDoneEff (s : State) (k : Nat) : State :=
  let s := slotFlush s k
  let x := s.slot k
  if !segFinished x then s
  else
    let p := servingPan s k
    let s := addReg64 (s.incReg (panReg p 4)) (panReg p 8) x.wr
    let s := mirrorNote s x.tenant (.segDone x.queue (slotIndex s k) x.off)
    let d := getDesc s x.queue x.uid
    let s := emptySlot (segClose s k) k
    let s := match x.fail, d with
      | some f, some d => segFault s x.queue x.uid x.off f.1 f.2.1 (segResidual d x f.1 f.2.2)
      | _, _ => s
    halfNow s x.queue

/-- SEGMENT_DONE (R242). -/
def execSegmentDone (b : Fin 8) (pos : Fin 16) (slot : Fin 32) (s : State) : Host.Outcome State Fault Refusal :=
  .next (segDoneEff s ((b.val * 16 + pos.val) * 32 + slot.val))

/-- SEGMENT_CANCEL (R251): the oldest cancelled segment of a position is dropped, its votes withdrawn. -/
def segCancelEff (s : State) (b i : Nat) : State :=
  match oldestOf s ((posBusy s b i).filter fun k => (s.slot k).cancelled && (s.slot k).moving.isNone) with
  | none => s
  | some k =>
    let x := s.slot k
    emptySlot (modDesc s x.queue x.uid fun d => { d with inPans := dropFirst (fun g => decide (g.1 = x.off)) d.inPans }) k

/-- SEGMENT_CANCEL (R251). -/
def execSegmentCancel (b : Fin 8) (pos : Fin 16) (s : State) : Host.Outcome State Fault Refusal := .next (segCancelEff s b.val pos.val)

/-! ## Staged writes -/

/-- STAGED_WRITE_TICKET (R366, R540): the tenant's oldest waiting write takes the next ticket and goes on its way. -/
def stagedTicketEff (s : State) (t : Nat) : State :=
  if !entryFree s t then s
  else match (s.tally t).waiters with
    | [] => s
    | .window a :: r => ticketWrite (s.modTally t fun q => { q with waiters := r }) a
    | .seg k :: r =>
      if s.cont.dev then s
      else
        let s := s.modTally t fun q => { q with waiters := r }
        match segWriteAcc s k (s.slot k).rd with
        | none => s
        | some a =>
          let (n, s) := issueTicket s t a.target a.space (accFirst a) (s.slot k).len false
          slotFlush (s.modSlot k fun x => { x with ticket := n, waitEntry := false }) k

/-- STAGED_WRITE_TICKET (R540). -/
def execStagedWriteTicket (t : Tenant) (s : State) : Host.Outcome State Fault Refusal := .next (stagedTicketEff s t.val)

/-! ## Raking -/

/-- A segment is rakable (R247). -/
def rakable (s : State) (k : Nat) : Bool :=
  let x := s.slot k
  x.busy && !x.started && !x.pinned && !x.cancelled && x.moving.isNone

/-- The rakable segments of a position; `across` asks for HOME_PREFERRED queues too (R247). -/
def posRakable (s : State) (b i : Nat) (across : Bool) : List Nat :=
  (posBusy s b i).filter fun k => rakable s k && (!across || !(s.q (s.slot k).queue).homeOnly)

/-- The most loaded position of a bed, the lowest on a tie (R248). -/
def donorPos (s : State) (b : Nat) (across : Bool) : Option Nat :=
  minBy ((List.range 16).filter fun i => posRakable s b i across ≠ []) fun i => 512 - (posRakable s b i across).length

/-- A segment moves to another slot (R250): its votes are raised under the new client before the old ones go. -/
def moveSlot (s : State) (k k' : Nat) : State :=
  let (o, s) := newUid s
  let s := s.setSlot k' { s.slot k with order := o, moving := none }
  emptySlot (raiseSlotVotes s k') k

/-- The pan of a position may rake (R247): the position is in service, a slot is free, the read window has room, and nothing of its own may start. -/
def mayRake (s : State) (b i : Nat) : Bool :=
  !s.cont.dev && domUp s (4 + b) && !posClosed s b i && decide (0 < posFree s b i ∧ windowUsed s b i < 16384)
    && !((posBusy s b i).any fun k => startable s k)

/-- RAKE_WITHIN_BED (R247, R248, R250): the pan takes the newest rakable segment of the most loaded position and starts it. -/
def rakeWithinEff (s : State) (b i : Nat) : State :=
  if !mayRake s b i then s
  else match donorPos s b false with
    | none => s
    | some j => match newestOf s (posRakable s b j false), freeSlotOf s b i with
      | some k, some k' =>
        if windowFits s b i k then
          let s := (s.incReg (panReg (servingPan s k') 0x10)).incReg (panReg (servingPan s k) 0x14)
          let s := moveSlot s k k'
          if startable s k' then startSlot s k' else s
        else s
      | _, _ => s

/-- RAKE_WITHIN_BED (R248). -/
def execRakeWithinBed (b : Fin 8) (pos : Fin 16) (s : State) : Host.Outcome State Fault Refusal := .next (rakeWithinEff s b.val pos.val)

/-- A bed's rakable segments: none while its island is not up (R239). -/
def bedRakable (s : State) (b : Nat) : Nat :=
  if domUp s (4 + b) then ((List.range 16).map fun i => (posRakable s b i false).length).sum else 0

/-- RAKE_ADVERTISE (R249): every bed advertises its count, each 128 ns. -/
def execRakeAdvertise (s : State) : Host.Outcome State Fault Refusal :=
  .next ((List.range 8).foldl (fun s b => s.modBed b fun x => { x with advertised := bedRakable s b }) s)

/-- Ring hops between the stops of two beds (R17, R18). -/
def bedHops (a b : Nat) : Nat :=
  let d := if bedStop a ≤ bedStop b then bedStop b - bedStop a else bedStop a - bedStop b
  min d (17 - d)

/-- BED_CTL and PAN_RAKE_CTL (R264, R265). -/
def bedCtl (s : State) (b : Nat) : Nat := (s.reg (0x184014 + 0x100 * b)).toNat
def rakeCtl (s : State) : Nat := (s.reg 0x188000).toNat

/-- The bed that a rake across beds asks (R249): fewest hops, highest count, lowest number. -/
def victimBed (s : State) (b : Nat) : Option Nat :=
  let lo := clampTo 1 255 (bits (rakeCtl s) 7 0)
  minBy ((List.range 8).filter fun v => decide (v ≠ b ∧ lo ≤ (s.bed v).advertised) && bit (bedCtl s v) 0)
    fun v => bedHops b v * 1000 + (512 - (s.bed v).advertised)

/-- Up to `n` segments leave a victim, each the newest of its most loaded position (R249): they are marked as moving. -/
def takeAcross (s : State) (v dest : Nat) : Nat → List Nat × State
  | 0 => ([], s)
  | n + 1 => match donorPos s v true with
    | none => ([], s)
    | some j => match newestOf s (posRakable s v j true) with
      | none => ([], s)
      | some k =>
        let (l, s) := takeAcross (s.modSlot k fun x => { x with moving := some dest }) v dest n
        (k :: l, s)

/-- RAKE_ACROSS_BEDS (R247, R249): a pan with nothing to rake in its bed asks another bed for a batch. -/
def rakeAcrossEff (s : State) (b i : Nat) : State :=
  if !mayRake s b i || (donorPos s b false).isSome || !bit (rakeCtl s) 16 || !bit (bedCtl s b) 1
      || s.qs.xrakes.any (fun r => decide (r.1 = 16 * b + i)) then s
  else match victimBed s b with
    | none => s
    | some v =>
      let room := max 1 ((16384 - windowUsed s b i) / 4096)
      let n := min (min (clampTo 1 8 (bits (rakeCtl s) 11 8)) (posFree s b i)) (min room (((s.bed v).advertised + 1) / 2))
      let (l, s) := if domUp s (4 + v) then takeAcross s v (16 * b + i) n else ([], s)
      if l = [] then s.incReg 0x188014 else s.modQs fun q => { q with xrakes := q.xrakes ++ [(16 * b + i, l)] }

/-- RAKE_ACROSS_BEDS (R249). -/
def execRakeAcrossBeds (b : Fin 8) (pos : Fin 16) (s : State) : Host.Outcome State Fault Refusal := .next (rakeAcrossEff s b.val pos.val)

/-- One segment raked across beds arrives (R249, R250). -/
def xrakeArrive (s : State) (b i k : Nat) : State :=
  if (s.slot k).moving ≠ some (16 * b + i) then s
  else match freeSlotOf s b i with
    | none => s.modSlot k fun x => { x with moving := none }
    | some k' =>
      let s := (s.addReg (panReg (servingPan s k') 0x10) 0x10000).incReg (panReg (servingPan s k) 0x14)
      let s := (s.incReg (0x18400C + 0x100 * b)).incReg (0x184010 + 0x100 * slotBed k)
      let s := moveSlot s k k'
      if startable s k' ∧ !s.cont.dev ∧ domUp s (4 + b) ∧ windowFits s b i k' then startSlot s k' else s

/-- XRAKE_SEGMENTS_ARRIVE (R249, R250): the segments of the outstanding rake arrive and start. -/
def xrakeArriveEff (s : State) (b i : Nat) : State :=
  match s.qs.xrakes.find? fun r => decide (r.1 = 16 * b + i) with
  | none => s
  | some r => r.2.foldl (fun s k => xrakeArrive s b i k) (s.modQs fun q => { q with xrakes := dropFirst (fun r => decide (r.1 = 16 * b + i)) q.xrakes })

/-- XRAKE_SEGMENTS_ARRIVE (R249). -/
def execXrakeSegmentsArrive (b : Fin 8) (pos : Fin 16) (s : State) : Host.Outcome State Fault Refusal :=
  .next (xrakeArriveEff s b.val pos.val)

end Sys2Proof.Machine
end

