-- ==== Sys2Proof/Machine/QueueEnd.lean ====
section
/-! DEFINITION. How queues and their segments end before their time (R256, R290, R291, R199, R128): disable, reset, destroy, and the end of frozen segments. -/

namespace Sys2Proof.Machine

/-- A function's tags in use for `p` are dropped: their answers are discarded on arrival (R256). -/
def dropTags (s : State) (fn : Nat) (p : TagUse → Bool) : State :=
  s.modFn fn fun f => { f with tags := f.tags.map fun t => if p t.2 then (t.1, .drop) else t }

/-- A segment gives up what it waits for: its reads are discarded on arrival, its place among the waiting writes and its unacknowledged mirror record go. A posted write that has its ticket and has not left is sent with the bytes that have come (`cs` none: R256, next beat boundary), or its ticket settles with a CS. -/
def quitSlot (s : State) (k : Nat) (cs : Option Nat) : State :=
  let x := s.slot k
  let s := dropTags s (fnOf x.tenant) fun u => decide (u = .seg k)
  let s := match slotReadOf s k with
    | some r => dropRead s r 1
    | none => s
  let s := (pullAccs s fun a => decide (a.origin = .seg k x.order ∧ a.kind = .rmw)).2
  let s := s.modTally x.tenant fun t => { t with waiters := t.waiters.filter fun w => decide (w ≠ .seg k) }
  let s := s.modTwin fun w => { w with holds := w.holds.filter fun h => decide (h.2.2 ≠ .slotRead k x.order) }
  if x.ticket = 0 ∨ x.sent then s
  else match cs with
    | some c => settle s x.tenant x.ticket c 0 none
    | none => match segWriteAcc s k x.rd with
      | some a => sendAcc s a
      | none => s

/-- A segment of a queue ends: its ticket stays in its descriptor's account (R254). -/
def endSegment (s : State) (k : Nat) (cs : Option Nat) : State :=
  let s := if (s.slot k).started then quitSlot s k cs else s
  emptySlot (segClose s k) k

/-- Every segment of a queue ends (R256). -/
def endSegments (s : State) (q : Nat) (cs : Option Nat) : State := (slotsOf s q).foldl (fun s k => endSegment s k cs) s

/-- The fetch in flight of a queue is dropped. -/
def dropFetch (s : State) (q : Nat) : State :=
  (dropTags s (fnOf (s.q q).tenant) fun u => decide (u = .fetch q ∨ u = .reNext q)).modQ q fun c => { c with fetching := none }

/-- The fences of a queue's SETTLE descriptors end without an answer. -/
def dropQueueFences (s : State) (q : Nat) : State :=
  s.modTal fun x => { x with fences := x.fences.filter fun f => match f.queue with
    | some (p, _) => decide (p ≠ q)
    | none => true }

/-- The entry of a descriptor that a disable, a reset or a device release ends: RESIDUAL is a free value under ABORT_DISABLE and ABORT_RESET (R280). Answers whether it was written: without room it is not (R290). -/
def abortEntry (s : State) (q : Nat) (d : Desc) (cs residual : Nat) : Bool × State :=
  let room := cqRoom (s.q q)
  let phase := b2n (s.q q).phase
  let (mark, s) := retireDesc s q d cs
  if room then (true, putEntry s q (entryBytes d.index cs residual (s.q q).hwm (phase + 4 * b2n mark) q)) else (false, s)

/-- The entries of every unreleased descriptor, in order (R290): those written and those not. -/
def abortAll (s : State) (q cs : Nat) : List Desc → Nat × Nat × State
  | [] => (0, 0, s)
  | d :: r =>
    let (ok, s) := abortEntry s.bump q d cs (Config.freeResidual s.fresh).toNat
    let (a, b, s) := abortAll s q cs r
    (a + b2n ok, b + b2n (!ok), s)

/-- A release whose mirroring had begun takes place (R290). -/
def finishRelease (s : State) (q : Nat) : State :=
  if s.twin.holds.any fun h => decide (h.2.2 = .release q) then
    releaseNow (s.modTwin fun w => { w with holds := w.holds.filter fun h => decide (h.2.2 ≠ .release q) }) q
  else s

/-- The work of a queue ends with a CS and its record (R290, R291). -/
def endQueueWork (s : State) (q cs code : Nat) : State :=
  let s := finishRelease s q
  let s := dropQueueFences (endSegments (dropFetch s q) q none) q
  let (a, b, s) := abortAll s q cs (s.q q).descs
  let s := s.raise { code := code, src := srcHc, tenant := (s.q q).tenant, cs := cs, ticket := (s.q q).hwm
                     data := leBytes 4 q ++ leBytes 4 a ++ leBytes 4 b }
  queueIrq s q

/-- A queue is disabled (R290). -/
def disableNow (s : State) (q : Nat) : State :=
  (endQueueWork s q Cs.abortDisable Ev.queueDisabled).modQ q fun c => { c with st := .disabled, halting := false, mirrorWait := false }

/-- QUEUE_DISABLE's effect (R271, R290, R480): a followed tenant's is recorded. -/
def queueDisableEff (s : State) (q : Nat) : State :=
  let c := s.q q
  if dbDeaf s q then dbIgnored s q
  else if s.followed c.tenant then s.modQ q fun c => { c with disableAsked := true }
  else if c.st = .active ∨ c.st = .halted then
    mirrorHold s c.tenant (ctxRec (s.modQ q fun c => { c with st := .disabled }) q) (.queueOp q 1) fun s => disableNow s q
  else s

/-- QUEUE_DISABLE (R290). -/
def execQueueDisable (fn : Fn) (idx : Nat) (s : State) : Host.Outcome State Fault Refusal := .next (onDoorbell s fn.val idx queueDisableEff)

/-- Work of a queue is in flight (R291). -/
def queueBusy (c : QCtx) : Bool := decide (c.descs ≠ []) || c.fetching.isSome

/-- A context after QUEUE_RESET (R291): ACTIVE and idle, QCX_HWM kept. -/
def resetCtx (c : QCtx) : QCtx :=
  { c with st := .active, head := 0, tail := 0, relIdx := 0, cqTail := 0, cqHead := 0, phase := true, chainCount := 0, faultCs := 0
           faultAddr := 0, faultDesc := 0, started := false, parked := false, owed := false, fetching := none, descs := []
           halting := false, stalled := false, spans := [], needReset := false, mirrorWait := false, disableAsked := false }

/-- QUEUE_RESET and QUEUE_DESTROY take their steps (R291). -/
def resetNow (s : State) (mb q : Nat) (destroy : Bool) : State :=
  let s := s.modQ q fun c => { c with st := .resetting }
  let s := if queueBusy (s.q q) then endQueueWork s q Cs.abortReset Ev.queueReset else s
  let s := s.modQ q resetCtx
  let s := if destroy then ((s.setQ q (qctxInit q)).setReg (0x100070 + 0x100 * q) 0).setReg (0x100074 + 0x100 * q) 0 else s
  done s mb []

/-- QUEUE_RESET and QUEUE_DESTROY (R291, R480, R484). -/
def queueResetEff (destroy : Bool) (s : State) (mb : Nat) (c : Cmd) : State :=
  let q := wordAt c.payload 0
  let t := (s.q q).tenant
  if (s.q q).st = .free then reject s mb (if mbTenant mb = 0 then Rej.badParam else Rej.notOwner)
  else if !ownsObject mb t then reject s mb Rej.notOwner
  else if s.followed t then refuse s mb 9 (partnerRank s)
  else if s.leads t then
    let after := if destroy then s.setQ q (qctxInit q) else s.modQ q resetCtx
    mirrorHold (s.modQ q fun c => { c with st := .resetting }) t (ctxRec after q) (.cmd mb q) id
  else resetNow s mb q destroy

/-- QUEUE_RESET (R291). -/
def execQueueReset (s : State) : Host.Outcome State Fault Refusal := runCmd 0x0402 s (queueResetEff false)

/-- QUEUE_DESTROY (R291). -/
def execQueueDestroy (s : State) : Host.Outcome State Fault Refusal := runCmd 0x0401 s (queueResetEff true)

/-! ## Device release -/

/-- A descriptor has begun: one of its segments has been started, or has ended. -/
def descBegun (s : State) (q : Nat) (d : Desc) : Bool :=
  decide (d.done ≠ [] ∨ d.fails ≠ []) || d.final.isSome || (slotsOf s q).any fun k => (s.slot k).started && decide ((s.slot k).uid = d.uid)

/-- The queues that hold a frozen segment (R199). -/
def frozenQueues (s : State) : List Nat := (((busySlots s).filter fun k => (s.slot k).frozen).map fun k => (s.slot k).queue).dedup

/-- The entry that step 1 of R199 writes for a descriptor that had begun: its own ending where it had run to it, else CONTAINED with the residual that its lowest unwritten byte gives (R280). -/
def containedEntry (s : State) (q : Nat) (d : Desc) (low : Nat) : State :=
  if d.final.isSome ∨ (segsDone d ∧ d.opcode ≠ 4) then
    let r := descOutcome d
    (abortEntry s q d r.1 r.2).2
  else (abortEntry s q d Cs.contained (d.len - low)).2

/-- The lowest byte of a descriptor that its unfinished segments have not written. -/
def lowUnwritten (s : State) (q : Nat) (d : Desc) : Nat :=
  let open_ := ((slotsOf s q).filter fun k => decide ((s.slot k).uid = d.uid)).map fun k => (s.slot k).off + (s.slot k).wr
  (open_ ++ d.toPush.map fun g => g.off).foldl min d.len

/-- Step 1 of R199 for one queue: the descriptors that have begun end in order, those that have not are left in their ring with HEAD before them, and the queue is HALTED until QUEUE_RESET. Answers how many ended. A relinquished tenant's descriptors end without entries (R495). -/
def releaseQueue (s : State) (q : Nat) : Nat × State :=
  let quiet := s.followed (s.q q).tenant
  let ds := (s.q q).descs.map fun d => (d, lowUnwritten s q d, descBegun s q d)
  let s := dropQueueFences (endSegments (dropFetch s q) q (some Cs.contained)) q
  if quiet then (ds.length, s.modQ q fun c => { c with descs := [] })
  else
    let ended := ds.takeWhile fun x => x.2.2
    let left := ds.dropWhile fun x => x.2.2
    let s := ended.foldl (fun s x => containedEntry s q x.1 x.2.1) s
    let s := s.modQ q fun c => { c with
      descs := [], st := .halted, halting := false, needReset := true, faultCs := Cs.contained, mirrorWait := false
      head := match left with
        | [] => c.head
        | x :: _ => if c.chain then c.head else x.1.index }
    (ended.length, s)

/-- Step 1 of R199: every frozen segment ends; the number of descriptors ended is CONTAIN_RELEASE's count (R536). -/
def releaseFrozen (s : State) : Nat × State :=
  (frozenQueues s).foldl (fun (acc : Nat × State) q => let (n, s) := releaseQueue acc.2 q; (acc.1 + n, s)) (0, s)

end Sys2Proof.Machine
end

