-- ==== Sys2Proof/Machine/HarvestCmd.lean ====
section
/-! DEFINITION. The harvest and flood commands (R378-R383, R390, R391, R404-R408, R412): schedules, point entries, routes, starting and stopping. -/

namespace Sys2Proof.Machine

/-! ## Form of the payloads -/

/-- The payload of HARVEST_CREATE (R379, R183). A HALF_SIZE of 0 is left to R381 reason 1. -/
def harvestCreateParam (p : List Byte) : Bool :=
  let w := wordAt p 0
  let period := wordAt p 4
  let lead := field p 0x1C 2
  decide (w &&& 0x8000FC80 = 0) && decide (w % 128 ≤ 64) && vecAssignable (fnOf (w % 128)) (bits w 23 16)
    && decide (bits w 30 24 = 0 ∨ (50 ≤ bits w 30 24 ∧ bits w 30 24 ≤ 100))
    && decide (50 ≤ period ∧ period ≤ 10000000 ∧ wordAt p 8 < period ∧ wordAt p 0xC ≤ 16384)
    && decide (wordAt p 0x18 % 64 = 0 ∧ wordAt p 0x18 ≤ 0x1000000)
    && decide (lead = 0 ∨ (10 ≤ lead ∧ lead ≤ 1000 ∧ lead < period)) && decide (field p 0x1E 2 = 0)

/-- The payload of FLOOD_CREATE (R380). -/
def floodCreateParam (p : List Byte) : Bool :=
  decide (wordAt p 0 < 8 ∧ wordAt p 4 ≤ 16384 ∧ wordAt p 0x10 % 8 = 0 ∧ wordAt p 0x10 ≤ 0x1000000)
    && decide (wordAt p 0x14 = 0 ∧ wordAt p 0x18 = 0 ∧ wordAt p 0x1C = 0)

/-- One entry of a HARVEST_POINTS payload (R383). -/
def pointOk (e : List Byte) (flood : Bool) : Bool :=
  let w0 := wordAt e 0
  let w1 := wordAt e 4
  let w7 := wordAt e 0x1C
  let width := 8 * 2 ^ bits w0 17 16
  let enc := bits w0 22 20
  let scale := bits w0 25 24
  let dfmt := bits w0 31 28
  let fw := bits w1 13 8
  let mul := wordAt e 0x14
  decide (w0 &&& 0x0C8CC0F8 = 0 ∧ w1 &&& 0xFFE0C0C0 = 0 ∧ w7 &&& 0xF8 = 0)
    && decide (bits w0 2 0 ≤ 5 ∧ enc ≤ 5 ∧ scale ≤ 2 ∧ dfmt ≤ 9 ∧ 1 ≤ fw ∧ fw ≤ 32 ∧ bits w7 1 0 ≤ 2)
    && decide (bits w1 5 0 + fw ≤ width) && decide (enc = 4 → fw % 4 = 0)
    && decide (scale = 2 → dfmt = 7) && decide (dfmt = 8 → scale = 0)
    && decide (scale = 2 → f32Finite mul ∧ f32Finite (wordAt e 0x18))
    && decide (flood = true → mul ≠ 0 ∧ (scale = 2 → mul ≠ 0x80000000))

/-- The payload of HARVEST_POINTS (R382, R383), but for the list's capacity. -/
def harvestPointsParam (p : List Byte) : Bool :=
  let n := field p 6 2
  decide (wordAt p 0 &&& 0xFFFFFEF8 = 0 ∧ 1 ≤ n ∧ n ≤ 126 ∧ p.length = 8 + 32 * n)
    && (List.range n).all fun i => pointOk (slice p (8 + 32 * i) 32) (bit (wordAt p 0) 8)

/-- The payloads of HARVEST_START and HARVEST_STOP (R406, R408), and of HARVEST_GET (R412). -/
def harvestStartParam (p : List Byte) : Bool := decide (wordAt p 0 &&& 0xFFFFFEF8 = 0)
def harvestGetParam (p : List Byte) : Bool := decide (wordAt p 0 < 8)

/-- The payload of ROUTE_SET (R390): the frame's fields count where TUNNEL is set. -/
def routeSetParam (p : List Byte) : Bool :=
  let w1 := wordAt p 4
  decide (wordAt p 0 &&& 0xFFFEC0FE = 0 ∧ w1 &&& 0xFFF0E000 = 0 ∧ wordAt p 8 &&& 0xF000 = 0 ∧ wordAt p 12 = 0)
    && decide (bit (wordAt p 0) 16 = true → 4 ≤ bits w1 12 0 ∧ bits w1 12 0 ≤ 4096)

/-! ## Creation -/

/-- The runs of point entries that schedules hold, as (first, capacity) (R382). -/
def entryRuns (s : State) : List (Nat × Nat) :=
  ((List.range 8).filter fun h => decide ((s.sched h).st ≠ .free)).flatMap fun h =>
    let x := s.sched h
    (x.hFirst, x.hCap) :: (if x.hasFlood then [(x.fFirst, x.fCap)] else [])

/-- The lowest contiguous run of `n` free entries among the 16,384 (R381 reason 3). -/
def freeRun (s : State) (n : Nat) : Option Nat :=
  let rs := entryRuns s
  let starts := (0 :: rs.map fun r => r.1 + r.2).filter fun f =>
    decide (f + n ≤ 16384) && !(rs.any fun r => decide (0 < n ∧ 0 < r.2 ∧ f < r.1 + r.2 ∧ r.1 < f + n))
  minBy starts fun f => f

/-- Entries that a tenant's schedules hold. -/
def pointsOf (s : State) (t : Nat) : Nat :=
  (((List.range 8).filter fun h => decide ((s.sched h).st ≠ .free ∧ (s.sched h).tenant = t)).map fun h =>
    (s.sched h).hCap + (if (s.sched h).hasFlood then (s.sched h).fCap else 0)).sum

/-- The tenant's point quota (R378). -/
def pointQuota (s : State) (t : Nat) : Nat := quotaOf s.img.pointQuota t (if t = 0 then 16384 else 0)

/-- `n` entries for a tenant, within its quota. -/
def takeRun (s : State) (t n : Nat) : Option Nat := if pointsOf s t + n ≤ pointQuota s t then freeRun s n else none

/-- The entries of a run made unloaded and empty. -/
def clearEntries (s : State) (first n : Nat) : State :=
  s.modHar fun x => { x with
    pt := Tbl.clear (fun k => decide (8 * first ≤ k ∧ k < 8 * (first + n))) x.pt
    loaded := Tbl.clear (fun k => decide (first ≤ k ∧ k < first + n)) x.loaded
    ptSt := Tbl.clear (fun k => decide (first ≤ k ∧ k < first + n)) x.ptSt }

/-- The schedule that HARVEST_CREATE makes (R379): LEAD and FILL of 0 take their defaults. -/
def newSched (p : List Byte) (first : Nat) : Sched :=
  let w := wordAt p 0
  let period := wordAt p 4
  let lead := field p 0x1C 2
  { schedInit 0 with
    st := .stopped, tenant := w % 128, irqMode := bits w 9 8, vec := bits w 23 16
    fill := if bits w 30 24 = 0 then 80 else bits w 30 24
    period := period, phase := wordAt p 8, lead := if lead = 0 then (if period ≤ 100 then period / 2 else 50) else lead
    hFirst := first, hCap := wordAt p 0xC, image := field p 0x10 8, half := wordAt p 0x18 }

/-- HARVEST_CREATE's effect (R379, R381). -/
def harvestCreateEff (s : State) (mb : Nat) (c : Cmd) : State :=
  let p := c.payload
  let t := wordAt p 0 % 128
  if !ownsObject mb t then reject s mb Rej.notOwner
  else if wordAt p 0x18 = 0 then refuse s mb 1 0
  else if field p 0x10 8 % 64 ≠ 0 then refuse s mb 2 0
  else match (List.range 8).find? fun h => decide ((s.sched h).st = .free), takeRun s t (wordAt p 0xC) with
    | some h, some f => done ((clearEntries s f (wordAt p 0xC)).setSched h (newSched p f)) mb (leBytes 4 h)
    | _, _ => refuse s mb 3 0

/-- HARVEST_CREATE (R379). -/
def execHarvestCreate (s : State) : Host.Outcome State Fault Refusal := runCmd 0x0600 s harvestCreateEff

/-- FLOOD_CREATE's effect (R380, R381). -/
def floodCreateEff (s : State) (mb : Nat) (c : Cmd) : State :=
  let p := c.payload
  let h := wordAt p 0
  let x := s.sched h
  let n := wordAt p 4
  if !ownsObject mb x.tenant then reject s mb Rej.notOwner
  else if n = 0 ∨ wordAt p 0x10 = 0 then refuse s mb 1 h
  else if field p 8 8 % 64 ≠ 0 then refuse s mb 2 h
  else match takeRun s x.tenant n with
    | none => refuse s mb 3 h
    | some f =>
      if x.st ≠ .stopped then refuse s mb 4 h
      else if x.hasFlood then refuse s mb 11 h
      else done ((clearEntries s f n).modSched h fun x => { x with
        hasFlood := true, fFirst := f, fCap := n, outBase := field p 8 8, outSize := wordAt p 0x10 }) mb []

/-- FLOOD_CREATE (R380). -/
def execFloodCreate (s : State) : Host.Outcome State Fault Refusal := runCmd 0x0605 s floodCreateEff

/-- One entry stored (R382, R383). -/
def storeEntry (s : State) (e : Nat) (b : List Byte) : State :=
  (List.range 8).foldl (fun s i => s.modHar fun x => { x with pt := x.pt.set (fun _ => 0#32) (e * 8 + i) (w32 (wordAt b (4 * i))) })
    (s.modHar fun x => { x with loaded := x.loaded.set (fun _ => false) e true })

/-- HARVEST_POINTS' effect (R381, R382). -/
def harvestPointsEff (s : State) (mb : Nat) (c : Cmd) : State :=
  let p := c.payload
  let h := wordAt p 0 % 8
  let x := s.sched h
  let flood := bit (wordAt p 0) 8
  let first := field p 4 2
  let n := field p 6 2
  let cap := if flood then (if x.hasFlood then x.fCap else 0) else x.hCap
  if !ownsObject mb x.tenant then reject s mb Rej.notOwner
  else if cap < first + n then reject s mb Rej.badParam
  else if x.st ≠ .stopped then refuse s mb 4 h
  else
    let base := (if flood then x.fFirst else x.hFirst) + first
    done ((List.range n).foldl (fun s i => storeEntry s (base + i) (slice p (8 + 32 * i) 32)) s) mb []

/-- HARVEST_POINTS (R382). -/
def execHarvestPoints (s : State) : Host.Outcome State Fault Refusal := runCmd 0x0601 s harvestPointsEff

/-! ## Starting -/

/-- The size of a point's slot and its alignment (R387, R391). -/
def slotSize (s : State) (e : Nat) : Nat × Nat :=
  if isFrame s e then (4 + (maxFrame s e + 3) / 4 * 4, 4)
  else
    let n := [1, 1, 2, 2, 4, 4, 8, 4, ptWidth s e, 0].getD (ptDfmt s e) 0
    (n, n)

/-- VALUES_BASE of a list of `n` points (R392). -/
def valuesBase (n : Nat) : Nat := 0x40 + 16 * ((n + 63) / 64)

/-- The slot of entry `e` lies well in `[lo, hi)` and apart from the other slots of its list (R381 reason 10). -/
def layoutOk (s : State) (es : List Nat) (e lo hi : Nat) : Bool :=
  let (n, al) := slotSize s e
  let o := ptOffset s e
  decide (0 < n ∧ o % al = 0 ∧ lo ≤ o ∧ o + n ≤ hi)
    && es.all fun f => decide (f = e) || decide (ptOffset s f + (slotSize s f).1 ≤ o ∨ o + n ≤ ptOffset s f)

/-- WIDTH and SPACE are offered by the port's personality, single cycles only under P1 (R381 reason 12). -/
def pointOffered (s : State) (e : Nat) : Bool :=
  let k := ptTarget s e
  decide (2 ≤ k) || (widthOffered s k (ptSpace s e) (bits (ptWord s e 0) 17 16) && decide (0 < spaceWidth s k (ptSpace s e))
    && (decide (persKind (persT s k) ≠ 1) || !(isBlt (ptSpace s e) || isMblt (ptSpace s e))))

/-- The reason of R381 for which a point refuses HARVEST_START, 0 for none (R406 check 1). -/
def pointRefusal (s : State) (h e : Nat) (flood : Bool) (es : List Nat) : Nat :=
  let x := s.sched h
  if targetAbsent s (ptTarget s e) then 6
  else if !weirAllows s (ptTarget s e) x.tenant (ptSpace s e) (ptAddr s e) (!flood) flood then 7
  else if !Tbl.get (fun _ => false) s.har.loaded e then 9
  else if !(if flood then layoutOk s es e 0 x.outSize else layoutOk s es e (valuesBase x.hCap) x.half) then 10
  else if !pointOffered s e then 12
  else 0

/-- The first point refused: its reason and DETAIL (R381, R406), the harvest list before the flood list. -/
def firstRefusal (s : State) (h : Nat) : Option (Nat × Nat) :=
  let x := s.sched h
  let hs := harvestEntries x
  let fs := floodEntries x
  let bad := fun (flood : Bool) (es : List Nat) (first : Nat) => es.findSome? fun e =>
    let why := pointRefusal s h e flood es
    if why = 0 then none else some (why, e - first + 65536 * b2n flood)
  (bad false hs x.hFirst).or (bad true fs x.fFirst)

/-- The entries of a schedule that a cycle accesses. -/
def schedEntries (x : Sched) : List Nat := harvestEntries x ++ floodEntries x

/-- The schedule whose budget fails with `h` added: `h` first, then the running ones in order (R406 check 2). -/
def failingSched (s : State) (h : Nat) : Option Nat :=
  let run := runningScheds s ++ [h]
  (h :: runningScheds s).find? fun g => !feasible s g (budgetOf s run g).1

/-- The 16 bytes that HARVEST_START answers with (R406). -/
def startBytes (s : State) (h : Nat) : List Byte :=
  let (b, k) := budgetOf s (runningScheds s ++ [h]) h
  let cold := ((schedEntries (s.sched h)).filter fun e => (ptUnit s e).2).length
  bytesOfWords [b, loadOf s h b, k + 65536 * cold, (failingSched s h).getD 0xFFFFFFFF]

/-- The domains that a schedule reads or writes (R89). -/
def schedDomains (s : State) (h : Nat) : List Nat := ((schedEntries (s.sched h)).map fun e => targetDomain (ptTarget s e)).dedup

/-- A schedule's points forget their references and their failures (R389, R402). -/
def freshPoints (s : State) (h : Nat) : State := (schedEntries (s.sched h)).foldl (fun s e => s.setPtSt e (ptInit e)) s

/-- The address of a schedule's generation word (R392). -/
def genAddr (x : Sched) : Nat := x.image + 2 * x.half

/-- A schedule starts (R406): votes, generation 0, RUNNING; the budgets of the others are recomputed with it. -/
def startSched (s : State) (h : Nat) (force : Bool) : State :=
  let b := (budgetOf s (runningScheds s ++ [h]) h).1
  let others := runningScheds s
  let s := (schedDomains s h).foldl (fun s d => raiseVote s d Client.harvest) (freshPoints s h)
  let s := s.modSched h fun x => { x with
    st := .running, gen := 0, missed := 0, missRun := true, missIrq := false, durMax := 0, skipping := false
    startedAt := s.now, cycle := none, flood := none, budget := b, load := loadOf s h b, atRisk := force
    infeasible := decide (us x.period < b) }
  others.foldl applyBudget (hostWrite s (s.sched h).tenant (genAddr (s.sched h)) (leBytes 8 0))

/-- HARVEST_START's effect (R406, R480). -/
def harvestStartEff (s : State) (mb : Nat) (c : Cmd) : State :=
  let h := wordAt c.payload 0 % 8
  let force := bit (wordAt c.payload 0) 8
  let x := s.sched h
  if !ownsObject mb x.tenant then reject s mb Rej.notOwner
  else if x.st = .free then reject s mb Rej.badParam
  else if x.st = .running then refuse s mb 4 h
  else if s.followed x.tenant then refuse s mb 9 (partnerRank s)
  else match firstRefusal s h with
    | some (why, detail) => refuse s mb why detail
    | none => match failingSched s h with
      | some g => if force then done (startSched s h true) mb (startBytes s h) else respond s mb 1 0 8 g (startBytes s h)
      | none => done (startSched s h false) mb (startBytes s h)

/-- HARVEST_START (R406). -/
def execHarvestStart (s : State) : Host.Outcome State Fault Refusal := runCmd 0x0602 s harvestStartEff

/-! ## Stopping -/

/-- The harvest scheduler's votes for a schedule are withdrawn, but on the domains that another running schedule uses (R89, R408). -/
def dropHarvestVotes (s : State) (h : Nat) : State :=
  let others := ((runningScheds s).filter fun g => decide (g ≠ h)).flatMap (schedDomains s)
  ((schedDomains s h).filter fun d => decide (d ∉ others)).foldl (fun s d => dropVote s d Client.harvest) s

/-- A schedule stops at once (R408). -/
def stopSched (s : State) (h : Nat) : State :=
  if (s.sched h).st = .running then
    (dropHarvestVotes (endCycle s h) h).modSched h fun x => { x with st := .stopped, cycle := none, flood := none }
  else s

/-- A schedule stops and is freed with its entries (R408). -/
def freeSched (s : State) (h : Nat) : State :=
  let s := stopSched s h
  let x := s.sched h
  let s := clearEntries s x.hFirst x.hCap
  let s := if x.hasFlood then clearEntries s x.fFirst x.fCap else s
  s.setSched h (schedInit h)

/-- HARVEST_STOP's effect (R408). -/
def harvestStopEff (free : Bool) (s : State) (mb : Nat) (c : Cmd) : State :=
  let h := wordAt c.payload 0 % 8
  if bit (wordAt c.payload 0) 8 ≠ free then s
  else if !ownsObject mb (s.sched h).tenant then reject s mb Rej.notOwner
  else if (s.sched h).st = .free then reject s mb Rej.badParam
  else done (if free then freeSched s h else stopSched s h) mb []

/-- HARVEST_STOP (R408). -/
def execHarvestStop (s : State) : Host.Outcome State Fault Refusal := runCmd 0x0603 s (harvestStopEff false)

/-- HARVEST_STOP_FREE: HARVEST_STOP with FREE (R408). -/
def execHarvestStopFree (s : State) : Host.Outcome State Fault Refusal := runCmd 0x0603 s (harvestStopEff true)

/-! ## Registers and routes -/

/-- A running schedule that takes no starts: its owner or the device is contained, its function is in D3hot or may not master the bus (R378, R409). -/
def schedHeld (s : State) (h : Nat) : Bool :=
  let t := (s.sched h).tenant
  decide ((s.sched h).st = .running) && (s.tenantStopped t || (s.fn (fnOf t)).d3hot || !(s.fn (fnOf t)).busMaster)

/-- The state code of a schedule (R412). -/
def schedCode (s : State) (h : Nat) : Nat :=
  match (s.sched h).st with
  | .free => 0
  | .stopped => 1
  | .running => if schedHeld s h then 3 else 2

/-- Words +0x00 to +0x3C of a schedule block (R412). -/
def schedWords (s : State) (h : Nat) : List Nat :=
  let x := s.sched h
  [schedCode s h + 16 * b2n x.hasFlood + 32 * b2n x.atRisk + 64 * b2n x.infeasible + 256 * x.vec + 65536 * x.irqMode + 16777216 * x.tenant,
   x.period, x.phase, x.lead + 16777216 * x.fill, x.hFirst + 65536 * x.hCap, x.fFirst + 65536 * x.fCap, x.budget, x.load % 65536,
   x.gen % 2 ^ 32, x.gen / 2 ^ 32, x.lastStart % 2 ^ 32, x.lastStart / 2 ^ 32, x.missed, x.lastDur,
   x.lastFail + 65536 * x.lastCs, x.firstFail]

/-- HARVEST_GET's effect (R412). -/
def harvestGetEff (s : State) (mb : Nat) (c : Cmd) : State :=
  let h := wordAt c.payload 0
  if !ownsObject mb (s.sched h).tenant then reject s mb Rej.notOwner else done s mb (bytesOfWords (schedWords s h))

/-- HARVEST_GET (R412). -/
def execHarvestGet (s : State) : Host.Outcome State Fault Refusal := runCmd 0x0604 s harvestGetEff

/-- The largest contiguous run of free entries. -/
def largestRun (s : State) : Nat :=
  let rs := (entryRuns s).filter fun r => decide (0 < r.2)
  ((0 :: rs.map fun r => r.1 + r.2).map fun f =>
    (rs.filter fun r => decide (f ≤ r.1)).foldl (fun m r => min m (r.1 - f)) (16384 - f)).foldl max 0

/-- The word at an offset of the harvest block from 0x30_0000 that no register table holds (R411, R412). -/
def harWord (s : State) (off : Nat) : Nat :=
  if off < 0x800 then
    let o := off % 0x100
    if o < 0x40 then nth (schedWords s (off / 0x100)) (o / 4) 0
    else if o = 0x54 then (s.sched (off / 0x100)).durMax else (s.reg (0x300000 + off)).toNat
  else if off = 0x820 then 16384 - ((entryRuns s).map fun r => r.2).sum + 65536 * largestRun s
  else if 0x1000 ≤ off ∧ off < 0x1800 then
    routeWord s ((off - 0x1000) / 0x400) (off % 0x400 / 0x10) (off % 0x10 / 4)
  else if 0x10000 ≤ off ∧ off < 0x90000 then ptWord s ((off - 0x10000) / 32) (off % 32 / 4)
  else (s.reg (0x300000 + off)).toNat

/-- A running schedule has a point in a port's region (R381 reason 5). -/
def routeInUse (s : State) (p r : Nat) : Bool :=
  (runningScheds s).any fun h => (schedEntries (s.sched h)).any fun e => decide (ptTarget s e = p) && decide (ptRegion s e = r)

/-- ROUTE_SET's effect (R390). -/
def routeSetEff (s : State) (mb : Nat) (c : Cmd) : State :=
  let p := wordAt c.payload 0 % 2
  let r := bits (wordAt c.payload 0) 13 8
  if routeInUse s p r then refuse s mb 5 0
  else done (s.modHar fun x => { x with routes := x.routes.set routeInit (p * 64 + r) ((wordsOf c.payload 4).map w32) }) mb []

/-- ROUTE_SET (R390). -/
def execRouteSet (s : State) : Host.Outcome State Fault Refusal := runCmd 0x0606 s routeSetEff

/-- HAR_ALLOW_WRITE's effect: HAR_ALLOW_A and B (index 0, 1) and HAR_LINK_ALLOW (2-5), clamped to their ranges (R411, R534); the running schedules' budgets are recomputed (R407). -/
def harAllowEff (s : State) (i v : Nat) : State :=
  if i < 2 then recheckBudgets (s.setReg (0x300800 + 4 * i) (w32 (clampTo 1 1000 v)))
  else recheckBudgets (s.setReg (0x300810 + 4 * (i - 2)) (w32 (clampTo 100 1000000 v)))

/-- HAR_ALLOW_WRITE (R407). -/
def execHarAllowWrite (i : Fin 6) (v : Word) (s : State) : Host.Outcome State Fault Refusal := .next (harAllowEff s i.val v.toNat)

end Sys2Proof.Machine
end

