-- ==== Sys2Proof/Machine/HarvestConv.lean ====
section
/-! DEFINITION. The field maps (R384-R389): raw values, decoding, scaling, formats, and the reverse for flood points. -/

namespace Sys2Proof.Machine

/-- The lowest address of a port's cycle is on its highest byte lane: under P1 (the worked example of R216: bytes 33 44 are the word 0x3344), and under P3 and P4 with BIG_ENDIAN (R329). -/
def laneBigEndian (s : State) (k : Nat) : Bool :=
  let t := persT s k
  decide (k ≤ 1) && (decide (persKind t = 1) || (decide (persKind t = 3 ∨ persKind t = 4) && persBigEndian t))

/-- The raw value of a cycle's data, given from its lowest address (R384). -/
def rawOf (big : Bool) (d : List Byte) : Nat := if big then leNat d.reverse else leNat d

/-- A raw value of `w` bytes as cycle data, from its lowest address. -/
def rawBytes (big : Bool) (w n : Nat) : List Byte := if big then (leBytes w n).reverse else leBytes w n

/-- Packed decimal digits as a number; none where a digit is above 9 (R385). -/
def bcdOf : Nat → Nat → Option Nat
  | 0, _ => some 0
  | k + 1, f => if 9 < f % 16 then none else (bcdOf k (f / 16)).map fun n => f % 16 + 10 * n

/-- A number as packed decimal digits. -/
def bcdTo : Nat → Nat → Nat
  | 0, _ => 0
  | k + 1, n => n % 10 + 16 * bcdTo k (n / 10)

/-- Reflected binary Gray code as a number: each bit is the parity of the bits from it up. -/
def grayOf : Nat → Nat → Nat
  | 0, _ => 0
  | k + 1, f => f ^^^ grayOf k (f / 2)

/-- A field decoded to v; none for a bad value (R385). -/
def decodeField (enc fw f : Nat) : Option Int :=
  match enc with
  | 0 => some f
  | 1 => some (signed fw f)
  | 2 => some ((f : Int) - 2 ^ (fw - 1))
  | 3 => let m : Int := f % 2 ^ (fw - 1)
         some (if bit f (fw - 1) then -m else m)
  | 4 => (bcdOf (fw / 4) f).map fun n => (n : Int)
  | _ => some (grayOf fw f)

/-- The least and the greatest value that a field holds (R385, R388). -/
def fieldRange (enc fw : Nat) : Int × Int :=
  match enc with
  | 0 | 5 => (0, 2 ^ fw - 1)
  | 1 | 2 => (-(2 ^ (fw - 1)), 2 ^ (fw - 1) - 1)
  | 3 => (-(2 ^ (fw - 1) - 1), 2 ^ (fw - 1) - 1)
  | _ => (0, 10 ^ (fw / 4) - 1)

/-- v encoded into a field that can hold it (R388). -/
def encodeField (enc fw : Nat) (v : Int) : Nat :=
  match enc with
  | 0 => v.toNat
  | 1 => unsign fw v
  | 2 => (v + 2 ^ (fw - 1)).toNat
  | 3 => v.natAbs + (if v < 0 then 2 ^ (fw - 1) else 0)
  | 4 => bcdTo (fw / 4) v.toNat
  | _ => v.toNat ^^^ (v.toNat / 2)

/-- An integer clamped to a range, and whether it was outside (R387, R388). -/
def clampInt (r : Int × Int) (v : Int) : Int × Bool := if v < r.1 then (r.1, true) else if r.2 < v then (r.2, true) else (v, false)

/-- FIXED scaling (R386). -/
def scaleFixed (v mul ofs : Int) (sh : Nat) : Int := (v * mul + (if sh = 0 then 0 else 2 ^ (sh - 1))) / (2 ^ sh : Int) + ofs

/-- The integer formats' ranges and sizes (R387). -/
def fmtRange (d : Nat) : Int × Int :=
  match d with
  | 0 => (0, 255)
  | 1 => (-128, 127)
  | 2 => (0, 65535)
  | 3 => (-32768, 32767)
  | 4 => (0, 4294967295)
  | 5 => (-2147483648, 2147483647)
  | _ => (-(2 ^ 63), 2 ^ 63 - 1)
def fmtSize (d : Nat) : Nat := [1, 1, 2, 2, 4, 4, 8, 4].getD d 0

/-- The slot's bytes of a harvest point whose decoded value is `v`, and whether it was clamped (R386, R387). -/
def slotBytes (s : State) (e : Nat) (v : Int) : List Byte × Bool :=
  let d := ptDfmt s e
  if ptScale s e = 2 then (leBytes 4 (f32Add (f32Mul (f32OfInt v) (ptMul s e)) (ptOfs s e)), false)
  else
    let y := if ptScale s e = 1 then scaleFixed v (signed 32 (ptMul s e)) (signed 32 (ptOfs s e)) (ptShift s e) else v
    if d = 7 then (leBytes 4 (f32OfInt y), false)
    else
      let (y, sat) := clampInt (fmtRange d) y
      (leBytes (fmtSize d) (unsign (8 * fmtSize d) y), sat)

/-- A harvest cycle's data converted (R384-R387): the slot's bytes, v for change detection, and whether it was clamped; none for a bad value. -/
def convertIn (s : State) (e : Nat) (d : List Byte) : Option (List Byte × Int × Bool) :=
  let raw := rawOf (laneBigEndian s (ptTarget s e)) d
  if ptDfmt s e = 8 then some (leBytes (ptWidth s e) raw, raw, false)
  else (decodeField (ptEncoding s e) (ptFwidth s e) (bits raw (ptLsb s e + ptFwidth s e - 1) (ptLsb s e))).map fun v =>
    let (b, sat) := slotBytes s e v
    (b, v, sat)

/-- A host value: an integer, a finite fraction, or a binary32 that is not finite. -/
inductive HostVal where
  | int (n : Int)
  | frac (n : Int) (d : Nat)
  | inf (neg : Bool)
  | nan
  deriving DecidableEq, Repr

/-- The bits of a binary32 as a host value. -/
def hostF32 (x : Nat) : HostVal :=
  match f32Of x with
  | .fin n m e => let (p, q) := finFrac n m e
                  .frac p q
  | .inf n => .inf n
  | .nan => .nan

/-- The host value of a flood slot in its format (R388). -/
def hostVal (d : Nat) (b : List Byte) : HostVal :=
  match d with
  | 0 | 2 | 4 => .int (leNat b : Nat)
  | 7 => hostF32 (leNat b)
  | _ => .int (signed (8 * b.length) (leNat b))

/-- An unbounded value of a sign: beyond every field. -/
def beyond (neg : Bool) : Int := if neg then -(2 ^ 64) else 2 ^ 64

/-- The nearest integer to a fraction, whether it lies between two integers, and whether in their middle. -/
def nearest (n : Int) (d : Nat) : Int × Bool × Bool :=
  (roundFrac (n, d) false, decide (n.natAbs % d ≠ 0), decide (2 * (n.natAbs % d) = d))

/-- v of a flood point before the clamp (R388), with a rounding that counts as a clamp; none where the spec states no value: a NaN, and a value in the middle between two that a field can hold under NONE. -/
def floodV (s : State) (e : Nat) (b : List Byte) : Option (Int × Bool) :=
  let mul := signed 32 (ptMul s e)
  let ofs := signed 32 (ptOfs s e)
  match ptScale s e, hostVal (ptDfmt s e) b with
  | 0, .int n => some (n, false)
  | 0, .frac n d => let (v, off, mid) := nearest n d
                    if mid then none else some (v, off)
  | 0, .inf neg => some (beyond neg, false)
  | 1, .int n => let q := (n - ofs) * 2 ^ ptShift s e * mul.sign
                 some (roundFrac (q, mul.natAbs) true, false)
  | 1, .frac n d => let q := (n - ofs * d) * 2 ^ ptShift s e * mul.sign
                    some (roundFrac (q, d * mul.natAbs) true, false)
  | 1, .inf neg => some (beyond (neg != decide (mul < 0)), false)
  | _, .nan => none
  | _, _ => match hostF32 (f32Div (f32Add (leNat b) (f32Neg (ptOfs s e))) (ptMul s e)) with
    | .frac n d => some (roundFrac (n, d) false, false)
    | .int n => some (n, false)
    | .inf neg => some (beyond neg, false)
    | .nan => none

/-- A value that the spec leaves open, within a field's range. -/
def freeIn (r : Int × Int) (n : Nat) : Int := r.1 + (n : Int) % (r.2 - r.1 + 1)

/-- A flood point's slot converted (R388): the cycle's raw value, v as written, and whether it was clamped. -/
def convertOut (s : State) (e : Nat) (b : List Byte) : Nat × Int × Bool :=
  if ptDfmt s e = 8 then (leNat b, (leNat b : Nat), false)
  else
    let r := fieldRange (ptEncoding s e) (ptFwidth s e)
    let (v, sat) := match floodV s e b with
      | some (v, sat) => let (w, c) := clampInt r v
                         (w, sat || c)
      | none => (freeIn r (Config.freeWord s.fresh).toNat, false)
    (encodeField (ptEncoding s e) (ptFwidth s e) v * 2 ^ ptLsb s e, v, sat)

/-- A change against a point's reference (R389): none before the first. -/
def isChange (s : State) (e : Nat) (v : Int) : Bool :=
  match ptChgMode s e, (s.ptSt e).ref with
  | 1, some r => decide (v ≠ r)
  | 2, some r => decide (ptDeadband s e < (v - r).natAbs)
  | _, _ => false

end Sys2Proof.Machine
end

