-- ==== Sys2Proof/Machine/HarvestCycle.lean ====
section
/-! DEFINITION. The harvest cycle (R29, R389, R391-R403, R409, R410): the flood image read, starts, accesses, returns, the deadline, publishing. -/

namespace Sys2Proof.Machine

/-- The first start of a schedule's grid after the last one that has been met (R397). -/
def nextStart (x : Sched) : Nat :=
  let p := us x.period
  let o := us x.phase
  if x.startedAt < o then o else ((x.startedAt - o) / p + 1) * p + o

/-- A schedule's cycle changed. -/
def modCycle (s : State) (h : Nat) (f : HarCycle → HarCycle) : State := s.modSched h fun x => { x with cycle := x.cycle.map f }

/-- A schedule's flood image read changed. -/
def modFlood (s : State) (h : Nat) (f : FloodRead → FloodRead) : State := s.modSched h fun x => { x with flood := x.flood.map f }

/-- The entry of a point of a schedule. -/
def entryOf (x : Sched) (flood : Bool) (i : Nat) : Nat := (if flood then x.fFirst else x.hFirst) + i

/-! ## The flood image read (R396, R398, R403) -/

/-- The lowest and the end of the bytes that flood points use (R396). -/
def floodSpan (s : State) (h : Nat) : Nat × Nat :=
  let es := floodEntries (s.sched h)
  ((es.map (ptOffset s)).foldl min (s.sched h).outSize, (es.map fun e => ptOffset s e + (slotSize s e).1).foldl max 0)

/-- The next request of a flood image read goes out: the selector in stage 0, a piece of the half in stage 5; without a tag the stage stands and the engine asks again. -/
def floodAsk (s : State) (h : Nat) : State :=
  let x := s.sched h
  match x.flood with
  | none => s
  | some f =>
    if f.stage = 0 then
      match hostRead s x.tenant (x.outBase + 2 * x.outSize) 8 (.selector h) with
      | some s => modFlood s h fun f => { f with stage := 1 }
      | none => s
    else if f.stage = 5 then
      let a := x.outBase + f.half * x.outSize + f.base + f.bytes.length
      match hostRead s x.tenant a (mrrsPiece s x.tenant a ((floodSpan s h).2 - f.base - f.bytes.length)) (.half h) with
      | some s => modFlood s h fun f => { f with stage := 2 }
      | none => s
    else s

/-- FLOOD_SELECTOR_READ's effect (R398 step 1): LEAD before the next start of a schedule that takes it. -/
def floodSelectorReadEff (s : State) (h : Nat) : State :=
  let x := s.sched h
  if x.st = .running ∧ x.hasFlood ∧ !schedHeld s h then
    let s := s.atTime (nextStart x - us x.lead)
    let s := match x.flood with
      | none => s.modSched h fun x => { x with flood := some { stage := 0, half := 0, seq := 0, bytes := [], base := 0, cs := 0 } }
      | some _ => s
    floodAsk s h
  else s

/-- FLOOD_SELECTOR_READ (R398). -/
def execFloodSelectorRead (h : Fin 8) (s : State) : Host.Outcome State Fault Refusal := .next (floodSelectorReadEff s h.val)

/-- An answer to a flood image request: its tag freed, a failure kept for the start of the cycle (R403). -/
def floodAnswer (s : State) (h : Nat) (use : TagUse) (n : Nat) (res : HostEnd) (ok : State → List Byte → State) : State :=
  let fn := fnOf (s.sched h).tenant
  match tagOf (s.fn fn) use with
  | none => s
  | some tag =>
    if resFits res n then
      let s := poisonAer (freeTag s fn tag) fn res
      match res with
      | .ok d => ok s d
      | r => modFlood s h fun f => { f with stage := 4, cs := hostCs r }
    else s

/-- FLOOD_SELECTOR_DONE's effect (R396): HALF and SEQ; the named half is read. -/
def selectorDoneEff (s : State) (h : Nat) (res : HostEnd) : State :=
  floodAnswer s h (.selector h) 8 res fun s d =>
    floodAsk (modFlood s h fun f => { f with stage := 5, half := leNat d % 2, seq := leNat d / 2, base := (floodSpan s h).1 }) h

/-- FLOOD_SELECTOR_DONE (R396). -/
def execFloodSelectorDone (h : Fin 8) (res : HostRes) (s : State) : Host.Outcome State Fault Refusal :=
  .next (selectorDoneEff s h.val (hostEnd res))

/-- FLOOD_OUTPUT_READ_DONE's effect (R396, R403). -/
def outputDoneEff (s : State) (h : Nat) (res : HostEnd) : State :=
  match (s.sched h).flood with
  | none => s
  | some f =>
    let x := s.sched h
    let left := (floodSpan s h).2 - f.base - f.bytes.length
    let a := x.outBase + f.half * x.outSize + f.base + f.bytes.length
    floodAnswer s h (.half h) (mrrsPiece s x.tenant a left) res fun s d =>
      floodAsk (modFlood s h fun f => { f with bytes := f.bytes ++ d, stage := if d.length < left then 5 else 3 }) h

/-- FLOOD_OUTPUT_READ_DONE (R396). -/
def execFloodOutputReadDone (h : Fin 8) (res : HostRes) (s : State) : Host.Outcome State Fault Refusal :=
  .next (outputDoneEff s h.val (hostEnd res))

/-! ## Points (R401, R402) -/

/-- A transition of a point recorded: the first 63 records of a cycle at once, the 64th at the cycle's end with its count of the further ones (R402). -/
def pointEvent (s : State) (h : Nat) (flood : Bool) (i code cs : Nat) : State :=
  let x := s.sched h
  match x.cycle with
  | none => s
  | some c =>
    let ev : Ev := { code := code, src := src 16 0, tenant := x.tenant, cs := cs, addr := ptAddr s (entryOf x flood i)
                     data := bytesOfWords [h, b2n flood, i] }
    let s := if c.trans < 63 then s.raise ev else s
    modCycle s h fun c => { c with
      trans := c.trans + 1, failTrans := true
      held64 := if c.trans = 63 then some (mkRec s ev none) else c.held64 }

/-- A point fails with a CS (R401, R402). -/
def pointFails (s : State) (h : Nat) (flood : Bool) (i code cs : Nat) : State :=
  let e := entryOf (s.sched h) flood i
  let s := s.incReg (0x300044 + 0x100 * h)
  let s := if (s.ptSt e).failing then s else pointEvent s h flood i code cs
  let s := s.modPtSt e fun p => { p with failing := true, frame := [], wrote := none }
  if flood then s else modCycle s h fun c => { c with fails := c.fails ++ [(i, cs)] }

/-- A point succeeds (R402). -/
def pointSucceeds (s : State) (h : Nat) (flood : Bool) (i : Nat) : State :=
  let e := entryOf (s.sched h) flood i
  let s := if (s.ptSt e).failing then pointEvent s h flood i Ev.pointRecover Cs.done else s
  s.modPtSt e fun p => { p with failing := false, frame := [] }

/-- Bytes written to the half of the coming generation (R394). -/
def imageWrite (s : State) (h off : Nat) (b : List Byte) : State :=
  let x := s.sched h
  hostWrite s x.tenant (x.image + (x.gen + 1) % 2 * x.half + off) b

/-- Change detection of a harvest point (R389). -/
def detectChange (s : State) (h i : Nat) (v : Int) : State :=
  let e := entryOf (s.sched h) false i
  if ptChgMode s e = 0 then s
  else match (s.ptSt e).ref with
    | none => s.modPtSt e fun p => { p with ref := some v }
    | some _ =>
      if isChange s e v then
        modCycle ((s.incReg (0x30004C + 0x100 * h)).modPtSt e fun p => { p with ref := some v }) h fun c => { c with
          changed := c.changed ++ [i], chgIrq := c.chgIrq || ptChgIrq s e }
      else s

/-! ## Frames (R391) -/

/-- The lowest and the highest length that a frame may have. -/
def frameLow (s : State) (e : Nat) : Nat := if lenSize s e = 0 then 0 else lenOffset s e + lenSize s e
def frameFits (s : State) (e : Nat) (l : Int) : Bool := decide ((frameLow s e : Int) ≤ l ∧ l ≤ maxFrame s e)

/-- The length of a frame being read, once its length field has come. -/
def frameLength (s : State) (e : Nat) (got : List Byte) : Option Int :=
  if lenSize s e = 0 then some (maxFrame s e)
  else if got.length < lenOffset s e + lenSize s e then none
  else
    let f := slice got (lenOffset s e) (lenSize s e)
    some (((if lenBe s e then leNat f.reverse else leNat f : Nat) : Int) + lenAdjust s e)

/-- The address and length of a frame's next cycle, after `n` bytes, toward `l` bytes in all. -/
def frameCycle (s : State) (e n l : Nat) : Nat × Nat :=
  ((if frameFifo s e then ptAddr s e else ptAddr s e + n), min (ptWidth s e) (l - n))

/-! ## Issuing (R398, R399) -/

/-- The next due point of a target: of the running cycle with the shortest period (R399). -/
def dueOn (s : State) (k : Nat) : Option (Nat × Bool × Nat) :=
  let hs := (List.range 8).filter fun h => (s.sched h).cycle.any fun c => c.todo.any fun t => decide (t.1 = k)
  match hs.foldl (fun acc h => match acc with
    | none => some h
    | some g => if schedBefore s h g then some h else some g) (none : Option Nat) with
  | none => none
  | some h => ((s.sched h).cycle.bind fun c => c.todo.find? fun t => decide (t.1 = k)).map fun t => (h, t.2.1, t.2.2)

/-- A point leaves the list of those to issue. -/
def unlist (s : State) (h k : Nat) (flood : Bool) (i : Nat) : State :=
  modCycle s h fun c => { c with todo := dropFirst (fun t => decide (t = (k, flood, i))) c.todo }

/-- The access of a point. -/
def pointAcc (s : State) (h : Nat) (flood : Bool) (i addr ticket : Nat) (bytes : List (Option Byte)) : Acc :=
  let e := entryOf (s.sched h) flood i
  let k := ptTarget s e
  { kind := if flood then .write else .read, tenant := (s.sched h).tenant, target := k, addr := addr, space := ptSpace s e
    width := ptWidth s e, bytes := bytes, region := targetRegion s k (ptSpace s e) addr, ticket := ticket
    origin := .harvest h flood i, stop := 15, endian := 0, cls := 0, mask := 0, value := 0, temp := none }

/-- An access of a point leaves the engine. -/
def launch (s : State) (h : Nat) (flood : Bool) (i addr ticket : Nat) (bytes : List (Option Byte)) : State :=
  let a := pointAcc s h flood i addr ticket bytes
  let s := modCycle s h fun c => { c with issued := c.issued ++ [(a.target, flood, i)] }
  sendAcc (s.modHar fun x => { x with busy := insertAsc a.target x.busy }) a

/-- What a flood point has to write now: nothing more (`none`), a bad value, or a cycle's address and data with the v it carries; `n` bytes of a frame are written already. -/
inductive FloodOut where
  | skip
  | bad
  | write (addr : Nat) (data : List Byte) (v : Option Int) (sat : Bool)
  deriving DecidableEq, Repr

/-- The flood point's next cycle (R388, R389, R391). -/
def floodOut (s : State) (h i : Nat) : FloodOut :=
  let x := s.sched h
  let e := entryOf x true i
  match x.cycle with
  | none => .skip
  | some c =>
    let slot := slice (c.out.drop (ptOffset s e - c.outLow)) 0 (slotSize s e).1
    if isFrame s e then
      let l := leNat (slot.take 4)
      let n := (s.ptSt e).frame.length
      if l ≤ n then .skip
      else if !frameFits s e l then .bad
      else let (a, w) := frameCycle s e n l
           .write a (slice slot (4 + n) w) none false
    else
      let (raw, v, sat) := convertOut s e slot
      if ptChgMode s e ≠ 0 ∧ (s.ptSt e).ref.isSome ∧ !isChange s e v then .skip
      else .write (ptAddr s e) (rawBytes (laneBigEndian s (ptTarget s e)) (ptWidth s e) raw) (some v) sat

/-- A flood write takes its tenant's next ticket, from the flood reserve, and leaves (R362, R364). -/
def floodSend (s : State) (h i : Nat) : State :=
  let e := entryOf (s.sched h) true i
  match floodOut s h i with
  | .write addr data v sat =>
    let s := if sat then s.incReg (0x300048 + 0x100 * h) else s
    let s := s.bump.modPtSt e fun p => { p with wrote := v, frame := if isFrame s e then p.frame ++ data else p.frame }
    let (n, s) := issueTicket s (s.sched h).tenant (ptTarget s e) (ptSpace s e) addr data.length true
    launch s h true i addr n (data.map some)
  | _ => s

/-- The next due point of a target taken up: a harvest read, a flood write, a flood write that waits up to 10 µs for an entry (R401), or a flood point with nothing to write. -/
def issueDue (s : State) (k h : Nat) (flood : Bool) (i : Nat) : State :=
  let e := entryOf (s.sched h) flood i
  let s := unlist s h k flood i
  if flood then
    match floodOut s h i with
    | .skip => if isFrame s e then pointSucceeds s h true i else s
    | .bad => pointFails s h true i Ev.pointBadValue Cs.farError
    | .write _ _ _ _ =>
      if floodFree s then floodSend s h i
      else s.modHar fun x => { x with floodWait := x.floodWait.set (fun _ => none) k (some (h, i, s.now + us 10)) }
  else if isFrame s e then
    let got := (s.ptSt e).frame
    let l := ((frameLength s e got).getD (maxFrame s e)).toNat
    let (a, w) := frameCycle s e got.length l
    launch s h false i a 0 (List.replicate w (some 0#8))
  else launch s h false i (ptAddr s e) 0 (List.replicate (ptWidth s e) (some 0#8))

/-- A target that waits for a ledger entry, for a flood write. -/
def floodHeld (s : State) (k : Nat) : Option (Nat × Nat × Nat) := Tbl.get (fun _ => none) s.har.floodWait k

/-- Due points of a target are taken up until one access is outstanding (R399). -/
def issueTarget (s : State) (k : Nat) : Nat → State
  | 0 => s
  | n + 1 =>
    if k ∈ s.har.busy ∨ (floodHeld s k).isSome then s
    else match dueOn s k with
      | none => s
      | some (h, flood, i) => issueTarget (issueDue s k h flood i) k n

/-- The points still to issue, all schedules. -/
def todoCount (s : State) : Nat := ((List.range 8).map fun h => ((s.sched h).cycle.map fun c => c.todo.length).getD 0).sum

/-- Every target that is free issues its next due access. -/
def issueAll (s : State) : State := (List.range 6).foldl (fun s k => issueTarget s k (todoCount s)) s

/-! ## Publishing (R392-R394, R410) -/

/-- A bitmap of `n` points in 8-byte words. -/
def bitmap (n : Nat) (is : List Nat) : List Byte :=
  (List.range ((n + 63) / 64 * 8)).map fun b => BitVec.ofNat 8 ((List.range 8).map fun j => if 8 * b + j ∈ is then 2 ^ j else 0).sum

/-- The failed point of the lowest index with its CS. -/
def firstFail (c : HarCycle) : Option (Nat × Nat) :=
  c.fails.foldl (fun acc f => match acc with
    | none => some f
    | some g => if f.1 < g.1 then some f else some g) none

/-- The half header (R393). -/
def halfHeader (x : Sched) (c : HarCycle) : List Byte :=
  let ff := firstFail c
  leBytes 8 (x.gen + 1) ++ leBytes 8 c.start ++ leBytes 8 ((c.ptm.map BitVec.toNat).getD 0) ++ leBytes 4 (c.lastRet - c.start)
    ++ leBytes 4 x.hCap ++ leBytes 4 c.fails.length ++ leBytes 4 ((ff.map fun f => f.1).getD 0xFFFFFFFF)
    ++ leBytes 2 ((ff.map fun f => f.2).getD Cs.done) ++ leBytes 2 c.floodCs
    ++ leBytes 4 (b2n x.hasFlood + 2 * b2n c.floodApplied + 4 * b2n c.ptm.isSome + 8 * b2n (c.changed ≠ []) + 16 * b2n x.atRisk)
    ++ leBytes 4 x.missed ++ leBytes 4 c.changed.length ++ leBytes 8 c.outSeq

/-- The interrupt of a published cycle is due (R410). -/
def irqDue (x : Sched) (c : HarCycle) : Bool :=
  match x.irqMode with
  | 1 => true
  | 2 => c.chgIrq || c.failTrans || x.missIrq
  | 3 => c.failTrans || x.missIrq
  | _ => false

/-- A cycle publishes (R394, R398 steps 6 and 7): bitmaps and header, the generation word, then MSI-X. -/
def publish (s : State) (h : Nat) (c : HarCycle) : State :=
  let x := s.sched h
  let nb := (x.hCap + 63) / 64 * 8
  let s := flush64 s c
  let s := imageWrite s h 0x40 (bitmap x.hCap (c.fails.map fun f => f.1))
  let s := imageWrite s h (0x40 + nb) (bitmap x.hCap c.changed)
  let s := imageWrite s h 0 (halfHeader x c)
  let s := hostWrite s x.tenant (genAddr x) (leBytes 8 (x.gen + 1))
  let ff := firstFail c
  let s := s.modSched h fun x => { x with
    gen := x.gen + 1, cycle := none, missIrq := false, lastDur := c.lastRet - c.start, durMax := max x.durMax (c.lastRet - c.start)
    lastFail := c.fails.length, lastCs := (ff.map fun f => f.2).getD Cs.done, firstFail := (ff.map fun f => f.1).getD 0xFFFFFFFF }
  if irqDue x c then sendMsix s (fnOf x.tenant) x.vec else s

/-- A schedule's cycle has nothing left to issue or to come. -/
def cycleOver (s : State) (h : Nat) (c : HarCycle) : Bool :=
  decide (c.todo = [] ∧ c.issued = []) && (List.range 6).all fun k => (floodHeld s k).all fun w => decide (w.1 ≠ h)

/-- Every cycle whose last value has returned publishes. -/
def publishDue (s : State) : State :=
  (List.range 8).foldl (fun s h => match (s.sched h).cycle with
    | some c => if cycleOver s h c then publish s h c else s
    | none => s) s

/-- The engine goes on: next accesses, then what is complete publishes. -/
def engineRuns (s : State) : State := publishDue (issueAll s)

/-! ## Starts -/

/-- The flood image read of a start that is over, or was not ready, is discarded when it completes (R403). -/
def dropFlood (s : State) (h : Nat) : State :=
  (dropTags s (fnOf (s.sched h).tenant) fun u => decide (u = .selector h ∨ u = .half h)).modSched h fun x => { x with flood := none }

/-- The flood writes of a cycle are skipped (R403): counted, recorded on a transition. -/
def skipFlood (s : State) (h cs : Nat) : State :=
  let x := s.sched h
  let s := s.incReg (0x300050 + 0x100 * h)
  let s := if x.skipping then s else s.raise { code := Ev.floodImageFail, src := src 16 0, tenant := x.tenant, cs := cs
                                               addr := x.outBase, data := bytesOfWords [h] }
  s.modSched h fun x => { x with skipping := true }

/-- A start that is not taken (R397, R400). -/
def missStart (s : State) (h t : Nat) : State :=
  let x := s.sched h
  let s := dropFlood s h
  let s := if x.missRun then s else s.raise { code := Ev.harvestMissed, src := src 16 0, tenant := x.tenant, data := bytesOfWords [h] }
  s.modSched h fun x => { x with missed := x.missed + 1, missRun := true, missIrq := true, startedAt := t }

/-- PTM is LOCKED (R189, HEP_PTM_STATUS[1]). -/
def ptmLocked (s : State) : Bool := s.ep.ptmStatus.getLsbD 1

/-- The points of a taken cycle in order (R398 step 4): flood before harvest. -/
def cycleTodo (s : State) (x : Sched) (flood : Bool) : List (Nat × Bool × Nat) :=
  (if flood ∧ x.hasFlood then (List.range x.fCap).map fun i => (ptTarget s (x.fFirst + i), true, i) else [])
    ++ (List.range x.hCap).map fun i => (ptTarget s (x.hFirst + i), false, i)

/-- A start that is taken (R398 steps 2 and 3). -/
def takeStart (s : State) (h t : Nat) : State :=
  let x := s.sched h
  let applied := x.hasFlood && x.flood.any fun f => decide (f.stage = 3)
  let cs := match x.flood with
    | some f => if f.stage = 4 then f.cs else Cs.hostTimeout
    | none => Cs.hostTimeout
  let s := if x.hasFlood ∧ !applied then skipFlood s h cs else s
  let s := dropFlood s h
  let late := s.now - t
  let s := if (s.reg 0x300824).toNat < late then s.setReg 0x300824 (w32 (min late 0xFFFFFFFF)) else s
  let s := (schedEntries x).foldl (fun s e => s.modPtSt e fun p => { p with frame := [], wrote := none }) s
  engineRuns (s.modSched h fun y => { y with
    startedAt := t, lastStart := t, missRun := false, skipping := if applied then false else y.skipping
    cycle := some
      { start := t, todo := cycleTodo s x applied, issued := [], fails := [], changed := [], trans := 0, failTrans := false
        held64 := none, out := (x.flood.map fun f => f.bytes).getD [], outLow := (x.flood.map fun f => f.base).getD 0
        ptm := if ptmLocked s then some s.ep.ptmOffset else none, floodApplied := applied
        floodCs := if x.hasFlood ∧ !applied then cs else Cs.done, outSeq := if applied then (x.flood.map fun f => f.seq).getD 0 else 0
        chgIrq := false, overrun := false, lastRet := t } })

/-- HARVEST_CYCLE_START's effect (R397, R398, R409). -/
def cycleStartEff (s : State) (h : Nat) : State :=
  let x := s.sched h
  if x.st = .running then
    let t := nextStart x
    let s := s.atTime t
    if schedHeld s h ∨ x.cycle.isSome then missStart s h t else takeStart s h t
  else s

/-- HARVEST_CYCLE_START (R397). -/
def execHarvestCycleStart (h : Fin 8) (s : State) : Host.Outcome State Fault Refusal := .next (cycleStartEff s h.val)

/-! ## Returns -/

/-- A failed access of a point (R401): how a flood write that was accepted ends on the far side is the ledger's. -/
def pointEnded (s : State) (h : Nat) (flood : Bool) (i cs : Nat) : State :=
  if flood ∧ (cs = Cs.farError ∨ cs = Cs.farTimeout) then
    (pointSucceeds s h true i).modPtSt (entryOf (s.sched h) true i) fun p => { p with ref := p.wrote.or p.ref, wrote := none }
  else pointFails s h flood i Ev.pointFail cs

/-- The frame point goes on with its next cycle, in its place before the rest of its list; past the deadline it fails (R391, R400). -/
def frameOn (s : State) (h k : Nat) (flood : Bool) (i : Nat) : State :=
  if (s.sched h).cycle.any fun c => c.overrun then pointFails s h flood i Ev.pointFail Cs.farTimeout
  else modCycle s h fun c => { c with todo := (k, flood, i) :: c.todo }

/-- A cycle of a harvest frame has come (R391). -/
def frameCame (s : State) (h k i : Nat) (d : List Byte) : State :=
  let e := entryOf (s.sched h) false i
  let s := s.modPtSt e fun p => { p with frame := p.frame ++ d }
  let got := (s.ptSt e).frame
  match frameLength s e got with
  | none => if maxFrame s e ≤ got.length then pointFails s h false i Ev.pointBadValue Cs.farError else frameOn s h k false i
  | some l =>
    if !frameFits s e l then pointFails s h false i Ev.pointBadValue Cs.farError
    else if l.toNat ≤ got.length then
      pointSucceeds (imageWrite s h (ptOffset s e) (leBytes 4 l.toNat ++ got.take l.toNat)) h false i
    else frameOn s h k false i

/-- A harvest value has come (R384-R389, R394). -/
def valueCame (s : State) (h i : Nat) (d : List Byte) : State :=
  let e := entryOf (s.sched h) false i
  match convertIn s e d with
  | none => pointFails s h false i Ev.pointBadValue Cs.farError
  | some (b, v, sat) =>
    let s := if sat then s.incReg (0x300048 + 0x100 * h) else s
    detectChange (pointSucceeds (imageWrite s h (ptOffset s e) b) h false i) h i v

/-- The return of a point's access taken up (R384, R391, R401). -/
def pointBack (s : State) (h k : Nat) (flood : Bool) (i : Nat) (r : AccEnd) : State :=
  let e := entryOf (s.sched h) flood i
  let s := modCycle s h fun c => { c with
    issued := dropFirst (fun t => decide (t = (k, flood, i))) c.issued
    lastRet := if flood = false ∧ r.cs = Cs.done then s.now else c.lastRet }
  if r.cs ≠ Cs.done then pointEnded s h flood i r.cs
  else if flood then
    if isFrame s e then frameOn s h k true i
    else (pointSucceeds s h true i).modPtSt e fun p => { p with ref := p.wrote.or p.ref, wrote := none }
  else
    let d := r.data.map fun b => b.getD 0#8
    if isFrame s e then frameCame s h k i d else valueCame s h i d

/-- A flood write that waited for an entry gets it (R366). -/
def floodRetry (s : State) (k : Nat) : State :=
  match floodHeld s k with
  | some (h, i, _) =>
    if floodFree s ∧ k ∉ s.har.busy then
      floodSend (s.modHar fun x => { x with floodWait := x.floodWait.set (fun _ => none) k none }) h i
    else s
  | none => s

/-- HARVEST_POINT_RETURN's effect: the answer a target has returned is taken up, or a flood write that waits is tried again; then the engine goes on. -/
def pointReturnEff (s : State) (k : Nat) : State :=
  match Tbl.get (fun _ => none) s.har.back k with
  | none => engineRuns (floodRetry s k)
  | some (h, flood, i, r) =>
    let s := s.modHar fun x => { x with
      back := x.back.set (fun _ => none) k none, busy := x.busy.filter fun t => decide (t ≠ k) }
    let mine := (s.sched h).cycle.any fun c => decide ((k, flood, i) ∈ c.issued)
    engineRuns (if mine then pointBack s h k flood i r else s)

/-- HARVEST_POINT_RETURN (R384). -/
def execHarvestPointReturn (k : Fin 6) (s : State) : Host.Outcome State Fault Refusal := .next (pointReturnEff s k.val)

/-- HARVEST_DEADLINE's effect (R400): the points of the cycle not yet issued fail, those that wait for a ledger entry among them. -/
def deadlineEff (s : State) (h : Nat) : State :=
  match (s.sched h).cycle with
  | none => s
  | some c =>
    if c.overrun then s
    else
      let s := s.atTime (c.start + us (s.sched h).period)
      let held := (List.range 6).filterMap fun k => (floodHeld s k).bind fun w => if w.1 = h then some (k, true, w.2.1) else none
      let left := held ++ c.todo
      let s := held.foldl (fun s t => s.modHar fun x => { x with floodWait := x.floodWait.set (fun _ => none) t.1 none }) s
      let s := modCycle s h fun c => { c with todo := [], overrun := true }
      let s := left.foldl (fun s t => pointFails s h t.2.1 t.2.2 Ev.pointFail Cs.farTimeout) s
      let s := (s.incReg (0x300040 + 0x100 * h)).raise
        { code := Ev.harvestOverrun, src := src 16 0, tenant := (s.sched h).tenant, cs := Cs.farTimeout, data := bytesOfWords [h, left.length] }
      engineRuns s

/-- HARVEST_DEADLINE (R400). -/
def execHarvestDeadline (h : Fin 8) (s : State) : Host.Outcome State Fault Refusal := .next (deadlineEff s h.val)

/-- FLOOD_LEDGER_TIMEOUT's effect (R401): the flood write is passed over. -/
def ledgerTimeoutEff (s : State) (k : Nat) : State :=
  match floodHeld s k with
  | none => s
  | some (h, i, lim) =>
    let s := (s.atTime lim).modHar fun x => { x with floodWait := x.floodWait.set (fun _ => none) k none }
    engineRuns (pointFails s h true i Ev.pointFail Cs.ledgerFull)

/-- FLOOD_LEDGER_TIMEOUT (R401). -/
def execFloodLedgerTimeout (k : Fin 6) (s : State) : Host.Outcome State Fault Refusal := .next (ledgerTimeoutEff s k.val)

end Sys2Proof.Machine
end

