-- ==== Sys2Proof/Machine/HostLink.lean ====
section
/-! DEFINITION. The host link (R180, R184-R196, R532, R535): fatal errors, surprise link down and retraining, power states of the functions, LTR, PTM, unmasking. -/

namespace Sys2Proof.Machine

/-! ## Errors (R186, R187) -/

/-- The bit of a fatal error in the Uncorrectable Error Severity register (PCI Express Base Specification). -/
def fatalBit : LinkFatal → Nat
  | .dllProtocol => 4
  | .flowControl => 13
  | .receiverOverflow => 17
  | .malformedTlp => 18

/-- HOST_FATAL's effect (R186, R187): logged and recorded, and the device contained unless software has made the error non-fatal. -/
def hostFatalEff (s : State) (kind : LinkFatal) : State :=
  let s := s.emit (.aer 0 6)
  if bit (s.fn 0).severity.toNat (fatalBit kind) then enterDevice (s.raise { code := Ev.hostFatal, src := srcHc, enters := 2 }) 1
  else s.raise { code := Ev.hostFatal, src := srcHc }

/-- HOST_FATAL (R186). -/
def execHostFatal (kind : LinkFatal) (s : State) : Host.Outcome State Fault Refusal := .next (hostFatalEff s kind)

/-- SRAM_UNCORR's effect (R186, R195): in state that a tenant owns it contains the tenant, in HC or FB the device. -/
def sramUncorrEff (s : State) (owner : Option Nat) : State :=
  match owner with
  | some t => enterTenant (s.raise { code := Ev.sramUncorr, src := srcHc, tenant := t, enters := 1 }) t 2
  | none => enterDevice ((s.emit (.aer 0 7)).raise { code := Ev.sramUncorr, src := srcHc, enters := 2 }) 2

/-- SRAM_UNCORR (R186). -/
def execSramUncorr (owner : Option Tenant) (s : State) : Host.Outcome State Fault Refusal := .next (sramUncorrEff s (owner.map fun t => t.val))

/-! ## Surprise link down (R196, R532, R535) -/

/-- What an abandoned request to the host was (R532): 0 a descriptor fetch, 1 a pan segment's read, 2 a held host read, 3 a rack-master read, 4 a flood image read, 5 one nobody waits for. -/
def useKind : TagUse → Nat
  | .fetch _ => 0
  | .reNext _ => 0
  | .seg _ => 1
  | .loopRead _ => 2
  | .rack _ _ => 3
  | .selector _ => 4
  | .half _ => 4
  | .drop => 5

/-- One requester's end when its request is abandoned (R532): a fetch is dropped, a parked chain's doorbell is owed again, a segment stays frozen with what it has, a rack-master read and a flood cycle end. -/
def abandon (s : State) (u : TagUse) : State :=
  match u with
  | .fetch q => s.modQ q fun c => { c with fetching := none }
  | .reNext q => s.modQ q fun c => { c with fetching := none, owed := true }
  | .seg k => s.modSlot k fun x => { x with readReq := false }
  | .rack p 64 => endHeldRack s p Cs.contained none
  | .rack p k => endDtSlot s p k Cs.contained
  | .selector h => endCycle s h
  | .half h => endCycle s h
  | .loopRead _ => s
  | .drop => s

/-- Every outstanding request of a function abandoned and its tag quarantined (R196 step 2), with the uses. -/
def abandonFn (s : State) (fn : Nat) : List TagUse × State :=
  let us := (s.fn fn).tags.map fun t => t.2
  let s := s.modFn fn fun f => { f with quar := (f.tags.map fun t => t.1).foldl (fun l n => insertAsc n l) f.quar, tags := [] }
  (us, us.foldl abandon s)

/-- A function's configuration space after DL_Down (R196 step 3): what the PCI Express Base Specification calls sticky stays; tags in quarantine, the MSI-X table with its pending bits and held outputs are no configuration space. -/
def resetCfg (f : FnState) : FnState :=
  { fnInit 0 with
    severity := f.severity, pmeEn := f.pmeEn, pmeStatus := f.pmeStatus, flr := f.flr, tags := f.tags, quar := f.quar
    vecs := f.vecs, msiPend := f.msiPend, heldOut := f.heldOut }

/-- The VFs that exist. -/
def liveVfs (s : State) : List Nat := if s.ep.vfEnable then (List.range s.ep.numVfs).map fun i => i + 1 else []

/-- Step 3 of R196 (R535): configuration space reset; the VFs leave it with their state kept. -/
def linkDownConfig (s : State) : State :=
  let kept := (liveVfs s).foldl (fun l n => insertAsc n l) s.ep.keptVfs
  let s := (List.range 66).foldl (fun s fn => s.modFn fn resetCfg) s
  let s := s.modEp fun e => { e with vfEnable := false, numVfs := 0, ari := false, keptVfs := kept, vfBars := ⟨[]⟩, bar2Log2 := s.img.pf0Bar2Log2 }
  reachCheck (s.modCont fun c => { c with linkWasDown := decide (kept ≠ []) })

/-- The host reads that wait end without a completion to the host (R196 step 2); those at targets leave their bytes behind when they come (R352). -/
def dropHostReads (s : State) : State :=
  let rs := s.reads.filter fun r => decide (r.ended = 0) && (match r.who with
    | .host _ _ => true
    | .seg _ _ => false)
  let s := rs.foldl (fun s r => abortHostRead s r Cs.contained 3 false) s
  s.modWin fun x => { x with commit := x.commit.map fun c => { c with reqs := c.reqs.filter fun r => match r with
    | .write _ _ _ _ => true
    | .read _ _ _ _ => false } }

/-- SURPRISE_LINK_DOWN's effect (R196, R532). -/
def linkDownEff (s : State) : State :=
  if s.ep.link ≠ .l0 then s
  else
    let s := s.modEp fun e => { e with link := .down }
    let (us, s) := (List.range 66).foldl (fun (acc : List TagUse × State) fn => let (u, s) := abandonFn acc.2 fn; (acc.1 ++ u, s)) ([], s)
    let s := linkDownConfig (dropHostReads s)
    let count := fun k => (us.filter fun u => decide (useKind u = k)).length
    let s := (s.incReg 0x434).raise { code := Ev.hostLinkDown, src := srcHc, enters := 2
                                      data := (List.range 5).flatMap fun k => leBytes 4 (count k) }
    enterDevice s 0

/-- SURPRISE_LINK_DOWN (R196). -/
def execSurpriseLinkDown (s : State) : Host.Outcome State Fault Refusal := .next (linkDownEff s)

/-- Steps 5 and 6 of a wake by a watch point (R110): PME_Status set, PM_PME sent when PME_En is set, TIDE_WAKE written, WAKE_N released. -/
def tideWoken (s : State) : State :=
  if s.tide.woke then
    let s := (s.modFn 0 fun f => { f with pmeStatus := true }).raise { code := Ev.tideWake, src := srcSalt, data := leBytes 4 s.tide.cause.toNat }
    (s.modPins fun p => { p with wake := false }).modTide fun t => { t with woke := false }
  else s

/-- The host link reaches L0: a PME that stands is sent (R110, R192). -/
def linkUp (s : State) : State :=
  let s := tideWoken (s.modEp fun e => { e with link := .l0 })
  if (s.fn 0).pmeStatus ∧ (s.fn 0).pmeEn then s.emit .pmePm else s

/-- HOST_LINK_TRAINED (R196 step 5, R116 step 7): training succeeds after a surprise link down, or once PERST_N is high. -/
def execHostLinkTrained (s : State) : Host.Outcome State Fault Refusal :=
  .next (if s.ep.link = .down ∨ (s.ep.link = .reset ∧ s.pins.perst ∧ 7 ≤ s.boot.step) then linkUp s else s)

/-! ## Configuration (R180) -/

/-- RBAR_SIZE_WRITE (R180, R216): `size` is the BAR Size field, 2^size MiB. Sizes that the capability does not offer are ignored. -/
def rbarEff (s : State) (size : Nat) : State :=
  if (s.fn 0).memSpace then s.raise { code := Ev.rbarIgnored, src := srcHc }
  else if 10 ≤ size ∧ size ≤ 16 then reachCheck (s.modEp fun e => { e with bar2Log2 := size + 20 })
  else s

/-- RBAR_SIZE_WRITE (R180). -/
def execRbarSizeWrite (size : Nat) (s : State) : Host.Outcome State Fault Refusal := .next (rbarEff s size)

/-! ## Power management (R191, R192) -/

/-- PM_D3HOT_ENTER (R191). -/
def execPmD3hotEnter (fn : Fn) (s : State) : Host.Outcome State Fault Refusal :=
  .next (if fnEnabled s fn.val then s.modFn fn.val fun f => { f with d3hot := true } else s)

/-- PM_D0_RETURN (R191): held writes leave, then the messages behind them. -/
def execPmD0Return (fn : Fn) (s : State) : Host.Outcome State Fault Refusal :=
  .next (if (s.fn fn.val).d3hot then releaseOuts (s.modFn fn.val fun f => { f with d3hot := false }) fn.val else s)

/-- PME_TURN_OFF (R192). -/
def execPmeTurnOff (s : State) : Host.Outcome State Fault Refusal :=
  .next (if s.ep.link = .l0 then (s.emit .pmeToAck).modEp fun e => { e with link := .l23Ready } else s)

/-- The tolerance in ns (R194). -/
def ltrValue (s : State) : Nat :=
  let busy := (s.qs.ctx.rows.any fun kv => decide (kv.2.descs ≠ [])) || s.reads.any fun r => decide (r.ended = 0) && (match r.who with
    | .host _ _ => true
    | .seg _ _ => false)
  let leads := ((List.range 8).filter fun h => decide ((s.sched h).st = .running)).map fun h => us ((s.sched h).lead - 5)
  match (if busy then [2000] else []) ++ leads with
  | [] => 1000000
  | v :: r => r.foldl min v

/-- LTR_SEND (R194): the tolerance has changed, and 100 µs have passed since the last message. -/
def execLtrSend (s : State) : Host.Outcome State Fault Refusal :=
  .next (if s.ep.link = .l0 ∧ ltrValue s ≠ s.ep.ltrLast ∧ (s.ep.ltrAt.all fun t => decide (t + us 100 ≤ s.now)) then
    (s.emit (.ltr (ltrValue s))).modEp fun e => { e with ltrLast := ltrValue s, ltrAt := some s.now }
  else s)

/-! ## PTM (R189) -/

/-- The distance of two offsets. -/
def offDist (a b : DWord) : Nat := (a - b).toInt.natAbs

/-- The rate adjustment, within ±200 ppm (R189); the spec gives no formula: a free value. -/
def ptmRateNow (s : State) : BitVec 9 :=
  let r := (Config.freePtmRate s.fresh).toInt
  if r < -200 ∨ 200 < r then 0#9 else Config.freePtmRate s.fresh

/-- PTM_EXCHANGE's effect (R189). `ptmStatus` holds [1] LOCKED and [2] last exchange failed. -/
def ptmEff (s : State) (master : DWord) : State :=
  if !(s.fn 0).ptmEnable ∨ s.ep.link ≠ .l0 then s
  else
    let off := master - BitVec.ofNat 64 s.now
    let hist := (off :: s.ep.ptmHist).take 8
    let jump := decide (s.ep.ptmHist ≠ [] ∧ 500 ≤ offDist off s.ep.ptmOffset)
    let steady := decide (hist.length = 8) && hist.all (fun a => hist.all fun b => decide (offDist a b < 50))
    let locked := if jump then false else steady || s.ep.ptmStatus.getLsbD 1
    let rate := ptmRateNow s
    (s.bump.emit .ptmRequest).modEp fun e => { e with
      ptmOffset := off, ptmHist := hist, ptmStatus := if locked then 2#3 else 0#3, ptmRate := rate }

/-- PTM_EXCHANGE (R189). -/
def execPtmExchange (master : DWord) (s : State) : Host.Outcome State Fault Refusal := .next (ptmEff s master)

/-- PTM_EXCHANGE_FAIL (R189): LOCKED is cleared. -/
def execPtmExchangeFail (s : State) : Host.Outcome State Fault Refusal :=
  .next (if (s.fn 0).ptmEnable then (s.emit .ptmRequest).modEp fun e => { e with ptmHist := [], ptmStatus := 4#3 } else s)

/-! ## Unmasking (R185) -/

/-- MSIX_UNMASK's effect (R185): an entry, or the function, unmasked; what is pending and may leave is sent. -/
def unmaskEff (s : State) (fn : Nat) (entry : Option Nat) : State :=
  match entry with
  | some e =>
    let s := s.modFn fn fun f => { f with vecs := f.vecs.set vecInit e { vec f e with mask := false } }
    if (vec (s.fn fn) e).pend ∧ !(s.fn fn).d3hot then deliverMsix s fn e else s
  | none =>
    let s := s.modFn fn fun f => { f with fnMask := false }
    if (s.fn fn).d3hot then s else sendPending s fn

/-- MSIX_UNMASK (R185). -/
def execMsixUnmask (fn : Fn) (entry : Option Nat) (s : State) : Host.Outcome State Fault Refusal := .next (unmaskEff s fn.val entry)

end Sys2Proof.Machine
end

