-- ==== Sys2Proof/Machine/Fec.lean ====
section
/-! DEFINITION. The flit's forward error correction (R436): RS(272, 256) over GF(2^10), decoding up to 8 symbol errors. -/

namespace Sys2Proof.Machine

/-- An element of GF(2^10). -/
abbrev Gf := BitVec 10

/-- Multiplication by α, a root of x^10 + x^3 + 1 (R436). -/
def gfX (a : Gf) : Gf := if a.getLsbD 9 then (a <<< 1) ^^^ 9#10 else a <<< 1

/-- The product in GF(2^10), by the `n` low bits of `b`. -/
def gfMulN : Nat → Gf → Gf → Gf
  | 0, _, _ => 0#10
  | n + 1, a, b => (if b.getLsbD 0 then a else 0#10) ^^^ gfMulN n (gfX a) (b >>> 1)

/-- The product in GF(2^10). -/
def gfMul (a b : Gf) : Gf := gfMulN 10 a b

/-- `a` to the power of a number below 2^n. -/
def gfPowN : Nat → Gf → Nat → Gf
  | 0, _, _ => 1#10
  | n + 1, a, k => gfMul (if k % 2 = 1 then a else 1#10) (gfPowN n (gfMul a a) (k / 2))

/-- α to the power k; its order is 1,023. -/
def gfAlpha (k : Nat) : Gf := gfPowN 10 2#10 (k % 1023)

/-- The inverse of a nonzero element: its 1,022nd power. -/
def gfInv (a : Gf) : Gf := gfPowN 10 a 1022

/-- The value at `x` of a polynomial given with its lowest coefficient first. -/
def gfEval (p : List Gf) (x : Gf) : Gf := p.foldr (fun c acc => c ^^^ gfMul acc x) 0#10

/-- The 16 syndromes of a codeword given with its highest coefficient first. -/
def rsSyndromes (c : List Gf) : List Gf := (List.range 16).map fun m => gfEval c.reverse (gfAlpha m)

/-- The coefficient `i` of a polynomial. -/
def gfAt (p : List Gf) (i : Nat) : Gf := nth p i 0#10

/-- The sum of two polynomials. -/
def gfAdd (p q : List Gf) : List Gf := (List.range (max p.length q.length)).map fun i => gfAt p i ^^^ gfAt q i

/-- The state of the Berlekamp-Massey recursion: connection polynomial, its last copy, length, gap, last discrepancy. -/
structure RsBm where
  c : List Gf
  b : List Gf
  l : Nat
  m : Nat
  d : Gf

/-- One step of the recursion, on syndrome `n`. -/
def rsStep (syn : List Gf) (x : RsBm) (n : Nat) : RsBm :=
  let d := (List.range (x.l + 1)).foldl (fun acc i => if i ≤ n then acc ^^^ gfMul (gfAt x.c i) (gfAt syn (n - i)) else acc) 0#10
  if d = 0#10 then { x with m := x.m + 1 }
  else
    let f := gfMul d (gfInv x.d)
    let c := gfAdd x.c (List.replicate x.m 0#10 ++ x.b.map fun y => gfMul f y)
    if 2 * x.l ≤ n then { c := c, b := x.c, l := n + 1 - x.l, m := 1, d := d } else { x with c := c, m := x.m + 1 }

/-- The error locator polynomial and the number of errors. -/
def rsLocator (syn : List Gf) : List Gf × Nat :=
  let x := (List.range 16).foldl (rsStep syn) { c := [1#10], b := [1#10], l := 0, m := 1, d := 1#10 }
  (x.c, x.l)

/-- The powers of x at which errors stand. -/
def rsPlaces (loc : List Gf) : List Nat := (List.range 272).filter fun p => decide (gfEval loc (gfAlpha (1023 - p)) = 0#10)

/-- The value of the error at power `p` (the generator's roots begin at α^0). -/
def rsValue (syn loc : List Gf) (p : Nat) : Gf :=
  let omega := (List.range 16).map fun n => (List.range (n + 1)).foldl (fun acc i => acc ^^^ gfMul (gfAt loc i) (gfAt syn (n - i))) 0#10
  let xi := gfAlpha (1023 - p)
  let deriv := (List.range loc.length).map fun i => if i % 2 = 0 then gfAt loc (i + 1) else 0#10
  gfMul (gfAlpha p) (gfMul (gfEval omega xi) (gfInv (gfEval deriv xi)))

/-- A codeword corrected, with the number of symbols corrected; none when more than 8 are wrong (R436). -/
def rsCorrect (c : List Gf) : Option (List Gf × Nat) :=
  let syn := rsSyndromes c
  if syn.all fun x => decide (x = 0#10) then some (c, 0)
  else
    let (loc, l) := rsLocator syn
    let ps := rsPlaces loc
    if 8 < l ∨ ps.length ≠ l then none
    else
      let fixed := (List.range c.length).map fun i => if 271 - i ∈ ps then gfAt c i ^^^ rsValue syn loc (271 - i) else gfAt c i
      if (rsSyndromes fixed).all fun x => decide (x = 0#10) then some (fixed, l) else none

/-- The 256 data symbols of a flit (R436): symbol i is flit bits [10i+9:10i]. -/
def flitSymbols (bytes : List Byte) : List Gf :=
  let n := leNat (slice bytes 0 320)
  (List.range 256).map fun i => BitVec.ofNat 10 (n / 2 ^ (10 * i))

/-- Symbols as the 320 bytes of a flit. -/
def symbolBytes (l : List Gf) : List Byte :=
  leBytes 320 ((List.range 256).foldl (fun n i => n + (gfAt l i).toNat * 2 ^ (10 * i)) 0)

/-- A received flit slot decoded: its bytes and the symbols corrected, or none (R436, R438 check 1). -/
def fecDecode (bytes : List Byte) (parity : List Nat) : Option (List Byte × Nat) :=
  (rsCorrect (flitSymbols bytes ++ (List.range 16).map fun i => BitVec.ofNat 10 (nth parity i 0))).map fun r => (symbolBytes (r.1.take 256), r.2)

end Sys2Proof.Machine
end

