-- ==== Sys2Proof/Machine/TwinCore.lean ====
section
/-! DEFINITION. What a chip tells its partner of itself (R475-R479) and when it offers to form; the life-cycle state (R134). -/

namespace Sys2Proof.Machine

/-- The life-cycle state (R134): 0 RAW, 1 PROVISIONED, 2 FIELD, 3 RETURNED; another pattern takes the state of its highest set bit. -/
def lcyState (s : State) : Nat :=
  if s.mram.fuses.getLsbD 2 then 3 else if s.mram.fuses.getLsbD 1 then 2 else if s.mram.fuses.getLsbD 0 then 1 else 0

/-- The fuses hold none of the four patterns (R134). -/
def fuseAnomaly (s : State) : Bool := decide (s.mram.fuses.toNat ∉ [0, 1, 3, 7])

/-- The running firmware slot and the configuration slot in use (R119, R121). -/
def runningFw (s : State) : ImgSlot := if s.boot.fwSlot = 0 then s.mram.fwA else s.mram.fwB
def runningCfg (s : State) : ImgSlot := if s.boot.cfgSlot = 0 then s.mram.cfgA else s.mram.cfgB

/-- Version, security version, pair epoch and flags of a firmware slot's header (R119). -/
def fwVersion (i : ImgSlot) : Nat := (Config.fwHeader i.bytes.rows).1.toNat
def fwSecurity (i : ImgSlot) : Nat := (Config.fwHeader i.bytes.rows).2.1.toNat
def fwEpoch (i : ImgSlot) : Nat := (Config.fwHeader i.bytes.rows).2.2.1.toNat
def fwFlag (i : ImgSlot) (n : Nat) : Bool := (Config.fwHeader i.bytes.rows).2.2.2.getLsbD n

/-- Tenants of which this chip holds queue contexts or running schedules (R478, R479). -/
def holdings (s : State) : List Nat :=
  (List.range 65).filter fun t => s.qs.ctx.rows.any (fun kv => decide (kv.2.st ≠ .free ∧ kv.2.tenant = t))
    || (List.range 8).any fun h => decide ((s.sched h).st = .running ∧ (s.sched h).tenant = t)

/-- This chip's own PAIR_HELLO (R486). -/
def helloOf (s : State) : Hello :=
  { uid := uniqueId, rank := s.img.pair.rank, partnerUid := s.img.pair.partnerUid, digest := Config.pairDigest (runningCfg s).bytes.rows
    epoch := fwEpoch (runningFw s), compatPrev := fwFlag (runningFw s) 0, lifecycle := lcyState s, holdings := holdings s, timeBase := s.now }

/-- A PAIR_HELLO as numbers. -/
def helloWords (h : Hello) : List Nat :=
  h.uid.map BitVec.toNat ++ [h.rank] ++ h.partnerUid.map BitVec.toNat ++ h.digest.map BitVec.toNat
    ++ [h.epoch, b2n h.compatPrev, h.lifecycle, h.timeBase] ++ h.holdings

/-- The chip offers to form (R477): a TWIN_FORM waits, or AUTO_FORM is set and the chip is not FORMED, FENCED or DISAGREE nor contained. -/
def twinOffers (s : State) : Bool :=
  decide (s.img.pair.rank ≠ 0 ∧ s.twin.st ≠ .formed)
    && (s.twin.formMb.isSome || (s.img.pair.autoForm && s.served && decide (s.twin.st ≠ .fenced ∧ s.twin.st ≠ .disagree) && !s.cont.dev))

/-- Step 2 of R477: an offering chip whose twin session is open sends its PAIR_HELLO, once per session. -/
def sendHello (s : State) : State :=
  if twinOffers s ∧ (s.link 4).st = .up ∧ !s.twin.helloSent then
    (twinSend s 0x30 (helloWords (helloOf s))).modTwin fun w => { w with helloSent := true }
  else s

/-- What waited for a mirror acknowledgement takes its effect (R484). -/
def runHold (s : State) (h : MirrorHold) : State :=
  match h with
  | .write a => sendAcc s a
  | .slotRead k o => if (s.slot k).busy ∧ (s.slot k).order = o ∧ !(s.slot k).frozen then (if isRmwSlot s k then sendRmw s k else sendSegRead s k) else s
  | .release q => releaseNow s q
  | .cmd mb q => match (s.mb mb).cmd with
    | some c => if c.opcode = 0x0400 then createNow s mb q c.payload else resetNow s mb q (decide (c.opcode = 0x0401))
    | none => s
  | .queueOp q op => if op = 0 then haltNow s q else if op = 1 then disableNow s q else resumeNow s q

/-- Held operations up to a mirror sequence number take effect in order, and the longest wait is kept (R484). -/
def runHolds (s : State) (upTo : Nat) : State :=
  let go := s.twin.holds.filter fun h => decide (h.1 ≤ upTo)
  let s := s.modTwin fun w => { w with holds := w.holds.filter fun h => decide (upTo < h.1) }
  go.foldl (fun s h =>
    let s := if (s.reg 0x500054).toNat < s.now - h.2.1 then s.setReg 0x500054 (w32 (s.now - h.2.1)) else s
    runHold s h.2.2) s

/-- The chip proceeds without mirroring: everything held takes its effect (R484, R489). -/
def runAllHolds (s : State) : State := runHolds s s.twin.mirrorSeq

/-- A twin session that ends takes a formation in progress with it (R460, R477). -/
def twinSessionLost (s : State) : State :=
  if s.twin.st = .forming then
    runAllHolds (s.modTwin fun w => { w with helloSent := false, formSeq := none, st := .single })
  else s.modTwin fun w => { w with helloSent := false }

end Sys2Proof.Machine
end

