-- ==== Sys2Proof/Machine/LinkCore.lean ====
section
/-! DEFINITION. A link as a whole (R417-R419, R428, R439, R440, R455-R460): bring-up and narrowing of its lanes, its session opened, held and lost, its service. -/

namespace Sys2Proof.Machine

/-! ## Names -/

/-- Lane `n` of physical index `p` on link `k`, and the registers of a lane and a link (R433, R462). -/
def laneNo (k p : Nat) : Nat := 5 * k + p
def lanReg (n off : Nat) : Nat := 0x400000 + 0x80 * n + off
def linkReg (k off : Nat) : Nat := 0x401000 + 0x40 * k + off
def uliReg (k off : Nat) : Nat := 0x402000 + 0x100 * k + off

/-- The domain of a link, its image block, the source block of a lane's records (R512). -/
def linkDomain (k : Nat) : Nat := if k = 4 then 15 else 14
def imgLink (s : State) (k : Nat) : ImgLink := nth s.img.links k factoryLink
def srcLane (n : Nat) : Nat := src (if n < 20 then 14 else 15) n

/-- The number of ones of a number below 2^64. -/
def popcount (n : Nat) : Nat := ((List.range 64).filter (bit n)).length

/-- The sender ID of R419: LCY_UID0, or the one drawn when both ends' IDs were equal. -/
def ownSender (s : State) (k : Nat) : Word := (s.link k).ownId.getD (w32 (wordAt uniqueId 0))

/-- A link is in service (R455). -/
def linkServes (s : State) (k : Nat) : Bool := decide ((s.link k).st ≠ .absent ∧ (s.link k).st ≠ .outOfService)

/-- The five lanes of a link changed. -/
def modLanes (s : State) (k : Nat) (f : Nat → Lane → Lane) : State :=
  (List.range 5).foldl (fun s p => s.modLane (laneNo k p) (f p)) s

/-- The physical indices of a link's lanes in some states. -/
def lanesIn (s : State) (k : Nat) (p : LaneSt → Bool) : List Nat := (List.range 5).filter fun i => p (s.lane (laneNo k i)).st

/-- A lane that a planned swap has taken out for good (R504). -/
def laneWorn (s : State) (n : Nat) : Bool := decide (n ∈ s.mram.laneFailed)

/-! ## Bring-up -/

/-- The lanes of a link start in a state; worn ones stay FAILED, and what a lane has learnt of its peer goes (R417). -/
def restartLanes (s : State) (k : Nat) (st : LaneSt) : State :=
  modLanes s k fun p x => { x with
    st := if laneWorn s (laneNo k p) then .failed else st, logical := 7, inverted := false, peer := false, detects := 0
    verifying := false, peerLocked := false, rate := 0 }

/-- Bring-up from DETECT (R417): the rates of MAX_RATE are on offer, LOOP_ACCEPT and EI_EN take effect (R433). -/
def startBringup (s : State) (k : Nat) : State :=
  let ctl := (s.reg (linkReg k 8)).toNat
  let s := s.modLink k fun l => { l with
    lst := .detect, width := 0, spare := 7, map := [], rate := 0, offer := 2 ^ (min (ctl % 4) 2 + 1) - 1 + 16 * bits ctl 5 4
    mapping := false, loopMode := 0, loopMask := 0, swap := none, narrowing := false, fails := 0, detectAt := s.now, capsSeen := []
    eiIdle := false, eiAsked := false, noPeerLogged := false }
  (restartLanes s k .detect).emit (.laneDetect k)

/-- A return to DETECT (R417): counted; the eighth in a row is recorded. -/
def toDetect (s : State) (k : Nat) : State :=
  let n := (s.link k).fails + 1
  let s := (s.incReg (linkReg k 0x14)).modLink k fun l => { l with
    lst := .detect, rate := 0, fails := n, capsSeen := [], detectAt := s.now, narrowing := false }
  let s := (restartLanes s k .detect).emit (.laneDetect k)
  if n = 8 then s.raise { code := Ev.linkTrainFail, src := srcLink k } else s

/-- The lanes of a link OFF (R417). -/
def lanesOff (s : State) (k : Nat) : State :=
  (restartLanes s k .off).modLink k fun l => { l with
    lst := .off, width := 0, spare := 7, map := [], rate := 0, swap := none, narrowing := false, eiIdle := false, eiAsked := false, capsSeen := [] }

/-- The session of a link held while its lanes are not ACTIVE (R440); one that is being opened starts again. -/
def holdSession (s : State) (k : Nat) : State :=
  match (s.link k).st with
  | .up => s.modLink k fun l => { l with st := .held, holdUntil := s.now + ms (clampTo 1 1000 (s.reg (uliReg k 0x44)).toNat) }
  | .init => s.modLink k fun l => { l with st := .waiting }
  | _ => s

/-- Narrowing starts (R428): the lanes still in use retrain at the present rate, and the session is held. -/
def startNarrow (s : State) (k : Nat) : State :=
  if (s.link k).narrowing then s.modLink k fun l => { l with swap := none }
  else
    let s := holdSession ((s.incReg (linkReg k 0x1C)).modLink k fun l => { l with lst := .recover, narrowing := true, swap := none, eiIdle := false, eiAsked := false }) k
    modLanes s k fun _ x => { x with st := if x.st = .active ∨ x.st = .spare ∨ x.st = .ei then .train else x.st, verifying := false }

/-- Width code and number of data lanes for a number of usable lanes, and whether one is the spare (R418). -/
def widthFor (n : Nat) : Nat × Nat := if 4 ≤ n then (3, 4) else if 2 ≤ n then (2, 2) else if n = 1 then (1, 1) else (0, 0)

/-- Usable lanes in the order of the mapping end's physical indices (R419). -/
def mapOrder (s : State) (k : Nat) (usable : List Nat) : List Nat :=
  if (s.link k).mapping then usable
  else ((List.range 5).flatMap fun i => usable.filter fun p => decide ((s.lane (laneNo k p)).peerPhys = i))

/-- Lanes ACTIVE on the usable ones (R418, R419), no wider than `most` data lanes (R428). -/
def setActive (s : State) (k most : Nat) (usable : List Nat) : State :=
  let n := min (widthFor usable.length).2 most
  let w := if n = 4 then 3 else n
  let order := mapOrder s k usable
  let data := order.take n
  let spare := if n < usable.length then order.getLastD 7 else 7
  let s := modLanes s k fun p x =>
    if p ∈ data then { x with st := .active, logical := data.idxOf p, rate := (s.link k).rate }
    else if p = spare then { x with st := .spare, logical := 7, rate := (s.link k).rate }
    else { x with st := if x.st = .failed ∨ x.st = .recover then x.st else .off, logical := 7 }
  s.modLink k fun l => { l with lst := .active, width := w, spare := spare, map := data, narrowing := false, swap := none, fails := 0 }

/-! ## Sessions -/

/-- A nonzero session number drawn for an open (R439). -/
def drawSession (s : State) : Nat × State := (max 1 (Config.freeSession s.fresh).toNat, s.bump)

/-- The lanes of a link are ACTIVE: INIT goes out in every slot, with RESUME for a held session (R439, R440). -/
def lanesUp (s : State) (k : Nat) : State :=
  match (s.link k).st with
  | .held => s.emit (.uliInit k (s.link k).session false true)
  | .waiting | .init =>
    let (n, s) := drawSession s
    (s.modLink k fun l => { l with st := .init, ownSession := n, initSent := true, gotInit := none }).emit (.uliInit k n false false)
  | .contained =>
    let (n, s) := drawSession s
    (s.modLink k fun l => { l with ownSession := n, initSent := true, gotInit := none }).emit (.uliInit k n false false)
  | _ => s

/-- The link layer's state with no session. -/
def noSession (l : Link) : Link :=
  { l with session := 0, initSent := false, gotInit := none, rxNext := 0, txNext := 0, unacked := 0, replays := 0, nakFor := none
           ackOwed := false, limits := [], used := [], freed := [], ownFreed := [], txQ := [], rxPart := [], rxMsgs := [], reqs := []
           quar := [], stalled := false }

/-- The accesses that a link holds: in its stream, each once, and waiting to enter it. -/
def linkSent (l : Link) : List Acc := (l.reqs.map fun r => r.acc).dedup
def linkWaiting (l : Link) : List Acc := (l.txQ.filterMap fun m => m.req).filter fun a => decide (a ∉ linkSent l)

/-- One access of a lost session ends (R458): a host read with Completer Abort, its bytes going back (R352), any other by its path; none writes a record of its own. -/
def dropLinkAcc (s : State) (cs : Nat) (a : Acc) : State :=
  match a.origin with
  | .read u => match getRead s u with
    | some r => match r.who with
      | .host _ _ => if r.ended = 0 then abortHostRead (dropAccVote s a) r cs 3 true else failAcc s a cs (accFirst a) 0 none
      | .seg _ _ => failAcc s a cs (accFirst a) 0 none
    | none => dropAccVote s a
  | _ => failAcc s a cs (accFirst a) 0 none

/-- The kind of requester of an access, as the rows of R458: 0 held host read, 1 queued segment, 2 posted write, 3 harvest or flood point. -/
def accRow (s : State) (a : Acc) : Nat :=
  match a.origin with
  | .hostWrite => 2
  | .harvest _ _ _ => 3
  | _ => if (accSlot s a).isSome then (if a.kind = .write then 2 else 1) else 0

/-- Every access of a link ends with a CS: the counts of R458's rows, the messages not yet sent last, and the state. -/
def endLinkAccs (s : State) (k cs : Nat) : List Nat × State :=
  let l := s.link k
  let all := linkSent l ++ linkWaiting l
  let counts := (List.range 4).map fun r => (all.filter fun a => decide (accRow s a = r)).length
  let s := s.modLink k fun l => { l with reqs := [], txQ := [] }
  (counts ++ [(linkWaiting l).length], all.foldl (fun s a => dropLinkAcc s cs a) s)

/-- Saltmaster's vote on a link's domain, while any link of the domain is in service (R90). -/
def linkVote (s : State) (k : Nat) : State :=
  let on := if k = 4 then linkServes s 4 else (List.range 4).any fun j => linkServes s j
  if on then (if Client.saltmaster ∈ (s.dom (linkDomain k)).votes then s else raiseVote s (linkDomain k) Client.saltmaster)
  else dropVote s (linkDomain k) Client.saltmaster

/-- A link enters service (R455): WAITING, its lanes brought up. -/
def linkStart (s : State) (k : Nat) : State :=
  startBringup (linkVote (s.modLink k fun l => { noSession l with st := .waiting }) k) k

/-- A link out of service (R455): lanes OFF, the vote withdrawn, the command that took it out done; a command into service that waited starts it again. -/
def linkOff (s : State) (k : Nat) : State :=
  let l := s.link k
  let s := lanesOff (s.modLink k fun l => { noSession l with st := .outOfService, stopMb := none, retrainMb := none }) k
  let s := linkVote s k
  let s := match l.stopMb with
    | some mb => done s mb []
    | none => s
  let s := match l.retrainMb with
    | some mb => ran s mb Cs.linkDown []
    | none => s
  if l.svcMb.isSome then linkStart s k else s

/-- A session is lost (R458-R460): every request ends LINK_DOWN, LINK_DOWN is written with the cause and the counts, and a rack link enters containment. -/
def loseSession (s : State) (k cause : Nat) : State :=
  let (counts, s) := endLinkAccs s k Cs.linkDown
  let mb := (s.link k).retrainMb
  let s := (s.incReg (uliReg k 0x3C)).modLink k fun l => { noSession l with st := .waiting, retrainMb := none }
  let s := s.raise { code := Ev.linkDown, src := srcLink k, cs := Cs.linkDown, data := leBytes 4 cause ++ counts.flatMap (leBytes 4) }
  let s := match mb with
    | some m => ran s m Cs.linkDown []
    | none => s
  if k = 4 then (if (s.link 4).stopMb.isSome then linkOff (twinSessionLost s) 4 else twinSessionLost s)
  else
    let s := enterLink s k cause (counts.take 4).sum
    let s := s.modLink k fun l => { l with st := .contained }
    if (s.link k).stopMb.isSome then linkOff s k else s

/-- A link whose last request has been answered, and which is being taken out of service, sends CLOSE and stops (R455). -/
def linkStopCheck (s : State) (k : Nat) : State :=
  let l := s.link k
  if l.stopMb.isSome ∧ (l.reqs.all fun r => r.res.isSome) ∧ (l.txQ.all fun m => m.req.isNone) then
    linkOff (if l.st = .up then s.emit (.uliMessage k (leBytes 1 0x21 ++ leBytes 15 0)) else s) k
  else s

/-- A session opens (R439, R457): counters from 0, the peer's limits in force, LINK_UP, and LINK_PEER_CHANGED for another sender than the last. -/
def openSession (s : State) (k : Nat) (f : InitFlit) : State :=
  let old := (s.link k).peerId
  let s := s.modLink k fun l => { noSession l with
    st := .up, session := if l.mapping then l.ownSession else f.session, ownSession := l.ownSession, peerSession := f.session
    peerVersion := f.version, peerRole := f.role, peerId := some f.sender, peerReplayCap := clampTo 64 1024 f.replayCap
    limits := (List.range 4).map fun c => nth f.limits c 0, used := [0, 0, 0, 0], freed := [0, 0, 0, 0], ownFreed := [0, 0, 0, 0]
    maxLen := clampTo 256 4096 f.maxLen }
  let s := (s.setReg (uliReg k 0x50) f.sender).raise { code := Ev.linkUp, src := srcLink k }
  let s := match old with
    | some w => if w = f.sender then s else s.raise { code := Ev.linkPeerChanged, src := srcLink k }
    | none => s
  let l := s.link k
  let s := s.modLink k fun l => { l with svcMb := none, retrainMb := none }
  let s := match l.svcMb with
    | some mb => done s mb []
    | none => s
  let s := match l.retrainMb with
    | some mb => done s mb []
    | none => s
  if k = 4 then sendHello s else s

/-- A held session resumes (R440): the transmitter replays from the peer's ACK. -/
def resumeSession (s : State) (k : Nat) : State :=
  let l := s.link k
  let s := s.addReg (uliReg k 0x28) l.unacked
  let s := (s.modLink k fun l => { l with st := .up, nakFor := none, retrainMb := none }).emit (.uliReplay k ((l.txNext + 4096 - l.unacked) % 4096) l.unacked)
  match l.retrainMb with
  | some mb => done s mb []
  | none => s

/-- The peer's VERSION and ROLE are the ones R439 asks for on a link. -/
def initAllowed (k : Nat) (f : InitFlit) : Bool := decide (f.version = 1 ∧ f.role = (if k = 4 then 2 else 1))

/-- An INIT that R439 does not allow (R459): a rack link enters containment with cause VERSION, and its session, if it has one, is lost. -/
def initRefused (s : State) (k : Nat) : State :=
  if k = 4 then s
  else
    let s := s.modCont fun c => { c with linkVersion := insertAsc k c.linkVersion }
    let st := (s.link k).st
    let s := if st = .up ∨ st = .held then loseSession s k 0 else s
    if bit (s.linkCause k) 2 then s else (enterLink s k 2 0).modLink k fun l => { l with st := .contained }

/-- An INIT flit arrives (R439, R440, R457-R459). -/
def sessionInitEff (s : State) (k : Nat) (f : InitFlit) : State :=
  let l := s.link k
  if !linkServes s k ∨ l.lst ≠ .active then s
  else if !initAllowed k f then initRefused s k
  else
    let s := s.modCont fun c => { c with linkVersion := c.linkVersion.filter fun j => decide (j ≠ k) }
    match l.st with
    | .held => if f.resume ∧ f.session = l.session ∧ f.lastAgreed = l.session then resumeSession s k else loseSession s k 0
    | .up => if f.session = l.peerSession ∨ (f.resume ∧ f.session = l.session) then s else loseSession s k 0
    | .init =>
      let s := s.modLink k fun l => { l with gotInit := some f, peerVersion := f.version, peerRole := f.role }
      if f.initAck then openSession s k f
      else s.emit (.uliInit k l.ownSession true false)
    | _ => (s.modLink k fun l => { l with gotInit := some f, peerVersion := f.version, peerRole := f.role }).emit (.uliInit k l.ownSession true false)

/-- SESSION_INIT_RECEIVE (R439). -/
def execSessionInitReceive (k : LinkId) (f : InitFlit) (s : State) : Host.Outcome State Fault Refusal := .next (sessionInitEff s k.val f)

/-- ULI_HOLD_EXPIRE (R440, R458). -/
def execUliHoldExpire (k : LinkId) (s : State) : Host.Outcome State Fault Refusal :=
  .next (if (s.link k.val).st = .held then loseSession (s.atTime (s.link k.val).holdUntil) k.val 0 else s)

/-- SESSION_SILENCE (R458): 1 ms without a flit outside electrical idle. -/
def execSessionSilence (k : LinkId) (s : State) : Host.Outcome State Fault Refusal :=
  .next (if (s.link k.val).st = .up ∧ !(s.link k.val).eiIdle then loseSession s k.val 0 else s)

end Sys2Proof.Machine
end

