-- ==== Sys2Proof/Machine/PanHealth.lean ====
section
/-! DEFINITION. Retiring pans and losing beds (R257-R261, R500, R501, R506-R509): handover to the spare, fostering, the spare's self-test, and the loss of a bed. -/

namespace Sys2Proof.Machine

/-- Block data of a record of the 0x0B subject (R514). -/
def spareData (kind action index meas bound reason : Nat) : List Byte :=
  leBytes 1 kind ++ leBytes 1 action ++ leBytes 2 index ++ leBytes 4 meas ++ leBytes 4 bound ++ leBytes 1 reason

/-- A spare record. -/
def spareRec (s : State) (code srcId kind action index meas bound reason : Nat) : State :=
  s.raise { code := code, src := srcId, data := spareData kind action index meas bound reason }

/-- A decision recorded in SPR_LAST with MSI-X entry 5 of PF0 (R183, R504, R522). -/
def decided (s : State) (kind index action : Nat) : State :=
  sendMsix (s.modSpares fun x => { x with last := w32 (kind + index % 65536 * 256 + action * 2 ^ 24) }) 0 5

/-- A spare brought in is counted (R522). -/
def spareUsed (s : State) : State := s.incReg 0x540014

/-- The source block of a pan's records (R512). -/
def srcPan (p : Nat) : Nat := src (4 + p / 17) p

/-- A pan can serve: neither RETIRED nor FAILED (R263). -/
def panGood (s : State) (p : Nat) : Bool := decide ((s.pan p).st ≠ 4 ∧ (s.pan p).st ≠ 5)

/-- The ready spare of a bed (R258). -/
def bedSpare (s : State) (b : Nat) : Option Nat := ((List.range 17).map fun j => 17 * b + j).find? fun p => panGood s p && decide ((s.pan p).pos = 31)

/-- The pan that serves a position, if one does. -/
def posPan (s : State) (b i : Nat) : Option Nat := ((List.range 17).map fun j => 17 * b + j).find? fun p => panGood s p && decide ((s.pan p).pos = i)

/-- A pan's entry in the spare map (R500, R508). -/
def mapPan (s : State) (p : Nat) (st pos : Nat) : State :=
  (s.setPan p { st := st, pos := pos }).modMram fun m => { m with
    panState := m.panState.set (fun _ => 0) p st
    panPos := m.panPos.set (fun _ => 0) p (if st = 0 ∧ pos = (panInit p).pos then 0 else pos + 1) }

/-- The transfer votes of a position's slots move to the clients of the pan that now serves it: `s` holds the new map, `olds` the votes to withdraw (R250, R258). -/
def moveVotes (s : State) (olds : List (Nat × Nat)) (b i : Nat) : State :=
  let s := (posBusy s b i).foldl (fun s k => raiseSlotVotes s k) s
  olds.foldl (fun s e => dropVote s e.1 e.2) s

/-- The votes that the slots of a position hold, as (domain, client). -/
def posVotes (s : State) (b i : Nat) : List (Nat × Nat) :=
  (posBusy s b i).flatMap fun k => (slotDomains s k).map fun d => (d, xferClient s k)

/-- The length of a handover, which no command carries: PAN_HOLD_LAST of the pans that took part and BED_HOLD_MAX (R258, R262, R264). -/
def noteHold (s : State) (b : Nat) (ps : List Nat) : State :=
  let v := Config.freeInterval s.fresh
  let s := ps.foldl (fun s p => s.setReg (panReg p 0x1C) v) s.bump
  let k := 0x184018 + 0x100 * b
  s.setReg k (if (s.reg k).toNat < v.toNat then v else s.reg k)

/-- Handover of a position to the spare (R258): pan `p` retires, `sp` serves its position. -/
def toSpare (s : State) (p sp : Nat) : State :=
  let b := p / 17
  let i := (s.pan p).pos
  let olds := posVotes s b i
  let s := mapPan (mapPan s p 4 31) sp 0 i
  noteHold ((moveVotes s olds b i).incReg 0x188010) b [p, sp]

/-- The foster of a closed position: the in-service pan of the bed with the fewest occupied slots (R260). -/
def fosterPos (s : State) (b i : Nat) : Option Nat :=
  minBy ((List.range 16).filter fun j => decide (j ≠ i) && !posClosed s b j && (posPan s b j).isSome) fun j => (posBusy s b j).length

/-- A bed with no spare gives a position up (R260): a foster takes its slots and its pinned queues. -/
def toFoster (s : State) (p : Nat) : State :=
  let b := p / 17
  let i := (s.pan p).pos
  let f := (fosterPos s b i).getD 31
  let s := mapPan s p 4 31
  let s := s.modBed b fun x => { x with closed := (x.closed.map fun c => if c.2 = i then (c.1, f) else c) ++ [(i, f)] }
  let s := s.qs.ctx.rows.foldl (fun s kv => if kv.2.st ≠ .free ∧ kv.2.bed = b ∧ kv.2.pin = i ∧ f < 16 then s.modQ kv.1 fun c => { c with pin := f } else s) s
  noteHold (s.incReg 0x188010) b [p]

/-- The records of a pan that retires (R257, R258, R260, R506): `action` 0 fault, 1 planned, 2 override. -/
def retireRecs (s : State) (p action meas bound : Nat) (spare : Option Nat) : State :=
  let s := if action = 0 then s else spareRec s Ev.panRetired (srcPan p) 1 action p meas bound 0
  match spare with
  | some sp => decided (spareUsed (if action = 0 then spareRec s Ev.panSpareIn (srcPan p) 1 0 sp meas bound 0 else s)) 1 p action
  | none => decided (spareRec s Ev.panNoSpare (srcPan p) 1 action p meas bound 0) 1 p action

/-- A pan gives up its position (R258, R260, R506). -/
def retirePan (s : State) (p action meas bound : Nat) : State :=
  let s := if action = 0 then spareRec (s.incReg (panReg p 0x18)) Ev.panFault (srcPan p) 1 0 p 0 0 0 else s
  match bedSpare s (p / 17) with
  | some sp => retireRecs (toSpare s p sp) p action meas bound (some sp)
  | none => retireRecs (toFoster s p) p action meas bound none

/-- A pan in service: it serves a position of a bed that is not lost. -/
def panServes (s : State) (p : Nat) : Bool := panGood s p && decide ((s.pan p).pos < 16) && !(s.bed (p / 17)).lost

/-- PAN_FAULT (R257, R258, R501): a parity or duplication check fails. -/
def execPanFault (p : Fin 136) (s : State) : Host.Outcome State Fault Refusal :=
  .next (if panServes s p.val then retirePan s p.val 0 0 0 else s)

/-- PAN_WATCHDOG_EXPIRE (R257): no progress for 1 µs while no read is outstanding and no write waits for credit. -/
def execPanWatchdogExpire (p : Fin 136) (s : State) : Host.Outcome State Fault Refusal :=
  .next (if panServes s p.val ∧ (posBusy s (p.val / 17) (s.pan p.val).pos).any (fun k => (s.slot k).started && !(s.slot k).frozen && !(s.slot k).sent && !(s.slot k).readReq
      && !(s.slot k).waitEntry && (slotReadOf s k).isNone && !isRmwSlot s k) then
    retirePan s p.val 0 0 0 else s)

/-- SPARE_SELF_TEST (R259): the spare's test completes; one that fails leaves the bed without a spare. -/
def selfTestEff (s : State) (b : Nat) (pass : Bool) : State :=
  match bedSpare s b with
  | none => s
  | some sp => if pass then s else spareRec (mapPan s sp 5 31) Ev.panSpareFail (srcPan sp) 1 0 sp 0 0 0

/-- SPARE_SELF_TEST (R259). -/
def execSpareSelfTest (b : Fin 8) (pass : Bool) (s : State) : Host.Outcome State Fault Refusal := .next (selfTestEff s b.val pass)

/-! ## The loss of a bed -/

/-- A domain becomes DISABLED with reason RETIRED, and the spare map records it (R98, R509). -/
def retireDomain (s : State) (d : Nat) : State :=
  ((s.modDom d fun x => { x with st := .disabled, reason := 2 }).modPwr fun p => { p with ramp := p.ramp.filter fun e => decide (e ≠ d) }).modMram
    fun m => { m with islandFailed := insertAsc d m.islandFailed }

/-- A started segment of a lost bed is reported done with ISLAND_ABSENT (R261). -/
def loseStarted (s : State) (k : Nat) : State :=
  let x := s.slot k
  let d := getDesc s x.queue x.uid
  let s := emptySlot (segClose (quitSlot s k (some Cs.islandAbsent)) k) k
  match d with
  | some d =>
    let s := queueFaultRec s x.queue d Ev.islandAbsent Cs.islandAbsent 0
    segFault s x.queue x.uid x.off Cs.islandAbsent 0 (segResidual d x Cs.islandAbsent 0)
  | none => s

/-- Insert a plan among the segments still to push, in ascending offset. -/
def planInsert (g : SegPlan) : List SegPlan → List SegPlan
  | [] => [g]
  | h :: r => if g.off < h.off then g :: h :: r else h :: planInsert g r

/-- An unstarted segment goes back to the front end, to be pushed again (R261). -/
def unpush (s : State) (k : Nat) : State :=
  let x := s.slot k
  let s := modDesc s x.queue x.uid fun d => { d with
    inPans := dropFirst (fun g => decide (g.1 = x.off)) d.inPans
    toPush := if x.cancelled then d.toPush else planInsert { off := x.off, len := x.len, src := x.src, dst := x.dst, pinned := x.pinned } d.toPush }
  emptySlot s k

/-- A queue homed on a lost bed moves to the next bed upward that is not DISABLED (R261). -/
def rehome (s : State) (q : Nat) : State :=
  match pushBed s (s.q q).bed with
  | some b => let i := choosePin s b; s.modQ q fun c => { c with bed := b, pin := i }
  | none => s

/-- The rakes across beds that the pans of a bed have outstanding end: what was on its way stays where it is. -/
def dropRakes (s : State) (b : Nat) : State :=
  let mine := s.qs.xrakes.filter fun r => decide (r.1 / 16 = b)
  (mine.flatMap fun r => r.2).foldl (fun s k => if (s.slot k).moving.any fun m => decide (m / 16 = b) then s.modSlot k fun x => { x with moving := none } else s)
    (s.modQs fun q => { q with xrakes := q.xrakes.filter fun r => decide (r.1 / 16 ≠ b) })

/-- A bed is lost (R261): its island failed while it held work. -/
def bedLost (s : State) (b : Nat) : State :=
  let s := (retireDomain s (4 + b)).modBed b fun x => { x with lost := true, advertised := 0 }
  let here := (busySlots s).filter fun k => decide (slotBed k = b)
  let started := here.filter fun k => (s.slot k).started
  let s := (here.filter fun k => !(s.slot k).started).foldl unpush s
  let s := started.foldl loseStarted s
  let s := dropRakes s b
  let s := s.qs.ctx.rows.foldl (fun s kv => if kv.2.st ≠ .free ∧ kv.2.bed = b then rehome s kv.1 else s) s
  spareRec s Ev.bedLost (src (4 + b) 0) 6 0 (4 + b) 0 0 0

/-- BED_PLL_UNLOCK (R261): a powered bed's PLL unlocks. -/
def execBedPllUnlock (b : Fin 8) (s : State) : Host.Outcome State Fault Refusal :=
  .next (if domUp s (4 + b.val) then bedLost s b.val else s)

end Sys2Proof.Machine
end

