-- ==== Sys2Proof/Machine/Lanes.lean ====
section
/-! DEFINITION. The lanes of a link (R413-R429, R431): receiver detect, bring-up, equalisation, stir blocks, lane loss, the swap to the spare, narrowing, electrical idle and the far-end loop. -/

namespace Sys2Proof.Machine

/-- A record of a lane or a link without block data. -/
def laneEv (code n : Nat) : Ev := { code := code, src := srcLane n }
def linkEv (code k : Nat) : Ev := { code := code, src := srcLink k }

/-- The link of a lane and its physical index there (R413). -/
def laneLink (n : Nat) : Nat := n / 5
def lanePhys (n : Nat) : Nat := n % 5

/-- The link of a lane is being brought up: its lanes run the table of R417. -/
def bringingUp (l : Link) : Bool := decide (l.lst = .train ∨ l.lst = .caps ∨ l.lst = .recover)

/-! ## Bring-up (R417) -/

/-- One receiver detect on the lanes of a link: a lane found twice in a row starts to train; the link leaves DETECT with them. -/
def detectEff (s : State) (k : Nat) (found : BitVec 5) : State :=
  if (s.link k).lst ≠ .detect ∨ !domUp s (linkDomain k) then s
  else
    let s := modLanes s k fun p x => if x.st = .detect then { x with
      detects := if found.getLsbD p then min 2 (x.detects + 1) else 0, peer := found.getLsbD p } else x
    if (lanesIn s k fun st => decide (st = .detect)).any fun p => decide (2 ≤ (s.lane (laneNo k p)).detects) then
      let s := modLanes s k fun _ x => if x.st = .detect then { x with st := if 2 ≤ x.detects then .train else .off } else x
      (s.modLink k fun l => { l with lst := .train, detectAt := s.now, noPeerLogged := false }).emit (.laneTrain k 0 false false)
    else s

/-- RECEIVER_DETECT (R417). -/
def execReceiverDetect (k : LinkId) (found : BitVec 5) (s : State) : Host.Outcome State Fault Refusal := .next (detectEff s k.val found)

/-- LANE_NO_PEER (R417): after 100 ms of detect one record, and detect goes on. -/
def execLaneNoPeer (k : LinkId) (s : State) : Host.Outcome State Fault Refusal :=
  .next (if (s.link k.val).lst = .detect ∧ !(s.link k.val).noPeerLogged then
    ((s.atTime ((s.link k.val).detectAt + ms 100)).modLink k.val fun l => { l with noPeerLogged := true }).raise (linkEv Ev.laneNoPeer k.val)
  else s)

/-- LANE_BIT_LOCK (R417, R421): the sync header search starts; the sweep of the eye openings has set the initial code, which the row brings. -/
def execLaneBitLock (n : LaneId) (code : Fin 31) (s : State) : Host.Outcome State Fault Refusal :=
  .next (if (s.lane n.val).st = .train ∧ bringingUp (s.link (laneLink n.val)) then
    s.modLane n.val fun x => { x with st := .bitLock, code := code.val, initial := code.val, dirty := true }
  else s)

/-- A lane with block lock both ways sends CAPS; the link is in CAPS with its first (R417). -/
def toCaps (s : State) (n : Nat) : State :=
  let k := laneLink n
  let s := (s.modLane n fun x => { x with st := .caps }).modLink k fun l => { l with lst := if l.lst = .train then .caps else l.lst }
  s.emit (.laneCaps k (lanePhys n) false)

/-- LANE_BLOCK_LOCK (R417): TRAIN goes out with LOCKED. -/
def execLaneBlockLock (n : LaneId) (s : State) : Host.Outcome State Fault Refusal :=
  .next (if (s.lane n.val).st = .bitLock ∧ bringingUp (s.link (laneLink n.val)) then
    let s := (s.modLane n.val fun x => { x with st := .blockLock }).emit (.laneTrain (laneLink n.val) (lanePhys n.val) true (decide (0 < (s.link (laneLink n.val)).rate)))
    if (s.lane n.val).peerLocked then toCaps s n.val else s
  else s)

/-! ## Lane loss, swap and narrowing (R425-R428) -/

/-- The times of a lane's losses within the last 60 s. -/
def recentLosses (s : State) (x : Lane) : List Nat := x.losses.filter fun t => decide (s.now < t + 60000000000)

/-- A free switch count: the link's block count at some place ahead, which no command carries (R426). -/
def freeCount (s : State) : Nat × State := ((Config.freeInterval s.fresh).toNat % 65536, s.bump)

/-- The lost lane itself: counted, and retraining by itself (R428). -/
def laneDown (s : State) (n : Nat) : State :=
  (s.incReg (lanReg n 0x10)).modLane n fun x => { x with st := .recover, logical := 7, verifying := false, losses := recentLosses s x ++ [s.now] }

/-- A lane of an active link is lost (R425): a data lane moves to the spare where there is one and no swap runs, else the link narrows (R426, R427). -/
def laneLost (s : State) (n : Nat) : State :=
  let k := laneLink n
  let st := (s.lane n).st
  let m := (s.lane n).logical
  let s := laneDown s n
  let l := s.link k
  if st = .spare then
    let s := (s.modLink k fun l => { l with spare := 7 }).raise (laneEv Ev.laneSpareLost n)
    if l.swap.isSome then startNarrow s k else s
  else if l.swap.isSome ∨ l.spare = 7 then startNarrow s k
  else
    let (c, s) := freeCount s
    (s.modLink k fun l => { l with swap := some (m, c, false) }).emit (.laneCtl k 1 m c)

/-- LANE_LOSS (R425). 32 invalid headers of 64 are counted among the invalid headers of the lane (R433). -/
def laneLossEff (s : State) (n : Nat) (cause : LaneLossCause) : State :=
  let st := (s.lane n).st
  if (s.link (laneLink n)).lst = .active ∧ !(s.link (laneLink n)).eiIdle ∧ (st = .active ∨ st = .spare) then
    laneLost (if cause = .headers then s.addReg (lanReg n 0xC) 32 else s) n
  else s

/-- LANE_LOSS (R425). -/
def execLaneLoss (n : LaneId) (cause : LaneLossCause) (s : State) : Host.Outcome State Fault Refusal := .next (laneLossEff s n.val cause)

/-- The earlier of two 16-bit switch counts. -/
def earlierCount (a b : Nat) : Nat := if (b + 65536 - a % 65536) % 65536 < 32768 then a else b

/-- A SWAP of the peer (R426, R427). -/
def swapReceivedEff (s : State) (k m count : Nat) : State :=
  let l := s.link k
  if l.lst ≠ .active ∨ l.map.length ≤ m then s
  else match l.swap with
    | some (m', c, _) => if m' = m then s.modLink k fun l => { l with swap := some (m, earlierCount c count, true) } else startNarrow s k
    | none =>
      let s := laneDown s (laneNo k (nth l.map m 0))
      if l.spare = 7 then startNarrow s k
      else
        let (c, s) := freeCount s
        (s.modLink k fun l => { l with swap := some (m, c, true) }).emit (.laneCtl k 2 m c)

/-- SWAP_RECEIVED (R426). -/
def execSwapReceived (k : LinkId) (logical : Fin 4) (count : BitVec 16) (s : State) : Host.Outcome State Fault Refusal :=
  .next (swapReceivedEff s k.val logical.val count.toNat)

/-- SWAP_ACK_RECEIVED (R426). -/
def execSwapAckReceived (k : LinkId) (count : BitVec 16) (s : State) : Host.Outcome State Fault Refusal :=
  .next (match (s.link k.val).swap with
    | some (m, _, false) => s.modLink k.val fun l => { l with swap := some (m, count.toNat, true) }
    | _ => s)

/-- SWAP_SWITCH (R426 steps 4 and 5): the logical lane is carried on the spare, and the link has none. A swap that a loss has asked for is a spare brought in (R501, R522); a planned one counted when it was decided. -/
def swapSwitchEff (s : State) (k : Nat) : State :=
  let l := s.link k
  match l.swap with
  | some (m, _, true) =>
    let s := s.modLane (laneNo k l.spare) fun x => { x with st := .active, logical := m }
    let s := s.modLink k fun l => { l with map := setNth l.map m l.spare, spare := 7, swap := none }
    let n := laneNo k (nth l.map m 0)
    let s := (s.incReg (linkReg k 0x18)).raise (laneEv Ev.laneSwap n)
    if laneWorn s n then s else decided (spareUsed s) 2 n 0
  | _ => s

/-- SWAP_SWITCH (R426). -/
def execSwapSwitch (k : LinkId) (s : State) : Host.Outcome State Fault Refusal := .next (swapSwitchEff s k.val)

/-- SWAP_ACK_TIMEOUT (R427). -/
def execSwapAckTimeout (k : LinkId) (s : State) : Host.Outcome State Fault Refusal :=
  .next (match (s.link k.val).swap with
    | some (_, _, false) => startNarrow s k.val
    | _ => s)

/-- Narrowing ends (R428): on the lanes that have block lock again, no wider than before; with none the link is down and starts again from DETECT. -/
def narrowDoneEff (s : State) (k : Nat) (usable : BitVec 5) : State :=
  let l := s.link k
  if !l.narrowing then s
  else
    let ok := (lanesIn s k fun st => decide (st = .train ∨ st = .bitLock ∨ st = .blockLock ∨ st = .caps)).filter fun p => usable.getLsbD p
    if ok = [] then
      let s := if l.st = .held then loseSession s k 0 else s
      if linkServes s k then toDetect s k else s
    else
      let s := setActive s k (widthFor (if l.width = 3 then 4 else l.width)).2 ok
      let s := s.raise { linkEv Ev.linkNarrow k with data := leBytes 1 l.width ++ leBytes 1 (s.link k).width }
      lanesUp s k

/-- LINK_NARROW_DONE (R428). -/
def execLinkNarrowDone (k : LinkId) (usable : BitVec 5) (s : State) : Host.Outcome State Fault Refusal := .next (narrowDoneEff s k.val usable)

/-- LANE_RESTORED (R428): a lost lane that regains lock and passes verification is the spare of a link that has none. -/
def laneRestoredEff (s : State) (n : Nat) : State :=
  let k := laneLink n
  if (s.lane n).st = .recover ∧ (s.link k).lst = .active ∧ (s.link k).spare = 7 ∧ (recentLosses s (s.lane n)).length < 3 then
    ((s.modLane n fun x => { x with st := .spare, logical := 7 }).modLink k fun l => { l with spare := lanePhys n }).raise (laneEv Ev.laneRestored n)
  else s

/-- LANE_RESTORED (R428). -/
def execLaneRestored (n : LaneId) (s : State) : Host.Outcome State Fault Refusal := .next (laneRestoredEff s n.val)

/-- LANE_FAILED (R428): 100 ms without recovery, or the third loss within 60 s. -/
def execLaneFailed (n : LaneId) (s : State) : Host.Outcome State Fault Refusal :=
  .next (if (s.lane n.val).st = .recover then
    (s.modLane n.val fun x => { x with st := .failed }).raise (laneEv Ev.laneFailed n.val)
  else s)

/-! ## Training and capabilities (R413, R415, R417-R420) -/

/-- TRAIN_BLOCK_RECEIVED (R415, R417, R420): the peer's physical index, its LOCKED and the polarity; a polarity that changes on an active lane loses it. -/
def trainReceivedEff (s : State) (n phys : Nat) (locked inverted : Bool) : State :=
  let x := s.lane n
  match x.st with
  | .train | .bitLock | .blockLock | .caps =>
    let s := s.modLane n fun x => { x with peerPhys := phys, inverted := inverted, peerLocked := x.peerLocked || locked }
    if x.st = .blockLock ∧ locked then toCaps s n else s
  | .active | .spare => if inverted ≠ x.inverted then laneLossEff s n .polarity else s
  | _ => s

/-- TRAIN_BLOCK_RECEIVED (R415). -/
def execTrainBlockReceived (n : LaneId) (phys : Fin 5) (locked inverted : Bool) (s : State) : Host.Outcome State Fault Refusal :=
  .next (trainReceivedEff s n.val phys.val locked inverted)

/-- The rate code of the highest rate of an offer (R413), 0 with none. -/
def topRate (offer : Nat) : Nat := if bit offer 2 then 2 else if bit offer 1 then 1 else 0

/-- The capabilities that a lane received. -/
def capsOf (caps : List (Fin 5 × CapsBlock)) (p : Nat) : Option CapsBlock := (caps.find? fun c => decide (c.1.val = p)).map fun c => c.2

/-- The usable lanes (R418): CAPS on them, and the peer has block lock on its side of each. -/
def usableLanes (s : State) (k : Nat) (caps : List (Fin 5 × CapsBlock)) : List Nat :=
  (lanesIn s k fun st => decide (st = .caps)).filter fun p => (capsOf caps p).any fun c => c.locked.getLsbD c.phys.val

/-- The end of bring-up (R417-R419): the lanes ACTIVE, counted and timed, and the session opened over them. -/
def bringupDone (s : State) (k : Nat) (usable : List Nat) : State :=
  let s := setActive s k 4 usable
  let s := (s.incReg (linkReg k 0x10)).setReg (linkReg k 0x20) (w32 ((s.now - (s.link k).detectAt) / 1000))
  lanesUp s k

/-- The exchange agrees (R413, R417-R419): equal sender IDs are drawn again; a higher rate is trained for; else the lanes are ACTIVE. -/
def capsAgree (s : State) (k : Nat) (caps : List (Fin 5 × CapsBlock)) (c : CapsBlock) : State :=
  if c.sender = ownSender s k then
    ((s.modLink k fun l => { l with ownId := some (Config.freeSender s.fresh), capsSeen := [] }).bump).emit (.laneCaps k 0 false)
  else
    let usable := usableLanes s k caps
    let rate := topRate ((s.link k).offer % 8 &&& c.rates.toNat)
    let s := modLanes (s.modLink k fun l => { l with mapping := decide ((ownSender s k).toNat < c.sender.toNat), peerLoopOk := c.loopOk }) k fun p x =>
      match capsOf caps p with
      | some b => { x with peerPhys := b.phys.val }
      | none => x
    if usable = [] then toDetect s k
    else if (s.link k).rate < rate then
      let s := s.modLink k fun l => { l with rate := rate, lst := .train, capsSeen := [] }
      (modLanes s k fun p x => if p ∈ usable then { x with st := .train, peerLocked := false, rate := rate } else x).emit (.laneTrain k 0 false true)
    else bringupDone s k usable

/-- CAPS_RECEIVED (R415, R417): the second of two identical blocks with ACK on every lane in CAPS ends the exchange; any block is answered with ACK. -/
def capsReceivedEff (s : State) (k : Nat) (caps : List (Fin 5 × CapsBlock)) : State :=
  let l := s.link k
  if l.lst ≠ .caps then s
  else
    let lanes := lanesIn s k fun st => decide (st = .caps)
    let all := lanes.all fun p => (capsOf caps p).any fun c => c.ack
    match lanes.head?.bind (capsOf caps) with
    | none => s
    | some c => if all ∧ caps = l.capsSeen then capsAgree s k caps c
      else (s.modLink k fun l => { l with capsSeen := caps }).emit (.laneCaps k 0 true)

/-- CAPS_RECEIVED (R417). -/
def execCapsReceived (k : LinkId) (caps : List (Fin 5 × CapsBlock)) (s : State) : Host.Outcome State Fault Refusal :=
  .next (capsReceivedEff s k.val caps)

/-- A bring-up that fails at a higher rate strikes that rate from the offer (R417). -/
def strikeRate (s : State) (k : Nat) : State :=
  if (s.link k).rate = 0 then s else s.modLink k fun l => { l with offer := if bit l.offer l.rate then l.offer - 2 ^ l.rate else l.offer }

/-- BRINGUP_STATE_TIMEOUT (R417): a lane in BIT_LOCK or BLOCK_LOCK is dropped from this bring-up; TRAIN, CAPS and RATE return to DETECT, as does a link with no lane left. -/
def stateTimeoutEff (s : State) (k p : Nat) : State :=
  let l := s.link k
  let n := laneNo k p
  let st := (s.lane n).st
  if l.lst ≠ .train ∧ l.lst ≠ .caps then s
  else if l.rate = 0 ∧ (st = .bitLock ∨ st = .blockLock) then
    let s := s.modLane n fun x => { x with st := .off }
    if (lanesIn s k fun st => decide (st = .train ∨ st = .bitLock ∨ st = .blockLock ∨ st = .caps)) = [] then toDetect s k else s
  else if st = .train ∨ st = .caps ∨ 0 < l.rate then toDetect (strikeRate s k) k
  else s

/-- BRINGUP_STATE_TIMEOUT (R417). -/
def execBringupStateTimeout (k : LinkId) (lane : Fin 5) (s : State) : Host.Outcome State Fault Refusal :=
  .next (stateTimeoutEff s k.val lane.val)

/-! ## Stir blocks and equalisation (R421-R424) -/

/-- STIR_INSERT (R424): each idle data lane and the spare send one STIR block. -/
def execStirInsert (k : LinkId) (s : State) : Host.Outcome State Fault Refusal :=
  .next (if (s.link k.val).lst = .active ∧ !(s.link k.val).eiIdle then s.emit (.laneStir k.val) else s)

/-- The CRC-8 of a control block's payload (R415). -/
def blockCrcOk (v : Nat) : Bool := decide (crc8 (leBytes 7 v) = BitVec.ofNat 8 (bits v 63 56))

/-- STIR_RECEIVED (R415, R424): the bits that differ from the fixed content are counted; a block with a bad CRC-8 or TYPE is a dropped control block, counted as one. -/
def stirReceivedEff (s : State) (n v : Nat) : State :=
  if (s.lane n).st ≠ .active ∧ (s.lane n).st ≠ .spare then s
  else
    let s := if blockCrcOk v ∧ v % 256 = 0x4B then s else s.incReg (lanReg n 0xC)
    let e := popcount (bits v 55 24 ^^^ 0x5A0FF0A5)
    if v % 256 = 0x4B ∧ 0 < e then (s.addReg (lanReg n 0x14) e).modLane n fun x => { x with dirty := true } else s

/-- STIR_RECEIVED (R424). -/
def execStirReceived (n : LaneId) (payload : DWord) (s : State) : Host.Outcome State Fault Refusal := .next (stirReceivedEff s n.val payload.toNat)

/-- LAN_ADAPT_CTL of a lane's link: DENS_MIN and RESUME, clamped (R433, R534). -/
def densMin (s : State) (k : Nat) : Nat := clampTo 1 1024 (bits (s.reg (linkReg k 0xC)).toNat 10 0)
def densResume (s : State) (k : Nat) : Nat := clampTo 1 15 (bits (s.reg (linkReg k 0xC)).toNat 19 16)

/-- The lane's receiver runs on a link in use. -/
def receiving (x : Lane) : Bool := decide (x.st = .active ∨ x.st = .spare)

/-- DENSITY_WINDOW (R423): a sparse window freezes adaptation; enough good ones in a row let it resume, but for a lane that R429 still verifies. -/
def densityEff (s : State) (n t : Nat) : State :=
  let k := laneLink n
  let x := s.lane n
  if !receiving x then s
  else if t < densMin s k then
    let s := if x.frozen then s else s.incReg (lanReg n 0x18)
    s.modLane n fun x => { x with frozen := true, dirty := true, okWindows := 0, density := t }
  else
    let ok := if x.frozen then x.okWindows + 1 else 0
    let go := decide (densResume s k ≤ ok) && !x.verifying
    s.modLane n fun x => { x with frozen := x.frozen && !go, okWindows := if go then 0 else ok, density := t }

/-- DENSITY_WINDOW (R423). -/
def execDensityWindow (n : LaneId) (transitions : Fin 1025) (s : State) : Host.Outcome State Fault Refusal :=
  .next (densityEff s n.val transitions.val)

/-- EQ_ADAPT_STEP (R422): one step of the peaking code, within 0-30. -/
def execEqAdaptStep (n : LaneId) (up : Bool) (s : State) : Host.Outcome State Fault Refusal :=
  .next (if receiving (s.lane n.val) ∧ !(s.lane n.val).frozen then
    s.modLane n.val fun x => { x with code := if up then min 30 (x.code + 1) else x.code - 1 }
  else s)

/-- EQ_VERIFY_PERIOD (R422): at the end of a clean 10 ms the code in use is the verified code. -/
def execEqVerifyPeriod (n : LaneId) (s : State) : Host.Outcome State Fault Refusal :=
  .next (if receiving (s.lane n.val) then
    s.modLane n.val fun x => { x with verified := if x.dirty ∨ x.frozen then x.verified else x.code, dirty := x.frozen }
  else s)

/-! ## Electrical idle (R429, R461) -/

/-- The link layer owes and waits for nothing (R461). -/
def linkQuiet (l : Link) : Bool := decide (l.txQ = [] ∧ l.unacked = 0 ∧ l.reqs = []) && !l.ackOwed && decide (l.rxMsgs = [])

/-- EI_REQUEST (R461): ULI_EI_IDLE has passed with nothing owed; EI_ENTER goes out. -/
def eiRequestEff (s : State) (k : Nat) : State :=
  let l := s.link k
  if l.lst = .active ∧ l.st = .up ∧ bit l.offer 5 ∧ s.reg (uliReg k 0x4C) ≠ 0 ∧ !l.eiIdle ∧ !l.eiAsked ∧ linkQuiet l then
    (s.modLink k fun l => { l with eiAsked := true }).emit (.laneCtl k 3 0 0)
  else s

/-- EI_REQUEST (R461). -/
def execEiRequest (k : LinkId) (s : State) : Host.Outcome State Fault Refusal := .next (eiRequestEff s k.val)

/-- EI_ENTER_RECEIVED (R429): answered where it was not asked for; the transmitters mark and stop. -/
def eiEnterEff (s : State) (k : Nat) : State :=
  let l := s.link k
  if l.lst = .active ∧ !l.eiIdle then
    let s := if l.eiAsked then s else s.emit (.laneCtl k 3 0 0)
    let s := modLanes (s.emit (.laneEiMark k)) k fun _ x => if receiving x then { x with st := .ei } else x
    s.modLink k fun l => { l with lst := .ei, eiIdle := true, eiAsked := false, idleFrom := s.now }
  else s

/-- EI_ENTER_RECEIVED (R429). -/
def execEiEnterReceived (k : LinkId) (s : State) : Host.Outcome State Fault Refusal := .next (eiEnterEff s k.val)

/-- Lanes lost one after the other (R425). -/
def lanesLost (s : State) (k : Nat) (ps : List Nat) : State := ps.foldl (fun s p => laneLost s (laneNo k p)) s

/-- EI_EXIT (R429): the lanes with block lock at the end of the burst carry on, verifying after a long idle; the others are lost, and with none the link retrains. -/
def eiExitEff (s : State) (k : Nat) (locked : BitVec 5) : State :=
  let l := s.link k
  if !l.eiIdle then s
  else
    let ps := lanesIn s k fun st => decide (st = .ei)
    let long := decide (l.idleFrom + ms 10 < s.now)
    let s := ps.foldl (fun s p => s.incReg (lanReg (laneNo k p) 0x1C)) s
    let s := (modLanes s k fun p x => if x.st = .ei then { x with
      st := if p = l.spare then .spare else .active
      verifying := long && locked.getLsbD p, frozen := x.frozen || (long && locked.getLsbD p), code := if long then x.verified else x.code } else x).modLink k fun l =>
        { l with lst := .active, eiIdle := false }
    let s := if long then s.emit (.laneStir k) else s
    if (ps.all fun p => !locked.getLsbD p) then startNarrow s k
    else lanesLost s k (ps.filter fun p => !locked.getLsbD p)

/-- EI_EXIT (R429). -/
def execEiExit (k : LinkId) (locked : BitVec 5) (s : State) : Host.Outcome State Fault Refusal := .next (eiExitEff s k.val locked)

/-- EI_VERIFY_END (R429 step 4): a verified lane's adaptation resumes, another is lost. -/
def eiVerifyEff (s : State) (k : Nat) (verified : BitVec 5) : State :=
  let ps := (List.range 5).filter fun p => (s.lane (laneNo k p)).verifying
  if (s.link k).lst ≠ .active then s
  else
    let s := ps.foldl (fun s p => s.modLane (laneNo k p) fun x => { x with verifying := false, frozen := false }) s
    lanesLost s k (ps.filter fun p => !verified.getLsbD p)

/-- EI_VERIFY_END (R429). -/
def execEiVerifyEnd (k : LinkId) (verified : BitVec 5) (s : State) : Host.Outcome State Fault Refusal := .next (eiVerifyEff s k.val verified)

/-! ## The far-end loop (R431) -/

/-- FAR_LOOP_ON (R431): a link out of service with LOOP_ACCEPT returns its peer's blocks. -/
def execFarLoopOn (k : LinkId) (s : State) : Host.Outcome State Fault Refusal :=
  .next (if (s.link k.val).st = .outOfService ∧ (s.link k.val).loopMode = 0 ∧ (s.reg (linkReg k.val 8)).getLsbD 4 then
    (modLanes s k.val fun _ x => if x.st = .off then { x with st := .loop } else x).modLink k.val fun l => { l with lst := .loop, farLoop := true }
  else s)

/-- FAR_LOOP_OFF (R431): LOOP_OFF, or 10 s with no block. -/
def execFarLoopOff (k : LinkId) (s : State) : Host.Outcome State Fault Refusal :=
  .next (if (s.link k.val).farLoop then
    (modLanes s k.val fun _ x => if x.st = .loop then { x with st := .off } else x).modLink k.val fun l => { l with lst := .off, farLoop := false }
  else s)

end Sys2Proof.Machine
end

