-- ==== Sys2Proof/Machine/Ulilum.lean ====
section
/-! DEFINITION. The link layer (R434-R454, R458, R461): flits received and checked, acknowledgement and replay, messages cut from requests and taken from the stream, completions, settles, notifications and request timeouts. -/

namespace Sys2Proof.Machine

/-! ## Messages (R446-R448, R452) -/

/-- A length padded to a multiple of 8. -/
def pad8 (n : Nat) : Nat := (n + 7) / 8 * 8

/-- Credit units of a message whose header gives `len` (R452). -/
def unitsOf (len : Nat) : Nat := (16 + pad8 len + 31) / 32

/-- The class of a message type (R448): 0 posted, 1 non-posted, 2 completion, 3 management; twin traffic is counted as management. -/
def classOf (mtype : Nat) : Nat := if mtype = 1 then 0 else if mtype = 2 ∨ mtype = 3 then 1 else if mtype = 0x10 ∨ mtype = 0x11 then 2 else 3

/-- The credit limits that the device advertises (R452). -/
def ownLimit_ (k c : Nat) : Nat := if k = 4 then nth [1024, 128, 0xFFF, 512] c 0 else nth [1536, 256, 0xFFF, 128] c 0

/-- The message header of R447. -/
def messageHeader (mtype space width len tag b6 b7 addr : Nat) : List Byte :=
  leBytes 1 mtype ++ leBytes 1 (space % 64 + widthLog width * 64) ++ leBytes 2 len ++ leBytes 2 tag ++ leBytes 1 b6 ++ leBytes 1 b7 ++ leBytes 8 addr

/-- Bytes padded to a multiple of 8. -/
def padded (l : List Byte) : List Byte := l ++ List.replicate (pad8 l.length - l.length) 0#8

/-- The last enabled byte of `bs` below `hi`, plus one; `lo` if none at or after it. -/
def lastBelow (bs : List (Option Byte)) (lo hi : Nat) : Nat :=
  ((List.range (hi - lo)).foldl (fun m j => if (nth bs (lo + j) none).isSome then lo + j + 1 else m) lo)

/-- The next message of a request from offset `off`: first byte and end. Byte enables reach only the first and the last 8 B unit of a message (R447), so it ends before a hole in between, and at the peer's largest length. -/
def messageSpan (a : Acc) (off most : Nat) : Nat × Nat :=
  let n := a.bytes.length
  let i := off + firstSome (a.bytes.drop off)
  let lim := min n (i + most)
  let p0 := i + (8 - (a.addr + i) % 8)
  let full := ((List.range (n / 8 + 1)).takeWhile fun m =>
    decide (p0 + 8 * m + 8 ≤ lim) && (List.range 8).all fun j => (nth a.bytes (p0 + 8 * m + j) none).isSome).length
  (i, lastBelow a.bytes i (min lim (p0 + 8 * full + 8)))

/-- The byte enables of the 8 B unit that holds offset `o` of an access, among the bytes from `i` to `e`. -/
def unitEnables (a : Acc) (i e o : Nat) : Nat :=
  ((List.range 8).map fun j =>
    let x := a.addr + o - (a.addr + o) % 8 + j
    if a.addr + i ≤ x ∧ x < a.addr + e ∧ (nth a.bytes (x - a.addr) none).isSome then 2 ^ j else 0).sum

/-- The data of a request message: a write's bytes, a read-modify-write's mask and value, none for a read. -/
def messageData (a : Acc) (i e : Nat) : List Byte :=
  match a.kind with
  | .write => (List.range (e - i)).map fun j => (nth a.bytes (i + j) none).getD 0#8
  | .read => []
  | .rmw => leBytes 8 a.mask ++ leBytes 8 a.value

/-- MTYPE of a request. -/
def requestType (a : Acc) : Nat :=
  match a.kind with
  | .write => 1
  | .read => 2
  | .rmw => 3

/-- A request message (R447). The tag carries bit 15 for a write. -/
def requestBytes (a : Acc) (tag i e : Nat) : List Byte :=
  messageHeader (requestType a) a.space a.width (e - i) tag (unitEnables a i e i) (unitEnables a i e (e - 1)) (a.addr + i)
    ++ padded (messageData a i e)

/-! ## Sending (R442-R446, R452, R454) -/

/-- Units that a class has in use, and whether `n` more fit the peer's limit. -/
def creditUsed (l : Link) (c : Nat) : Nat := (nth l.used c 0 + 4096 - nth l.freed c 0 % 4096) % 4096
def creditFits (l : Link) (c n : Nat) : Bool := decide (nth l.limits c 0 = 0xFFF ∨ creditUsed l c + n ≤ nth l.limits c 0)

/-- The replay limit (R444). -/
def replayLimit (l : Link) : Nat := min 1024 l.peerReplayCap

/-- A tag that no outstanding request and no quarantine holds, the next in turn (R454); posted tags carry bit 15. -/
def freeUliTag (l : Link) (posted : Bool) : Option Nat :=
  let b := if posted then 0x8000 else 0
  (List.range 4096).map (fun i => b + (l.nextTag + i) % 4096) |>.find? fun t => decide (t ∉ l.quar) && l.reqs.all fun r => decide (r.tag ≠ t)

/-- Bytes enter the stream in ⌈n / 300⌉ SEQ flits (R434; DESIGN CHOICE: a message opens its own flits). -/
def enterStream (s : State) (k cls units : Nat) (bytes : List Byte) : State :=
  let nf := (bytes.length + 299) / 300
  let s := (s.addReg (uliReg k 0x64) nf).modLink k fun l => { l with
    txNext := (l.txNext + nf) % 4096, unacked := l.unacked + nf, used := setNth l.used cls ((nth l.used cls 0 + units) % 4096), ackOwed := false }
  s.emit (.uliMessage k bytes)

/-- The flits fit under the replay limit; else the transmitter stalls, counted once (R444). -/
def roomFor (l : Link) (bytes : Nat) : Bool := decide (l.unacked + (bytes + 299) / 300 ≤ replayLimit l)
def stall (s : State) (k : Nat) : State :=
  if (s.link k).stalled then s else (s.incReg (uliReg k 0x30)).modLink k fun l => { l with stalled := true }

/-- ULI_REQ_TIMEOUT in ns (R462). -/
def uliTimeout (s : State) (k : Nat) : Nat := us (clampTo 10 50000 (s.reg (uliReg k 0x40)).toNat)

/-- The next message of a waiting request enters the stream, with its tag and timeout (R446, R454); the request stays at the head until its last. -/
def sendRequest (s : State) (k i : Nat) (m : TxMsg) (a : Acc) : State :=
  let l := s.link k
  match freeUliTag l (decide (a.kind = .write)) with
  | none => s
  | some tag =>
    let (lo, hi) := messageSpan a m.off l.maxLen
    let bytes := requestBytes a tag lo hi
    if !creditFits l m.cls (unitsOf (hi - lo)) then s
    else if !roomFor l bytes.length then stall s k
    else
      let more := (a.bytes.drop hi).any Option.isSome
      let s := s.modLink k fun l => { l with
        txQ := if more then setNth l.txQ i { m with off := hi } else l.txQ.eraseIdx i
        reqs := l.reqs ++ [{ tag := tag, acc := a, off := lo, len := hi - lo, deadline := s.now + uliTimeout s k, res := none }]
        nextTag := (tag % 4096 + 1) % 4096 }
      enterStream s k m.cls (unitsOf (hi - lo)) bytes

/-- The place of the message that goes next: requests keep their order in the one stream (R450), answers pass them. -/
def nextTx (l : Link) : Option Nat :=
  (List.range l.txQ.length).find? fun i => match l.txQ[i]? with
    | some m => if m.req.isSome then (l.txQ.take i).all fun x => x.req.isNone else creditFits l m.cls (unitsOf (m.bytes.length - 16)) && roomFor l m.bytes.length
    | none => false

/-- ULI_MESSAGE_SEND (R446). -/
def messageSendEff (s : State) (k : Nat) : State :=
  let l := s.link k
  if l.st ≠ .up ∨ l.lst ≠ .active then s
  else match nextTx l with
    | none => s
    | some i => match l.txQ[i]? with
      | some m => match m.req with
        | some a => sendRequest s k i m a
        | none => enterStream (s.modLink k fun l => { l with txQ := l.txQ.eraseIdx i }) k m.cls (unitsOf (m.bytes.length - 16)) m.bytes
      | none => s

/-- ULI_MESSAGE_SEND (R446). -/
def execUliMessageSend (k : LinkId) (s : State) : Host.Outcome State Fault Refusal := .next (messageSendEff s k.val)

/-! ## Replay (R442, R445) -/

/-- The transmitter replays its unacknowledged flits (R442); after four replays without ACK moving on it asks for a retrain instead, with its record (R445). -/
def replayNow (s : State) (k : Nat) : State :=
  let l := s.link k
  if l.unacked = 0 then s
  else if 4 ≤ l.replays then startNarrow ((s.modLink k fun l => { l with replays := 0 }).raise (linkEv Ev.linkReplayLimit k)) k
  else
    ((s.addReg (uliReg k 0x28) l.unacked).modLink k fun l => { l with replays := l.replays + 1 }).emit
      (.uliReplay k ((l.txNext + 4096 - l.unacked % 4096) % 4096) l.unacked)

/-- REPLAY_TIMER_EXPIRE (R442). -/
def execReplayTimerExpire (k : LinkId) (s : State) : Host.Outcome State Fault Refusal :=
  .next (if (s.link k.val).st = .up ∧ 0 < (s.link k.val).unacked ∧ !(s.link k.val).eiIdle then
    replayNow (if (s.link k.val).replays < 4 then s.incReg (uliReg k.val 0x2C) else s) k.val
  else s)

/-- The last sequence number received in order. -/
def lastSeq (l : Link) : Nat := (l.rxNext + 4095) % 4096

/-- A group of NULL flits with the present ACK (R443). -/
def nullGroup (s : State) (k : Nat) (nak : Bool) : State :=
  (s.modLink k fun l => { l with ackOwed := false }).emit (.uliNullGroup k (lastSeq (s.link k)) nak)

/-- ACK_OWED_TIMER (R443). -/
def execAckOwedTimer (k : LinkId) (s : State) : Host.Outcome State Fault Refusal :=
  .next (if (s.link k.val).st = .up ∧ (s.link k.val).ackOwed then nullGroup s k.val false else s)

/-- KEEPALIVE_TIMER (R443). -/
def execKeepaliveTimer (k : LinkId) (s : State) : Host.Outcome State Fault Refusal :=
  .next (if (s.link k.val).st = .up ∧ !(s.link k.val).eiIdle then nullGroup s k.val false else s)

/-- The 16-bit halves of ULI_NAK_CNT (R462): NAKs sent below, received above. -/
def countNak (s : State) (k : Nat) (received : Bool) : State :=
  let v := (s.reg (uliReg k 0x24)).toNat
  s.setReg (uliReg k 0x24) (w32 (if received then v % 65536 + (v / 65536 + 1) % 65536 * 65536 else v / 65536 * 65536 + (v + 1) % 65536))

/-- A lost or an ahead flit (R442): NAK once for the number expected, and again only after ULI_REPLAY_TIMER. -/
def sendNak (s : State) (k : Nat) : State :=
  let l := s.link k
  let again : Bool := match l.nakFor with
    | some (e, at_) => decide (e ≠ l.rxNext ∨ at_ + clampTo 1000 100000 (s.reg (uliReg k 0x48)).toNat < s.now)
    | none => true
  if l.st = .up ∧ again then nullGroup ((countNak s k false).modLink k fun l => { l with nakFor := some (l.rxNext, s.now) }) k true else s

/-! ## Receiving (R434-R442, R446-R448, R451) -/

/-- A received message's data length in the stream: a read carries none, a read-modify-write its mask and value. -/
def rxDataLen (mtype len : Nat) : Nat := if mtype = 2 then 0 else if mtype = 3 then 16 else len

/-- A header that R446 to R448 allow from the peer of link `k`: a known type, a length of that type, twin traffic on the twin link only and the rack types on rack links only. -/
def headerOk (k : Nat) (h : List Byte) : Bool :=
  let t := byteAt h 0
  let len := field h 2 2
  if t = 1 ∨ t = 2 then decide (k ≠ 4 ∧ 1 ≤ len ∧ len ≤ 4096)
  else if t = 3 then decide (k ≠ 4 ∧ (len = 1 ∨ len = 2 ∨ len = 4))
  else if t = 0x10 then decide (k ≠ 4 ∧ len ≤ 4096)
  else if t = 0x11 ∨ t = 0x20 then decide (k ≠ 4 ∧ len = 0)
  else if t = 0x21 then decide (len = 0)
  else decide (k = 4 ∧ 0x30 ≤ t ∧ t ≤ 0x3F ∧ len ≤ 4096)

/-- A message out of its bytes. -/
def parseMsg (b : List Byte) : RxMsg :=
  { mtype := byteAt b 0, tag := field b 4 2, status := byteAt b 6, beat := byteAt b 7, addr := field b 8 8
    data := slice b 16 (rxDataLen (byteAt b 0) (field b 2 2)) }

/-- Units of a class that received messages hold until they are drained (R452). -/
def rxUnits (l : Link) (c : Nat) : Nat := ((l.rxMsgs.filter fun m => decide (classOf m.mtype = c)).map fun m => unitsOf m.data.length).sum

/-- Whole messages are taken from the stream's bytes, at most `fuel`: none where a header breaks R446 to R448 or the peer exceeds its credit. -/
def takeMsgs (k : Nat) (l : Link) : Nat → Option Link
  | 0 => some l
  | n + 1 =>
    if l.rxPart.length < 16 then some l
    else if !headerOk k l.rxPart then none
    else
      let total := 16 + pad8 (rxDataLen (byteAt l.rxPart 0) (field l.rxPart 2 2))
      if l.rxPart.length < total then some l
      else
        let m := parseMsg l.rxPart
        let l := { l with rxPart := l.rxPart.drop total, rxMsgs := l.rxMsgs ++ (if 0x30 ≤ m.mtype then [] else [m]) }
        if ownLimit_ k (classOf m.mtype) ≠ 0xFFF ∧ ownLimit_ k (classOf m.mtype) < rxUnits l (classOf m.mtype) then none
        else takeMsgs k l n

/-- An accepted SEQ flit (R441, R446): its stream bytes delivered in order. -/
def acceptFlit (s : State) (k : Nat) (b : List Byte) : State :=
  let fill := field b 6 2
  let s := (s.incReg (uliReg k 0x68)).modLink k fun l => { l with rxNext := (l.rxNext + 1) % 4096, ackOwed := true, nakFor := none }
  if fill = 0 ∨ 300 < fill then loseSession s k 1
  else
    let l := s.link k
    match takeMsgs k { l with rxPart := l.rxPart ++ slice b 16 fill } 32 with
    | some l => s.setLink k l
    | none => loseSession s k 1

/-- A SEQ flit by its number (R441, R442). -/
def seqFlit (s : State) (k : Nat) (b : List Byte) : State :=
  let l := s.link k
  let d := (l.rxNext + 4096 - field b 2 2 % 4096) % 4096
  if d = 0 then acceptFlit s k b
  else if d ≤ 2048 then (s.incReg (uliReg k 0x34)).modLink k fun l => { l with ackOwed := true }
  else sendNak s k

/-- ACK, NAK and CREDIT of a flit (R438, R442, R452). -/
def flitControl (s : State) (k : Nat) (b : List Byte) : State :=
  let l := s.link k
  let n := (field b 4 2 % 4096 + 1 + 4096 - (l.txNext + 4096 - l.unacked % 4096) % 4096) % 4096
  let moved := bit (byteAt b 1) 1 && decide (0 < n ∧ n ≤ l.unacked)
  let credit := field b 8 6
  let s := s.modLink k fun l => { l with
    unacked := if moved then l.unacked - n else l.unacked, replays := if moved then 0 else l.replays
    stalled := l.stalled && !moved, freed := (List.range 4).map fun c => credit / 2 ^ (12 * c) % 4096 }
  if bit (byteAt b 1) 0 then replayNow (countNak s k true) k else s

/-- The payload of an INIT flit (R439). -/
def parseInit (b : List Byte) : InitFlit :=
  { initAck := bit (byteAt b 1) 2, resume := bit (byteAt b 1) 3, version := byteAt b 0x10, session := byteAt b 0x11, lastAgreed := byteAt b 0x12
    role := byteAt b 0x13, limits := (List.range 4).map fun c => field b 0x14 8 / 2 ^ (12 * c) % 4096, maxLen := field b 0x1C 2
    replayCap := field b 0x1E 2, sender := w32 (wordAt b 0x20) }

/-- FTYPE is valid and SESSION matches (R438 check 3): an INIT carries 0 or the link's number, other flits the open session's. -/
def flitHeaderOk (l : Link) (b : List Byte) : Bool :=
  if byteAt b 0 = 2 then decide (byteAt b 0xE = 0 ∨ byteAt b 0xE = l.session)
  else decide (byteAt b 0 ≤ 1 ∧ l.st = .up ∧ byteAt b 0xE = l.session)

/-- One flit slot of a group (R438). -/
def rxSlot (k : Nat) (s : State) (f : RxFlit) : State :=
  match fecDecode f.bytes f.parity with
  | none => sendNak (s.incReg (uliReg k 0x18)) k
  | some (b, n) =>
    let s := if n = 0 then s else (s.incReg (uliReg k 0x10)).addReg (uliReg k 0x14) n
    if crc32c (b.take 0x13C) ≠ BitVec.ofNat 32 (wordAt b 0x13C) then sendNak (s.incReg (uliReg k 0x1C)) k
    else if !flitHeaderOk (s.link k) b then s.incReg (uliReg k 0x20)
    else
      let s := if (s.link k).st = .up then flitControl s k b else s
      if byteAt b 0 = 2 then sessionInitEff s k (parseInit b)
      else if byteAt b 0 = 1 ∧ (s.link k).st = .up then seqFlit s k b
      else s

/-- FLIT_GROUP_RECEIVE (R437, R438): the flit slots of a group whose parity has arrived, in order. -/
def flitGroupEff (s : State) (k : Nat) (slots : List RxFlit) : State :=
  if linkServes s k ∧ (s.link k).lst = .active then slots.foldl (rxSlot k) s else s

/-- FLIT_GROUP_RECEIVE (R438). -/
def execFlitGroupReceive (k : LinkId) (slots : List RxFlit) (s : State) : Host.Outcome State Fault Refusal := .next (flitGroupEff s k.val slots)

/-! ## Answers (R449, R451, R454) -/

/-- A request's STATUS as its CS (R449). -/
def statusCs (n : Nat) : Nat := if n = 0 then Cs.done else if n = 2 ∨ n = 4 then Cs.farTimeout else Cs.farError

/-- The messages of an access in the order of their bytes. -/
def reqPieces (l : Link) (a : Acc) : List UliReq := l.reqs.filter fun r => decide (r.acc = a)

/-- Every message of an access has been sent and answered. -/
def accAnswered (l : Link) (a : Acc) : Bool := (reqPieces l a).all (fun r => r.res.isSome) && l.txQ.all fun m => decide (m.req ≠ some a)

/-- The bytes that the messages of an access brought, by their place in it. -/
def piecesData (ps : List UliReq) (a : Acc) : List (Option Byte) :=
  (List.range a.bytes.length).map fun j => (ps.find? fun p => decide (p.off ≤ j ∧ j < p.off + p.len)).bind fun p =>
    p.res.bind fun e => if (nth a.bytes j none).isSome then nth e.data (j - p.off) none else none

/-- The record of a failed request. -/
def linkFailEv (k cs : Nat) : Ev := { code := if cs = Cs.farTimeout then Ev.farTimeout else Ev.farError, src := srcLink k }

/-- A link access whose last answer has come ends (R449, R454, R367). -/
def accAnswer (s : State) (k : Nat) (a : Acc) : State :=
  let l := s.link k
  if !accAnswered l a then s
  else
    let ps := reqPieces l a
    let data := piecesData ps a
    let s := s.modLink k fun l => { l with reqs := l.reqs.filter fun r => decide (r.acc ≠ a) }
    let s := match (ps.filterMap fun p => p.res).find? fun e => decide (e.cs ≠ Cs.done) with
      | some e => failAccGot s a e.cs e.addr e.beat data (some (linkFailEv k e.cs))
      | none =>
        let s := if a.ticket ≠ 0 then settle s a.tenant a.ticket Cs.done (accFirst a) none else s
        accEnd s a { cs := Cs.done, addr := a.addr, data := if a.kind = .write then [] else data, beat := 0 }
    linkStopCheck s k

/-- One message of a request has its end. -/
def endReq (s : State) (k : Nat) (r : UliReq) (e : AccEnd) : State :=
  accAnswer (s.modLink k fun l => { l with reqs := modFirst (fun x => decide (x.tag = r.tag)) (fun x => { x with res := some e }) l.reqs }) k r.acc

/-- The oldest received message of some types, taken. -/
def takeRx (s : State) (k : Nat) (p : Nat → Bool) : Option (RxMsg × State) :=
  ((s.link k).rxMsgs.find? fun m => p m.mtype).map fun m => (m, s.modLink k fun l => { l with
    rxMsgs := dropFirst (fun m => p m.mtype) l.rxMsgs
    ownFreed := setNth l.ownFreed (classOf m.mtype) ((nth l.ownFreed (classOf m.mtype) 0 + unitsOf m.data.length) % 4096) })

/-- The open request with a tag. -/
def reqOf (s : State) (k tag : Nat) : Option UliReq := (s.link k).reqs.find? fun r => decide (r.tag = tag ∧ r.res = none)

/-- An answer for a quarantined tag is discarded (R454); one for a tag never issued is a protocol fault (R451). -/
def strayAnswer (s : State) (k tag : Nat) : State :=
  if tag ∈ (s.link k).quar then
    ((s.incReg (uliReg k 0x38)).modLink k fun l => { l with quar := l.quar.filter fun t => decide (t ≠ tag) }).raise (linkEv Ev.uliLate k)
  else loseSession s k 1

/-- A completion of an open request (R449): the bytes read, all of them when the status is OK. -/
def cplEnd (s : State) (k : Nat) (m : RxMsg) (r : UliReq) : State :=
  if m.status = 0 ∧ m.data.length ≠ r.len ∨ r.len < m.data.length ∨ 5 < m.status then loseSession s k 1
  else endReq s k r { cs := statusCs m.status, addr := r.acc.addr + r.off + (if m.status = 0 then 0 else m.data.length), data := m.data.map some, beat := m.beat }

/-- ULI_CPL_RECEIVE (R449). -/
def cplReceiveEff (s : State) (k : Nat) : State :=
  match takeRx s k fun t => decide (t = 0x10) with
  | none => s
  | some (m, s) => match reqOf s k m.tag with
    | some r => if r.acc.kind = .write then loseSession s k 1 else cplEnd s k m r
    | none => strayAnswer s k m.tag

/-- ULI_CPL_RECEIVE (R449). -/
def execUliCplReceive (k : LinkId) (s : State) : Host.Outcome State Fault Refusal := .next (cplReceiveEff s k.val)

/-- ULI_SETTLE_RECEIVE (R449, R367): the outcome of a write, with the address of the failing cycle. -/
def settleReceiveEff (s : State) (k : Nat) : State :=
  match takeRx s k fun t => decide (t = 0x11) with
  | none => s
  | some (m, s) => match reqOf s k m.tag with
    | some r => if r.acc.kind ≠ .write ∨ 5 < m.status then loseSession s k 1
      else endReq s k r { cs := statusCs m.status, addr := m.addr, data := [], beat := m.beat }
    | none => strayAnswer s k m.tag

/-- ULI_SETTLE_RECEIVE (R449). -/
def execUliSettleReceive (k : LinkId) (s : State) : Host.Outcome State Fault Refusal := .next (settleReceiveEff s k.val)

/-- The notify route of a link stands still for a followed tenant (R480) or since a pair dissolved (R497). -/
def notifyIdle (s : State) (k : Nat) : Bool :=
  s.followed (bits (s.reg (uliReg k 0x54)).toNat 14 8) || decide (48 + k ∈ s.twin.inactive)

/-- ULI_NOTIFY_RECEIVE (R451). -/
def notifyReceiveEff (s : State) (k : Nat) : State :=
  match takeRx s k fun t => decide (t = 0x20) with
  | none => s
  | some (m, s) =>
    let r := (s.reg (uliReg k 0x54)).toNat
    let s := (s.setReg (uliReg k 0x58) (w32 m.addr)).incReg (uliReg k 0x5C)
    if bit r 0 ∧ !notifyIdle s k then sendMsix s (fnOf (bits r 14 8)) (bits r 23 16) else s

/-- ULI_NOTIFY_RECEIVE (R451). -/
def execUliNotifyReceive (k : LinkId) (s : State) : Host.Outcome State Fault Refusal := .next (notifyReceiveEff s k.val)

/-- ULI_PEER_REQUEST (R451): answered with a CPL, STATUS UNSUPPORTED, LEN 0. -/
def peerRequestEff (s : State) (k : Nat) : State :=
  match takeRx s k fun t => decide (1 ≤ t ∧ t ≤ 3) with
  | none => s
  | some (m, s) => (s.incReg (uliReg k 0x60)).modLink k fun l => { l with
      txQ := l.txQ ++ [{ cls := 2, bytes := messageHeader 0x10 0 1 0 m.tag 3 0 0, req := none, off := 0 }] }

/-- ULI_PEER_REQUEST (R451). -/
def execUliPeerRequest (k : LinkId) (s : State) : Host.Outcome State Fault Refusal := .next (peerRequestEff s k.val)

/-- ULI_CLOSE_RECEIVE (R458): the peer ends the session. -/
def execUliCloseReceive (k : LinkId) (s : State) : Host.Outcome State Fault Refusal :=
  .next (match takeRx s k.val fun t => decide (t = 0x21) with
    | some (_, s) => loseSession s k.val 0
    | none => s)

/-- ULI_REQ_TIMEOUT_EXPIRE (R454): the request ends FAR_TIMEOUT and its tag is quarantined. -/
def reqTimeoutEff (s : State) (k tag : Nat) : State :=
  match reqOf s k tag with
  | none => s
  | some r =>
    let s := (s.atTime r.deadline).modLink k fun l => { l with quar := insertAsc tag l.quar }
    endReq s k r { cs := Cs.farTimeout, addr := r.acc.addr + r.off, data := [], beat := 0 }

/-- ULI_REQ_TIMEOUT_EXPIRE (R454). -/
def execUliReqTimeoutExpire (k : LinkId) (tag : Nat) (s : State) : Host.Outcome State Fault Refusal := .next (reqTimeoutEff s k.val tag)

/-- ULI_QUARANTINE_EXPIRE (R454): four timeouts have passed without an answer. -/
def execUliQuarantineExpire (k : LinkId) (tag : Nat) (s : State) : Host.Outcome State Fault Refusal :=
  .next (s.modLink k.val fun l => { l with quar := l.quar.filter fun t => decide (t ≠ tag) })

end Sys2Proof.Machine
end

