-- ==== Sys2Proof/Machine/LinkSvc.lean ====
section
/-! DEFINITION. The commands of links and lanes (R430, R432, R455, R462): service, status, test loops, eye scans, retraining, and the release of a contained link (R198, R459). -/

namespace Sys2Proof.Machine

/-! ## Status words (R433, R462) -/

/-- The code of a lane state (R433). -/
def laneStCode : LaneSt → Nat
  | .off => 0 | .detect => 1 | .train => 2 | .bitLock => 3 | .blockLock => 4 | .caps => 5 | .active => 6 | .spare => 7
  | .ei => 8 | .loop => 9 | .recover => 10 | .failed => 11

/-- The code of a session state (R462). -/
def uliStCode : UliSt → Nat
  | .absent => 0 | .outOfService => 1 | .waiting => 2 | .init => 3 | .up => 4 | .held => 5 | .contained => 6

/-- Units that a class may still send; 0xFFF where there is no limit, 0 with no session. -/
def creditLeft (l : Link) (c : Nat) : Nat := if nth l.limits c 0 = 0xFFF then 0xFFF else nth l.limits c 0 - creditUsed l c

/-- ULI_STATUS, ULI_UNACKED, ULI_CREDIT_A and ULI_CREDIT_B (R462). -/
def uliWord (s : State) (k off : Nat) : Nat :=
  let l := s.link k
  match off with
  | 0x00 => uliStCode l.st + b2n l.eiIdle * 16 + l.session * 256 + l.peerVersion % 256 * 65536 + l.peerRole % 4 * 2 ^ 24
  | 0x04 => l.unacked % 2048 + min 2047 l.reqs.length * 65536
  | 0x08 => creditLeft l 0 + creditLeft l 1 * 65536
  | 0x0C => creditLeft l 2 + creditLeft l 3 * 65536
  | o => (s.reg (uliReg k o)).toNat

/-- LAN_LINK_STATUS and LAN_LINK_MAP (R433). -/
def linkStatusWord (s : State) (k : Nat) : Nat :=
  let l := s.link k
  laneStCode l.lst + l.width * 16 + b2n (decide (l.spare ≠ 7)) * 64 + l.spare * 256 + l.rate * 4096 + b2n l.mapping * 16384
    + l.loopMode * 65536 + b2n l.farLoop * 2 ^ 20
def linkMapWord (s : State) (k : Nat) : Nat := ((List.range 4).map fun m => nth (s.link k).map m 0 * 16 ^ m).sum

/-- LAN_STATUS, LAN_EQ and LAN_DENSITY (R433). -/
def laneStatusWord (s : State) (n : Nat) : Nat :=
  let x := s.lane n
  laneStCode x.st + x.logical * 16 + b2n x.inverted * 256 + b2n x.peer * 512 + b2n x.frozen * 1024 + b2n x.verifying * 2048
    + x.rate * 4096 + x.peerPhys * 65536
def laneEqWord (s : State) (n : Nat) : Nat := (s.lane n).code + (s.lane n).verified * 256 + (s.lane n).initial * 65536

/-! ## Service (R455) -/

/-- The payload of LINK_SERVICE, LINK_STATUS, LINK_RETRAIN, LINK_LOOP, LANE_EYE_SCAN. -/
def linkServiceParam (p : List Byte) : Bool := decide (wordAt p 0 % 8 ≤ 4 ∧ wordAt p 0 &&& 0xFFFFFEF8 = 0)
def linkNumParam (p : List Byte) : Bool := decide (wordAt p 0 ≤ 4)
def linkLoopParam (p : List Byte) : Bool := decide (wordAt p 0 ≤ 4 ∧ wordAt p 4 &&& 0x0000FE0C = 0)
def eyeScanParam (p : List Byte) : Bool := decide (wordAt p 0 ≤ 24)

/-- LINK_SERVICE into service (R455). -/
def linkInEff (s : State) (mb k : Nat) : State :=
  let l := s.link k
  if (imgLink s k).absent ∨ l.st = .absent then refuse s mb 1 0
  else if s.linkCause k ≠ 0 then refuse s mb 3 0
  else if l.st = .up ∧ l.stopMb = none then done s mb []
  else
    let s := waitCmd (s.modLink k fun l => { l with svcMb := some mb }) mb
    if l.st = .outOfService then linkStart s k else s

/-- LINK_SERVICE_IN (R455). -/
def execLinkServiceIn (s : State) : Host.Outcome State Fault Refusal :=
  runCmd 0x0700 s fun s mb c => if bit (wordAt c.payload 0) 8 then linkInEff s mb (wordAt c.payload 0 % 8) else s

/-- LINK_SERVICE out of service (R455): what waits to enter the stream meets a link out of service (R456); with nothing outstanding it stops at once. -/
def linkOutEff (s : State) (mb k : Nat) : State :=
  let l := s.link k
  if (imgLink s k).absent ∨ l.st = .absent then refuse s mb 1 0
  else if l.st = .outOfService then done s mb []
  else
    let fresh := linkWaiting l
    let s := waitCmd (s.modLink k fun l => { l with stopMb := some mb, svcMb := none, txQ := l.txQ.filter fun m => match m.req with
      | some a => decide (a ∉ fresh)
      | none => true }) mb
    let s := fresh.foldl (fun s a => failAcc s a Cs.islandAbsent (accFirst a) 0
      (some { code := Ev.portNotInService, src := srcLink k, key := 0x12 + k })) s
    linkStopCheck s k

/-- LINK_SERVICE_OUT (R455). -/
def execLinkServiceOut (s : State) : Host.Outcome State Fault Refusal :=
  runCmd 0x0700 s fun s mb c => if bit (wordAt c.payload 0) 8 then s else linkOutEff s mb (wordAt c.payload 0 % 8)

/-- LINK_SERVICE_TIMEOUT (R455): 100 ms without a session; the link stays in service, waiting. -/
def execLinkServiceTimeout (k : LinkId) (s : State) : Host.Outcome State Fault Refusal :=
  .next (match (s.link k.val).svcMb with
    | some mb => if (s.link k.val).st ≠ .up ∧ linkServes s k.val then ran (s.modLink k.val fun l => { l with svcMb := none }) mb Cs.linkDown [] else s
    | none => s)

/-- LINK_STATUS (R462): words +0x00 to +0x3C, the counters left as they are. -/
def execLinkStatus (s : State) : Host.Outcome State Fault Refusal :=
  runCmd 0x0701 s fun s mb c => done s mb (bytesOfWords ((List.range 16).map fun i => uliWord s (wordAt c.payload 0 % 8) (4 * i)))

/-- LINK_RETRAIN (R417, R427, R440, R455): the bring-up from DETECT, with a session held; with none to resume it ends LINK_DOWN. -/
def linkRetrainEff (s : State) (mb : Nat) (c : Cmd) : State :=
  let k := wordAt c.payload 0 % 8
  if (imgLink s k).absent ∨ (s.link k).st = .absent then refuse s mb 1 0
  else if !linkServes s k then ran s mb Cs.linkDown []
  else if (s.link k).st = .up ∨ (s.link k).st = .held then
    startBringup (holdSession (waitCmd (s.modLink k fun l => { l with retrainMb := some mb }) mb) k) k
  else ran (startBringup (holdSession s k) k) mb Cs.linkDown []

/-- LINK_RETRAIN (R455). -/
def execLinkRetrain (s : State) : Host.Outcome State Fault Refusal := runCmd 0x0704 s linkRetrainEff

/-! ## Loops and scans (R430, R432) -/

/-- The 32 B response of a loop test (R430). -/
def loopBytes (errors : List Nat) (bitsN locked : Nat) : List Byte :=
  ((List.range 5).flatMap fun i => leBytes 4 (nth errors i 0)) ++ leBytes 8 bitsN ++ leBytes 4 locked

/-- A loop test ends with its counts (R430). -/
def endLoop (s : State) (k : Nat) (errors : List Nat) (bitsN locked : Nat) : State :=
  let l := s.link k
  if l.loopMode = 0 then s
  else
    let s := (modLanes s k fun _ x => if x.st = .loop then { x with st := .off } else x).modLink k fun l => { l with
      lst := .off, loopMode := 0, loopMask := 0, loopMb := none }
    let s := if l.loopMode = 3 then s.emit (.laneCtl k 5 0 0) else s
    match l.loopMb with
    | some mb => done s mb (loopBytes errors bitsN locked)
    | none => s

/-- LINK_LOOP (R430). The counts of a test that mode 0 ends are the silicon's: free values. -/
def linkLoopEff (s : State) (mb : Nat) (c : Cmd) : State :=
  let k := wordAt c.payload 0 % 8
  let w := wordAt c.payload 4
  if (s.link k).st ≠ .outOfService then refuse s mb 1 0
  else if w % 4 = 3 ∧ !(s.link k).peerLoopOk then refuse s mb 2 0
  else
    let n := s.fresh
    let s := endLoop { s with fresh := s.fresh + 7 } k ((List.range 5).map fun i => (Config.freeMeasure (n + i)).toNat)
      (Config.freeMeasure (n + 5)).toNat ((Config.freeMeasure (n + 6)).toNat % 32)
    if w % 4 = 0 then done s mb []
    else
      let s := (modLanes s k fun p x => if bit w (4 + p) then { x with st := .loop } else x).modLink k fun l => { l with
        lst := .loop, loopMode := w % 4, loopMask := bits w 8 4, loopMb := some mb }
      waitCmd (if w % 4 = 3 then s.emit (.laneCtl k 4 0 0) else s) mb

/-- LINK_LOOP (R430). -/
def execLinkLoop (s : State) : Host.Outcome State Fault Refusal := runCmd 0x0702 s linkLoopEff

/-- LOOP_DURATION_EXPIRE (R430). -/
def execLoopDurationExpire (k : LinkId) (errors : List Word) (bits : DWord) (locked : BitVec 5) (s : State) : Host.Outcome State Fault Refusal :=
  .next (endLoop s k.val (errors.map BitVec.toNat) bits.toNat locked.toNat)

/-- LANE_EYE_SCAN (R432). -/
def execLaneEyeScan (s : State) : Host.Outcome State Fault Refusal :=
  runCmd 0x0703 s fun s mb c => if receiving (s.lane (wordAt c.payload 0)) then waitCmd s mb else refuse s mb 1 0

/-- The 64 B response of an eye scan (R432). -/
def eyeBytes (s : State) (n left right upper lower cnt : Nat) : List Byte :=
  let x := s.lane n
  leBytes 2 left ++ leBytes 2 right ++ leBytes 2 upper ++ leBytes 2 lower ++ leBytes 1 x.code ++ leBytes 1 x.verified ++ leBytes 2 x.rate
    ++ leBytes 4 cnt ++ leBytes 8 s.now ++ List.replicate 40 0#8

/-- EYE_SCAN_DONE (R432): PF0's waiting scan of that lane ends. -/
def eyeDoneEff (s : State) (n left right upper lower cnt : Nat) : State :=
  match (s.mb 0).st, (s.mb 0).cmd with
  | .waiting, some c => if c.opcode = 0x0703 ∧ wordAt c.payload 0 = n then done s 0 (eyeBytes s n left right upper lower cnt) else s
  | _, _ => s

/-- EYE_SCAN_DONE (R432). -/
def execEyeScanDone (n : LaneId) (left right upper lower : BitVec 16) (bits : Word) (s : State) : Host.Outcome State Fault Refusal :=
  .next (eyeDoneEff s n.val left.toNat right.toNat upper.toNat lower.toNat bits.toNat)

/-! ## Release (R198, R459) -/

/-- The release of one contained link: back in service, waiting; with its lanes up the session is opened afresh. -/
def linkRelease (s : State) (k : Nat) : State :=
  if s.linkCause k = 0 then s
  else if linkPersists s k then relErr s (4 + k)
  else
    let s := s.modCont fun c => { c with links := c.links.set (fun _ => 0) k 0 }
    let s := if (s.link k).st = .contained then s.modLink k fun l => { l with st := .waiting } else s
    let s := if (s.link k).st = .waiting ∧ (s.link k).lst = .active then lanesUp s k else s
    sendMsix (releaseRec (forgetFlood s (k + 2)) 3 k 0 (srcLink k) 0xFF) 0 1

/-- LINK_CONTAIN_RELEASE: a write of HEP_LINK_RELEASE, [3:0] links (R201). -/
def execLinkContainRelease (v : Word) (s : State) : Host.Outcome State Fault Refusal :=
  .next ((List.range 4).foldl (fun s k => if v.getLsbD k then linkRelease s k else s) s)

end Sys2Proof.Machine
end

