-- ==== Sys2Proof/Machine/Twin.lean ====
section
/-! DEFINITION. Twin mode (R475-R499): forming a pair, mirroring, checks and resyncs, leadership changes, silence and the heartbeat decision, fencing, takeover and dissolution. -/

namespace Sys2Proof.Machine

/-- A twin engine record (R512: the engine's unit in TW). -/
def twinEv (code : Nat) : Ev := { code := code, src := src 15 0 }

/-- All tenants. -/
def allTenants : List Nat := List.range 65

/-! ## Mirrored state (R484, R485) -/

/-- The queues of a tenant. -/
def queuesOfTenant (s : State) (t : Nat) : List Nat := (s.qs.ctx.rows.filter fun kv => decide (kv.2.st ≠ .free ∧ kv.2.tenant = t)).map fun kv => kv.1

/-- The records of one descriptor: its fetch, the tickets and reads of its segments, what is done. -/
def descRecs (s : State) (t q : Nat) (d : Desc) : List MirrorRec :=
  let slots := (slotsOf s q).filter fun k => decide ((s.slot k).uid = d.uid)
  [.fetched q d.index d.addr]
    ++ d.done.flatMap (fun x => (if x.2.2 = 0 then [] else [MirrorRec.ticket t x.2.2 q d.index x.1]) ++ [.segDone q d.index x.1])
    ++ slots.flatMap fun k => (if (s.slot k).ticket = 0 then [] else [MirrorRec.ticket t (s.slot k).ticket q d.index (s.slot k).off])
      ++ (match (s.slot k).src with
        | .rack _ _ _ _ _ cl _ _ => if (s.slot k).started ∧ cl ≠ 0 then [.rackRead q d.index (s.slot k).off] else []
        | _ => if (s.slot k).started ∧ isRmwSlot s k then [.rackRead q d.index (s.slot k).off] else [])

/-- The full mirrored state of a tenant (R477 step 5, R485). -/
def tenantRecs (s : State) (t : Nat) : List MirrorRec :=
  let q := s.tally t
  (queuesOfTenant s t).flatMap (fun k => ctxRec s k :: (s.q k).descs.flatMap (descRecs s t k))
    ++ q.unsettled.map (fun u => MirrorRec.ticket t u.ticket 0xFFFF 0 0) ++ q.kept.map (fun k => MirrorRec.outcome t k.ticket k.cs)
    ++ (s.liq.lines.filter fun l => decide (l.tenant = t)).map (fun l => MirrorRec.liqTag t l.target l.space l.line (decide (l.pool = 0)) true)
    ++ [.tally t q.issued (frontier q) q.ack]

/-- What CHECK compares (R485): a CRC-32C over the mirrored figures of a tenant's queues and tally. The spec gives no layout; both ends of this model use this one. -/
def mirrorFigure (s : State) (t : Nat) : Word :=
  let q := s.tally t
  crc32c (bytesOfWords ((queuesOfTenant s t).flatMap (fun k => [k, qstateCode (s.q k).st, (s.q k).relIdx, (s.q k).cqTail, b2n (s.q k).phase, (s.q k).hwm])
    ++ [q.issued, frontier q, q.ack]))

/-- A mirrored release moves the follower's completion tail, PHASE, mark and release index (R484); a full entry makes the descriptor's other records needless. -/
def applyRelease (s : State) (q : Nat) (e : List Byte) (slot : Nat) : State :=
  let half := bit (byteAt e 12) 1
  let s := s.modQ q fun c =>
    let t := (slot + 1) % 2 ^ c.cqLog2
    { c with
      cqTail := t, phase := if t = 0 then !c.phase else c.phase, hwm := wordAt e 8
      descCnt := if half then c.descCnt else c.descCnt + 1
      relIdx := if half then c.relIdx else if c.chain then (field e 0 2 + 1) % 65536 else (field e 0 2 + 1) % 2 ^ c.ringLog2 }
  s.modTwin fun w => { w with mirror := (if half then w.mirror else w.mirror.filter fun r => match r with
    | .fetched a i _ | .rackRead a i _ | .segDone a i _ | .ticket _ _ a i _ => decide ((a, i) ≠ (q, field e 0 2))
    | .release a b k => decide ((a, k) ≠ (q, slot)) && !(decide (a = q ∧ field b 0 2 = field e 0 2) && bit (byteAt b 12) 1)
    | _ => true) ++ [.release q e slot] }

/-- A context mirrored (R484): the tail and the completion head that the follower's own doorbells recorded stay, but for a queue made or reset. -/
def applyCtx (s : State) (q : Nat) (ws : List Word) : State :=
  let c := s.q q
  let w := ws.map BitVec.toNat
  let n := ctxOfWords c w
  let keep := decide (c.st ≠ .free ∧ (nth w 5 0 ≠ 0 ∨ nth w 6 0 ≠ 0 ∨ nth w 7 0 ≠ 0))
  if n.st = .free then s.setQ q (qctxInit q)
  else s.setQ q (if keep then { n with tail := c.tail, cqHead := c.cqHead } else n)

/-- The tenant of a state record. -/
def recTenant (s : State) : MirrorRec → Nat
  | .queueState _ ws => bits (nth ws 0 0#32).toNat 22 16
  | .fetched q _ _ | .rackRead q _ _ | .segDone q _ _ | .release q _ _ => (s.q q).tenant
  | .ticket t _ _ _ _ | .outcome t _ _ | .tally t _ _ _ | .liqTag t _ _ _ _ _ => t

/-- One state record applied by the follower (R484). -/
def applyRec (s : State) (r : MirrorRec) : State :=
  if recTenant s r ∈ s.twin.lead then s
  else
    let keep := fun (s : State) => s.modTwin fun w => { w with mirror := w.mirror ++ [r] }
    match r with
    | .queueState q ws => applyCtx s q ws
    | .fetched q i a => (keep s).modQ q fun c => { c with
        head := if c.chain then c.head else (i + 1) % 2 ^ c.ringLog2, cur := a, started := true }
    | .ticket t n _ _ _ => (keep s).modTally t fun q => { q with
        issued := if ticketAfter n q.issued then n else q.issued
        unsettled := if q.unsettled.any (fun u => decide (u.ticket = n)) then q.unsettled
          else q.unsettled ++ [{ ticket := n, addr := 0, target := 0, space := 0, flood := false, detached := 0 }] }
    | .rackRead _ _ _ => keep s
    | .segDone _ _ _ => keep s
    | .release q e slot => applyRelease s q e slot
    | .outcome t n cs =>
      let s := s.modTally t fun q => { q with unsettled := dropFirst (fun u => decide (u.ticket = n)) q.unsettled }
      if cs = Cs.done then s else keepFailure s t { ticket := n, cs := cs, addr := 0, target := 0, space := 0, flood := false }
    | .tally t i _ a => s.modTally t fun q => { q with issued := i, ack := a, kept := q.kept.filter fun k => ticketAfter k.ticket a }
    | .liqTag t k sp l late here => s.modLiq fun x => { x with
        orphans := x.orphans.filter (fun o => decide ((o.1, o.2.1, o.2.2.1, o.2.2.2.1) ≠ (t, k, sp, l))) ++ (if here then [(t, k, sp, l, late)] else []) }

/-! ## Leadership handed over (R482) -/

/-- A tenant that is being handed over has nothing left to do here: no segment, no release, nothing held, no write without its outcome. -/
def tenantDrained (s : State) (t : Nat) : Bool :=
  decide ((s.tally t).unsettled = []) && (queuesOfTenant s t).all fun q => ((slotsOf s q).all fun k => !(s.slot k).started) && !(s.q q).mirrorWait
    && (match (s.q q).descs with
      | d :: _ => !segsDone d && !halfDue d
      | [] => true)

/-- The tenants that leave this chip under the change in progress, and those that come. -/
def leaving (s : State) : List Nat := match s.twin.pendingLead with
  | some l => s.twin.lead.filter fun t => decide (t ∉ l)
  | none => []
def coming (s : State) : List Nat := match s.twin.pendingLead with
  | some l => l.filter fun t => decide (t ∉ s.twin.lead)
  | none => []

/-- A queue is put down at its first unreleased descriptor: what its pans have not started goes (R482). -/
def putDown (s : State) (q : Nat) : State :=
  let s := dropQueueFences (dropFetch ((slotsOf s q).foldl emptySlot s) q) q
  s.modQ q fun c => { c with
    descs := [], spans := c.spans.filter fun x => decide (0 < x.released)
    head := match c.descs with
      | d :: _ => if c.chain then c.head else d.index
      | [] => c.head
    cur := match c.descs with
      | d :: _ => d.addr
      | [] => c.cur }

/-- Where a queue goes on: at its first unreleased descriptor (R482, R492). In chain mode that is the oldest one mirrored as fetched, or the NEXT of the last released. -/
def takeUp (s : State) (q : Nat) : State :=
  let first := s.twin.mirror.findSome? fun r => match r with
    | .fetched a _ addr => if a = q then some addr else none
    | _ => none
  let s := s.modQ q fun c => { c with
    descs := [], fetching := none, halting := false, mirrorWait := false, head := if c.chain then c.head else c.relIdx
    nextA := first.getD c.nextA, parked := c.chain && first.isNone && c.started, owed := c.owed || (c.chain && first.isNone && c.started) }
  if (s.q q).disableAsked ∧ ((s.q q).st = .active ∨ (s.q q).st = .halted) then disableNow s q else fetchNext s q

/-- Both ends have handed over what leaves them: TWIN_ROLE_DONE (R482). -/
def roleDone (s : State) : State :=
  if s.twin.pendingLead.isSome ∧ leaving s = [] ∧ s.twin.partnerDone then
    let s := s.modTwin fun w => { w with pendingLead := none, partnerDone := false }
    sendMsix (s.raise (twinEv Ev.twinRoleDone)) 0 4
  else s

/-- The tenants that leave, once drained, are mirrored in their final state (R482 step 3). -/
def handOver (s : State) : State :=
  if s.twin.st = .formed ∧ leaving s ≠ [] ∧ s.twin.formSeq = none ∧ (leaving s).all (tenantDrained s) then
    let s := (leaving s).foldl (fun s t => (queuesOfTenant s t).foldl putDown s) s
    let s := (leaving s).foldl (fun s t => (tenantRecs s t).foldl mirrorSend s) s
    s.modTwin fun w => { w with formSeq := some w.mirrorSeq }
  else s

/-- The final state is acknowledged: the tenants are the partner's, and it is told so (R482 step 4). -/
def handedOver (s : State) : State :=
  let gone := leaving s
  roleDone ((twinSend s 0x36 [2]).modTwin fun w => { w with formSeq := none, lead := w.lead.filter fun t => decide (t ∉ gone) })

/-- A new map taken (R482): the change begins; a chip that nothing leaves is done with its side at once. -/
def takeMap (s : State) (lead : List Nat) : State :=
  let s := s.modTwin fun w => { w with pendingLead := some lead, partnerDone := false }
  if leaving s = [] then twinSend s 0x36 [2] else handOver s

/-! ## Forming (R477-R481) -/

/-- TWIN_STATUS (R499): the words from TWN_STATUS to TWN_SILENCE. -/
def twinStCode : TwinSt → Nat
  | .single => 0 | .forming => 1 | .formed => 2 | .disagree => 3 | .fenced => 4 | .survivor => 5
def tenantMask (l : List Nat) (w : Nat) : Nat := ((List.range 32).map fun i => if 32 * w + i ∈ l then 2 ^ i else 0).sum
def twinWord (s : State) (off : Nat) : Nat :=
  let w := s.twin
  match off with
  | 0x00 => twinStCode w.st + s.img.pair.rank % 4 * 16 + b2n (decide (s.img.pair.rank = 2)) * 64 + b2n w.skewFlag * 128 + b2n w.silence * 256 + w.reason * 512
  | 0x04 => tenantMask w.lead 0
  | 0x08 => tenantMask w.lead 1
  | 0x0C => tenantMask w.lead 2
  | 0x10 => tenantMask w.unsync 0
  | 0x14 => tenantMask w.unsync 1
  | 0x18 => tenantMask w.unsync 2
  | 0x20 => wordAt w.partner 0
  | 0x24 => wordAt w.partner 4
  | 0x28 => wordAt w.partner 8
  | 0x2C => wordAt w.partner 12
  | 0x30 => w.timeOffset.toNat % 2 ^ 32
  | 0x34 => w.timeOffset.toNat / 2 ^ 32
  | 0x38 => unsign 32 w.skew
  | 0x5C => fwEpoch (runningFw s) + w.partnerEpoch * 65536
  | o => (s.reg (0x500000 + o)).toNat

/-- TWIN_STATUS (R499). -/
def execTwinStatus (s : State) : Host.Outcome State Fault Refusal :=
  runCmd 0x0A00 s fun s mb _ => done s mb (bytesOfWords ((List.range 16).map fun i => twinWord s (4 * i)))

/-- TWIN_FORM (R475, R477): the chip offers, and the twin link is brought into service. -/
def twinFormEff (s : State) (mb : Nat) (_ : Cmd) : State :=
  if s.img.pair.rank = 0 then reject s mb Rej.notPermitted
  else if s.twin.st = .formed then done s mb []
  else
    let s := waitCmd (s.modTwin fun w => { w with formMb := some mb }) mb
    let s := if (s.link 4).st = .outOfService ∧ !(imgLink s 4).absent then linkStart s 4 else s
    sendHello s

/-- TWIN_FORM (R477). -/
def execTwinForm (s : State) : Host.Outcome State Fault Refusal := runCmd 0x0A01 s twinFormEff

/-- TWIN_FORM_TIMEOUT (R477): 200 ms without a twin session. -/
def execTwinFormTimeout (s : State) : Host.Outcome State Fault Refusal :=
  .next (match s.twin.formMb with
    | some mb => if (s.link 4).st ≠ .up then
        ran ((s.modTwin fun w => { w with formMb := none }).raise { twinEv Ev.twinNoPartner with cs := Cs.linkDown }) mb Cs.linkDown []
      else s
    | none => s)

/-- The checks of R478 between this chip and its partner: the first that fails, with the values compared. -/
def disagreement (s : State) (h : Hello) : Option (Nat × List Byte × List Byte) :=
  let own := helloOf s
  let zero := fun (l : List Byte) => l.all fun b => decide (b = 0#8)
  let gap := if own.epoch < h.epoch then h.epoch - own.epoch else own.epoch - h.epoch
  let higherOk := if own.epoch < h.epoch then h.compatPrev else own.compatPrev
  if (!zero own.partnerUid && decide (own.partnerUid ≠ h.uid)) || (!zero h.partnerUid && decide (h.partnerUid ≠ own.uid)) then some (1, own.uid, h.uid)
  else if own.digest ≠ h.digest then some (2, own.digest, h.digest)
  else if 1 < gap ∨ (gap = 1 ∧ !higherOk) then some (3, leBytes 8 own.epoch, leBytes 8 h.epoch)
  else if own.lifecycle ≠ h.lifecycle then some (4, leBytes 8 own.lifecycle, leBytes 8 h.lifecycle)
  else if own.rank = h.rank then some (5, leBytes 8 own.rank, leBytes 8 h.rank)
  else if own.holdings.any fun t => decide (t ∈ h.holdings) then
    some (6, bytesOfWords [tenantMask own.holdings 0, tenantMask own.holdings 1], bytesOfWords [tenantMask h.holdings 0, tenantMask h.holdings 1])
  else none

/-- The pair disagrees (R478). -/
def disagree (s : State) (r : Nat × List Byte × List Byte) : State :=
  let mb := s.twin.formMb
  let s := s.modTwin fun w => { w with st := .disagree, reason := r.1, formMb := none, formSeq := none }
  let s := s.raise { twinEv Ev.twinDisagree with data := leBytes 1 r.1 ++ slice r.2.1 0 8 ++ slice r.2.2 0 8 }
  let s := sendMsix (raiseAlert s 3) 0 4
  match mb with
  | some m => refuse s m r.1 0
  | none => s

/-- FORMED (R477 step 6): votes raised, recorded, reported. -/
def formed (s : State) : State :=
  let mb := s.twin.formMb
  let s := s.modTwin fun w => { w with st := .formed, formMb := none, formSeq := none, silence := false, guard := false, pendingLead := none }
  let s := raiseVote (raiseVote s Dn.tw Client.twin) Dn.sl Client.twin
  let s := sendMsix (s.raise (twinEv Ev.twinFormed)) 0 4
  match mb with
  | some m => done s m []
  | none => s

/-- Leadership as R479 fixes it. -/
def leadAtForm (s : State) (h : Hello) : List Nat :=
  let own := holdings s
  allTenants.filter fun t => decide (t ∈ own) || (decide (t ∉ h.holdings) && (decide (t ∈ s.img.pair.defaultLead) == decide (s.img.pair.rank = 2)))

/-- TWIN_HELLO_RECEIVE (R477-R481): agreement fixes leadership and the time offset, and the full state of every tenant led is sent. -/
def helloEff (s : State) (h : Hello) : State :=
  if !twinOffers s ∨ (s.link 4).st ≠ .up then s
  else
    let s := sendHello s
    match disagreement s h with
    | some r => disagree s r
    | none =>
      let lead := leadAtForm s h
      let s := s.modTwin fun w => { w with
        st := .forming, lead := lead, unsync := [], partner := h.uid, partnerEpoch := h.epoch, reason := 0, mirror := [], holds := []
        timeOffset := if s.img.pair.rank = 1 then BitVec.ofNat 64 (h.timeBase + 2 ^ 64 - s.now) else 0, skew := 0, skewFlag := false
        ackedSeq := 0, appliedSeq := 0, mirrorSeq := 0, hbFailed := false }
      let s := lead.foldl (fun s t => (tenantRecs s t).foldl mirrorSend s) s
      if lead = [] then formed s else s.modTwin fun w => { w with formSeq := some w.mirrorSeq }

/-- TWIN_HELLO_RECEIVE (R478). -/
def execTwinHelloReceive (h : Hello) (s : State) : Host.Outcome State Fault Refusal := .next (helloEff s h)

/-- The chip takes part in a pair: forming or formed. -/
def paired (s : State) : Bool := decide (s.twin.st = .forming ∨ s.twin.st = .formed)

/-- TWIN_MIRROR_RECEIVE (R484): applied in order and acknowledged. -/
def execTwinMirrorReceive (seq : Nat) (recs : List MirrorRec) (s : State) : Host.Outcome State Fault Refusal :=
  .next (if paired s ∧ !s.twin.silence then
    (twinSend (recs.foldl applyRec s) 0x33 [seq]).modTwin fun w => { w with appliedSeq := seq }
  else s)

/-- TWIN_MIRROR_ACK_RECEIVE (R484, R477, R482): held operations go on; a formation or a handover whose state is acknowledged completes. -/
def mirrorAckEff (s : State) (seq : Nat) : State :=
  if !paired s then s
  else
    let s := runHolds (s.modTwin fun w => { w with ackedSeq := seq }) seq
    let whole := match s.twin.formSeq with
      | some n => decide (n ≤ seq)
      | none => false
    if whole then (if s.twin.st = .forming then formed s else handedOver s) else handOver s

/-- TWIN_MIRROR_ACK_RECEIVE (R484). -/
def execTwinMirrorAckReceive (seq : Nat) (s : State) : Host.Outcome State Fault Refusal := .next (mirrorAckEff s seq)

/-- TWIN_CHECK_SEND (R485): a CRC-32C for each tenant led. -/
def execTwinCheckSend (s : State) : Host.Outcome State Fault Refusal :=
  .next (if s.twin.st = .formed ∧ !s.twin.silence then
    twinSend s 0x34 (s.twin.mirrorSeq :: s.twin.lead.flatMap fun t => [t, (mirrorFigure s t).toNat])
  else s)

/-- TWIN_CHECK_RECEIVE (R485): a tenant whose figure differs is UNSYNCED. -/
def execTwinCheckReceive (seq : Nat) (crcs : List (Tenant × Word)) (s : State) : Host.Outcome State Fault Refusal :=
  .next (if s.twin.st = .formed then
    let bad := crcs.filter fun c => decide (c.1.val ∉ s.twin.lead) && (decide (seq ≠ s.twin.appliedSeq) || decide (mirrorFigure s c.1.val ≠ c.2))
    s.modTwin fun w => { w with unsync := bad.foldl (fun l c => insertAsc c.1.val l) w.unsync }
  else s)

/-- The mirror of a tenant wiped before a resync: its marks, its contexts, its tally. -/
def wipeMirror (s : State) (t : Nat) : State :=
  let s := s.modTwin fun w => { w with mirror := w.mirror.filter fun r => decide (recTenant s r ≠ t) }
  let s := s.modTally t fun q => { q with unsettled := [], kept := [] }
  s.modLiq fun l => { l with orphans := l.orphans.filter fun o => decide (o.1 ≠ t) }

/-- TWIN_RESYNC_RECEIVE (R485): the leader's state stands. -/
def resyncEff (s : State) (t : Nat) (recs : List MirrorRec) : State :=
  if s.twin.st ≠ .formed ∨ t ∈ s.twin.lead then s
  else
    let s := (recs.filter fun r => decide (recTenant s r = t)).foldl applyRec (wipeMirror s t)
    ((s.modTwin fun w => { w with unsync := w.unsync.filter fun u => decide (u ≠ t) }).incReg 0x50004C).raise { twinEv Ev.twinResync with tenant := t }

/-- TWIN_RESYNC_RECEIVE (R485). -/
def execTwinResyncReceive (t : Tenant) (recs : List MirrorRec) (s : State) : Host.Outcome State Fault Refusal := .next (resyncEff s t.val recs)

/-- TWIN_TIME_RECEIVE (R481): the skew of a measured offset; slewed out, never stepped. -/
def timeEff (s : State) (offset : DWord) : State :=
  if s.twin.st ≠ .formed ∨ s.img.pair.rank ≠ 1 then s
  else
    let skew := signed 64 (offset - s.twin.timeOffset).toNat
    let big := decide (1000 < skew.natAbs)
    let was := s.twin.skewFlag
    let s := s.modTwin fun w => { w with skew := skew, skewFlag := big || (w.skewFlag && decide (100 ≤ skew.natAbs)) }
    if big ∧ !was then s.raise (twinEv Ev.twinTimeSkew) else s

/-- TWIN_TIME_RECEIVE (R481). -/
def execTwinTimeReceive (offset : DWord) (s : State) : Host.Outcome State Fault Refusal := .next (timeEff s offset)

/-! ## Heartbeats and silence (R486-R488) -/

/-- TWIN_HEARTBEAT_SEND (R486). -/
def execTwinHeartbeatSend (s : State) : Host.Outcome State Fault Refusal :=
  .next (if s.twin.st = .formed ∧ !s.twin.silence then
    (twinSend s 0x31 [s.twin.hbSeq + 1]).modTwin fun w => { w with hbSeq := w.hbSeq + 1 }
  else s)

/-- This chip's own heartbeat cell, and its partner's (R475). -/
def ownCell (s : State) : HbCell := if s.img.pair.rank = 2 then s.img.pair.cell2 else s.img.pair.cell1
def partnerCell (s : State) : HbCell := if s.img.pair.rank = 2 then s.img.pair.cell1 else s.img.pair.cell2

/-- A failed heartbeat access (R488). -/
def hbFail (s : State) : State :=
  let s := s.incReg 0x500050
  if s.twin.hbFailed then s else (s.modTwin fun w => { w with hbFailed := true }).raise (twinEv Ev.twinHbFail)

/-- A heartbeat access meets its target's weir as tenant 0 (R464, R488): whether it may go, and the state with the denial recorded. R474 names no source code for it: a free value. -/
def hbWeir (s : State) (c : HbCell) (write : Bool) : Bool × State :=
  if weirAllows s c.target 0 c.space c.addr (!write) write then (true, s)
  else
    let n := (Config.freeWord s.fresh).toNat % 16
    let e := denyEv s c.target 0 c.space c.addr (b2n write) n
    (false, (denyLatch s.bump c.target 0 c.space c.addr (b2n write) n).raise { e with tenant := 0, cs := Cs.weirDeny, addr := c.addr })

/-- TWIN_HB_WRITE (R488): the count goes up in the chip's own cell; `ok` is how the access ended. -/
def hbWriteEff (s : State) (ok : Bool) : State :=
  if s.twin.st ≠ .formed then s
  else
    let c := ownCell s
    let s := s.modTwin fun w => { w with hbCount := w.hbCount + 1 }
    let (may, s) := hbWeir s c true
    if !may then hbFail s
    else
      let s := s.emit (.heartbeat c.target c.space c.addr (some s.twin.hbCount.toNat))
      if ok then s.modTwin fun w => { w with hbFailed := false } else hbFail s

/-- TWIN_HB_WRITE (R488). -/
def execTwinHbWrite (ok : Bool) (s : State) : Host.Outcome State Fault Refusal := .next (hbWriteEff s ok)

/-- TWN_SILENCE, TWN_HB_PERIOD and TWN_HB_LIMIT in ns (R499). -/
def silenceTime (s : State) : Nat := us (clampTo 10 1000 (s.reg 0x50003C).toNat)
def hbLimit (s : State) : Nat := us (clampTo (2 * clampTo 2 100 (s.reg 0x500040).toNat) 1000 (s.reg 0x500044).toNat)

/-- TWIN_SILENCE (R487): the chip stops transmitting on the twin link. -/
def execTwinSilence (s : State) : Host.Outcome State Fault Refusal :=
  .next (if s.twin.st = .formed ∧ !s.twin.silence then
    s.modTwin fun w => { w with silence := true, silenceAt := s.now, partnerCell := none, cellReadOk := false, cellMoved := false }
  else s)

/-- TWIN_HB_READ (R488): the partner's cell; `v` is what the read brought, none where it failed. -/
def hbReadEff (s : State) (v : Option Word) : State :=
  if s.twin.st ≠ .formed ∨ !s.twin.silence then s
  else
    let c := partnerCell s
    let (may, s) := hbWeir s c false
    if !may then hbFail s
    else
      let s := s.emit (.heartbeat c.target c.space c.addr none)
      match v with
      | none => hbFail s
      | some x => s.modTwin fun w => { w with
          hbFailed := false, cellReadOk := true, partnerCell := some x, cellMoved := w.cellMoved || (w.partnerCell.any fun y => decide (y ≠ x)) }

/-- TWIN_HB_READ (R488). -/
def execTwinHbRead (v : Option Word) (s : State) : Host.Outcome State Fault Refusal := .next (hbReadEff s v)

/-! ## Takeover (R492-R494) -/

/-- The releases of a queue in the mirror whose slots software has not passed, as (slot, entry). -/
def mirroredEntries (s : State) (q : Nat) : List (Nat × List Byte) :=
  let c := s.q q
  let size := 2 ^ c.cqLog2
  s.twin.mirror.filterMap fun r => match r with
    | .release a e k => if a = q ∧ (k + size - c.cqHead) % size < (c.cqTail + size - c.cqHead) % size then some (k, e) else none
    | _ => none

/-- The entries of a queue are rewritten at their slots, and its vector is sent once if there were any (R492). -/
def rewriteEntries (s : State) (q : Nat) : State :=
  let es := mirroredEntries s q
  let t := (s.q q).tenant
  let s := es.foldl (fun s e => hostWrite s t ((s.q q).cq + 16 * e.1) e.2) s
  let s := s.modTwin fun w => { w with mirror := w.mirror.filter fun r => match r with
    | .release a e _ => decide (a ≠ q) || bit (byteAt e 12) 1
    | _ => true }
  if es = [] then s else sendMsix s (fnOf t) (s.q q).vec

/-- A gained tenant's tickets with no mirrored outcome settle FAR_TIMEOUT (R492). -/
def settleUnknown (s : State) (t : Nat) : State :=
  (s.tally t).unsettled.foldl (fun s u => settle s t u.ticket Cs.farTimeout u.addr (some { code := Ev.talTwinUnknown, src := srcLt })) s

/-- The reads of a tenant's queues issued and not done, in the mirror (R492). -/
def unknownReads (s : State) (t : Nat) : Nat :=
  (s.twin.mirror.filter fun r => match r with
    | .rackRead q i o => decide ((s.q q).tenant = t ∧ MirrorRec.segDone q i o ∉ s.twin.mirror)
    | _ => false).length

/-- The descriptors of a tenant's queues fetched and not released, in the mirror. -/
def mirroredDescs (s : State) (t : Nat) : Nat :=
  (s.twin.mirror.filter fun r => match r with
    | .fetched q _ _ => decide ((s.q q).tenant = t)
    | _ => false).length

/-- An UNSYNCED tenant is not resumed (R493). -/
def gainUnsynced (s : State) (t : Nat) : State :=
  let s := (queuesOfTenant s t).foldl (fun s q => s.modQ q fun c => { c with
    st := if c.st = .active then .halted else c.st, faultCs := Cs.linkDown, needReset := true, descs := [], fetching := none, halting := false }) s
  (settleUnknown s t).raise { twinEv Ev.twinTakeoverUnsynced with tenant := t }

/-- A gained tenant goes on from the mirror (R492). -/
def gainTenant (s : State) (t : Nat) : State :=
  if t ∈ s.twin.unsync then gainUnsynced s t
  else
    let s := (queuesOfTenant s t).foldl rewriteEntries s
    (queuesOfTenant s t).foldl takeUp (settleUnknown s t)

/-- Takeover of some tenants (R492-R495): the chip leads them, goes on from the mirror, and takes up the system controller duties of R494 where the loss of the partner asks for it. -/
def takeover (s : State) (gained : List Nat) (standby : Bool) (hold : Nat) : State :=
  let descs := (gained.map (mirroredDescs s)).sum
  let tickets := (gained.map fun t => (s.tally t).unsettled.length).sum
  let reads := (gained.map (unknownReads s)).sum
  let s := s.modTwin fun w => { w with lead := gained.foldl (fun l t => insertAsc t l) w.lead }
  let s := gained.foldl gainTenant s
  let s := s.modTwin fun w => { w with unsync := w.unsync.filter fun t => decide (t ∉ gained) }
  let s := if standby then s.img.pair.standbySc.foldl (fun s p => s.modPort p fun q => { q with sysctl := true }) s else s
  let s := s.raise { twinEv Ev.twinTakeover with data := leBytes 4 gained.length ++ leBytes 4 descs ++ leBytes 4 tickets ++ leBytes 4 reads }
  (sendMsix (s.incReg 0x500048) 0 4).setReg 0x500058 (w32 (hold / 1000))

/-- The tenants that this chip does not lead. -/
def notLed (s : State) : List Nat := allTenants.filter fun t => decide (t ∉ s.twin.lead)

/-- The time since the last twin flit that passed (R491). -/
def holdTime (s : State) : Nat := s.now - (s.twin.silenceAt - silenceTime s)

/-! ## The decision (R489, R490) -/

/-- A segment of a fenced chip is abandoned without completion (R490). -/
def abandonSlot (s : State) (k : Nat) : State :=
  let x := s.slot k
  let s := dropTags s (fnOf x.tenant) fun u => decide (u = .seg k)
  let s := match slotReadOf s k with
    | some r => dropRead s r 1
    | none => s
  let s := (pullAccs s fun a => decide (a.origin = .seg k x.order)).2
  let s := s.modTally x.tenant fun t => { t with waiters := t.waiters.filter fun w => decide (w ≠ .seg k) }
  emptySlot s k

/-- A rack link of a fenced chip enters link containment (R490, R458): its traffic ends as on link down. -/
def fenceLink (s : State) (k : Nat) : State :=
  if !linkServes s k then s
  else
    let (counts, s) := endLinkAccs s k Cs.linkDown
    let s := s.modLink k fun l => { noSession l with st := .contained }
    enterLink s k 4 (counts.take 4).sum

/-- The chip fences itself (R490): every tenant stops and is followed, every port and link in service is contained. -/
def fence (s : State) : State :=
  let s := s.modTwin fun w => { w with holds := [], lead := [], st := .fenced, roleAsked := false }
  let s := (busySlots s).foldl abandonSlot s
  let s := (s.qs.ctx.rows.map fun kv => kv.1).foldl (fun s q => if (s.q q).st = .free then s else putDown s q) s
  let s := (List.range 2).foldl (fun s p => if (s.port p).st = .inService ∨ (s.port p).st = .stopping then enterPort s p 7 else s) s
  let s := (List.range 4).foldl fenceLink s
  s.raise { twinEv Ev.twinFenced with enters := 1 }

/-- A survivor: what waited for acknowledgements proceeds (R484, R489). -/
def survive (s : State) : State := runAllHolds (s.modTwin fun w => { w with st := .survivor, pendingLead := none, roleAsked := false, formSeq := none })

/-- TWIN_HB_DECIDE (R488-R490): alive, dead or unreadable, and what this chip does. -/
def hbDecideEff (s : State) : State :=
  if s.twin.st ≠ .formed ∨ !s.twin.silence then s
  else
    let s := if s.twin.cellMoved then s else s.atTime (s.twin.silenceAt + hbLimit s)
    let alive := s.twin.cellMoved || !s.twin.cellReadOk
    if !alive then takeover (survive s) (notLed s) true (holdTime s)
    else if s.img.pair.rank = 2 then survive (s.modTwin fun w => { w with guard := true })
    else fence s

/-- TWIN_HB_DECIDE (R489). -/
def execTwinHbDecide (s : State) : Host.Outcome State Fault Refusal := .next (hbDecideEff s)

/-- TWIN_GUARD_EXPIRE (R489): the rank 2 chip takes the rank 1 chip's tenants. -/
def execTwinGuardExpire (s : State) : Host.Outcome State Fault Refusal :=
  .next (if s.twin.guard then takeover (s.modTwin fun w => { w with guard := false }) (notLed s) true (holdTime s) else s)

/-! ## Leadership changes and dissolution (R482, R495, R497) -/

/-- The payload of TWIN_ROLE_SET: a map in [64:0], the rest reserved. -/
def roleSetParam (p : List Byte) : Bool := decide (field p 8 8 / 2 = 0)

/-- The tenants that a map gives this chip: bit n set, the rank 2 chip leads tenant n. -/
def mapLead (s : State) (m : Nat) : List Nat := allTenants.filter fun t => bit m t == decide (s.img.pair.rank = 2)

/-- TWIN_ROLE_SET (R482). -/
def roleSetEff (s : State) (mb : Nat) (c : Cmd) : State :=
  let new := mapLead s (field c.payload 0 16)
  if s.twin.pendingLead.isSome then refuse s mb 7 0
  else if s.twin.st ≠ .formed then refuse s mb 8 0
  else if s.twin.lead.any fun t => decide (t ∉ new) && (List.range 8).any fun h => decide ((s.sched h).st = .running ∧ (s.sched h).tenant = t) then refuse s mb 10 0
  else takeMap ((twinSend s 0x36 (0 :: allTenants.filter fun t => bit (field c.payload 0 16) t)).modTwin fun w => { w with roleAsked := true }) new

/-- TWIN_ROLE_SET (R482). -/
def execTwinRoleSet (s : State) : Host.Outcome State Fault Refusal := runCmd 0x0A03 s roleSetEff

/-- A chip returns to SINGLE (R497): the contexts of followed tenants are freed, their rack objects stay inactive until PF0 writes them again. -/
def dissolve (s : State) : State :=
  let gone := notLed s
  let slaves := (List.range 32).filter fun n => bit (slvWord s (n / 16) (n % 16) 1) 0 && decide (slvTenant s (n / 16) (n % 16) ∈ gone)
  let routes := (List.range 16).filter fun n => decide (routeTenant s (n / 8) (n % 8) ∈ gone)
  let notes := (List.range 5).filter fun k => decide (bits (s.reg (uliReg k 0x54)).toNat 14 8 ∈ gone)
  let s := gone.foldl (fun s t => (queuesOfTenant s t).foldl (fun s q => s.setQ q (qctxInit q)) s) s
  let s := runAllHolds (s.modTwin fun w => { w with
    st := .single, unsync := [], mirror := [], silence := false, guard := false, pendingLead := none, roleAsked := false, formSeq := none, reason := 0
    inactive := (slaves ++ routes.map (fun n => n + 32) ++ notes.map (fun k => k + 48)).foldl (fun l n => insertAsc n l) w.inactive })
  let s := dropVote (dropVote s Dn.tw Client.twin) Dn.sl Client.twin
  sendMsix (s.raise (twinEv Ev.twinDissolved)) 0 4

/-- A survivor or a chip that disagrees leads or runs every tenant; a formed one follows some (R480, R489). -/
def dissolveOwn (s : State) : State := dissolve (if s.twin.st = .formed then s else s.modTwin fun w => { w with lead := allTenants })

/-- TWIN_DISSOLVE (R497). -/
def twinDissolveEff (s : State) (mb : Nat) (_ : Cmd) : State :=
  match s.twin.st with
  | .fenced => refuse s mb 11 0
  | .formed => done (dissolveOwn (twinSend s 0x36 [3])) mb []
  | .survivor | .disagree => done (dissolveOwn s) mb []
  | _ => done s mb []

/-- TWIN_DISSOLVE (R497). -/
def execTwinDissolve (s : State) : Host.Outcome State Fault Refusal := runCmd 0x0A02 s twinDissolveEff

/-- TWIN_ROLE_RECEIVE (R482, R495, R497): a map to take, the partner's acknowledgement of one or of its side of a handover, its relinquishing of every tenant, its dissolving of the pair. -/
def roleReceiveEff (s : State) (m : RoleMsg) : State :=
  if s.twin.st ≠ .formed then s
  else match m with
    | .map lead => takeMap (twinSend s 0x36 [2]) (allTenants.filter fun t => decide (t ∈ lead) == decide (s.img.pair.rank = 2))
    | .relinquish => takeover s (notLed s) false 0
    | .dissolve => dissolveOwn s
    | .ack =>
      if s.twin.roleAsked then done (s.modTwin fun w => { w with roleAsked := false }) 0 []
      else if s.twin.pendingLead = none then s
      else
        let gained := coming s
        let s := s.modTwin fun w => { w with partnerDone := true, lead := gained.foldl (fun l t => insertAsc t l) w.lead }
        roleDone (gained.foldl (fun s t => (queuesOfTenant s t).foldl takeUp s) s)

/-- TWIN_ROLE_RECEIVE (R495). -/
def execTwinRoleReceive (m : RoleMsg) (s : State) : Host.Outcome State Fault Refusal := .next (roleReceiveEff s m)

end Sys2Proof.Machine
end

