-- ==== Sys2Proof/Machine/Flr.lean ====
section
/-! DEFINITION. Clearing a mailbox (R155, R167), and the resets of one function: FLR, VF disable and enable (R91, R112, R126-R129, R175, R368, R371, R376, R409, R535). -/

namespace Sys2Proof.Machine

/-! ## What a command waits for -/

/-- The mailbox number that no mailbox has: a transition goes on with nobody waiting for it. -/
abbrev nobody : Nat := 66

/-- A mailbox's command waits no longer (R155, R167): a draining soft power-down ends with its domain ON (R94); a transition of a port or link, a formation, a loop goes on without it (R533); its fence is gone (R371). -/
def unwait (s : State) (mb : Nat) : State :=
  let s := (List.range 12).foldl (fun s i =>
    if (s.dom (4 + i)).drainMb = some mb then
      s.modDom (4 + i) fun x => { x with st := if x.st = .draining then .on else x.st, drainMb := none, drainWait := false }
    else s) s
  let s := (List.range 2).foldl (fun s p => s.modPort p fun q => { q with
    stopMb := if q.stopMb = some mb then none else q.stopMb, svcWait := q.svcWait.filter fun w => decide (w.1 ≠ mb) }) s
  let s := (List.range 5).foldl (fun s k => s.modLink k fun l => { l with
    svcMb := if l.svcMb = some mb then none else l.svcMb, stopMb := if l.stopMb = some mb then some nobody else l.stopMb
    retrainMb := if l.retrainMb = some mb then none else l.retrainMb, loopMb := if l.loopMb = some mb then none else l.loopMb }) s
  (s.modTwin fun w => { w with formMb := if w.formMb = some mb then none else w.formMb }).modTal fun x => { x with
    fences := x.fences.filter fun f => decide (f.mb ≠ some mb) }

/-- A mailbox cleared by a reset: its command is dropped or abandoned without a response (R167); PF0's image sessions end (R123). -/
def clearMailbox (s : State) (mb : Nat) : State :=
  let s := unwait s mb
  let s := s.modTwin fun w => { w with
    roleAsked := w.roleAsked && decide (mb ≠ 0)
    holds := w.holds.filter fun h => match h.2.2 with
      | .cmd m _ => decide (m ≠ mb)
      | _ => true }
  let s := s.modHer fun h => { h with
    queue := h.queue.filter fun n => decide (n ≠ mb), exec := if h.exec = some mb then none else h.exec
    fwSession := if mb = 0 then none else h.fwSession, cfgSession := if mb = 0 then none else h.cfgSession }
  let s := (s.setReg (mbReg mb 0x200C) 0).setReg (mbReg mb 0x2010) 0
  s.setMb mb { mbInit mb with st := if s.served then .idle else .booting }

/-! ## FLR -/

/-- The queues of a tenant lose their work without entries (R127 step 2, R128, R256), with the number of descriptors ended. -/
def flrQueues (s : State) (t : Nat) : Nat × State :=
  (queuesOf s t).foldl (fun (acc : Nat × State) q =>
    let n := (acc.2.q q).descs.length
    let s := dropQueueFences (endSegments (dropFetch acc.2 q) q none) q
    (acc.1 + n, s.modQ q fun c => { c with descs := [], spans := [], halting := false, mirrorWait := false, owed := false })) (0, s)

/-- The host reads of a function end without a completion, with their number (R127, R128). -/
def flrReads (s : State) (fn : Nat) : Nat × State :=
  let t := tenantOf fn
  let rs := s.reads.filter fun r => decide (r.tenant = t ∧ r.ended = 0) && (match r.who with
    | .host _ _ => true
    | .seg _ _ => false)
  let held := (s.win.commit.map fun c => c.reqs).getD []
  let mine := held.filter fun r => match r with
    | .read f _ _ _ => decide (f = fn)
    | .write f _ _ _ => decide (f = fn)
  let n := (mine.filter fun r => match r with
    | .read _ _ _ _ => true
    | .write _ _ _ _ => false).length
  let s := rs.foldl (fun s r => abortHostRead s r Cs.abortReset 1 false) s
  (rs.length + n, s.modWin fun x => { x with commit := x.commit.map fun c => { c with reqs := c.reqs.filter fun r => decide (r ∉ mine) } })

/-- A write of a tenant that no target stop has accepted: a window write or a segment's, held at a waking domain or for the follower's acknowledgement. -/
def unaccepted (t : Nat) (a : Acc) : Bool :=
  decide (a.tenant = t) && (match a.origin with
    | .hostWrite => true
    | .seg _ _ => decide (a.kind = .write)
    | _ => false)

/-- The tickets of writes that never reached their target stop. -/
def lostTickets (s : State) (t : Nat) : List Nat :=
  let inDom := (List.range 12).flatMap fun i => (s.dom (4 + i)).held.filterMap fun h => match h with
    | .acc a => if unaccepted t a then some a.ticket else none
    | _ => none
  let inHold := s.twin.holds.filterMap fun h => match h.2.2 with
    | .write a => if unaccepted t a then some a.ticket else none
    | _ => none
  inDom ++ inHold

/-- Writes of a tenant that no target stop has accepted are dropped with their tickets; those that wait for a ticket are dropped too. -/
def dropUnaccepted (s : State) (t : Nat) : State :=
  let lost := lostTickets s t
  let s := (List.range 12).foldl (fun s i =>
    let mine := (s.dom (4 + i)).held.filterMap fun h => match h with
      | .acc a => if unaccepted t a then some a else none
      | _ => none
    if mine = [] then s
    else mine.foldl dropAccVote (s.modDom (4 + i) fun d => { d with held := d.held.filter fun h => match h with
      | .acc a => !unaccepted t a
      | _ => true })) s
  let s := s.modTwin fun w => { w with holds := w.holds.filter fun h => match h.2.2 with
    | .write a => !unaccepted t a
    | _ => true }
  s.modTally t fun q => { q with waiters := [], unsettled := q.unsettled.filter fun u => decide (u.ticket ∉ lost ∨ u.detached ≠ 0) }

/-- A tenant's tally after an FLR (R129, R368, R371, R376): the floor and the mark at the highest ticket issued, kept failures retired, the latch cleared; what has been accepted settles to the log alone. -/
def flrTally (s : State) (t : Nat) : State :=
  let s := (abortFences s t).2
  let s := (s.modTally t fun q => { q with
    floor := q.issued, ack := q.issued, kept := [], overflow := false, latchValid := false, latchMore := false
    unsettled := q.unsettled.map fun u => { u with detached := max 1 u.detached } }).setReg (talBase t + 0x18) 0
  noteTally s t

/-- The record of a reset (R112, R128): CS ABORT_RESET where it ended work, with the counts of descriptors, held reads and rack-master reads. -/
def resetRec (s : State) (code tenant d h r : Nat) : State :=
  s.raise { code := code, src := srcHc, tenant := tenant, cs := if d + h + r = 0 then Cs.none else Cs.abortReset
            data := leBytes 4 d ++ leBytes 4 h ++ leBytes 4 r }

/-- Steps 1 and 2 of R127 for a function with a tenant: votes withdrawn, schedules freed (R409), requests stopped, what had not begun dropped, the tally detached, the record written. A followed tenant's mirrored contexts are kept (R480). -/
def flrBegin (s : State) (fn : Nat) : State :=
  let t := tenantOf fn
  let s := dropVotes s t
  let s := ((List.range 8).filter fun h => decide ((s.sched h).st ≠ .free ∧ (s.sched h).tenant = t)).foldl freeSched s
  let (d, s) := if s.followed t then (0, s) else flrQueues s t
  let (h, s) := flrReads s fn
  let (r, s) := endRackReads s (fun u => decide (u = t)) Cs.abortReset none
  let s := flrTally (dropUnaccepted (s.modFn fn fun f => { f with flr := true }) t) t
  resetRec s Ev.flr t d h r

/-- A VF disable (R91, R112, R126): every enabled VF is reset. -/
def vfDisableEff (s : State) : State :=
  ((liveVfs s).foldl (fun s n => if (s.fn (n + 1)).flr then s else flrBegin s (n + 1)) s).modEp fun e => { e with vfEnable := false }

/-- FLR_INITIATE's effect (R126, R127): an FLR of PF1 clears VF Enable. A boot that has not reached step 9 absorbs it (R114). -/
def flrInitiateEff (s : State) (fn : Nat) : State :=
  if !fnEnabled s fn ∨ (s.fn fn).flr ∨ !s.served then s
  else if fn = 1 then (vfDisableEff s).modFn 1 fun f => { f with flr := true }
  else flrBegin s fn

/-- FLR_INITIATE (R127). -/
def execFlrInitiate (fn : Fn) (s : State) : Host.Outcome State Fault Refusal := .next (flrInitiateEff s fn.val)

/-- FLR_CYCLE_CUT (R127 step 3): the open cycles of tenants under an FLR end as on entry to port containment, without entering it. -/
def flrCutEff (s : State) (p : Nat) : State :=
  let mine := fun (o : OpenAcc) => (s.fn (fnOf o.acc.tenant)).flr
  let os := (s.port p).opens.filter mine
  if os = [] then s
  else
    let s := s.modPort p fun q => { q with opens := q.opens.filter fun o => decide (o ∉ os) }
    afterCycle (os.foldl (fun s o => cutOpen s p Cs.abortReset o) s) p

/-- FLR_CYCLE_CUT (R127). -/
def execFlrCycleCut (p : PortId) (s : State) : Host.Outcome State Fault Refusal := .next (flrCutEff s p.val)

/-- Configuration space of a function after its reset (R115): RWS fields kept; requests still outstanding are discarded when they complete. -/
def flrCfg (f : FnState) : FnState :=
  { fnInit 0 with
    severity := f.severity, pmeEn := f.pmeEn, pmeStatus := f.pmeStatus, tags := f.tags.map fun t => (t.1, .drop), quar := f.quar }

/-- FLR_COMPLETE's effect (R127 steps 4 and 5, R115, R361, R376, R480). -/
def flrCompleteEff (s : State) (fn : Nat) : State :=
  if !(s.fn fn).flr then s
  else
    let s := s.modFn fn flrCfg
    if fn = 1 then s.modEp fun e => { e with numVfs := 0, ari := false, vfBars := ⟨[]⟩ }
    else
      let t := tenantOf fn
      let s := clearWindowsOf s t
      let s := if s.followed t then s
        else (queuesOf s t).foldl (fun s q => mirrorNote ((s.setQ q (qctxInit q)).setReg (0x100070 + 0x100 * q) 0 |>.setReg (0x100074 + 0x100 * q) 0) t
          (ctxRec (s.setQ q (qctxInit q)) q)) s
      let s := liqRetire (clearMailbox s t) t
      let s := { s with regs := if fn = 0 then s.regs else Tbl.clear (fun k => decide (k / 0x100000000 = fn)) s.regs
                        latch := Tbl.clear (fun k => decide (k / 0x100000000 = fn)) s.latch }
      if fn = 0 then reachCheck (s.modEp fun e => { e with bar2Log2 := s.img.pf0Bar2Log2 }) else s

/-- FLR_COMPLETE (R127). -/
def execFlrComplete (fn : Fn) (s : State) : Host.Outcome State Fault Refusal := .next (flrCompleteEff s fn.val)

/-- VF_DISABLE (R112): VF Enable cleared by software. -/
def execVfDisable (s : State) : Host.Outcome State Fault Refusal := .next (if s.ep.vfEnable then vfDisableEff s else s)

/-- VF_ENABLE_SET's effect (R120, R175, R535): without ARI it is refused; kept tenants whose VF is above NumVFs are reset, the others resume. -/
def vfEnableEff (s : State) : State :=
  if s.ep.vfEnable ∨ s.boot.recovery then s
  else if !s.ep.ari then s.raise { code := Ev.sriovNoAri, src := srcHc }
  else
    let gone := s.ep.keptVfs.filter fun n => decide (s.ep.numVfs < n)
    let s := (s.modEp fun e => { e with vfEnable := true, keptVfs := [] }).modCont fun c => { c with linkWasDown := false }
    gone.foldl (fun s n => flrBegin s (n + 1)) s

/-- VF_ENABLE_SET (R175). -/
def execVfEnableSet (s : State) : Host.Outcome State Fault Refusal := .next (vfEnableEff s)

end Sys2Proof.Machine
end

