-- ==== Sys2Proof/Machine/LogRows.lean ====
section
/-! DEFINITION. The bittern log (R515-R521, R523): committing records, reading them back, marks. -/

namespace Sys2Proof.Machine

/-- The records that the ring holds, and the oldest sequence number kept (R515). -/
def ringSize : Nat := 30592
def oldestSeq (s : State) : Nat := s.log.seq - min s.log.seq ringSize

/-- The record with a sequence number, if it is kept (R515). -/
def ringRec (s : State) (n : Nat) : Option EvRec :=
  if oldestSeq s ≤ n ∧ n < s.log.seq then Tbl.get (fun _ => none) s.log.ring (n % ringSize) else none

/-- A first-of-kind slot (R515): slot 128·SS + LL holds code 0xSSLL. -/
def fokSlot (code : Nat) : Nat := code / 256 * 128 + code % 256
def fokRec (s : State) (k : Nat) : Option EvRec := Tbl.get (fun _ => none) s.log.fok k

/-- A record's 64 bytes (R510). -/
def recBytes (r : EvRec) : List Byte :=
  leBytes 8 r.time ++ leBytes 2 r.source ++ leBytes 1 r.tenant ++ leBytes 1 r.severity ++ leBytes 2 r.code ++ leBytes 2 r.cs
    ++ leBytes 8 r.addr ++ leBytes 4 r.ticket ++ slice r.data 0 36

/-- A record's own first-of-kind slot filled, when it is empty (R517): the sideband alert and PF0's entry 3. -/
def fillFok (s : State) (r : EvRec) : State :=
  let k := fokSlot r.code
  if (fokRec s k).isSome then s
  else sendMsix (raiseAlert (s.modLog fun l => { l with fok := l.fok.set (fun _ => none) k (some r), fokOrder := k :: l.fokOrder }) 2) 0 3

/-- A record written to its ring slot and its head entry (R515, R516). -/
def commitRec (s : State) (r : EvRec) : State :=
  fillFok (s.modLog fun l => { l with ring := l.ring.set (fun _ => none) (l.seq % ringSize) (some r), seq := (l.seq + 1) % 2 ^ 48 }) r

/-- The drops that a full queue owes are recorded once there is room (R518). -/
def oweDrops (s : State) : State :=
  if 0 < s.log.dropsOwed ∧ s.log.waiting.length < 256 then
    (s.modLog fun l => { l with dropsOwed := 0 }).raise { code := Ev.logQueueFull, src := srcSalt, data := leBytes 4 s.log.dropsOwed }
  else s

/-- The oldest waiting record committed. -/
def commitOne (s : State) : State :=
  match s.log.waiting with
  | [] => s
  | r :: rest => oweDrops (commitRec (s.modLog fun l => { l with waiting := rest }) r)

/-- The queue committed whole, at most `n` records: before a device reset by command and before thermal shutdown (R518). -/
def commitAll (s : State) : Nat → State
  | 0 => s
  | n + 1 => commitAll (commitOne s) n

/-- LOG_RECORD_COMMIT (R516-R518). -/
def execLogRecordCommit (s : State) : Host.Outcome State Fault Refusal := .next (if s.log.ready then commitOne s else s)

/-- A record that the issuer may read (R171). -/
def mayRead (t : Nat) (r : EvRec) : Bool := decide (t = 0) || decide (r.tenant = t)

/-- Records examined from `n` on, below `hi`, until `want` are found or `fuel` have been examined: the next number and what was found (R520). -/
def scanRecs (get : Nat → Option EvRec) (t hi : Nat) : Nat → Nat → Nat → Nat × List EvRec
  | 0, _, n => (n, [])
  | fuel + 1, want, n =>
    if hi ≤ n ∨ want = 0 then (n, [])
    else match get n with
      | some r => if mayRead t r then let (m, l) := scanRecs get t hi fuel (want - 1) (n + 1); (m, r :: l) else scanRecs get t hi fuel want (n + 1)
      | none => scanRecs get t hi fuel want (n + 1)

/-- The response of LOG_READ and LOG_FOK_READ (R520). -/
def readRsp (next : Nat) (rs : List EvRec) (skipped : Bool) : List Byte :=
  leBytes 6 next ++ leBytes 1 rs.length ++ leBytes 1 (b2n skipped) ++ rs.flatMap recBytes

/-- The payload of LOG_READ and LOG_FOK_READ: COUNT 1-63, the last byte reserved. -/
def logReadParam (p : List Byte) : Bool := decide (1 ≤ byteAt p 6 ∧ byteAt p 6 ≤ 63 ∧ byteAt p 7 = 0)

/-- START of LOG_READ against the records kept: where examination starts, and SKIPPED (R520). -/
def readStart (s : State) (st : Nat) : Nat × Bool :=
  if st = 0xFFFFFFFFFFFF then (oldestSeq s, false)
  else if s.log.seq ≤ st then (s.log.seq, false)
  else if st < oldestSeq s then (oldestSeq s, true)
  else (st, false)

/-- LOG_READ (R520). -/
def execLogRead (s : State) : Host.Outcome State Fault Refusal :=
  runCmd 0x0C00 s fun s mb c =>
    let (st, skipped) := readStart s (field c.payload 0 6)
    let (next, rs) := scanRecs (ringRec s) (mbTenant mb) s.log.seq 512 (byteAt c.payload 6) st
    done s mb (readRsp next rs skipped)

/-- LOG_FOK_READ (R520): valid slots only, in ascending order, at most 512 examined. -/
def execLogFokRead (s : State) : Host.Outcome State Fault Refusal :=
  runCmd 0x0C01 s fun s mb c =>
    let st := field c.payload 0 6
    let st := if st = 0xFFFFFFFFFFFF then 0 else min 1664 st
    let (next, rs) := scanRecs (fokRec s) (mbTenant mb) 1664 512 (byteAt c.payload 6) st
    done s mb (readRsp next rs false)

/-- LOG_MARK (R520): the issuer's 36 B as a record. -/
def execLogMark (s : State) : Host.Outcome State Fault Refusal :=
  runCmd 0x0C02 s fun s mb c =>
    done (s.raise { code := Ev.logMark, src := 0xFFFF, tenant := mbTenant mb, data := c.payload }) mb []

/-- The words of the BTN_ window (R523), by offset in it. -/
def btnWord (s : State) (off : Nat) : Nat :=
  if off = 0x00 then b2n s.log.ready + b2n s.log.recovered * 2 + min 255 s.log.waiting.length * 256
  else if off = 0x04 then s.log.seq % 2 ^ 32
  else if off = 0x08 then s.log.seq / 2 ^ 32
  else if off = 0x0C then oldestSeq s % 2 ^ 32
  else if off = 0x10 then oldestSeq s / 2 ^ 32
  else if off = 0x14 then s.log.fok.rows.length
  else if 0x1000 ≤ off ∧ off < 0x2000 then
    let first := (s.reg 0x58001C).toNat + 0x100000000 * (s.reg 0x580020).toNat
    match ringRec s (first + (off - 0x1000) / 64) with
    | some r => wordAt (recBytes r) ((off - 0x1000) % 64)
    | none => 0
  else (s.reg (0x580000 + off)).toNat

end Sys2Proof.Machine
end

