-- ==== Sys2Proof/Machine/Spares.lean ====
section
/-! DEFINITION. Spares and wear (R500-R508, R522): the bounds, fault responses, planned decisions, the wear monitors, the override and status commands. -/

namespace Sys2Proof.Machine

/-! ## Bounds and units -/

/-- A word of the bounds in force (R505). -/
def boundWord (s : State) (i : Nat) : Nat := (nth s.spares.bounds i 0#32).toNat

/-- The bounds' fields (R505). -/
def panRetire (s : State) : Nat := bits (boundWord s 1) 15 0
def eyeHMin (s : State) : Nat := bits (boundWord s 2) 7 0
def eyeVMin (s : State) : Nat := bits (boundWord s 2) 23 8
def planPans (s : State) : Nat := bits (boundWord s 4) 3 0
def planLanes (s : State) : Nat := bits (boundWord s 4) 11 8
def rowCeLimit (s : State) : Nat := bits (boundWord s 5) 7 0
def mramLimit (s : State) : Nat := bits (boundWord s 6) 9 0

/-- AUTO of a kind (R505): bit 0 pans, 1 lanes, 2 SRAM rows, 3 MRAM blocks, 4 PLLs. -/
def autoOn (s : State) (kind : Nat) : Bool := bit (boundWord s 0) (kind - 1)

/-- A unit's key: kind (R506, R514) and index. -/
def unitKey (kind index : Nat) : Nat := kind * 2 ^ 24 + index

/-- The payload of SPARE_BOUNDS_SET is within the ranges of R505, reserved bits clear. -/
def boundsParam (p : List Byte) : Bool :=
  let w := wordAt p
  decide (w 0 < 32 ∧ 100 ≤ w 4 ∧ w 4 ≤ 2000 ∧ 1 ≤ bits (w 8) 7 0 ∧ bits (w 8) 7 0 ≤ 64 ∧ 1 ≤ w 8 / 256 ∧ w 8 / 256 ≤ 200
    ∧ 1 ≤ w 12 ∧ w 12 ≤ 720 ∧ w 16 % 256 ≤ 8 ∧ w 16 / 256 ≤ 5 ∧ 1 ≤ w 20 ∧ w 20 ≤ 255 ∧ 500 ≤ w 24 ∧ w 24 ≤ 950 ∧ w 28 = 0)

/-- The number of units of a kind. -/
def unitCount (kind : Nat) : Nat :=
  match kind with
  | 1 => 136
  | 2 => 25
  | 3 => 96
  | 4 => 4096
  | 5 => 2
  | 6 => 18
  | _ => 0

/-- The payload of SPARE_RETIRE_OVERRIDE (R506): kind, index, action. -/
def overrideParam (p : List Byte) : Bool :=
  let k := bits (wordAt p 0) 7 0
  decide (k ≠ 3 ∧ k ≠ 6 ∧ wordAt p 0 / 256 < unitCount k ∧ 1 ≤ wordAt p 4 ∧ wordAt p 4 ≤ 3)

/-- The payload of WEAR_GET (R522). -/
def wearGetParam (p : List Byte) : Bool := decide (wordAt p 0 / 256 < unitCount (bits (wordAt p 0) 7 0))

/-- The source block of MRAM's and of a PLL's records (R512). -/
def srcMram : Nat := src 17 0
def srcPll (fb : Bool) : Nat := src (if fb then 3 else 2) 0

/-- The spare blocks of MRAM that remain (R500). -/
def mramLeft (s : State) : Nat := 410 - s.mram.mramRetired.length

/-- A measurement taken (R522): its time and the number since power-on. -/
def noteMeas (s : State) (unit : Nat) : State :=
  s.modSpares fun x => { x with meas := x.meas.set (fun _ => (0, 0)) unit (s.now, (Tbl.get (fun _ => (0, 0)) x.meas unit).2 + 1) }

/-! ## Planned decisions (R504) -/

/-- Why a planned decision is held, 0 when it is taken (R504, R514): AUTO clear, FORBID, the plan limit, no spare ready. -/
def heldReason (s : State) (kind index : Nat) (planOk spareOk : Bool) : Nat :=
  if !autoOn s kind then 1 else if unitKey kind index ∈ s.spares.forbid then 2 else if !planOk then 3 else if !spareOk then 4 else 0

/-- A held decision: WEAR_HELD, counted, with MSI-X entry 5 (R504). -/
def holdDecision (s : State) (kind index srcId meas bound reason : Nat) : State :=
  let s := spareRec (s.incReg 0x540018) Ev.wearHeld srcId kind 3 index meas bound reason
  decided (s.modSpares fun x => { x with heldUnits := insertAsc (unitKey kind index) x.heldUnits }) kind index 3

/-- A unit has reached its planned threshold (R504): WEAR_THRESHOLD, then the decision, or WEAR_HELD. A unit that is held already, with the measurement `same`, writes nothing more. -/
def planned (s : State) (kind index srcId meas bound : Nat) (planOk spareOk same : Bool) (act : State → State) : State :=
  let why := heldReason s kind index planOk spareOk
  if why ≠ 0 ∧ unitKey kind index ∈ s.spares.heldUnits ∧ same then s
  else
    let s := spareRec s Ev.wearThreshold srcId kind 1 index meas bound 0
    if why = 0 then act (s.modSpares fun x => { x with heldUnits := x.heldUnits.filter fun u => decide (u ≠ unitKey kind index) })
    else holdDecision s kind index srcId meas bound why

/-! ## Lanes -/

/-- A link can swap a lane out now (R426): ACTIVE, out of electrical idle, with a spare and no swap running. -/
def swapReady (s : State) (k : Nat) : Bool :=
  decide ((s.link k).lst = .active ∧ (s.link k).spare ≠ 7 ∧ (s.link k).swap = none) && !(s.link k).eiIdle

/-- The planned swap of a worn lane (R504): it becomes FAILED for good, and the swap runs from step 2 of R426. -/
def retireLane (s : State) (n action : Nat) : State :=
  let k := laneLink n
  let m := (s.lane n).logical
  let s := (s.modMram fun x => { x with laneFailed := insertAsc n x.laneFailed }).modLane n fun x => { x with st := .failed, logical := 7 }
  let (c, s) := freeCount s
  let s := (s.modLink k fun l => { l with swap := some (m, c, false) }).emit (.laneCtl k 1 m c)
  decided (spareUsed s) 2 n action

/-- EYE_WEAR_SCAN's effect (R502, R504): the margins of an ACTIVE lane; below a bound in two consecutive scans a swap is due. -/
def eyeWearEff (s : State) (n h v : Nat) : State :=
  if (s.lane n).st ≠ .active ∨ s.tide.active then s
  else
    let same := decide (Tbl.get (fun _ => 0) s.spares.laneEye n = h % 256 + v % 4096 * 256)
    let low := decide (h < eyeHMin s ∨ v < eyeVMin s)
    let again := low && decide (n ∈ s.spares.laneLow)
    let s := noteMeas (s.modSpares fun x => { x with
      laneEye := x.laneEye.set (fun _ => 0) n (h % 256 + v % 4096 * 256)
      laneLow := if low then insertAsc n x.laneLow else x.laneLow.filter fun m => decide (m ≠ n) }) (unitKey 2 n)
    if again then
      planned s 2 n (srcLane n) (if h < eyeHMin s then h else v) (if h < eyeHMin s then eyeHMin s else eyeVMin s)
        (decide (s.mram.lanePlan < planLanes s)) (swapReady s (laneLink n)) same fun s =>
          retireLane (s.modMram fun x => { x with lanePlan := x.lanePlan + 1 }) n 1
    else s

/-- EYE_WEAR_SCAN (R502): every EYE_PERIOD. -/
def execEyeWearScan (n : LaneId) (hMargin vMargin : Nat) (s : State) : Host.Outcome State Fault Refusal :=
  .next (eyeWearEff s n.val hMargin vMargin)

/-! ## SRAM rows (R502) -/

/-- A row's key. -/
def rowKey (m row : Nat) : Nat := m * 65536 + row

/-- A live row repair (R502): the row is copied to a spare row of its macro. -/
def repairRow (s : State) (m row meas : Nat) : State :=
  let s := s.modMram fun x => { x with rowsUsed := x.rowsUsed.set (fun _ => 0) m (Tbl.get (fun _ => 0) x.rowsUsed m + 1) }
  let s := s.modSpares fun x => { x with rowErrs := x.rowErrs.set (fun _ => []) (rowKey m row) [] }
  decided (spareUsed (spareRec s Ev.sramRowRepair srcHc 3 1 m meas (rowCeLimit s) 0)) 3 m 1

/-- The planned repair of a row that has reached ROW_CE_LIMIT (R502, R504); a macro with no spare row left writes SRAM_REPAIR_FULL once. -/
def rowDue (s : State) (m row meas : Nat) : State :=
  if 16 ≤ Tbl.get (fun _ => 0) s.mram.rowsUsed m then
    if m ∈ s.spares.rowFull then s
    else (spareRec s Ev.sramRepairFull srcHc 3 3 m meas (rowCeLimit s) 4).modSpares fun x => { x with rowFull := insertAsc m x.rowFull }
  else planned s 3 m srcHc meas (rowCeLimit s) true true false fun s => repairRow s m row meas

/-- SRAM_CORRECTED's effect (R186, R502): a single-bit error corrected, logged, counted within 24 h. -/
def sramCorrectedEff (s : State) (m row : Nat) : State :=
  let times := ((Tbl.get (fun _ => []) s.spares.rowErrs (rowKey m row)).filter fun t => decide (s.now < t + 86400000000000)) ++ [s.now]
  let s := s.modSpares fun x => { x with rowErrs := x.rowErrs.set (fun _ => []) (rowKey m row) times }
  let s := noteMeas (s.emit (.aer 0 8)) (unitKey 3 m)
  let s := s.raise { code := Ev.sramCorrected, src := srcHc }
  if rowCeLimit s ≤ times.length ∧ !s.tide.active then rowDue s m row times.length else s

/-- SRAM_CORRECTED (R186). -/
def execSramCorrected (macroIdx : Fin 96) (row : Nat) (s : State) : Host.Outcome State Fault Refusal :=
  .next (sramCorrectedEff s macroIdx.val row)

/-! ## MRAM blocks and PLLs -/

/-- A block copied to a spare and remapped (R500): fewer than 41 left are recorded once. -/
def retireBlock (s : State) (b action meas bound : Nat) : State :=
  let s := s.modMram fun x => { x with mramRetired := b :: x.mramRetired, mramWrites := x.mramWrites.set (fun _ => 0) b 0 }
  let s := decided (spareUsed (spareRec s Ev.mramBlockRetired srcMram 4 action b meas bound 0)) 4 b action
  if mramLeft s = 40 then spareRec s Ev.mramSpareLow srcMram 4 action b (mramLeft s) 41 0 else s

/-- MRAM_VERIFY_FAIL (R501): a write fails its read-back, and its block moves to a spare while one remains. -/
def execMramVerifyFail (block : Fin 4096) (s : State) : Host.Outcome State Fault Refusal :=
  .next (if 0 < mramLeft s then retireBlock s block.val 0 (Tbl.get (fun _ => 0) s.mram.mramWrites block.val) (mramLimit s) else s)

/-- HC or FB runs on its second PLL. -/
def pllSwitched (s : State) (fb : Bool) : Bool := if fb then s.mram.pllFb else s.mram.pllHc

/-- The switch to the second PLL (R500). -/
def switchPll (s : State) (fb : Bool) (action : Nat) : State :=
  let s := s.modMram fun x => if fb then { x with pllFb := true } else { x with pllHc := true }
  decided (spareUsed (spareRec s Ev.pllSwitch (srcPll fb) 5 action (b2n fb) 0 0 0)) 5 (b2n fb) action

/-- PLL_FAULT's effect (R501, R502): the second PLL takes over; with none left PLL_LOST and device containment, whose cause persists. -/
def pllFaultEff (s : State) (fb spareOk : Bool) : State :=
  if !pllSwitched s fb ∧ spareOk then switchPll s fb 0
  else
    let s := s.raise { code := Ev.pllLost, src := srcPll fb, enters := 2, data := spareData 5 0 (b2n fb) 0 0 0 }
    enterDevice (s.modCont fun c => { c with pllLost := true }) 2

/-- PLL_FAULT (R501): loss of lock or more than 500 ppm off. -/
def execPllFault (fb : Bool) (spareOk : Bool) (s : State) : Host.Outcome State Fault Refusal := .next (pllFaultEff s fb spareOk)

/-! ## The hourly measurement (R502, R503) -/

/-- The integer root of order 80 of `n`, bit by bit from bit `i - 1` down. -/
def root80 (n : Nat) : Nat → Nat → Nat
  | 0, r => r
  | i + 1, r => if (r + 2 ^ i) ^ 80 ≤ n then root80 n i (r + 2 ^ i) else root80 n i r

/-- The equivalent hours at 90 °C of one hour at a temperature in 0.125 °C, in units of 2^-32 h (R85, R503): 2^((T - 90) / 10). -/
def ageHour (t : BitVec 16) : Nat := root80 (2 ^ (2560 + (t.toInt - 720)).toNat) 44 0

/-- One island's degradation (R502): journaled, kept as the day's lowest, reported when it first reaches 5.00 %. -/
def measIsland (s : State) (d f : Nat) : State :=
  let old := Tbl.get (fun _ => 0) s.mram.wearIsl d
  let s := noteMeas (s.modMram fun x => { x with wearIsl := x.wearIsl.set (fun _ => 0) d f }) (unitKey 6 d)
  let s := s.modSpares fun x => { x with dayLow := x.dayLow.set (fun _ => 0xFFFF) d (min f (Tbl.get (fun _ => 0xFFFF) x.dayLow d)) }
  if old < 500 ∧ 500 ≤ f then spareRec s Ev.wearThreshold (src d 0) 6 1 d f 500 0 else s

/-- One pan's degradation (R502, R504): at PAN_RETIRE a pan in service retires within the plan. -/
def measPan (s : State) (p f : Nat) : State :=
  let same := decide (Tbl.get (fun _ => 0) s.mram.wearPan p = f)
  let s := noteMeas (s.modMram fun x => { x with wearPan := x.wearPan.set (fun _ => 0) p f }) (unitKey 1 p)
  if panRetire s ≤ f ∧ panServes s p then
    planned s 1 p (srcPan p) f (panRetire s) (decide (s.mram.panPlan < planPans s)) (bedSpare s (p / 17)).isSome same fun s =>
      retirePan (s.modMram fun x => { x with panPlan := x.panPlan + 1 }) p 1 f (panRetire s)
  else s

/-- One MRAM block's write count per mille (R502, R504). -/
def measBlock (s : State) (b f : Nat) : State :=
  let same := decide (Tbl.get (fun _ => 0) s.mram.mramWrites b = f)
  let s := noteMeas (s.modMram fun x => { x with mramWrites := x.mramWrites.set (fun _ => 0) b f }) (unitKey 4 b)
  if mramLimit s ≤ f then
    planned s 4 b srcMram f (mramLimit s) true (decide (0 < mramLeft s)) same fun s => retireBlock s b 1 f (mramLimit s)
  else s

/-- WEAR_MEASURE's effect (R502, R503): WEAR_AGE grows by the hour, then the islands, the pans and the blocks, one decision at a time by kind and index (R507). Powered units only, and not in tide watch. -/
def wearMeasureEff (s : State) (islands pans : List Nat) (blocks : List (Nat × Nat)) : State :=
  if s.tide.active then s
  else
    let s := s.modMram fun x => { x with wearAge := x.wearAge + ageHour s.mon.temp }
    let s := (List.range (min 18 islands.length)).foldl (fun s d => if domUp s d then measIsland s d (min 0xFFFF (nth islands d 0)) else s) s
    let s := (List.range (min 136 pans.length)).foldl (fun s p => if domUp s (4 + p / 17) then measPan s p (min 0xFFFF (nth pans p 0)) else s) s
    blocks.foldl (fun s e => if e.1 < 4096 then measBlock s e.1 (min 1023 e.2) else s) s

/-- WEAR_MEASURE (R502): every hour of powered time. -/
def execWearMeasure (islands pans : List Nat) (blocks : List (Nat × Nat)) (s : State) : Host.Outcome State Fault Refusal :=
  .next (wearMeasureEff s islands pans blocks)

/-- WEAR_DAILY_HISTORY (R503): the day's lowest degradations join the history of 25 years. -/
def execWearDailyHistory (s : State) : Host.Outcome State Fault Refusal :=
  .next ((s.modMram fun x => { x with
    wearHistory := (((List.range 18).map (Tbl.get (fun _ => 0xFFFF) s.spares.dayLow)) :: x.wearHistory).take 9132 }).modSpares fun x => { x with dayLow := ⟨[]⟩ })

/-! ## Commands -/

/-- The pan and lane spares that are ready (R522). -/
def pansReady (s : State) : Nat := ((List.range 8).filter fun b => (bedSpare s b).isSome).length
def lanesReady (s : State) : Nat := ((List.range 5).filter fun k => decide ((s.link k).spare ≠ 7)).length

/-- The block with the highest write count, and that count. -/
def mramWorst (s : State) : Nat × Nat := s.mram.mramWrites.rows.foldl (fun m e => if m.2 < e.2 then e else m) (0, 0)

/-- The words of SPR_ and WEAR_ (R522), by offset in the block. -/
def sprWord (s : State) (off : Nat) : Nat :=
  if off = 0x00 then pansReady s + lanesReady s * 16 + b2n (!s.mram.pllHc) * 256 + b2n (!s.mram.pllFb) * 512
    + b2n s.mram.pllHc * 1024 + b2n s.mram.pllFb * 2048
  else if off = 0x04 then 1536 - (s.mram.rowsUsed.rows.map fun e => e.2).sum + (384 - s.mram.colsUsed) * 65536
  else if off = 0x08 then mramLeft s + s.mram.mramRetired.length * 65536
  else if off = 0x0C then boundWord s 0
  else if off = 0x10 then s.mram.panPlan + s.mram.lanePlan * 256
  else if off = 0x1C then s.spares.last.toNat
  else if off = 0x20 then s.mram.wearAge / 2 ^ 32
  else if off = 0x24 then s.mram.wearAge / 2 ^ 64
  else if off = 0x28 then (mramWorst s).2 + (mramWorst s).1 * 65536
  else if 0x100 ≤ off ∧ off < 0x148 then Tbl.get (fun _ => 0) s.mram.wearIsl ((off - 0x100) / 4)
  else if 0x200 ≤ off ∧ off < 0x420 then
    let p := (off - 0x200) / 4
    Tbl.get (fun _ => 0) s.mram.wearPan p + b2n (decide (unitKey 1 p ∈ s.spares.forbid)) * 65536 + b2n (decide (unitKey 1 p ∈ s.spares.heldUnits)) * 131072
  else if 0x600 ≤ off ∧ off < 0x664 then
    let n := (off - 0x600) / 4
    Tbl.get (fun _ => 0) s.spares.laneEye n + b2n (decide (n ∈ s.spares.laneLow)) * 2 ^ 24 + b2n (decide (unitKey 2 n ∈ s.spares.forbid)) * 2 ^ 25
  else (s.reg (0x540000 + off)).toNat

/-- SPARE_STATUS (R522): the words +0x00 to +0x1C, the counters left as they are, and the bounds in force. -/
def execSpareStatus (s : State) : Host.Outcome State Fault Refusal :=
  runCmd 0x0B00 s fun s mb _ => done s mb (bytesOfWords ((List.range 8).map (fun i => sprWord s (4 * i)) ++ (List.range 8).map (boundWord s)))

/-- SPARE_BOUNDS_SET (R504, R505): held decisions are judged afresh. -/
def execSpareBoundsSet (s : State) : Host.Outcome State Fault Refusal :=
  runCmd 0x0B01 s fun s mb c =>
    done (s.modSpares fun x => { x with bounds := (List.range 8).map fun i => w32 (wordAt c.payload (4 * i)), heldUnits := [] }) mb []

/-- An accepted override ends with its record (R506). -/
def overrideDone (s : State) (mb kind index : Nat) : State :=
  done (spareRec s Ev.spareOverride srcSalt kind 2 index 0 0 0) mb []

/-- RETIRE of one unit (R506, R507): refused for a unit already retired (2) or with no spare (1). A lane whose swap runs is waited for. -/
def retireNowEff (s : State) (mb : Nat) (c : Cmd) : State :=
  let kind := bits (wordAt c.payload 0) 7 0
  let i := wordAt c.payload 0 / 256
  let go := fun (s : State) => overrideDone s mb kind i
  if wordAt c.payload 4 ≠ 1 then s
  else match kind with
    | 1 =>
      if !panServes s i then refuse s mb 2 0
      else if (bedSpare s (i / 17)).isNone then refuse s mb 1 0
      else go (retirePan s i 2 (Tbl.get (fun _ => 0) s.mram.wearPan i) (panRetire s))
    | 2 =>
      let k := laneLink i
      let mine := (s.link k).swap.any fun w => decide (nth (s.link k).map w.1 7 = lanePhys i)
      if mine then s
      else if (s.lane i).st ≠ .active then refuse s mb 2 0
      else if !swapReady s k then refuse s mb 1 0
      else go (retireLane s i 2)
    | 4 =>
      if i ∈ s.mram.mramRetired then refuse s mb 2 0
      else if mramLeft s = 0 then refuse s mb 1 0
      else go (retireBlock s i 2 (Tbl.get (fun _ => 0) s.mram.mramWrites i) (mramLimit s))
    | _ =>
      if pllSwitched s (decide (i = 1)) then refuse s mb 1 0 else go (switchPll s (decide (i = 1)) 2)

/-- SPARE_RETIRE_NOW: SPARE_RETIRE_OVERRIDE with RETIRE (R506). -/
def execSpareRetireNow (s : State) : Host.Outcome State Fault Refusal := runCmd 0x0B02 s retireNowEff

/-- A unit's FORBID set or removed (R506); its state has changed, so a held decision is judged afresh (R504). -/
def setForbid (s : State) (mb : Nat) (c : Cmd) (on : Bool) : State :=
  let kind := bits (wordAt c.payload 0) 7 0
  let u := unitKey kind (wordAt c.payload 0 / 256)
  overrideDone (s.modSpares fun x => { x with
    forbid := if on then insertAsc u x.forbid else x.forbid.filter fun v => decide (v ≠ u)
    heldUnits := x.heldUnits.filter fun v => decide (v ≠ u) }) mb kind (wordAt c.payload 0 / 256)

/-- SPARE_FORBID: SPARE_RETIRE_OVERRIDE with FORBID (R506). -/
def execSpareForbid (s : State) : Host.Outcome State Fault Refusal :=
  runCmd 0x0B02 s fun s mb c => if wordAt c.payload 4 = 2 then setForbid s mb c true else s

/-- SPARE_ALLOW: SPARE_RETIRE_OVERRIDE with ALLOW (R506). -/
def execSpareAllow (s : State) : Host.Outcome State Fault Refusal :=
  runCmd 0x0B02 s fun s mb c => if wordAt c.payload 4 = 3 then setForbid s mb c false else s

/-- The measurements, the bound and RETIRED of a unit (R522): first, second, bound, retired. -/
def wearOf (s : State) (kind i : Nat) : Nat × Nat × Nat × Bool :=
  match kind with
  | 1 => (Tbl.get (fun _ => 0) s.mram.wearPan i, 0, panRetire s, decide ((s.pan i).st = 4))
  | 2 => (Tbl.get (fun _ => 0) s.spares.laneEye i % 256, Tbl.get (fun _ => 0) s.spares.laneEye i / 256, eyeHMin s, laneWorn s i)
  | 3 => (((s.spares.rowErrs.rows.filter fun e => decide (e.1 / 65536 = i)).map fun e => e.2.length).foldl max 0, 0, rowCeLimit s,
          decide (16 ≤ Tbl.get (fun _ => 0) s.mram.rowsUsed i))
  | 4 => (Tbl.get (fun _ => 0) s.mram.mramWrites i, 0, mramLimit s, decide (i ∈ s.mram.mramRetired))
  | 5 => ((Config.freeMeasure s.fresh).toNat, 0, 0, pllSwitched s (decide (i = 1)))
  | _ => (Tbl.get (fun _ => 0) s.mram.wearIsl i, 0, 500, decide (i ∈ s.mram.islandFailed))

/-- The 64 B response of WEAR_GET (R522). -/
def wearBytes (s : State) (kind i : Nat) : List Byte :=
  let (a, b, bound, gone) := wearOf s kind i
  let u := unitKey kind i
  let m := Tbl.get (fun _ => (0, 0)) s.spares.meas u
  leBytes 4 a ++ leBytes 4 b ++ leBytes 4 bound
    ++ leBytes 4 (b2n (decide (u ∈ s.spares.forbid)) + b2n (decide (u ∈ s.spares.heldUnits)) * 2 + b2n gone * 4)
    ++ leBytes 8 m.1 ++ leBytes 8 m.2 ++ List.replicate 32 0#8

/-- WEAR_GET (R522). -/
def execWearGet (s : State) : Host.Outcome State Fault Refusal :=
  runCmd 0x0B03 s fun s mb c => done s.bump mb (wearBytes s (bits (wordAt c.payload 0) 7 0) (wordAt c.payload 0 / 256))

end Sys2Proof.Machine
end

