-- ==== Sys2Proof/Machine/Resets.lean ====
section
/-! DEFINITION. The wide resets (R72, R112-R125, R128, R134, R137, R167, R198, R361, R374, R472, R498, R509): what each clears, firmware and configuration selection, and the boot to step 7. -/

namespace Sys2Proof.Machine

/-- The wide resets of R115's columns. -/
inductive WideReset where
  | powerOn | device | tideExit | host
  deriving DecidableEq, Repr

/-- The boot step that a reset enters (R112). -/
def WideReset.entry : WideReset → Nat
  | .powerOn => 1
  | .device => 2
  | .tideExit => 2
  | .host => 6

/-! ## Supplies (R67, R72, R77) -/

/-- The edges of R67 in mV, by supply 0-5. -/
def supplyEdges (k : Nat) : Nat × Nat := [(720, 800), (776, 824), (825, 875), (1164, 1236), (1710, 1890)].getD k (1710, 1890)

/-- A supply is beyond its warning threshold, and beyond its fault threshold, 3 % further (R77). -/
def supplyWarned (k mv : Nat) : Bool := decide (mv < (supplyEdges k).1 ∨ (supplyEdges k).2 < mv)
def supplyFaulty (k mv : Nat) : Bool := decide (100 * mv < 97 * (supplyEdges k).1 ∨ 103 * (supplyEdges k).2 < 100 * mv)

/-- A supply is beyond its reset threshold (R72): VDD_AO its fault threshold, the others 85 % of the R67 minimum. -/
def supplyResets (k mv : Nat) : Bool := if k = 1 then supplyFaulty k mv else decide (k < 6 ∧ 100 * mv < 85 * (supplyEdges k).1)

/-- The index of a supply in the monitors (R106). -/
def supplyIdx : Supply → Nat
  | .core => 0
  | .ao => 1
  | .aHs => 2
  | .hHs => 3
  | .v18 => 4
  | .nv => 5
  | .bank p b => 6 + 4 * p.val + b.val

/-- A measured supply, and one measured now. -/
def State.mv (s : State) (k : Nat) : Nat := Tbl.get mvInit s.mon.mv k
def setMv (s : State) (k v : Nat) : State := s.modMon fun m => { m with mv := m.mv.set mvInit k v }

/-- All six supplies are valid: none below its reset threshold (R72). -/
def suppliesValid (s : State) : Bool := (List.range 6).all fun k => !supplyResets k (s.mv k)

/-- The device is out of reset and powered: PORST_N has risen and its boot has begun, no internal reset, no thermal shutdown, no tide watch. -/
def awake (s : State) : Bool := s.pins.porst && !s.boot.powerOnPending && !s.mon.internalReset && !s.mon.shutdown && !s.tide.active

/-! ## Images -/

/-- Firmware and configuration slot `n` (0 A, 1 B). -/
def fwImg (s : State) (n : Nat) : ImgSlot := if n = 0 then s.mram.fwA else s.mram.fwB
def cfgImg (s : State) (n : Nat) : ImgSlot := if n = 0 then s.mram.cfgA else s.mram.cfgB

/-- Verification of a firmware slot (R119). -/
def fwVerifies (s : State) (i : ImgSlot) : Bool :=
  i.valid && Config.fwSignatureOk i.bytes.rows && decide (s.mram.minSec ≤ fwSecurity i) && fwFlag i 2

/-- `n` bytes of a slot from an offset. -/
def imgBytes (i : ImgSlot) (off n : Nat) : List Byte := (List.range n).map fun j => Tbl.get (fun _ => 0#8) i.bytes (off + j)
def imgField (i : ImgSlot) (off n : Nat) : Nat := leNat (imgBytes i off n)

/-- Validity of a configuration slot (R121): MAGIC, FORMAT, LENGTH and the check word. -/
def cfgValid (i : ImgSlot) : Bool :=
  i.valid && decide (imgField i 0 4 = 0x46434B49 ∧ imgField i 4 2 = 1)
    && (let n := imgField i 0xC 4
        decide (64 ≤ n ∧ n ≤ 524288 ∧ n % 4 = 0) && decide (imgField i (n - 4) 4 = (crc32c (imgBytes i 0 (n - 4))).toNat))

/-- An event of the boot ROM, of Saltmaster. -/
def romEv (code : Nat) : Ev := { code := code, src := srcRom }
def saltEv (code : Nat) : Ev := { code := code, src := srcSalt }

/-- The running firmware chosen (R119): both slots failing leads to recovery (R120); after three watchdog expiries with no step 9 between them the active slot is treated as failing (R125). -/
def fwSelect (s : State) : State :=
  let b := s.mram.boot
  let late := b.trial && decide (1 ≤ b.attempts)
  let slot := if b.trial && !late then b.fwPending else b.fwActive
  let s := if b.trial then s.modMram fun m => { m with boot := { m.boot with attempts := m.boot.attempts + 1, trial := !late } } else s
  let s := if late then s.raise (romEv Ev.fwTrialFail) else s
  let ok := fun n => fwVerifies s (fwImg s n) && !(decide (3 ≤ s.boot.wdogRun) && decide (n = b.fwActive))
  if ok slot then s.modBoot fun x => { x with
    fwSlot := slot, fwFallback := false, recovery := false, trialUnconfirmed := b.trial && !late }
  else if ok (1 - slot) then
    ((s.raise (romEv Ev.fwVerifyFail)).raise (romEv Ev.fwFallback)).modBoot fun x => { x with
      fwSlot := 1 - slot, fwFallback := true, recovery := false, trialUnconfirmed := false }
  else
    ((s.raise { romEv Ev.fwVerifyFail with critical := true }).raise { romEv Ev.fwVerifyFail with critical := true }).modBoot fun x => { x with
      fwSlot := 0, fwFallback := false, recovery := true, trialUnconfirmed := false }

/-- The configuration image chosen (R121, R122). Recovery takes the factory IDs (R120). -/
def cfgSelect (s : State) : State :=
  let a := s.mram.boot.cfgActive
  let use := fun (s : State) n => { s with img := Config.imageBody (cfgImg s n).bytes.rows }
  if s.boot.recovery then
    { s.modBoot fun x => { x with cfgSlot := 0, cfgDefaults := false, cfgFallback := false } with img := Image.factory }
  else if cfgValid (cfgImg s a) then
    use (s.modBoot fun x => { x with cfgSlot := a, cfgDefaults := false, cfgFallback := false }) a
  else if cfgValid (cfgImg s (1 - a)) then
    use ((s.raise (saltEv Ev.cfgFallback)).modBoot fun x => { x with cfgSlot := 1 - a, cfgDefaults := false, cfgFallback := true }) (1 - a)
  else
    { (s.raise (saltEv Ev.cfgDefaults)).modBoot fun x => { x with cfgSlot := 0, cfgDefaults := true, cfgFallback := false } with img := Image.factory }

/-! ## What the image and MRAM give (code B of R527) -/

/-- Votable domains that the image marks absent: a port's, SL with no link, TW without the twin link (R65, R102). -/
def absentDomains (s : State) : List Nat :=
  (if (imgPort s 0).absent then [12] else []) ++ (if (imgPort s 1).absent then [13] else [])
    ++ (if (List.range 4).all fun k => (imgLink s k).absent then [14] else []) ++ (if (imgLink s 4).absent then [15] else [])

/-- The state of a domain as the image and the spare map give it (R99, R102, R509). -/
def imageDomain (s : State) (d : Nat) : State :=
  if d ∈ s.pwr.absent then s.modDom d fun x => { x with st := .disabled, reason := 1 }
  else if d ∈ s.mram.islandFailed then s.modDom d fun x => { x with st := .disabled, reason := 2 }
  else if (s.dom d).st = .disabled ∧ (s.dom d).reason ≠ 3 then s.modDom d fun x => { x with st := .off, reason := 0 }
  else s

/-- Pans and beds from the spare map (R265): states, positions, closed positions with a foster. -/
def imageBed (s : State) (b : Nat) : State :=
  let s := (List.range 17).foldl (fun s j =>
    let p := 17 * b + j
    let pos := Tbl.get (fun _ => 0) s.mram.panPos p
    s.setPan p { st := Tbl.get (fun _ => 0) s.mram.panState p, pos := if pos = 0 then (panInit p).pos else pos - 1 }) s
  let s := s.modBed b fun x => { x with lost := decide (4 + b ∈ s.mram.islandFailed) }
  ((List.range 16).filter fun i => (posPan s b i).isNone).foldl (fun s i =>
    s.modBed b fun x => { x with closed := x.closed ++ [(i, (fosterPos s b i).getD 31)] }) s

/-- The registers of a link that the image loads (R433, R462). -/
def imageLink (s : State) (k : Nat) : State :=
  let g := imgLink s k
  let s := (s.setReg (linkReg k 8) g.ctl).setReg (linkReg k 0xC) g.adapt
  let s := (List.range 5).foldl (fun s p => s.setReg (lanReg (laneNo k p) 8) (g.tx &&& 0x3FF#32)) s
  let s := [(0x40, 0), (0x44, 1), (0x48, 2), (0x4C, 3), (0x54, 4)].foldl (fun s e => s.setReg (uliReg k e.1) (nth g.uli e.2 0)) s
  let s := modLanes s k fun p x => if laneWorn s (laneNo k p) then { x with st := .failed } else x
  if g.absent then s.modLink k fun l => { l with st := .absent } else s

/-- The image and the spare map applied (R116 steps 3, 6 and 7, R180, R364, R369, R390, R505, R527). -/
def applyImage (s : State) : State :=
  let s := s.modEp fun e => { e with bar2Log2 := s.img.pf0Bar2Log2 }
  let s := (List.range 65).foldl (fun s t => s.modTally t fun q => { q with quota := quotaOf s.img.tallyQuota t q.quota }) s
  let s := s.modTal fun x => { x with priv := (((List.range 64).map fun i => i + 1).filter fun t => decide (t ∈ s.img.priv)).take 7 }
  let s := s.modSpares fun x => { x with bounds := s.img.bounds }
  let s := s.modHar fun h => { h with routes := s.img.routes.foldl (fun t e => t.set routeInit (e.1 * 64 + e.2.1) e.2.2) ⟨[]⟩ }
  let s := s.modPwr fun p => { p with absent := absentDomains s }
  let s := (List.range 12).foldl (fun s i => imageDomain s (4 + i)) s
  let s := (List.range 8).foldl imageBed s
  let s := (List.range 5).foldl imageLink s
  (List.range 2).foldl (fun s p => (s.setReg (paReg p 4) (imgPort s p).arbCtl).modPort p fun q => { q with
    arbCtl := (imgPort s p).arbCtl, st := if (imgPort s p).absent then .absent else .outOfService }) s

/-! ## What a reset clears (R115) -/

/-- The work that a wide reset ends (R128): descriptors, held host reads, rack-master reads. -/
def resetCounts (s : State) : Nat × Nat × Nat :=
  ((s.qs.ctx.rows.map fun kv => kv.2.descs.length).sum,
   (s.reads.filter fun r => decide (r.ended = 0) && (match r.who with
     | .host _ _ => true
     | .seg _ _ => false)).length
     + (((s.win.commit.map fun c => c.reqs).getD []).filter fun r => match r with
       | .read _ _ _ _ => true
       | .write _ _ _ _ => false).length,
   (endRackReads s (fun _ => true) Cs.abortReset none).1)

/-- The offset that tells a ticket of a series that a wide reset has ended from one of the present series with the same number. -/
abbrev seriesStep : Nat := 0x100000000

/-- A write accepted at a target stop before a host or device reset (R374): it goes on by itself, under its old ticket. -/
def isOrphan (a : Acc) : Bool := decide (a.kind = .write ∧ a.ticket ≠ 0)
def orphanAcc (a : Acc) : Acc := { a with origin := .hostWrite, ticket := a.ticket + seriesStep, temp := none }

/-- The writes that a port holds. -/
def portOrphans (q : Port) : List Acc := ((q.opens.map fun o => o.acc) ++ q.waiting).filter isOrphan

/-- The writes that a link holds. -/
def linkOrphans (s : State) (k : Nat) : List Acc := (linkSent (s.link k) ++ linkWaiting (s.link k)).filter isOrphan

/-- A port after a host or device reset: the accepted writes with the cycle that runs, and the lines of the rack; all else as at reset. -/
def portKept (q : Port) : Port :=
  let os := q.opens.filter fun o => isOrphan o.acc
  { portInit 0 with
    opens := os.map fun o => { o with acc := orphanAcc o.acc }
    waiting := (q.waiting.filter isOrphan).map orphanAcc
    owned := q.owned && decide (os ≠ []), ownedAt := q.ownedAt, loaded := if os = [] then none else q.loaded
    acfail := q.acfail, rackReset := q.rackReset }

/-- What a port lets go of at a reset: strobes of a cycle that ends, the bus (R49, R51). -/
def portLets (s : State) (p : Nat) (keep : Bool) : State :=
  let q := s.port p
  let s := if q.opens.any fun o => o.isOpen && !(keep && isOrphan o.acc) then s.emit (.strobesOff p) else s
  if keep && q.opens.any (fun o => isOrphan o.acc) then s else releaseBus s p

/-- A tenant's tally after a host or device reset (R115, R374): a new series; the writes `kept` still settle, with no entry. -/
def tallyKept (kept : List Acc) (t : Nat) (q : TallyT) : TallyT :=
  { tallyInit t with
    unsettled := (q.unsettled.filter fun u => kept.any fun a => decide (a.tenant = t ∧ a.ticket = u.ticket)).map fun u => { u with
      ticket := u.ticket + seriesStep, detached := 2 } }

/-- A domain after a host or device reset (R115): votes and held accesses gone; its power, its refusal log and a DISABLED reason stay. -/
def domKept (x : Dom) : Dom :=
  { x with votes := [], temp := [], held := [], drainMb := none, drainWait := false, st := if x.st = .draining then .on else x.st }

/-- The registers that a host or device reset keeps: code P of R524 and R527. -/
def regKept (k : Nat) : Bool := decide (k = 0xC ∨ k = 0x434 ∨ (0x10000 ≤ k ∧ k < 0x20000))

/-- The state after power-on (R115): everything but MRAM, the pins and the monitors at its reset value. -/
def clearPower (s : State) : State :=
  { State.reset with
    pending := s.pending, fresh := s.fresh, out := s.out
    mram := { s.mram with keys := ⟨s.mram.keys.rows.filterMap fun kv =>
      if { kv.2 with fails := 0, lockouts := 0, lockedUntil := 0 } = keyInit kv.1 then none
      else some (kv.1, { kv.2 with fails := 0, lockouts := 0, lockedUntil := 0 })⟩ }
    pins := { State.reset.pins with porst := s.pins.porst, perst := s.pins.perst, smbAddr := s.pins.smbAddr }
    mon := { s.mon with warnThr := 800, tempWarned := false }
    boot := { State.reset.boot with powerOnPending := s.boot.powerOnPending, hostConfirm := s.boot.hostConfirm }
    cont := { State.reset.cont with tapTakeover := s.cont.tapTakeover }
    qs := { State.reset.qs with orderNext := s.qs.orderNext }
    spares := { State.reset.spares with forbid := s.spares.forbid }
    log := { State.reset.log with ring := s.log.ring, seq := s.log.seq, fok := s.log.fok, fokOrder := s.log.fokOrder } }

/-- The state after a host reset, device reset or tide watch exit (R115), before its boot. -/
def clearWide (s : State) : State :=
  let kept := (List.range 2).flatMap (fun p => portOrphans (s.port p)) ++ (List.range 5).flatMap fun k => linkOrphans s k
  let s := (List.range 2).foldl (fun s p => portLets s p true) s
  let s' := { State.reset with
    pending := s.pending, now := s.now, fresh := s.fresh, out := s.out, mram := s.mram
    regs := Tbl.clear (fun k => !regKept k) s.regs
    pins := { s.pins with alertPending := 0#4, clkreqHeld := true }
    mon := s.mon, boot := s.boot
    cont := { State.reset.cont with tapTakeover := s.cont.tapTakeover }
    pwr := { s.pwr with dom := s.pwr.dom }
    tide := { s.tide with entering := false }
    weirs := { rgn := Tbl.clear (fun k => !decide (k / 1024 * 64 + k % 1024 / 16 ∈ s.weirs.locked)) s.weirs.rgn, dflt := ⟨[]⟩, locked := s.weirs.locked }
    qs := { State.reset.qs with orderNext := s.qs.orderNext }
    spares := { s.spares with bounds := factoryBounds }
    log := s.log }
  let s' := (List.range 65).foldl (fun s' t => s'.setTally t (tallyKept kept t (s.tally t))) s'
  let s' := (List.range 2).foldl (fun s' p => s'.setPort p (portKept (s.port p))) s'
  (List.range 12).foldl (fun s' i => checkIdle (s'.modDom (4 + i) domKept) (4 + i)) s'

/-- The record of a wide reset (R112, R128). -/
def wideRec (s : State) (k : WideReset) (n : Nat × Nat × Nat) : State :=
  let data := leBytes 4 n.1 ++ leBytes 4 n.2.1 ++ leBytes 4 n.2.2
  let cs := if n.1 + n.2.1 + n.2.2 = 0 then Cs.none else Cs.abortReset
  match k with
  | .powerOn => s.raise { romEv Ev.bootCold with data := leBytes 12 0 }
  | .device => s.raise { romEv Ev.bootDevice with cs := cs, data := data }
  | .host => s.raise { saltEv Ev.hostReset with cs := cs, data := data }
  | .tideExit => s

/-- The writes that a link held settle LINK_DOWN with the end of its session; each writes its record (R374). -/
def settleLinkOrphans (s : State) (as : List (Nat × Acc)) : State :=
  as.foldl (fun s e => settle s e.2.tenant (e.2.ticket + seriesStep) Cs.linkDown (accFirst e.2) (some { code := Ev.linkDown, src := srcLink e.1 })) s

/-- The debug unlock ends (R151), with its cause: 0 expiry, 1 DEBUG_LOCK, 2 a reset, 3 a life-cycle transition. -/
def closeDebug (s : State) (cause : Nat) : State :=
  let s := dropVotes s Client.debug
  let was := s.dbg.isOpen
  let s := s.modDbg fun d => { d with isOpen := false, expires := none, session := false, votes := [] }
  if was then s.raise { code := Ev.debugClose, src := srcSalt, data := leBytes 1 cause } else s

/-- The device causes that persist over a reset put the device into containment again (R115, R198). -/
def reenterDevice (s : State) : State :=
  let s := if s.mon.faulted.any fun k => decide (k < 6) then enterDevice s 3 else s
  if s.cont.tapTakeover then enterDevice s 5 else s

/-- The erasure of a returned unit's keys (R138). -/
def eraseKeys (s : State) : State := s.modMram fun m => { m with keys := ⟨[]⟩, erasing := false }

/-- The boot from a reset's entry to step 7, or to step 6 for a host reset with PERST_N low (R113, R116). -/
def bootRun (s : State) (k : WideReset) : State :=
  let s := if s.mram.erasing then eraseKeys s else s
  let s := if k = .host then s else fwSelect s
  let s := applyImage (cfgSelect s)
  let s := if fuseAnomaly s then s.raise (saltEv Ev.lcyFuseAnomaly) else s
  let s := s.modLog fun l => { l with ready := true }
  let s := s.modBoot fun b => { b with
    step := if k = .host ∧ !s.pins.perst then 6 else 7, entry := k.entry, began := s.now, awaitPerst := !s.pins.perst, powerOnPending := false }
  reenterDevice s

/-- A cause bit added to GLB_RESET_CAUSE (R130). -/
def addCause (s : State) (bits : Nat) : State := s.setReg 0xC (s.reg 0xC ||| w32 bits)

/-- A host or device reset, or tide watch exit, with its cause bit of R130 (R112-R116). -/
def wideReset (s : State) (k : WideReset) (cause : Nat) : State :=
  let n := resetCounts s
  let links := (List.range 5).flatMap fun j => (linkOrphans s j).map fun a => (j, a)
  let open_ := s.dbg.isOpen
  let s := addCause (clearWide s) (2 ^ cause)
  let s := if k = .host then s else s.modTide fun t => { t with armed := false }
  let s := settleLinkOrphans (wideRec s k n) links
  let s := if open_ then s.raise { code := Ev.debugClose, src := srcSalt, data := leBytes 1 2 } else s
  bootRun s k

/-- A source with a later boot entry is absorbed into a wider reset whose boot is not over (R114). -/
def absorbs (s : State) : Bool := decide (s.boot.step < 9 ∧ s.boot.entry < 6)

/-- A host reset, or its absorption: configuration space starts afresh, and the boot under way waits at step 7 at most for the host (R114). -/
def hostReset (s : State) (cause : Nat) : State :=
  if absorbs s then
    ((s.modBoot fun b => { b with step := min b.step 7 }).modPins fun p => { p with clkreqHeld := true }).modEp fun e => { e with
      link := .reset, fns := ⟨[]⟩, vfEnable := false, numVfs := 0, ari := false, vfBars := ⟨[]⟩ }
  else wideReset s .host cause

/-! ## Power-on (R72, R112, R116) -/

/-- POWER_ON_RESET (R62, R72, R79, R112, R116, R516): PORST_N rises with all six supplies valid. -/
def powerOnEff (s : State) (testEn : Bool) (smbAddr : BitVec 2) (tornHead : Bool) : State :=
  if !s.boot.powerOnPending ∨ !suppliesValid s then s
  else
    let bits := 1 + 2 * b2n s.mon.internalReset + 4 * b2n s.mon.shutdown
    let open_ := s.dbg.isOpen
    let s := (addCause (clearPower s) bits).modMon fun m => { m with shutdown := false, internalReset := false }
    let s := s.modPins fun p => { p with porst := true, smbAddr := smbAddr }
    let s := if tornHead then (s.modLog fun l => { l with recovered := true }).raise (saltEv Ev.logJournalRecover) else s
    let s := wideRec s .powerOn (0, 0, 0)
    let s := if open_ then s.raise { code := Ev.debugClose, src := srcSalt, data := leBytes 1 2 } else s
    let s := if testEn then
        (if lcyState s = 0 ∨ lcyState s = 3 then s.modBoot fun b => { b with factoryTest := true } else s.raise (romEv Ev.testEnIgnored))
      else s
    bootRun s .powerOn

end Sys2Proof.Machine
end

