-- ==== Sys2Proof/Machine/Tide.lean ====
section
/-! DEFINITION. Tide watch (R78, R103-R111): arming, entry, sampling, waking. -/

namespace Sys2Proof.Machine

/-! ## Watch points (R106) -/

/-- A watch point from its 16 bytes. -/
def tidePoint (p : List Byte) (i : Nat) : TidePt :=
  { w0 := w32 (wordAt p (8 + 16 * i)), w1 := w32 (wordAt p (12 + 16 * i)), w2 := w32 (wordAt p (16 + 16 * i))
    w3 := w32 (wordAt p (20 + 16 * i)), count := 0, prev := none }

/-- Fields of word 0. -/
def tpKind (x : TidePt) : Nat := bits x.w0.toNat 3 0
def tpPort (x : TidePt) : Nat := bits x.w0.toNat 4 4
def tpErrWake (x : TidePt) : Bool := x.w0.getLsbD 5
def tpSource (x : TidePt) : Nat := bits x.w0.toNat 15 8
def tpCompare (x : TidePt) : Nat := bits x.w0.toNat 18 16
def tpWidth (x : TidePt) : Nat := bits x.w0.toNat 21 20
def tpDebounce (x : TidePt) : Nat := max 1 (bits x.w0.toNat 31 24)
def tpLow (x : TidePt) : Nat := bits x.w3.toNat 15 0
def tpHigh (x : TidePt) : Nat := bits x.w3.toNat 31 16

/-- A watch point is well formed (R106): reserved bits 0, every code in its range. -/
def tpOk (x : TidePt) : Bool :=
  decide (x.w0.toNat &&& 0x00C800C0 = 0 ∧ tpKind x ≤ 4 ∧ tpCompare x ≤ 5) &&
    (match tpKind x with
    | 1 => decide (tpSource x ≤ 47)
    | 2 => decide (tpSource x ≤ 63 ∧ tpWidth x ≤ 2)
    | 3 => decide (tpSource x = 0)
    | 4 => decide (tpSource x ≤ 13)
    | _ => true)

/-- The points of TIDE_ARM: payload word 0 is the period in ms, word 1 the number of points. -/
def tideList (p : List Byte) : List TidePt := (List.range (wordAt p 4)).map (tidePoint p)

/-- The payload of TIDE_ARM (R104, R106). -/
def tideArmParam (p : List Byte) : Bool :=
  decide (1 ≤ wordAt p 0 ∧ wordAt p 0 ≤ 60000 ∧ 1 ≤ wordAt p 4 ∧ wordAt p 4 ≤ 64 ∧ p.length = 8 + 16 * wordAt p 4)
    && (tideList p).all tpOk

/-- The payload of TEMP_WARN_SET: the threshold in 0.125 °C, 70 °C to 108 °C (R78). -/
def tempWarnParam (p : List Byte) : Bool := decide (560 ≤ wordAt p 0 ∧ wordAt p 0 ≤ 864)

/-! ## Arming (R104, R108) -/

/-- The profile of a register point's region. -/
def tpProf (s : State) (x : TidePt) : Nat := profKey (tpPort x) (regionOf s (tpPort x) (tpSource x) x.w1.toNat)

/-- The period budget in µs (R108). -/
def tideBudget (s : State) (l : List TidePt) : Nat :=
  ((List.range 2).map fun p =>
    match l.filter fun x => decide (tpKind x = 2 ∧ tpPort x = p) with
    | [] => 0
    | xs => 10 + (xs.map fun x => min 100 (effTimeout (s.prof (tpProf s x)))).sum).sum

/-- Why a list is refused (R104), in the rule's order: 1 a register in a SIDE_EFFECT region, 2 a port running P4, 3 a weir denies tenant 0, 4 the period budget; 0 accepted. -/
def tideRefusal (s : State) (period : Nat) (l : List TidePt) : Nat :=
  let regs := l.filter fun x => decide (tpKind x = 2)
  if regs.any fun x => decide (regionClass s (tpPort x) (regionOf s (tpPort x) (tpSource x) x.w1.toNat) = 2) then 1
  else if regs.any fun x => decide (persKind (persT s (tpPort x)) = 4) then 2
  else if regs.any fun x => !weirAllows s (tpPort x) 0 (tpSource x) x.w1.toNat true false then 3
  else if 1000 * period < 2 * tideBudget s l then 4
  else 0

/-- TIDE_ARM's effect (R103, R104). -/
def tideArmEff (s : State) (mb : Nat) (c : Cmd) : State :=
  let l := tideList c.payload
  match tideRefusal s (wordAt c.payload 0) l with
  | 0 => done (s.modTide fun t => { t with
      armed := true, period := wordAt c.payload 0, points := l, cause := 0, value := 0, matched := 0 }) mb []
  | r => refuse s mb r 0

/-- TIDE_ARM (R104). -/
def execTideArm (s : State) : Host.Outcome State Fault Refusal := runCmd 0x0802 s tideArmEff

/-- TIDE_DISARM (R170). -/
def execTideDisarm (s : State) : Host.Outcome State Fault Refusal :=
  runCmd 0x0803 s fun s mb _ => done (s.modTide fun t => { t with armed := false }) mb []

/-- TEMP_WARN_SET (R78). -/
def execTempWarnSet (s : State) : Host.Outcome State Fault Refusal :=
  runCmd 0x0804 s fun s mb c => done (s.modMon fun m => { m with warnThr := wordAt c.payload 0 }) mb []

/-! ## Entry (R105) -/

/-- The clients whose votes refuse entry. -/
def tideBlockers (s : State) (d : Nat) : List Nat :=
  (heldVotes (s.dom d)).filter fun c => decide (c = Client.harvest ∨ c = Client.twin ∨ c = Client.debug)

/-- Steps 1 and 2 of an armed device's entry: the tenants' votes are withdrawn, the others checked; a vote that blocks is logged in each domain, with one record. -/
def tideBegin (s : State) : State :=
  if !s.tide.armed ∨ s.tide.active ∨ s.tide.entering then s
  else
    let s := (List.range 65).foldl dropVotes s
    match ((List.range 12).map fun i => 4 + i).filter fun d => decide (tideBlockers s d ≠ []) with
    | [] => s.modTide fun t => { t with entering := true }
    | ds => (ds.foldl (fun s d => domLog s d (nth (tideBlockers s d) 0 0) 6) s).raise (saltEv Ev.tideBlocked)

/-- The timeouts of the ports' register points, frozen: point, port, µs (R105 step 3). -/
def tideFreeze (s : State) : List (Nat × Nat × Nat) :=
  ((List.range s.tide.points.length).zip s.tide.points).filterMap fun e =>
    if tpKind e.2 = 2 then some (e.1, tpPort e.2, effTimeout (s.prof (tpProf s e.2))) else none

/-- Every domain but AO with its power off, or the service domains on again. -/
def domainsOff (s : State) : State :=
  (List.range 17).foldl (fun s i => s.modDom (1 + i) fun x => { domKept x with st := if x.st = .disabled then .disabled else .off }) s
def serviceOn (s : State) : State :=
  [1, 2, 3, 16, 17].foldl (fun s d => s.modDom d fun x => { x with st := .on }) s

/-- Everything outside AO, NV's memory and the pins goes dark (R79, R105): the state of the dark islands is gone. -/
def goDark (s : State) : State :=
  let s := (List.range 2).foldl (fun s p => portLets s p false) s
  let en := (s.fn 0).pmeEn
  let s := clearWide s
  let s := (s.modTal fun x => { x with t := ⟨[]⟩ })
  let s := { s with ports := ⟨[]⟩, boot := { s.boot with step := 1 } }
  let s := (s.modFn 0 fun f => { f with pmeEn := en }).modLog fun l => { l with ready := false }
  (domainsOff s).modPwr fun p => { p with ramp := [] }

/-- TIDE_ENTER's effect: steps 3 and 4 of R105. -/
def tideEnterEff (s : State) : State :=
  if !s.tide.entering then s
  else
    let s := s.raise (saltEv Ev.tideEnter)
    let fz := tideFreeze s
    let s := commitAll (s.modTide fun t => { t with frozen := fz }) 600
    (goDark s).modTide fun t => { t with active := true, entering := false }

/-- TIDE_ENTER (R105). -/
def execTideEnter (s : State) : Host.Outcome State Fault Refusal := .next (tideEnterEff s)

/-! ## Sampling (R106-R110) -/

/-- A sample normalised (R106). -/
def tideNorm (x : TidePt) (v : Word) : Word :=
  match tpKind x with
  | 1 => v &&& 1#32
  | 2 => v &&& w32 (2 ^ (8 * 2 ^ tpWidth x) - 1)
  | 3 => (v.truncate 16).signExtend 32
  | _ => v &&& 0xFFFF#32

/-- A normalised sample above HIGH and below LOW: signed for a temperature, unsigned otherwise (R106). -/
def tideAbove (x : TidePt) (v : Word) : Bool :=
  if tpKind x = 3 then decide (signed 16 (tpHigh x) < v.toInt) else decide (tpHigh x < v.toNat)
def tideBelow (x : TidePt) (v : Word) : Bool :=
  if tpKind x = 3 then decide (v.toInt < signed 16 (tpLow x)) else decide (v.toNat < tpLow x)

/-- A normalised sample matches (R106). -/
def tideMatch (x : TidePt) (v : Word) : Bool :=
  match tpCompare x with
  | 0 => decide (v &&& x.w2 = x.w3 &&& x.w2)
  | 1 => decide (v &&& x.w2 ≠ x.w3 &&& x.w2)
  | 2 => tideAbove x v
  | 3 => tideBelow x v
  | 4 => tideAbove x v || tideBelow x v
  | _ => match x.prev with
    | some p => decide (v &&& x.w2 ≠ p &&& x.w2)
    | none => false

/-- One point after its sample; a failed register read leaves it as it is (R109). -/
def tideStep (x : TidePt) (r : Option TideSample) : TidePt :=
  match r with
  | some (.value v) =>
    if tpKind x = 0 then x
    else { x with count := if tideMatch x (tideNorm x v) then min 255 (x.count + 1) else 0, prev := some (tideNorm x v) }
  | _ => x

/-- The point's debounce count is met by this sample. -/
def tideMet (x : TidePt) (r : Option TideSample) : Bool :=
  match r with
  | some (.value v) => decide (tpKind x ≠ 0) && tideMatch x (tideNorm x v) && decide (tpDebounce x ≤ min 255 (x.count + 1))
  | _ => false

/-- A register read of this point failed. -/
def tideFailed (x : TidePt) (r : Option TideSample) : Bool :=
  decide (tpKind x = 2) && (match r with
    | some .readFail => true
    | _ => false)

/-- The read cycles of a period: the register points in list order, all of port A before port B (R107). -/
def tideReads (s : State) : State :=
  (List.range 2).foldl (fun s p => (s.tide.points.filter fun x => decide (tpKind x = 2 ∧ tpPort x = p)).foldl (fun s x =>
    s.emit (.busCycle p 0 x.w1.toNat (tpSource x) (2 ^ tpWidth x) [])) s) s

/-- The points with their samples of this period. -/
def tidePairs (s : State) (samples : List TideSample) : List (Nat × TidePt × Option TideSample) :=
  (List.range s.tide.points.length).zip (s.tide.points.zip ((List.range s.tide.points.length).map fun i => samples[i]?))

/-- Exit from tide watch (R110, R111, R116): a boot at step 2 with the service domains powered; PME_En outlasts tide watch in AO. -/
def tideLeave (s : State) : State :=
  let en := (s.fn 0).pmeEn
  let s := s.modTide fun t => { t with active := false }
  (serviceOn (wideReset s .tideExit 7)).modFn 0 fun f => { f with pmeEn := en }

/-- PERST_N rises in tide watch (R111): no PME; TIDE_WAKE is the reset's record. -/
def tidePerst (s : State) : State :=
  let s := (s.modPins fun p => { p with perst := true }).modTide fun t => { t with cause := 1024#32, value := 0, matched := 0 }
  (tideLeave s).raise { saltEv Ev.tideWake with data := leBytes 4 1024 }

/-- TIDE_SAMPLE_PERIOD's effect (R106-R111): `perst` is set where PERST_N rises in this period too. -/
def tideSampleEff (s : State) (samples : List TideSample) (perst : Bool) : State :=
  if !s.tide.active then s
  else
    let rise := perst && !s.pins.perst
    let s := tideReads (s.atTime (s.now + ms s.tide.period))
    let l := tidePairs s samples
    let met := (l.filter fun e => tideMet e.2.1 e.2.2).map fun e => e.1
    let failed := l.filter fun e => tideFailed e.2.1 e.2.2
    let wakes := failed.any fun e => tpErrWake e.2.1
    let s := s.addReg 0x10038 (failed.filter fun e => !tpErrWake e.2.1).length
    let s := s.modTide fun t => { t with points := l.map fun e => tideStep e.2.1 e.2.2 }
    if met = [] ∧ !wakes then (if rise then tidePerst s else s)
    else
      let low := nth met 0 0
      let v := (nth s.tide.points low (tidePoint [] 0)).prev.getD 0
      let s := s.modTide fun t => { t with
        cause := w32 (low + 256 * b2n (decide (met ≠ [])) + 512 * b2n wakes + 1024 * b2n rise)
        value := if met = [] then 0 else v
        matched := met.foldl (fun m i => m ||| BitVec.ofNat 64 (2 ^ i)) 0
        woke := true }
      tideLeave (s.modPins fun p => { p with wake := true, perst := p.perst || rise })

/-- TIDE_SAMPLE_PERIOD (R107). -/
def execTideSamplePeriod (samples : List TideSample) (perstRises : Bool) (s : State) : Host.Outcome State Fault Refusal :=
  .next (tideSampleEff s samples perstRises)

/-- TIDE_EXIT_PERST (R111): PERST_N rises in tide watch. -/
def execTideExitPerst (s : State) : Host.Outcome State Fault Refusal :=
  .next (if s.tide.active ∧ !s.pins.perst then tidePerst s else s)

end Sys2Proof.Machine
end

