-- ==== Sys2Proof/Machine/Boot.lean ====
section
/-! DEFINITION. Reset sources and the boot from step 7 on (R72, R77-R80, R90, R111-R118, R124, R125, R295, R472, R509), the supply and temperature monitors, thermal shutdown. -/

namespace Sys2Proof.Machine

/-! ## Boot to service (R116, R117) -/

/-- BOOT_CFGSPACE_READY (R116 step 8): configuration space answers, CLKREQ_N is released (R43). -/
def execBootCfgspaceReady (s : State) : Host.Outcome State Fault Refusal :=
  .next (if s.boot.step = 7 ∧ s.pins.perst then
    (s.modBoot fun b => { b with step := 8, awaitPerst := false }).modPins fun p => { p with clkreqHeld := false }
  else s)

/-- A trial image confirmed (R119, R124): the pending slot becomes the active one, and the fused minimum security version rises if the header asks for it. -/
def confirmTrial (s : State) : State :=
  let i := fwImg s s.mram.boot.fwPending
  (s.modMram fun m => { m with
    boot := { m.boot with fwActive := m.boot.fwPending, trial := false, attempts := 0 }
    minSec := if fwFlag i 1 then max m.minSec (fwSecurity i) else m.minSec }).modBoot fun b => { b with
      trialUnconfirmed := false, hostConfirm := false }

/-- A write of a series that a reset has ended, waiting at a port that did not return to service, ends there (R298, R374). -/
def endPortOrphans (s : State) (p : Nat) : State :=
  if (s.port p).st = .inService ∨ (s.port p).st = .contained then s
  else
    let as := (s.port p).waiting.filter isOrphan
    as.foldl (fun s a => failAcc (s.incReg (paReg p 0x4C)) a Cs.islandAbsent (accFirst a) 0
      (some { code := Ev.portNotInService, src := srcPort p, key := p + 1 })) (s.modPort p fun q => { q with waiting := [] })

/-- The island of a domain is marked failed (R509). -/
def islandMarked (s : State) (d : Nat) : Bool := decide (d ∈ s.mram.islandFailed)

/-- A port at step 9 (R295, R509): with its island marked failed it is contained, after a power-on reset once the wake of step 9 has failed again. -/
def bootPort (s : State) (p : Nat) : State :=
  if islandMarked s (12 + p) ∧ (s.port p).st ≠ .absent then (if s.boot.entry = 1 then s else enterPort s p 6)
  else portAtBoot s p

/-- A link at step 9 (R116, R459, R509): brought into service if the image names it so. -/
def bootLink (s : State) (k : Nat) : State :=
  let g := imgLink s k
  if g.absent ∨ !g.inService then s
  else if islandMarked s (linkDomain k) then
    (if s.boot.entry = 1 ∨ k = 4 then s else (enterLink s k 3 0).modLink k fun l => { l with st := .contained })
  else linkStart s k

/-- A chip that offers to form brings its twin link into service (R477). -/
def bootTwin (s : State) : State := if twinOffers s ∧ (s.link 4).st = .outOfService then linkStart s 4 else s

/-- More VFs than seven granted PRIV by the image: a record at boot (R370). -/
def privExcess (s : State) : State :=
  if 7 < (s.img.priv.filter fun t => decide (1 ≤ t ∧ t ≤ 64)).length then s.raise (saltEv Ev.talPrivExcess) else s

/-- The mailboxes at step 9 (R117, R156): held commands are QUEUED, the others IDLE. -/
def bootMailboxes (s : State) : State :=
  (List.range 66).foldl (fun s m => s.modMb m fun x => if x.st = .booting then { x with st := if x.held then .queued else .idle, held := false } else x) s

/-- BOOT_SERVICE_READY's effect: step 9 of R116. -/
def bootServiceEff (s : State) : State :=
  if s.boot.step ≠ 8 then s
  else
    let s := (s.setReg 0x20 (w32 ((s.now - s.boot.began) / 1000))).modBoot fun b => { b with step := 9 }
    if s.boot.recovery then bootMailboxes s
    else
      let s := s.modBoot fun b => { b with wdogRun := 0 }
      let s := if s.boot.trialUnconfirmed ∧ !s.boot.hostConfirm then confirmTrial s else s
      let s := bootProfiles (applyWeirs s (decide (s.boot.entry = 1 ∧ lcyState s ≠ 3)))
      let s := privExcess s
      let s := if s.boot.entry = 1 then s.mram.islandFailed.foldl startWake s else s
      let s := (List.range 2).foldl (fun s p => endPortOrphans (bootPort s p) p) s
      let s := bootTwin ((List.range 5).foldl bootLink s)
      bootMailboxes s

/-- BOOT_SERVICE_READY (R116, R117). -/
def execBootServiceReady (s : State) : Host.Outcome State Fault Refusal := .next (bootServiceEff s)

/-! ## Reset sources (R112-R114) -/

/-- The device outside AO in reset: PORST_N low, or held by a supply (R71, R72). Queued records are lost (R518); an unlock's end is recorded at the boot (R151). -/
def inReset (s : State) : State :=
  let dbg := s.dbg
  let s := (List.range 2).foldl (fun s p => portLets s p false) s
  let s := clearPower s
  { s with dbg := dbg, boot := { s.boot with step := 0, powerOnPending := false } }

/-- PORST_FALL's effect: a boot awaits the rising edge. -/
def porstFallEff (s : State) : State :=
  if !s.pins.porst then s
  else (inReset (s.modPins fun p => { p with porst := false })).modBoot fun b => { b with powerOnPending := true }

/-- PORST_FALL (R71, R112, R518). -/
def execPorstFall (s : State) : Host.Outcome State Fault Refusal := .next (porstFallEff s)

/-- INTERNAL_RESET_ENTER's effect (R72): a supply below its reset threshold. It lasts until a rising edge of PORST_N. -/
def internalResetEff (s : State) (k mv : Nat) : State :=
  let s := setMv s k mv
  if k < 6 ∧ supplyResets k mv ∧ !s.mon.internalReset then
    let s := inReset s
    (s.modMon fun m => { m with internalReset := true }).modBoot fun b => { b with powerOnPending := !s.pins.porst }
  else s

/-- INTERNAL_RESET_ENTER (R72, R80). -/
def execInternalResetEnter (sup : Supply) (mv : Nat) (s : State) : Host.Outcome State Fault Refusal :=
  .next (internalResetEff s (supplyIdx sup) mv)

/-- PERST_FALL's effect (R105, R112-R114). -/
def perstFallEff (s : State) : State :=
  if !s.pins.perst then s
  else
    let s := s.modPins fun p => { p with perst := false }
    if !awake s then s
    else if s.tide.armed then tideBegin s
    else hostReset s 5

/-- PERST_FALL (R112, R113). -/
def execPerstFall (s : State) : Host.Outcome State Fault Refusal := .next (perstFallEff s)

/-- PERST_RISE (R113, R116): a boot held at step 6 goes on to link training. In tide watch the edge is TIDE_EXIT_PERST's. -/
def execPerstRise (s : State) : Host.Outcome State Fault Refusal :=
  .next (if s.pins.perst ∨ s.tide.active then s
    else (s.modPins fun p => { p with perst := true }).modBoot fun b => { b with step := if b.step = 6 then 7 else b.step })

/-- HOT_RESET_RECEIVED (R112): a Hot Reset on the trained host link. -/
def execHotResetReceived (s : State) : Host.Outcome State Fault Refusal :=
  .next (if awake s ∧ s.ep.link = .l0 then hostReset s 6 else s)

/-- WATCHDOG_EXPIRE's effect (R125, R518): FW_WATCHDOG, then a device reset; the expiry is counted after what the reset clears. -/
def watchdogEff (s : State) : State :=
  if awake s ∧ 6 ≤ s.boot.step ∧ !s.boot.recovery then
    let s := (s.modLog fun l => { l with waiting := [], dropsOwed := 0 }).modBoot fun b => { b with wdogRun := b.wdogRun + 1 }
    (wideReset (s.raise (saltEv Ev.fwWatchdog)) .device 4).incReg 0x24
  else s

/-- WATCHDOG_EXPIRE (R125). -/
def execWatchdogExpire (s : State) : Host.Outcome State Fault Refusal := .next (watchdogEff s)

/-- DEVICE_RESET (R112, R167): the response, the queued records, then the reset. -/
def execDeviceReset (s : State) : Host.Outcome State Fault Refusal :=
  runCmd 0x0100 s fun s mb _ => wideReset (commitAll (done s mb []) 600) .device 3

/-! ## Supplies (R77, R80) -/

/-- A monitored voltage beyond its warning threshold. A bank is compared only once the image is applied. -/
def mvWarned (s : State) (k mv : Nat) : Bool :=
  if k < 6 then supplyWarned k mv else decide (7 ≤ s.boot.step) && !bankOk (setMv s k mv) ((k - 6) / 4) ((k - 6) % 4)

/-- SUPPLY_WARN (R77). -/
def execSupplyWarn (sup : Supply) (mv : Nat) (s : State) : Host.Outcome State Fault Refusal :=
  .next (let k := supplyIdx sup
    let w := mvWarned s k mv
    let s := setMv s k mv
    if awake s ∧ w then warnOnce s k mv else s)

/-- SUPPLY_FAULT's effect (R77, R80): SUPPLY_WARN first, then SUPPLY_FAULT and device containment. Below a reset threshold, and for VDD_AO, internal reset prevails; a bank's fault is its port's (R56). -/
def supplyFaultEff (s : State) (k mv : Nat) : State :=
  if 6 ≤ k then portBankPowerEff s ((k - 6) / 4) ((k - 6) % 4) mv
  else if supplyResets k mv then internalResetEff s k mv
  else
    let s := setMv s k mv
    if awake s ∧ supplyFaulty k mv then
      let s := warnOnce s k mv
      if k ∈ s.mon.faulted then s
      else enterDevice ((s.modMon fun m => { m with faulted := insertAsc k m.faulted }).raise
        { code := Ev.supplyFault, src := srcAo, enters := 2, cs := Cs.contained, data := leBytes 4 k ++ leBytes 4 mv }) 3
    else s

/-- SUPPLY_FAULT (R77). -/
def execSupplyFault (sup : Supply) (mv : Nat) (s : State) : Host.Outcome State Fault Refusal := .next (supplyFaultEff s (supplyIdx sup) mv)

/-- A measured bank is beyond its fault threshold. -/
def mvFaulty (s : State) (k mv : Nat) : Bool := if k < 6 then supplyFaulty k mv else bankFaulty s ((k - 6) / 4) ((k - 6) % 4) mv

/-- SUPPLY_RECOVER (R77, R198): a supply is back inside its thresholds; a containment it caused may be released. -/
def execSupplyRecover (sup : Supply) (mv : Nat) (s : State) : Host.Outcome State Fault Refusal :=
  .next (let k := supplyIdx sup
    let w := mvWarned s k mv
    let f := mvFaulty s k mv
    (setMv s k mv).modMon fun m => { m with
      warned := if w then m.warned else m.warned.filter fun j => decide (j ≠ k)
      faulted := if f then m.faulted else m.faulted.filter fun j => decide (j ≠ k) })

/-! ## Temperature (R78-R80) -/

/-- The junction temperature measured: above the warning threshold TEMP_WARN is written once, until it has fallen 5 °C below (R77, R78, R183). -/
def tempSeen (s : State) (t : BitVec 16) : State :=
  let s := s.modMon fun m => { m with temp := t }
  if (s.mon.warnThr : Int) < t.toInt then
    (if s.mon.tempWarned then s
     else sendMsix (raiseAlert ((s.modMon fun m => { m with tempWarned := true }).raise
       { code := Ev.tempWarn, src := srcAo, data := leBytes 2 t.toNat }) 0) 0 6)
  else if t.toInt + 40 ≤ s.mon.warnThr then s.modMon fun m => { m with tempWarned := false }
  else s

/-- TEMP_WARN (R77, R78). -/
def execTempWarn (t : BitVec 16) (s : State) : Host.Outcome State Fault Refusal :=
  .next (if awake s then tempSeen s t else s.modMon fun m => { m with temp := t })

/-- The shutdown threshold, 118 °C in 0.125 °C (R78). -/
abbrev shutdownTemp : Int := 944

/-- Thermal shutdown (R79, R518): containment and its record, the queued records committed, every island but AO off, until PORST_N falls. In tide watch nothing but AO runs, and nothing is recorded. -/
def thermalOff (s : State) : State :=
  let s := if s.tide.active then s.modTide fun t => { t with active := false }
    else commitAll (enterDevice (s.raise { code := Ev.thermShutdown, src := srcAo, enters := 2, cs := Cs.contained, data := leBytes 2 s.mon.temp.toNat }) 4) 600
  let c := s.cont
  let s := goDark s
  { s with
    cont := { State.reset.cont with dev := true, devCause := c.devCause ||| 16#6, tapTakeover := c.tapTakeover }
    mon := { s.mon with shutdown := true } }

/-- The junction above the shutdown threshold (R79, R80): TEMP_WARN's condition holds too. -/
def thermEff (s : State) (t : BitVec 16) : State :=
  let s := if awake s then tempSeen s t else s.modMon fun m => { m with temp := t }
  if shutdownTemp < t.toInt ∧ (awake s ∨ s.tide.active) then thermalOff s else s

/-- THERM_SHUTDOWN (R79). -/
def execThermShutdown (t : BitVec 16) (s : State) : Host.Outcome State Fault Refusal := .next (thermEff s t)

/-- POWER_ON_RESET (R116): a junction still above the shutdown threshold shuts down again (R79). -/
def execPowerOnReset (testEn : Bool) (smbAddr : BitVec 2) (tornHead : Bool) (s : State) : Host.Outcome State Fault Refusal :=
  .next (if s.boot.powerOnPending ∧ suppliesValid s then thermEff (powerOnEff s testEn smbAddr tornHead) s.mon.temp else s)

/-! ## The host link's L2 (R105, R192) -/

/-- HOST_LINK_L2: the link enters L2; an armed device enters tide watch. -/
def execHostLinkL2 (s : State) : Host.Outcome State Fault Refusal :=
  .next (if s.ep.link = .l23Ready then
    (let s := s.modEp fun e => { e with link := .l2 }
     if awake s then tideBegin s else s)
  else s)

end Sys2Proof.Machine
end

