-- ==== Sys2Proof/Machine/ImageCmd.lean ====
section
/-! DEFINITION. Writing and reading images (R119, R121, R123, R124, R170). -/

namespace Sys2Proof.Machine

/-- Bytes of a slot: 4 MiB of firmware; a configuration slot as long as the longest image (R121). -/
def imgSize (kind : Nat) : Nat := if kind = 0 then 4194304 else 524288

/-- The payload of IMAGE_BEGIN: kind, total length. -/
def imageBeginParam (p : List Byte) : Bool :=
  decide (wordAt p 0 ≤ 1 ∧ 4 ≤ wordAt p 4 ∧ wordAt p 4 % 4 = 0 ∧ wordAt p 4 ≤ imgSize (wordAt p 0))

/-- The payload of IMAGE_CHUNK: offset, length, data; both in multiples of 4. -/
def imageChunkParam (p : List Byte) : Bool :=
  decide (wordAt p 0 % 4 = 0 ∧ wordAt p 4 = p.length - 8 ∧ wordAt p 4 % 4 = 0)

/-- The payload of IMAGE_COMMIT: the kind. -/
def imageCommitParam (p : List Byte) : Bool := decide (wordAt p 0 ≤ 1)

/-- The payload of IMAGE_READ: kind, slot, offset, length. -/
def imageReadParam (p : List Byte) : Bool :=
  decide (wordAt p 0 ≤ 1 ∧ wordAt p 4 ≤ 1 ∧ wordAt p 12 ≤ 4080 ∧ wordAt p 8 + wordAt p 12 ≤ imgSize (wordAt p 0))

/-- The open session of a kind, written. -/
def session (s : State) (kind : Nat) : Option ImgSession := if kind = 0 then s.her.fwSession else s.her.cfgSession
def setSession (s : State) (kind : Nat) (x : Option ImgSession) : State :=
  s.modHer fun h => if kind = 0 then { h with fwSession := x } else { h with cfgSession := x }

/-- A slot of a kind, changed. -/
def imgOf (s : State) (kind n : Nat) : ImgSlot := if kind = 0 then fwImg s n else cfgImg s n
def modImg (s : State) (kind n : Nat) (f : ImgSlot → ImgSlot) : State :=
  s.modMram fun m =>
    if kind = 0 then (if n = 0 then { m with fwA := f m.fwA } else { m with fwB := f m.fwB })
    else (if n = 0 then { m with cfgA := f m.cfgA } else { m with cfgB := f m.cfgB })

/-- The slot of a kind that the boot record does not name active (R119, R121, R123). -/
def inactiveSlot (s : State) (kind : Nat) : Nat := 1 - (if kind = 0 then s.mram.boot.fwActive else s.mram.boot.cfgActive)

/-- IMAGE_BEGIN's effect (R123 step 1): a second session of a kind is refused; the inactive slot's header is invalidated. -/
def imageBeginEff (s : State) (mb : Nat) (c : Cmd) : State :=
  let kind := wordAt c.payload 0
  if (session s kind).isSome then refuse s mb 1 0
  else
    let n := inactiveSlot s kind
    let s := modImg s kind n fun i => { i with valid := false }
    let s := (setSession s kind (some { total := wordAt c.payload 4, slot := n })).modHer fun h => { h with lastKind := kind }
    done s mb []

/-- IMAGE_BEGIN (R123). -/
def execImageBegin (s : State) : Host.Outcome State Fault Refusal := runCmd 0x0101 s imageBeginEff

/-- Bytes written into a slot from an offset. -/
def writeImg (i : ImgSlot) (off : Nat) (bs : List Byte) : ImgSlot :=
  { i with bytes := ((List.range bs.length).zip bs).foldl (fun t e => t.set (fun _ => 0#8) (off + e.1) e.2) i.bytes }

/-- The kind of the session that a chunk fills: the one begun last, if it is open, else the other. -/
def chunkKind (s : State) : Nat :=
  if (session s s.her.lastKind).isSome then s.her.lastKind else 1 - s.her.lastKind

/-- IMAGE_CHUNK's effect (R123 step 2): without a session it is refused, beyond its length it is out of range. -/
def imageChunkEff (s : State) (mb : Nat) (c : Cmd) : State :=
  let kind := chunkKind s
  match session s kind with
  | none => refuse s mb 2 0
  | some x =>
    if x.total < wordAt c.payload 0 + wordAt c.payload 4 then reject s mb Rej.badParam
    else done (modImg s kind x.slot fun i => writeImg i (wordAt c.payload 0) (c.payload.drop 8)) mb []

/-- IMAGE_CHUNK (R123). -/
def execImageChunk (s : State) : Host.Outcome State Fault Refusal := runCmd 0x0102 s imageChunkEff

/-- VERSION of a configuration image (R121). -/
def cfgVersion (i : ImgSlot) : Nat := imgField i 8 4

/-- The check of a slot at commit (R123 step 3): 0 passes, 3 fails R119 or R121, 4 a configuration whose VERSION is not greater than a valid active slot's. -/
def imgCheck (s : State) (kind n : Nat) : Nat :=
  let i := { imgOf s kind n with valid := true }
  if kind = 0 then (if fwVerifies s i then 0 else 3)
  else if !cfgValid i then 3
  else if cfgValid (cfgImg s (1 - n)) ∧ cfgVersion i ≤ cfgVersion (cfgImg s (1 - n)) then 4
  else 0

/-- The boot record's journaled write (R123): a configuration slot becomes active; a firmware slot pending, on trial with no attempt made. -/
def commitNow (s : State) (kind n : Nat) (hostConfirm : Bool) : State :=
  let s := setSession (modImg s kind n fun i => { i with valid := true }) kind none
  if kind = 0 then
    (s.modMram fun m => { m with boot := { m.boot with fwPending := n, trial := true, attempts := 0 } }).modBoot fun b => { b with
      hostConfirm := hostConfirm, trialUnconfirmed := false }
  else s.modMram fun m => { m with boot := { m.boot with cfgActive := n } }

/-- IMAGE_COMMIT's effect (R123 step 3, R124). -/
def imageCommitEff (s : State) (mb : Nat) (c : Cmd) : State :=
  let kind := wordAt c.payload 0
  match session s kind with
  | none => refuse s mb 2 0
  | some x =>
    match imgCheck s kind x.slot with
    | 0 => done (commitNow s kind x.slot (bit c.flags 8)) mb []
    | r => refuse s mb r 0

/-- IMAGE_COMMIT (R123). -/
def execImageCommit (s : State) : Host.Outcome State Fault Refusal := runCmd 0x0103 s imageCommitEff

/-- IMAGE_CONFIRM (R124): confirms the trial image that runs; with none nothing changes. -/
def execImageConfirm (s : State) : Host.Outcome State Fault Refusal :=
  runCmd 0x0104 s fun s mb _ => done (if s.boot.trialUnconfirmed then confirmTrial s else s) mb []

/-- IMAGE_READ (R170). -/
def execImageRead (s : State) : Host.Outcome State Fault Refusal :=
  runCmd 0x0105 s fun s mb c =>
    done s mb (imgBytes (imgOf s (wordAt c.payload 0) (wordAt c.payload 4)) (wordAt c.payload 8) (wordAt c.payload 12))

end Sys2Proof.Machine
end

