-- ==== Sys2Proof/Machine/Glb.lean ====
section
/-! DEFINITION. What the global, life-cycle, endpoint and power registers read (R102, R130, R131, R152, R201), the pins FAULT_N and ALERT_N (R58, R59), the SMBus sideband (R60). -/

namespace Sys2Proof.Machine

/-- The bits of a list of Bools, the first in bit 0. -/
def packBits (l : List Bool) : Nat := l.foldr (fun b n => b2n b + 2 * n) 0

/-! ## Global (R130, R131) -/

/-- Saltmaster runs: step 6 reached with firmware that verifies (R116, R120). -/
def saltRuns (s : State) : Bool := decide (6 ≤ s.boot.step) && !s.boot.recovery

/-- GLB_STATUS (R131). -/
def glbStatus (s : State) : Nat :=
  packBits [decide (1 ≤ s.boot.step), saltRuns s, decide (8 ≤ s.boot.step), s.boot.cfgDefaults, s.cont.dev, decide (9 ≤ s.boot.step),
    decide (s.boot.fwSlot = 1), decide (s.boot.cfgSlot = 1), s.boot.trialUnconfirmed, s.boot.fwFallback, s.boot.cfgFallback, s.boot.recovery]

/-- The version words of the slots: all ones where a slot is invalid (R130). -/
def fwVerWord (s : State) (n : Nat) : Nat := if fwVerifies s (fwImg s n) then fwVersion (fwImg s n) else 0xFFFFFFFF
def cfgVerWord (s : State) (n : Nat) : Nat := if cfgValid (cfgImg s n) then cfgVersion (cfgImg s n) else 0xFFFFFFFF

/-- The GLB_ words (R130). -/
def glbWord (s : State) (off : Nat) : Nat :=
  if off = 0 then 0x00B14416
  else if off = 8 then glbStatus s
  else if off = 0x10 then fwVerWord s 0
  else if off = 0x14 then fwVerWord s 1
  else if off = 0x18 then cfgVerWord s 0
  else if off = 0x1C then cfgVerWord s 1
  else if off = 0x28 then s.pins.alertPending.toNat
  else (s.reg off).toNat

/-! ## Life cycle (R152) -/

/-- The debug port is open (R135, R150): always in RAW and RETURNED, by unlock in the others. -/
def debugOpen (s : State) : Bool := decide (lcyState s = 0 ∨ lcyState s = 3) || s.dbg.isOpen

/-- Seconds left in the unlock, rounded up; 0 when closed or when RAW or RETURNED (R152). -/
def dbgRemain (s : State) : Nat :=
  match s.dbg.expires with
  | some t => if s.dbg.isOpen ∧ lcyState s ≠ 0 ∧ lcyState s ≠ 3 then (t - s.now + 999999999) / 1000000000 else 0
  | none => 0

/-- The LCY_ words (R152). -/
def lcyWord (s : State) (off : Nat) : Nat :=
  let id := identityRecord
  if off = 0 then field id 0 4
  else if off = 4 then byteAt id 4 + 256 * byteAt id 5 + 65536 * byteAt id 8
  else if off = 8 then byteAt id 6 + 256 * byteAt id 7 + 65536 * field id 9 2
  else if 0x10 ≤ off ∧ off < 0x20 then wordAt uniqueId (off - 0x10)
  else if off = 0x20 then lcyState s + 256 * b2n (fuseAnomaly s) + 512 * b2n s.mram.erasing
  else if 0x24 ≤ off ∧ off < 0x30 then
    packBits ((List.range 32).map fun i => decide ((off - 0x24) * 8 + i ≤ 64) && (s.key ((off - 0x24) * 8 + i)).key.isSome)
  else if off = 0x40 then packBits [debugOpen s, s.dbg.session, s.dbg.takeover]
  else if off = 0x44 then dbgRemain s
  else (s.reg (0x1000 + off)).toNat

/-! ## Endpoint (R201) -/

/-- The HEP_ words, by offset from 0x400. -/
def hepWord (s : State) (off : Nat) : Nat :=
  let ten := fun (lo : Nat) => packBits ((List.range 32).map fun i => decide (lo + i ≤ 64) && decide (s.tenantCause (lo + i) ≠ 0))
  if off = 0 then packBits ([s.cont.dev, decide (s.portCause 0 ≠ 0), decide (s.portCause 1 ≠ 0), false]
      ++ ((List.range 4).map fun k => decide (s.linkCause k ≠ 0)) ++ [(List.range 65).any fun t => decide (s.tenantCause t ≠ 0)])
  else if off = 4 then s.cont.devCause.toNat + 256 * devPersist s
  else if off = 0xC then s.portCause 0 + 256 * s.portCause 1 + 65536 * b2n (portPersists s 0) + 131072 * b2n (portPersists s 1)
  else if off = 0x14 then s.linkCause 0 + 256 * s.linkCause 1 + 65536 * s.linkCause 2 + 16777216 * s.linkCause 3
  else if off = 0x1C then packBits ((List.range 4).map fun k => linkPersists s k)
  else if off = 0x20 then ten 0
  else if off = 0x24 then ten 32
  else if off = 0x28 then ten 64
  else if off = 0x30 then s.cont.relErr.toNat
  else if off = 0x40 then s.now % 0x100000000
  else if off = 0x44 then s.now / 0x100000000 % 0x100000000
  else if off = 0x48 then s.ep.ptmOffset.toNat % 0x100000000
  else if off = 0x4C then s.ep.ptmOffset.toNat / 0x100000000
  else if off = 0x50 then b2n (s.fn 0).ptmEnable + 2 * b2n (s.ep.ptmStatus.getLsbD 1) + 4 * b2n (s.ep.ptmStatus.getLsbD 2) + 65536 * s.ep.ptmRate.toNat
  else if 0x100 ≤ off ∧ off < 0x204 then s.tenantCause ((off - 0x100) / 4)
  else (s.reg (0x400 + off)).toNat

/-! ## Power (R102) -/

/-- PWR_DOM_STATE's state code. -/
def domCode : DomSt → Nat
  | .off => 0
  | .waking => 1
  | .on => 2
  | .holdoff => 3
  | .draining => 4
  | .entering => 5
  | .disabled => 6

/-- A domain as it stands now. -/
def domNow (s : State) (d : Nat) : Dom := (refreshDom s d).dom d

/-- The log entry in slot `j` of a domain's refusal log (R101, R102). -/
def refEntry (x : Dom) (j : Nat) : Option (Nat × Nat × Nat) :=
  if x.logCount = 0 then none else x.log[(x.logCount + 15 - j) % 16]?

/-- The words of a domain's block. -/
def domWord (s : State) (d off : Nat) : Nat :=
  let x := domNow s d
  let v := heldVotes x
  let has := fun c => decide (c ∈ v)
  if off = 0 then domCode x.st + 16 * (if x.st = .disabled then x.reason else 0) + 65536 * (v.length % 8192)
  else if off = 8 then packBits ((List.range 32).map has)
  else if off = 0xC then packBits ((List.range 32).map fun i => has (32 + i))
  else if off = 0x10 then b2n (has 64) + 256 * packBits [has Client.saltmaster, has Client.harvest, has Client.twin, has Client.debug]
  else if off = 0x14 then (v.filter isXfer).length % 8192
  else if off = 0x24 then (x.logCount + 15) % 16 * b2n (decide (0 < x.logCount)) + 16 * x.log.length
  else if 0x80 ≤ off ∧ off < 0x100 then
    match refEntry x ((off - 0x80) / 8) with
    | some e => if off % 8 = 0 then e.1 + 65536 * e.2.1 + 0x80000000 else e.2.2 % 0x100000000
    | none => 0
  else (s.reg (domReg d off)).toNat

/-- The words of the ISL_ and PWR_ block, by offset from 0x1_0000. -/
def pwrWord (s : State) (off : Nat) : Nat :=
  if off = 0 then packBits ((List.range 18).map fun d => decide (d ∉ s.pwr.absent))
  else if off = 4 then packBits ((List.range 18).map fun d => decide ((domNow s d).st = .disabled))
  else if off = 8 then packBits ((List.range 18).map fun d => decide ((domNow s d).st ∈ [DomSt.on, .holdoff, .draining, .entering]))
  else if off = 0x20 then b2n s.tide.armed + 256 * s.tide.points.length
  else if off = 0x24 then s.tide.period
  else if off = 0x28 then s.tide.cause.toNat
  else if off = 0x2C then s.tide.value.toNat
  else if off = 0x30 then s.tide.matched.toNat % 0x100000000
  else if off = 0x34 then s.tide.matched.toNat / 0x100000000
  else if 0x400 ≤ off ∧ off < 0x800 then
    match s.tide.points[(off - 0x400) / 16]? with
    | some x => (nth [x.w0, x.w1, x.w2, x.w3] (off % 16 / 4) 0).toNat
    | none => 0
  else if 0x1000 ≤ off ∧ off < 0x2200 then domWord s ((off - 0x1000) / 0x100) ((off - 0x1000) % 0x100)
  else (s.reg (0x10000 + off)).toNat

/-! ## FAULT_N, ALERT_N (R58, R59) -/

/-- FAULT_N is driven low (R58). -/
def faultLow (s : State) : Bool :=
  !s.pins.porst || s.cont.dev || s.boot.recovery || decide (shutdownTemp < s.mon.temp.toInt)
    || s.mon.internalReset || s.mon.faulted.any (fun k => decide (k < 6)) || (!s.tide.active && !saltRuns s)

/-- ALERT_N is driven low: an unmasked alert is pending and no Alert Response Address read has been answered since the last was raised (R59). -/
def alertLow (s : State) : Bool := decide (s.pins.alertPending &&& ~~~s.pins.alertMask ≠ 0#4) && !s.pins.alertAcked

/-! ## The SMBus sideband (R60) -/

/-- The sideband status word. -/
def smbStatus (s : State) : Nat := glbStatus s % 32 + 256 * s.pins.alertPending.toNat

/-- SMB_READ_STATUS: the read clears the pending alerts (R59). -/
def execSmbReadStatus (s : State) : Host.Outcome State Fault Refusal :=
  .next ((s.emit (.smbWord (BitVec.ofNat 16 (smbStatus s)))).modPins fun p => { p with alertPending := 0#4, alertAcked := false })

/-- SMB_READ_TEMP. -/
def execSmbReadTemp (s : State) : Host.Outcome State Fault Refusal := .next (s.emit (.smbWord s.mon.temp))

/-- SMB_READ_VCORE. -/
def execSmbReadVcore (s : State) : Host.Outcome State Fault Refusal := .next (s.emit (.smbWord (BitVec.ofNat 16 (s.mv 0))))

/-- SMB_WRITE_ALERT_MASK. -/
def execSmbWriteAlertMask (v : BitVec 16) (s : State) : Host.Outcome State Fault Refusal :=
  .next ((s.emit .smbAck).modPins fun p => { p with alertMask := v.truncate 4 })

/-- SMB_READ_UID. -/
def execSmbReadUid (s : State) : Host.Outcome State Fault Refusal := .next (s.emit (.smbBlock uniqueId))

/-- The first-of-kind record that was filled `i`-th from last, as 64 bytes; zeros where there is none. -/
def fokNth (s : State) (i : Nat) : List Byte :=
  match (s.log.fokOrder[i]?).bind (fokRec s) with
  | some r => recBytes r
  | none => List.replicate 64 0#8

/-- SMB_READ_FOK_NEWEST. -/
def execSmbReadFokNewest (s : State) : Host.Outcome State Fault Refusal := .next (s.emit (.smbBlock (fokNth s 0 ++ fokNth s 1)))

/-- SMB_READ_FOK_OLDER. -/
def execSmbReadFokOlder (s : State) : Host.Outcome State Fault Refusal := .next (s.emit (.smbBlock (fokNth s 2 ++ fokNth s 3)))

/-- SMB_UNKNOWN_COMMAND: a NACK of the command byte. -/
def execSmbUnknownCommand (code : Byte) (s : State) : Host.Outcome State Fault Refusal :=
  .next (if code.toNat ≤ 6 then s else s.emit .smbNack)

/-- SMB_ALERT_RESPONSE: while ALERT_N is low the device answers with its address and releases the line (R59, SMBus 3.1). -/
def execSmbAlertResponse (s : State) : Host.Outcome State Fault Refusal :=
  .next (if alertLow s then
    (s.emit (.smbAra (0x58#7 + s.pins.smbAddr.setWidth 7))).modPins fun p => { p with alertAcked := true }
  else s)

end Sys2Proof.Machine
end

