-- ==== Sys2Proof/Machine/KeysCmd.lean ====
section
/-! DEFINITION. Keyed commands (R139-R146), life-cycle transitions (R136-R138), the debug port and boundary scan (R147-R151). -/

namespace Sys2Proof.Machine

/-! ## The checks of R144 -/

/-- The life-cycle states in which a critical command may run (R136, R471). -/
def stateAllows (s : State) (op : Nat) : Bool :=
  if op = 0x0902 then decide (lcyState s = 1)
  else if op = 0x0903 then decide (lcyState s = 1 ∨ lcyState s = 2)
  else if op = 0x0303 then decide (lcyState s ≠ 3)
  else true

/-- The issuer may send a critical command (R142): PF0, a tenant for its own key, the TAP for DEBUG_UNLOCK. -/
def issuerAllows (mb : Nat) (c : Cmd) : Bool :=
  if mb = 0 then true
  else if mb = 65 then decide (c.opcode = 0x0904)
  else decide (c.opcode = 0x0901 ∧ wordAt c.payload 0 % 128 = mb)

/-- Checks 3 to 6 are skipped: in RAW and RETURNED, and for LCY_RETURN in a PROVISIONED unit with no owner key (R144). -/
def untagged (s : State) (c : Cmd) : Bool :=
  decide (lcyState s = 0 ∨ lcyState s = 3) || (decide (c.opcode = 0x0903 ∧ lcyState s = 1) && (s.key 0).key.isNone)

/-- The message that a tag covers, and the tag (R143). -/
def tagMessage (c : Cmd) : List Byte := uniqueId ++ slice c.head 0 16 ++ c.payload
def tagFor (key : List Byte) (c : Cmd) : List Byte := (hmac key (tagMessage c)).take 16

/-- The wrapping key under a tenant's key (R140). -/
def wrapKey (key : List Byte) : List Byte := hmac key ([0x49#8, 0x4B#8, 0x50#8, 0x57#8, 0x52#8, 0x41#8, 0x50#8, 0x31#8] ++ uniqueId)

/-- The wrapped key that KEY_SET carries without ERASE. -/
def carriesKey (c : Cmd) : Bool := decide (c.opcode = 0x0901) && !bit c.flags 8
def unwrapped (key : List Byte) (c : Cmd) : Option (List Byte) := keyUnwrap (wrapKey key) (slice c.payload 8 40)

/-- Checks 3 to 6 of R144: 0 passed, else the reason. -/
def keyChecks (s : State) (t : Nat) (c : Cmd) : Nat :=
  match (s.key t).key with
  | none => 1
  | some key =>
    if c.counter ≤ (s.key t).counter ∨ c.counter = 0xFFFFFFFFFFFFFFFF then 2
    else if tagFor key c ≠ c.tag then 3
    else if carriesKey c ∧ unwrapped key c = none then 7
    else 0

/-- The tenant is in lockout (R145). -/
def lockedOut (s : State) (t : Nat) : Bool := decide (s.now < (s.key t).lockedUntil)

/-- The checks of R144 on a well-formed critical command: 0 accepted, else the reason of the first that fails. -/
def authReason (s : State) (mb : Nat) (c : Cmd) : Nat :=
  let t := mbTenant mb
  if !issuerAllows mb c then 6
  else if lockedOut s t then 4
  else
    let r := if untagged s c then 0 else keyChecks s t c
    if r ≠ 0 then r else if !stateAllows s c.opcode then 5 else 0

/-- An AUTH_FAIL counted, latched and recorded (R145); refusals during lockout are not recorded. Sixteen failures with reason COUNTER or TAG start a lockout. -/
def authFail (s : State) (t reason : Nat) (c : Cmd) : State :=
  let locked := lockedOut s t
  let s := (s.incReg 0x1030).setReg 0x1034 (w32 (t + 256 * reason + 65536 * c.opcode))
  if locked then s
  else
    let s := s.raise { code := Ev.authFail, src := srcSalt, tenant := t, cs := Cs.authFail
                       data := leBytes 1 reason ++ leBytes 1 0 ++ leBytes 2 c.opcode ++ leBytes 8 c.counter }
    if reason = 2 ∨ reason = 3 then
      if (s.key t).fails < 15 then s.modKey t fun k => { k with fails := k.fails + 1 }
      else s.modKey t fun k => { k with fails := 0, lockouts := k.lockouts + 1, lockedUntil := s.now + 1000000000 * 2 ^ min 6 k.lockouts }
    else s

/-- Acceptance (R144, R145): the counter is stored before any effect, the sequence of failures ends. -/
def authAccept (s : State) (t : Nat) (c : Cmd) : State :=
  s.modKey t fun k => { k with counter := c.counter, fails := 0, lockouts := 0, lockedUntil := 0 }

/-- LOCKOUT_EXPIRE (R145). -/
def execLockoutExpire (t : Tenant) (s : State) : Host.Outcome State Fault Refusal :=
  .next (if (s.key t.val).lockedUntil = 0 then s
    else (s.atTime (s.key t.val).lockedUntil).modKey t.val fun k => { k with lockedUntil := 0 })

/-! ## Keys (R140, R141) -/

/-- The payload of KEY_SET: tenant, reserved; the owner key cannot be erased. -/
def keySetParam (erase : Bool) (p : List Byte) : Bool :=
  decide (wordAt p 0 ≤ 64 ∧ wordAt p 4 = 0) && !(erase && decide (wordAt p 0 = 0))

/-- KEY_SET's new key: unwrapped under the issuer's key; where no key tags the command (RAW, RETURNED) the spec gives no wrapping key, and the value is free. -/
def newKey (s : State) (mb : Nat) (c : Cmd) : List Byte :=
  match (s.key (mbTenant mb)).key.bind fun k => unwrapped k c with
  | some k => k
  | none => s.freeBytes 32

/-- KEY_SET (R140, R141): the target's counter is kept. -/
def execKeySet (s : State) : Host.Outcome State Fault Refusal :=
  runCmd 0x0901 s fun s mb c =>
    if bit c.flags 8 then s
    else
      let k := newKey s mb c
      done ((s.bumpBy 32).modKey (wordAt c.payload 0) fun x => { x with key := some k }) mb []

/-- KEY_SET_ERASE: KEY_SET with the ERASE flag (R140). -/
def execKeySetErase (s : State) : Host.Outcome State Fault Refusal :=
  runCmd 0x0901 s fun s mb c =>
    if bit c.flags 8 then done (s.modKey (wordAt c.payload 0) fun x => { x with key := none }) mb [] else s

/-! ## Life-cycle transitions (R136-R138) -/

/-- The steps of R137 around what a transition stores or erases: the record, the fuses, `act`, the response, the device reset. -/
def transition (s : State) (mb : Nat) (new fuses : Nat) (act : State → State) : State :=
  let old := lcyState s
  let s := s.raise { code := Ev.lcyTransition, src := srcSalt, data := leBytes 1 old ++ leBytes 1 new }
  let s := s.modMram fun m => { m with fuses := m.fuses ||| BitVec.ofNat 3 fuses }
  wideReset (commitAll (done (act (closeDebug s 3)) mb []) 600) .device 3

/-- OWNER_KEY_INSTALL (R136, R140): in RAW only; the owner's counter starts at 0. -/
def execOwnerKeyInstall (s : State) : Host.Outcome State Fault Refusal :=
  runCmd 0x0900 s fun s mb c =>
    if lcyState s ≠ 0 then respond (authFail s 0 5 c) mb 0 Cs.authFail 5 0 []
    else transition s mb 1 1 fun s => s.modKey 0 fun x => { x with key := some (slice c.payload 0 32), counter := 0 }

/-- LCY_ADVANCE (R136). -/
def execLcyAdvance (s : State) : Host.Outcome State Fault Refusal :=
  runCmd 0x0902 s fun s mb _ => transition s mb 2 3 id

/-- What entry to RETURNED erases (R137, R138): keys, counters, lockouts, every weir region; both configuration slots with ERASE_CFG. -/
def eraseReturned (cfg : Bool) (s : State) : State :=
  let s := (eraseKeys s).modWeirs fun x => { x with rgn := ⟨[]⟩, locked := [] }
  if cfg then modImg (modImg s 1 0 fun i => { i with valid := false }) 1 1 fun i => { i with valid := false } else s

/-- LCY_RETURN (R136-R138). -/
def execLcyReturn (s : State) : Host.Outcome State Fault Refusal :=
  runCmd 0x0903 s fun s mb c => transition s mb 3 7 (eraseReturned (bit c.flags 8))

/-! ## Debug (R149-R151) -/

/-- The payload of DEBUG_UNLOCK: 1 to 86,400 s. -/
def debugUnlockParam (p : List Byte) : Bool := decide (1 ≤ wordAt p 0 ∧ wordAt p 0 ≤ 86400)

/-- DEBUG_UNLOCK's effect (R150): in RAW and RETURNED the port is open without it. -/
def debugUnlockEff (s : State) (mb : Nat) (c : Cmd) : State :=
  let until_ := s.now + wordAt c.payload 0 * 1000000000
  if lcyState s = 0 ∨ lcyState s = 3 then done s mb []
  else
    let s := if s.dbg.isOpen then s else s.raise { code := Ev.debugOpen, src := srcSalt }
    done (s.modDbg fun d => { d with isOpen := true, expires := some until_ }) mb []

/-- DEBUG_UNLOCK (R150). -/
def execDebugUnlock (s : State) : Host.Outcome State Fault Refusal := runCmd 0x0904 s debugUnlockEff

/-- DEBUG_LOCK (R151). -/
def execDebugLock (s : State) : Host.Outcome State Fault Refusal :=
  runCmd 0x0905 s fun s mb _ => done (if s.dbg.isOpen then closeDebug s 1 else s) mb []

/-- DEBUG_UNLOCK_EXPIRE (R151). -/
def execDebugUnlockExpire (s : State) : Host.Outcome State Fault Refusal :=
  .next (match s.dbg.expires with
    | some t => if s.dbg.isOpen then closeDebug (s.atTime t) 0 else s
    | none => s)

/-- The weir lets the debug master through (R149): tenant 0's permission, and on a locked region its debug bit; unchecked in RETURNED. -/
def debugPasses (s : State) (w addr space : Nat) (write : Bool) : Bool :=
  decide (lcyState s = 3) || (weirAllows s w 0 space addr (!write) write &&
    (match weirRegion s w space addr with
    | some r => !rgnLocked s w r || rgnDebug s w r
    | none => true))

/-- The access at a weir-guarded target (R149): a port's bus cycle where the target is a port. The spec gives no layout of the register files and memories behind the weirs, so what a read returns is a free value. -/
def debugRun (s : State) (w addr space : Nat) (write : Option Word) : State :=
  if debugPasses s w addr space write.isSome then
    let s := if w ≤ 1 then s.emit (.busCycle w (b2n write.isSome) addr space 4 (match write with
      | some v => (leBytes 4 v.toNat).map some
      | none => [])) else s
    match write with
    | some _ => s
    | none => s.bump.emit (.dbgData (Config.freeDebugData s.fresh))
  else
    let s := denyLatch s w 0 space addr (b2n write.isSome) 4
    let e := denyEv s w 0 space addr (b2n write.isSome) 4
    (s.raise { e with data := e.data ++ leBytes 2 Client.debug }).emit .dbgErr

/-- A debug access of an open port meets the power of its target's domain (R89, R96, R99). -/
def debugAccessEff (s : State) (w addr space : Nat) (write : Option Word) : State :=
  if !debugOpen s ∨ !awake s then s.emit .dbgErr
  else
    let d := weirDomain w
    let s := s.modDbg fun x => { x with session := true, votes := if votable d then insertAsc d x.votes else x.votes }
    if domDisabled s d then
      let s := (s.incReg 0x10014).raise (absentEv d Client.debug 0xFF addr)
      if write.isSome then s else s.emit (.dbgData 0xFFFFFFFF#32)
    else
      let s := raiseVote s d Client.debug
      if domUp s d then debugRun s w addr space write
      else s.modDom d fun x => { x with held := x.held ++ [.debug w addr space write] }

/-- DEBUG_ACCESS (R149). -/
def execDebugAccess (weir : Fin 8) (addr space : Nat) (write : Option Word) (s : State) : Host.Outcome State Fault Refusal :=
  .next (debugAccessEff s weir.val addr space write)

/-! ## Boundary scan (R148) -/

/-- BSCAN_TAKEOVER's effect: outside reset, loading EXTEST, CLAMP or HIGHZ contains the device; from tide watch, once it boots. -/
def bscanEff (s : State) : State :=
  if awake s then
    let s := (s.modCont fun c => { c with tapTakeover := true }).modDbg fun d => { d with takeover := true }
    enterDevice (s.raise { code := Ev.bscanTakeover, src := srcAo, enters := 2 }) 5
  else if s.tide.active then s.modCont fun c => { c with tapTakeover := true }
  else s

/-- BSCAN_TAKEOVER (R148). -/
def execBscanTakeover (i : TapInstr) (s : State) : Host.Outcome State Fault Refusal :=
  .next (match i with
    | .extest | .clamp | .highz => bscanEff s)

/-- TAP_LEAVES_EXTEST (R148): the containment remains until it is released. -/
def execTapLeavesExtest (s : State) : Host.Outcome State Fault Refusal :=
  .next (s.modCont fun c => { c with tapTakeover := false })

end Sys2Proof.Machine
end

