-- ==== Sys2Proof/Machine/HerdinCmd.lean ====
section
/-! DEFINITION. Herdin: the doorbell, the queue, what every command is checked for before it runs, the information commands (R153-R171). -/

namespace Sys2Proof.Machine

/-! ## The command list (R159, R170) -/

/-- Payload lengths: a set of opcodes of one length, or a range by its step. `none`: the opcode is not in the list. -/
def lengthOk (c : Cmd) : Option Bool :=
  let n := c.len
  match c.opcode with
  | 0x0000 | 0x0001 | 0x0002 | 0x0003 | 0x0004 | 0x0100 | 0x0104 | 0x0803 | 0x0902 | 0x0903 | 0x0905 | 0x0A00 | 0x0A01 | 0x0A02 | 0x0B00 => some (decide (n = 0))
  | 0x0103 | 0x0201 | 0x0202 | 0x0301 | 0x0302 | 0x0303 | 0x0401 | 0x0402 | 0x0403 | 0x0500 | 0x0602 | 0x0603 | 0x0604 => some (decide (n = 4))
  | 0x0700 | 0x0701 | 0x0703 | 0x0704 | 0x0800 | 0x0801 | 0x0804 | 0x0904 | 0x0B03 => some (decide (n = 4))
  | 0x0101 | 0x0404 | 0x0405 | 0x0502 | 0x0504 | 0x0702 | 0x0B02 | 0x0C00 | 0x0C01 => some (decide (n = 8))
  | 0x0105 | 0x0503 | 0x0606 | 0x0A03 => some (decide (n = 16))
  | 0x0200 | 0x0501 | 0x0600 | 0x0605 | 0x0900 | 0x0B01 => some (decide (n = 32))
  | 0x0C02 => some (decide (n = 36))
  | 0x0300 => some (decide (n = 48))
  | 0x0400 => some (decide (n = 64))
  | 0x0901 => some (decide (n = if bit c.flags 8 then 8 else 48))
  | 0x0102 => some (decide (12 ≤ n ∧ n ≤ 4064 ∧ n % 4 = 0))
  | 0x0601 => some (decide (40 ≤ n ∧ n ≤ 4040 ∧ n % 32 = 8))
  | 0x0802 => some (decide (24 ≤ n ∧ n ≤ 1032 ∧ n % 16 = 8))
  | _ => none

/-- The critical commands (R142, R170). -/
def critical (op : Nat) : Bool := decide (op ∈ [0x0101, 0x0103, 0x0303, 0x0901, 0x0902, 0x0903, 0x0904, 0x0A03, 0x0B02])

/-- The commands that PF0 alone may send (R170). -/
def pf0Only (op : Nat) : Bool :=
  decide (op ∈ [0x0100, 0x0101, 0x0102, 0x0103, 0x0104, 0x0105, 0x0300, 0x0301, 0x0302, 0x0303, 0x0405, 0x0500, 0x0501, 0x0503, 0x0504,
    0x0606, 0x0700, 0x0702, 0x0703, 0x0704, 0x0801, 0x0802, 0x0803, 0x0804, 0x0900, 0x0902, 0x0903, 0x0904, 0x0905,
    0x0A01, 0x0A02, 0x0A03, 0x0B00, 0x0B01, 0x0B02, 0x0B03])

/-- The issuer may send a command that is not critical (R150, R170). -/
def maySend (mb op : Nat) : Bool :=
  if mb = 65 then decide (op ∈ [0x0001, 0x0002, 0x0905]) else decide (mb = 0) || !pf0Only op

/-- FLAGS are well formed (R158-R160): [7:1] reserved, FLAGS[8] defined for four opcodes. -/
def flagsOk (c : Cmd) : Bool :=
  decide (c.flags &&& 0xFE = 0) && decide (c.flags / 512 = 0) && (!bit c.flags 8 || decide (c.opcode ∈ [0x0801, 0x0103, 0x0901, 0x0903]))

/-- The payload's fields are in range and its reserved bits 0 (R160), by the chapter that owns the opcode. -/
def payloadOk (s : State) (c : Cmd) : Bool :=
  let p := c.payload
  match c.opcode with
  | 0x0101 => imageBeginParam p
  | 0x0102 => imageChunkParam p
  | 0x0103 => imageCommitParam p
  | 0x0105 => imageReadParam p
  | 0x0200 => winSetParam p
  | 0x0201 | 0x0202 => winNumParam p
  | 0x0300 => weirSetParam p
  | 0x0301 => weirGetParam p
  | 0x0302 => weirDefaultParam p
  | 0x0303 => weirLockParam p
  | 0x0400 => queueCreateParam p
  | 0x0401 | 0x0402 | 0x0403 => queueNumParam p
  | 0x0404 => settleFenceParam p
  | 0x0405 => tallyQuotaParam p
  | 0x0500 => portServiceParam p
  | 0x0501 => portSlaveParam p
  | 0x0502 => profileGetParam s p
  | 0x0503 => profileSetParam s p
  | 0x0504 => profileClearParam s p
  | 0x0600 => harvestCreateParam p
  | 0x0601 => harvestPointsParam p
  | 0x0602 | 0x0603 => harvestStartParam p
  | 0x0604 => harvestGetParam p
  | 0x0605 => floodCreateParam p
  | 0x0606 => routeSetParam p
  | 0x0700 => linkServiceParam p
  | 0x0701 | 0x0704 => linkNumParam p
  | 0x0702 => linkLoopParam p
  | 0x0703 => eyeScanParam p
  | 0x0800 => pwrVoteParam p
  | 0x0801 => pwrDownParam p
  | 0x0802 => tideArmParam p
  | 0x0804 => tempWarnParam p
  | 0x0901 => keySetParam (bit c.flags 8) p
  | 0x0904 => debugUnlockParam p
  | 0x0A03 => roleSetParam p
  | 0x0B01 => boundsParam p
  | 0x0B02 => overrideParam p
  | 0x0B03 => wearGetParam p
  | 0x0C00 | 0x0C01 => logReadParam p
  | _ => true

/-- The commands served in recovery (R169): the information range, and the image commands with kind firmware. -/
def recoveryServes (mb : Nat) (c : Cmd) : Bool :=
  decide (mb = 0) && (decide (c.opcode < 0x0100) || decide (c.opcode = 0x0102 ∨ c.opcode = 0x0104)
    || (decide (c.opcode = 0x0101 ∨ c.opcode = 0x0103 ∨ c.opcode = 0x0105) && decide (wordAt c.payload 0 = 0)))

/-- A command that a containment ends (R168). -/
def cmdContained (s : State) (t : Nat) (c : Cmd) : Bool :=
  !decide (c.opcode < 0x0100 ∨ 0x0C00 ≤ c.opcode)
    && (decide (s.tenantCause t ≠ 0)
      || (s.cont.dev && (decide (t ≠ 0) || decide (c.opcode ∈ [0x0500, 0x0700, 0x0702, 0x0602, 0x0A01]))))

/-! ## The doorbell (R154, R155) -/

/-- The request in a mailbox's area, copied (R154, R158): the header, then as many payload bytes as it names. -/
def copyCmd (m : Mailbox) : Cmd :=
  let byte := fun (i : Nat) => BitVec.ofNat 8 ((Tbl.get (fun _ => 0#32) m.req (i / 4)).toNat / 2 ^ (8 * (i % 4)))
  let head := (List.range 32).map byte
  let n := field head 6 2
  { opcode := field head 0 2, flags := field head 2 2, seq := field head 4 2, len := n, counter := field head 8 8
    tag := slice head 16 16, head := head, payload := (List.range (min n 4064)).map fun i => byte (32 + i) }

/-- The doorbell is reachable: configuration space answers and the function exists outside an FLR (R117, R127); the TAP's once the device is out of reset. -/
def doorbellOpen (s : State) (mb : Nat) : Bool :=
  awake s && (if mb = 65 then decide (6 ≤ s.boot.step) else decide (8 ≤ s.boot.step) && fnEnabled s (fnOf mb) && !(s.fn (fnOf mb)).flr)

/-- A RING (R154, R155): accepted in IDLE and COMPLETE, and once in BOOTING. -/
def ringEff (s : State) (mb : Nat) : State :=
  if !doorbellOpen s mb then s
  else
    let m := s.mb mb
    let c := copyCmd m
    if m.st = .idle ∨ m.st = .complete then
      (s.modMb mb fun m => { m with st := .queued, cmd := some c, seq := c.seq }).modHer fun h => { h with queue := h.queue ++ [mb] }
    else if m.st = .booting ∧ !m.held then
      (s.modMb mb fun m => { m with held := true, cmd := some c, seq := c.seq }).modHer fun h => { h with queue := h.queue ++ [mb] }
    else s.modMb mb fun m => { m with err := m.err ||| 1#2 }

/-- HRD_DOORBELL_RING (R154). -/
def execHrdDoorbellRing (mb : Fin 66) (s : State) : Host.Outcome State Fault Refusal := .next (ringEff s mb.val)

/-- A CANCEL (R155): it acts on a waiting command only. -/
def cancelEff (s : State) (mb : Nat) : State :=
  if !doorbellOpen s mb then s
  else if (s.mb mb).st = .waiting then cancelled (unwait s mb) mb
  else s.modMb mb fun m => { m with err := m.err ||| 2#2 }

/-- HRD_DOORBELL_CANCEL (R155): a RING set beside it is ignored, whatever the state. -/
def execHrdDoorbellCancel (mb : Fin 66) (_withRing : Bool) (s : State) : Host.Outcome State Fault Refusal :=
  .next (cancelEff s mb.val)

/-! ## Dispatch (R144, R164, R168, R169) -/

/-- A command with an end of its own before its row runs: rejected, contained, or failing a check of R144; else it executes, a critical one with its counter stored. -/
def checkCmd (s : State) (mb : Nat) (c : Cmd) : State :=
  let t := mbTenant mb
  match lengthOk c with
  | none => reject s mb Rej.badOpcode
  | some lenOk =>
    if s.boot.recovery ∧ !recoveryServes mb c then reject s mb Rej.recovery
    else if !lenOk then reject s mb Rej.badLength
    else if !flagsOk c then reject s mb Rej.badParam
    else if !critical c.opcode ∧ !maySend mb c.opcode then reject s mb Rej.notPermitted
    else if !payloadOk s c then reject s mb Rej.badParam
    else if cmdContained s t c then
      ran (s.raise { code := Ev.contained, src := srcMailbox, tenant := t, cs := Cs.contained }) mb Cs.contained []
    else if critical c.opcode then
      match authReason s mb c with
      | 0 => authAccept s t c
      | r => respond (authFail s t r c) mb 0 Cs.authFail r 0 []
    else s

/-- COMMAND_DISPATCH's effect: Saltmaster takes the next command of the queue. -/
def dispatchEff (s : State) : State :=
  match s.her.exec, s.her.queue with
  | none, mb :: rest =>
    if !s.served then s
    else
      let s := s.modHer fun h => { h with queue := rest, exec := some mb }
      match (s.mb mb).cmd with
      | some c => checkCmd (s.modMb mb fun m => { m with st := .executing }) mb c
      | none => s.modHer fun h => { h with exec := none }
  | _, _ => s

/-- COMMAND_DISPATCH (R164). -/
def execCommandDispatch (s : State) : Host.Outcome State Fault Refusal := .next (dispatchEff s)

/-! ## Information (R170) -/

/-- NOP. -/
def execNop (s : State) : Host.Outcome State Fault Refusal := runCmd 0x0000 s fun s mb _ => done s mb []

/-- INFO_VERSION: the four slots' versions in the order of R130, and the command set version. -/
def execInfoVersion (s : State) : Host.Outcome State Fault Refusal :=
  runCmd 0x0001 s fun s mb _ =>
    done s mb (bytesOfWords [fwVerWord s 0, fwVerWord s 1, cfgVerWord s 0, cfgVerWord s 1, 0x00010000])

/-- INFO_IDENTITY: the words of LCY_ID and the unique ID at their offsets of R152. -/
def execInfoIdentity (s : State) : Host.Outcome State Fault Refusal :=
  runCmd 0x0002 s fun s mb _ => done s mb (bytesOfWords [lcyWord s 0, lcyWord s 4, lcyWord s 8, 0] ++ uniqueId)

/-- Milliseconds of lockout left, rounded up. -/
def lockoutMs (s : State) (t : Nat) : Nat := ((s.key t).lockedUntil - s.now + 999999) / 1000000

/-- The word of a tenant's containment: [0] its own, [1] the device's. -/
def containWord (s : State) (t : Nat) : Nat := packBits [decide (s.tenantCause t ≠ 0), s.cont.dev]

/-- INFO_STATUS: GLB_STATUS, the issuer's containment, key present, last accepted counter, lockout ms remaining. -/
def execInfoStatus (s : State) : Host.Outcome State Fault Refusal :=
  runCmd 0x0003 s fun s mb _ =>
    let t := mbTenant mb
    done s mb (bytesOfWords [glbStatus s, containWord s t, b2n (s.key t).key.isSome] ++ leBytes 8 (s.key t).counter ++ leBytes 4 (lockoutMs s t))

/-- INFO_CAPS: the spec names device limits and quotas and places none of them; 32 free bytes. -/
def execInfoCaps (s : State) : Host.Outcome State Fault Refusal :=
  runCmd 0x0004 s fun s mb _ => done (s.bumpBy 32) mb (s.freeBytes 32)

end Sys2Proof.Machine
end

