-- ==== Sys2Proof/Machine/Release.lean ====
section
/-! DEFINITION. Release of device and tenant containment (R198-R201, R537) and the completion timeout of the device's host reads (R227, R228). -/

namespace Sys2Proof.Machine

/-! ## Device release (R199, R537) -/

/-- The effect of the row that brings a cause of device containment (R148, R186, R196, R501, R77, R79). -/
def cutCause (s : State) : ReleaseCut → State
  | .linkDown => linkDownEff s
  | .fatal k => hostFatalEff s k
  | .sram => sramUncorrEff s none
  | .pll fb => pllFaultEff s fb false
  | .supply k mv => supplyFaultEff s (supplyIdx k) mv
  | .therm t => thermEff s t
  | .tap _ => bscanEff s

/-- A cause that arrives after step `k` of a release under way, where that is when it comes. -/
def cutAfter (s : State) (cut : Option (Fin 4 × ReleaseCut)) (k : Nat) : State :=
  match cut with
  | some (j, c) => if j.val = k then cutCause s c else s
  | none => s

/-- Step 2 of R199: the completions that the containment held back are written and the pending messages sent, while HEP_CONTAIN_STATUS[0] is still set. -/
def releaseSend (s : State) : State :=
  let s := s.modCont fun c => { c with dev := false }
  let s := (List.range 66).foldl (fun s fn => sendPending (releaseOuts s fn) fn) s
  s.modCont fun c => { c with dev := true }

/-- Step 4 of R199: containment ends, the record is written, and the queues that step 1 did not halt fetch again (R532, R537). -/
def releaseEnd (s : State) (n : Nat) : State :=
  let s := s.modCont fun c => { c with dev := false, devCause := 0#6, releasing := false }
  let s := sendMsix (releaseRec s 0 0 n srcHc 0xFF) 0 1
  (s.qs.ctx.rows.map fun kv => kv.1).foldl fetchNext s

/-- An accepted release (R199): its steps in order; a cause that contains the device between them stops it (R537). -/
def releaseSteps (s : State) (cut : Option (Fin 4 × ReleaseCut)) : State :=
  let (n, s) := releaseFrozen (s.modCont fun c => { c with releasing := true })
  let s := cutAfter s cut 1
  if !s.cont.releasing then s
  else
    let s := cutAfter (releaseSend s) cut 2
    if !s.cont.releasing then s
    else
      let s := cutAfter s cut 3
      if !s.cont.releasing then s else releaseEnd s n

/-- A cause contains the device anew when it meets a release (R200, R537). -/
def cutContains (s : State) (c : ReleaseCut) : Bool :=
  !(cutCause (s.modCont fun x => { x with releasing := true }) c).cont.releasing

/-- HEP_CONTAIN_RELEASE written (R198-R201, R537). A cause in the same cycle as the write wins (R200). -/
def devRelease (s : State) (v : Word) (cut : Option (Fin 4 × ReleaseCut)) : State :=
  if !v.getLsbD 0 then s
  else if !s.cont.dev then s
  else match cut with
    | some (0, c) =>
      if cutContains s c then relErr (cutCause s c) 0
      else
        let s := cutCause s c
        if devReleaseRefused s then relErr s 0 else releaseSteps s none
    | cut => if devReleaseRefused s then relErr s 0 else releaseSteps s cut

/-- DEVICE_CONTAIN_RELEASE: a write of HEP_CONTAIN_RELEASE (R199). -/
def execDeviceContainRelease (v : Word) (cut : Option (Fin 4 × ReleaseCut)) (s : State) : Host.Outcome State Fault Refusal :=
  .next (devRelease s v cut)

/-! ## Tenant release (R198, R199, R201) -/

/-- HEP_TEN_RELEASE written: [6:0] tenant, [31] GO. No cause of a tenant persists; the tenant's queues resume where they stopped. -/
def tenantRelease (s : State) (v : Word) : State :=
  let t := v.toNat % 128
  if !v.getLsbD 31 ∨ 64 < t ∨ s.tenantCause t = 0 then s
  else
    let s := s.modCont fun c => { c with tenants := c.tenants.set (fun _ => 0) t 0 }
    let s := sendMsix (releaseRec s 1 t 0 srcHc t) 0 1
    let s := if t = 0 then s else sendMsix s (fnOf t) 1
    ((s.qs.ctx.rows.filter fun kv => decide (kv.2.tenant = t)).map fun kv => kv.1).foldl fetchNext s

/-- TENANT_CONTAIN_RELEASE: a write of HEP_TEN_RELEASE (R201). -/
def execTenantContainRelease (v : Word) (s : State) : Host.Outcome State Fault Refusal := .next (tenantRelease s v)

/-! ## Completion timeout (R227, R228) -/

/-- The requester of a host read that has timed out gets CS HOST_TIMEOUT, as its own chapter handles it. -/
def timedOut (s : State) (u : TagUse) : State :=
  match u with
  | .fetch q => descFetchEff s q .timeout
  | .reNext q => descFetchEff s q .timeout
  | .seg k => segHostData s k .timeout
  | .loopRead uid => heldReadCompleteEff s uid .timeout
  | .rack p k => if k < 8 then dtAnswer s p k .timeout
    else match (s.port p).held with
      | some h => heldRackAnswer s p h .timeout
      | none => s
  | .selector h => selectorDoneEff s h .timeout
  | .half h => outputDoneEff s h .timeout
  | .drop => s

/-- HOST_READ_TIMEOUT's effect: the tag goes into quarantine, AER reports a Completion Timeout in the function, the read ends whole. -/
def hostTimeoutEff (s : State) (fn tag : Nat) : State :=
  match (s.fn fn).tags.find? fun t => decide (t.1 = tag) with
  | none => s
  | some (_, u) =>
    let s := s.modFn fn fun f => { f with quar := insertAsc tag f.quar }
    freeTag (timedOut (s.emit (.aer fn 2)) u) fn tag

/-- HOST_READ_TIMEOUT (R227). -/
def execHostReadTimeout (fn : Fn) (tag : Nat) (s : State) : Host.Outcome State Fault Refusal := .next (hostTimeoutEff s fn.val tag)

end Sys2Proof.Machine
end

