-- ==== Sys2Proof/Machine/RegVal.lean ====
section
/-! DEFINITION. What each register reads (R3-R8, R130, R152, R153, R179, R181, R201, R203, R230, R262-R265, R268-R270, R315, R328, R349, R359, R375-R377, R411, R433, R462, R464-R474, R499, R522-R530): the value of every offset of every BAR, the read-clear words, the 64-bit pairs, and the island that answers. -/

namespace Sys2Proof.Machine

/-! ## Mailboxes (R153, R156) -/

/-- HRD_STATUS's state code (R156). -/
def mbCode : MbState → Nat
  | .idle => 0
  | .booting => 1
  | .queued => 2
  | .executing => 3
  | .waiting => 4
  | .complete => 5

/-- A word of a mailbox. -/
def mbWord (s : State) (mb off : Nat) : Nat :=
  let m := s.mb mb
  if off < 0x1000 then (Tbl.get (fun _ => 0#32) m.req (off / 4)).toNat
  else if off < 0x2000 then wordAt m.rsp (off - 0x1000)
  else if off = 0x2004 then mbCode m.st + 8 * b2n m.held + 65536 * m.seq
  else if off = 0x2008 then m.err.toNat
  else if off = 0x2014 then (if mb = 0 then s.her.queue.length % 128 else 0)
  else (s.reg (mbReg mb off)).toNat

/-! ## Windows (R203, R230) -/

/-- The WIN_ words, by offset from 0x4_0000. -/
def winReg (s : State) (off : Nat) : Nat :=
  if off < 0x2000 then
    if off % 32 < 0x18 then winWord s.win.shadow (off / 32) (off % 32 / 4)
    else if off % 32 = 0x18 then winStatus s (off / 32) else 0
  else if off = 0x2004 then (s.reg 0x42004).toNat + b2n s.win.commit.isSome
  else if off = 0x2020 then ((List.range 66).map fun fn => (s.fn fn).quar.length).sum % 65536
  else (s.reg (0x40000 + off)).toNat

/-! ## Weirs (R474) -/

/-- The target behind a weir is present. -/
def weirPresent (s : State) (w : Nat) : Bool := decide (weirDomain w ∉ s.pwr.absent) && !(decide (w ≤ 5) && targetAbsent s w)

/-- The WEIR_ words, by offset from 0x8_0000. -/
def weirReg (s : State) (off : Nat) : Nat :=
  if off < 0x8000 then (if off % 0x40 < 0x30 then rgnWord s (off / 0x1000) (off % 0x1000 / 0x40) (off % 0x40 / 4) else 0)
  else if off < 0x8200 then
    let w := (off - 0x8000) / 0x40
    let o := off % 0x40
    let lock := fun (lo : Nat) => packBits ((List.range 32).map fun r => rgnLocked s w (lo + r))
    if o = 0 then weirDefault s w + 256 * b2n (weirPresent s w) + 65536 * ((List.range 64).filter fun r => rgnEnable s w r).length
    else if o = 4 then lock 0
    else if o = 8 then lock 32
    else (s.reg (0x80000 + off)).toNat
  else 0

/-! ## Queues (R268-R270) -/

/-- QDB_STATUS (R269). -/
def dbStatus (s : State) (q : Nat) : Nat := qstateCode (s.q q).st + 256 * (s.q q).faultCs

/-- The QCX_ words of a queue. -/
def qcxReg (s : State) (q off : Nat) : Nat :=
  if off < 0x70 then nth (qctxWords s q) (off / 4) 0
  else if off = 0x78 then (slotsOf s q).length % 8192 + 65536 * ((s.q q).descs.length % 128)
  else if off = 0xFC then dbStatus s q
  else (s.reg (0x100000 + 0x100 * q + off)).toNat

/-- VF_QHALT: bit n is set while the queue at doorbell index 32 j + n is HALTED or DISABLED (R270). -/
def qhaltWord (s : State) (t j : Nat) : Nat :=
  packBits ((List.range 32).map fun n => (queuesOf s t).any fun q =>
    decide ((s.q q).dbIdx = 32 * j + n ∧ ((s.q q).st = .halted ∨ (s.q q).st = .disabled)))

/-! ## Pans and beds (R262-R265) -/

/-- PAN_STATUS's state: a pan that serves a frozen segment is FROZEN, one that runs a closed position's work is a FOSTER. A handover is one command here, so HOLD is never seen. -/
def panCode (s : State) (p : Nat) : Nat :=
  let x := s.pan p
  let b := p / 17
  if x.st = 4 ∨ x.st = 5 then x.st
  else if x.pos = 31 then 0
  else if (posBusy s b x.pos).any fun k => (s.slot k).frozen then 3
  else if (s.bed b).closed.any fun c => decide (c.2 = x.pos) then 6
  else 1

/-- PAN_STATUS (R263). -/
def panStatus (s : State) (p : Nat) : Nat :=
  let x := s.pan p
  let b := p / 17
  let serves := decide (x.pos < 16) && panGood s p
  panCode s p + 16 * x.pos + 512 * b2n (serves && decide (0 < pinnedTo s b x.pos))
    + 65536 * (if serves then (posBusy s b x.pos).length else 0) + 2 ^ 24 * (if serves then (posRakable s b x.pos false).length else 0)

/-- The slots of a bed in service: 32 for each open position, none while it is lost or DISABLED (R260, R261). -/
def bedCapacity (s : State) (b : Nat) : Nat :=
  if (s.bed b).lost ∨ bedDead s b then 0 else 32 * ((List.range 16).filter fun i => !posClosed s b i).length

/-- The occupied slots of a bed. -/
def bedOccupied (s : State) (b : Nat) : Nat := ((busySlots s).filter fun k => decide (slotBed k = b)).length

/-- The BED_ words. -/
def bedReg (s : State) (b off : Nat) : Nat :=
  let sp := s.pan (17 * b + 16)
  if off = 0 then
    b2n (decide ((domNow s (4 + b)).st ∈ [DomSt.on, .holdoff, .draining, .entering])) + 2 * b2n (s.bed b).lost
      + 4 * b2n ((bedSpare s b).isSome && !(s.bed b).lost) + 16 * (if panGood s (17 * b + 16) then sp.pos else 31)
      + 65536 * (s.bed b).closed.length
  else if off = 4 then bedOccupied s b + 65536 * bedCapacity s b
  else if off = 8 then (s.bed b).advertised
  else if off = 0x1C then queuesOn s b
  else (s.reg (0x184000 + 0x100 * b + off)).toNat

/-- The PAN_ and BED_ words, by offset from 0x18_0000. -/
def panBedReg (s : State) (off : Nat) : Nat :=
  if off < 0x2200 then (if off % 0x40 = 0 then panStatus s (off / 0x40) else (s.reg (0x180000 + off)).toNat)
  else if 0x4000 ≤ off ∧ off < 0x4800 then bedReg s ((off - 0x4000) / 0x100) (off % 0x100)
  else if off = 0x8004 then (busySlots s).length
  else if off = 0x8008 then ((List.range 8).map (bedCapacity s)).sum
  else (s.reg (0x180000 + off)).toNat

/-! ## Liquor and tally (R359, R375-R377) -/

/-- A discard log entry's bytes (R359). -/
def dlogBytes (e : DlogEntry) : List Byte :=
  leBytes 8 e.time ++ leBytes 8 e.line ++ leBytes 1 e.tenant ++ leBytes 1 e.target ++ leBytes 1 e.space ++ leBytes 1 e.reason
    ++ leBytes 1 e.fate ++ leBytes 1 e.rclass ++ leBytes 2 e.bytes ++ leBytes 4 e.rep ++ leBytes 4 0

/-- A word of a tenant's TAL_ block; without PRIV the latch reads zero (R376, R377). -/
def talReg (s : State) (t off : Nat) : Nat :=
  let q := s.tally t
  let l := fun n => if privOf s t then n else 0
  match off with
  | 0x00 => q.issued
  | 0x04 => frontier q
  | 0x08 => q.ack
  | 0x0C => q.floor
  | 0x10 => q.quota
  | 0x14 => entriesUsed q % 4096 + 65536 * q.kept.length + 2 ^ 31 * b2n q.overflow
  | 0x1C => (staged q).length
  | 0x20 => l (b2n q.latchValid + 2 * b2n q.latchMore)
  | 0x24 => l q.latched.ticket
  | 0x28 => l (q.latched.addr % 2 ^ 32)
  | 0x2C => l (q.latched.addr / 2 ^ 32)
  | 0x30 => l (q.latched.cs + 65536 * q.latched.target + 2 ^ 24 * q.latched.space)
  | 0x34 => (s.tal.fences.filter fun f => decide (f.tenant = t)).length
  | o => (s.reg (talBase t + o)).toNat

/-- The LIQ_ and TAL_ words, by offset from 0x1C_0000. -/
def liqReg (s : State) (off : Nat) : Nat :=
  let priv := fun (lo : Nat) => packBits ((List.range 32).map fun i => decide (lo + i ≤ 64) && privOf s (lo + i))
  if off = 4 then s.liq.lines.length % 32768 + 65536 * (poolUsed s 1 % 32768)
  else if off = 0x24 then (s.liq.dlogCount + 511) % 512 * b2n (decide (0 < s.liq.dlogCount)) + 65536 * (s.liq.dlogCount % 65536)
  else if off = 0x104 then 3584 - ((s.tal.t.rows.map fun kv => entriesUsed kv.2).sum) + 65536 * (512 - floodUsed s)
  else if off = 0x108 then priv 0
  else if off = 0x10C then priv 32
  else if off = 0x110 then priv 64
  else if 0x1000 ≤ off ∧ off < 0x2040 then talReg s ((off - 0x1000) / 0x40) (off % 0x40)
  else if 0x8000 ≤ off ∧ off < 0xC000 then
    match Tbl.get (fun _ => none) s.liq.dlog ((off - 0x8000) / 32) with
    | some e => wordAt (dlogBytes e) (off % 32)
    | none => 0
  else (s.reg (0x1C0000 + off)).toNat

/-! ## Ports (R304, R315, R328, the personality registers, R338, R349) -/

/-- PA_STATUS's state code. -/
def portCode : PortSt → Nat
  | .absent => 0
  | .outOfService => 1
  | .starting => 2
  | .inService => 3
  | .stopping => 4
  | .contained => 5

/-- PA_STATUS. -/
def portStatus (s : State) (p : Nat) : Nat :=
  let q := s.port p
  portCode (if (imgPort s p).absent then .absent else q.st) + 16 * b2n q.owned + 32 * b2n (isSysctl s p)
    + (if monitorRuns s p then 256 * b2n q.sysfail + 512 * b2n q.acfail + 1024 * b2n q.rackReset + 2048 * b2n (decide (q.watched ≠ []))
       else 0)
    + 65536 * (portKind s p % 8)
    + 2 ^ 24 * packBits ((List.range 4).map fun b => bankOk s p b)

/-- A word of PA_REGION: the loaded table's, with the settings in force in words 3-5 (R338, R346). -/
def regionReg (s : State) (p r i : Nat) : Nat :=
  if persRegions (portTable s p) ≤ r then 0
  else
    let x := s.prof (profKey p r)
    match i with
    | 3 => x.w3.toNat
    | 4 => x.w4.toNat
    | 5 => x.w5.toNat
    | _ => regionWord (portTable s p) r i

/-- The words of a port's block. -/
def portReg (s : State) (p off : Nat) : Nat :=
  let t := portTable s p
  if off = 0 then portStatus s p
  else if off = 0x1C then b2n (s.port p).sysreset
  else if 0x400 ≤ off ∧ off < 0x600 then slvWord s p ((off - 0x400) / 32) (off % 32 / 4)
  else if off = 0x1000 then persKind t % 8 + 256 * b2n (s.port p).loaded.isSome + 512 * b2n (s.port p).persOk + 65536 * (persRegions t % 128)
  else if off = 0x1004 then (if (s.port p).persOk then wordAt t (0x110 + 32 * persRegions t) else 0)
  else if 0x1100 ≤ off ∧ off < 0x11C4 then lineMap t ((off - 0x1100) / 4)
  else if 0x1200 ≤ off ∧ off < 0x1220 then timing t ((off - 0x1200) / 2) + 65536 * timing t ((off - 0x1200) / 2 + 1)
  else if 0x2000 ≤ off ∧ off < 0x2800 then regionReg s p ((off - 0x2000) / 32) (off % 32 / 4)
  else if 0x3000 ≤ off ∧ off < 0x3800 then nth (profWords s p ((off - 0x3000) / 32)) (off % 32 / 4) 0
  else (s.reg (paReg p off)).toNat

/-! ## Lanes and links (R433, R462) -/

/-- The LAN_ and ULI_ words, by offset from 0x40_0000. -/
def lanUliReg (s : State) (off : Nat) : Nat :=
  if off < 0xC80 then
    let n := off / 0x80
    let o := off % 0x80
    if o = 0 then laneStatusWord s n
    else if o = 4 then laneEqWord s n
    else if o = 0x20 then (s.lane n).density
    else (s.reg (0x400000 + off)).toNat
  else if 0x1000 ≤ off ∧ off < 0x1140 then
    let k := (off - 0x1000) / 0x40
    if off % 0x40 = 0 then linkStatusWord s k
    else if off % 0x40 = 4 then linkMapWord s k
    else (s.reg (0x400000 + off)).toNat
  else if 0x2000 ≤ off ∧ off < 0x2500 then uliWord s ((off - 0x2000) / 0x100) (off % 0x100)
  else if 0x3000 ≤ off ∧ off < 0x3400 then
    linkRegionWord s ((off - 0x3000) / 0x100) (off % 0x100 / 16) (off % 16 / 4)
  else (s.reg (0x400000 + off)).toNat

/-! ## The BARs (R179, R524, R529, R530) -/

/-- A word of PF0 BAR0 (R524, R525). -/
def pf0Word (s : State) (off : Nat) : Nat :=
  if off < 0x400 then glbWord s off
  else if off < 0x1000 then hepWord s (off - 0x400)
  else if off < 0x10000 then lcyWord s (off - 0x1000)
  else if off < 0x20000 then pwrWord s (off - 0x10000)
  else if off < 0x24000 then mbWord s 0 (off - 0x20000)
  else if off < 0x40000 then 0
  else if off < 0x80000 then winReg s (off - 0x40000)
  else if off < 0x100000 then weirReg s (off - 0x80000)
  else if off < 0x180000 then qcxReg s ((off - 0x100000) / 0x100) (off % 0x100)
  else if off < 0x1C0000 then panBedReg s (off - 0x180000)
  else if off < 0x200000 then liqReg s (off - 0x1C0000)
  else if off < 0x280000 then portReg s 0 (off - 0x200000)
  else if off < 0x300000 then portReg s 1 (off - 0x280000)
  else if off < 0x400000 then harWord s (off - 0x300000)
  else if off < 0x500000 then lanUliReg s (off - 0x400000)
  else if off < 0x540000 then twinWord s (off - 0x500000)
  else if off < 0x580000 then sprWord s (off - 0x540000)
  else if off < 0x600000 then btnWord s (off - 0x580000)
  else 0

/-- The words of an MSI-X table, 16 B an entry (R530; PCI Express Base Specification). -/
def msixWord (f : FnState) (off : Nat) : Nat :=
  let v := vec f (off / 16)
  if off % 16 = 0 then v.addr.toNat % 2 ^ 32
  else if off % 16 = 4 then v.addr.toNat / 2 ^ 32
  else if off % 16 = 8 then v.data.toNat
  else b2n v.mask

/-- The words of a pending bit array. -/
def pbaWord (f : FnState) (off : Nat) : Nat := packBits ((List.range 32).map fun i => (vec f (off * 8 + i)).pend)

/-- A word of VF BAR0 (R181, R269, R270, R315, R529). -/
def vfWord (s : State) (fn off : Nat) : Nat :=
  let t := tenantOf fn
  if off < 0x4000 then
    match (if off % 16 = 0xC then doorbellQueue s fn (off / 16) else none) with
    | some q => dbStatus s q
    | none => 0
  else if off < 0x8000 then mbWord s t (off - 0x4000)
  else if off = 0x8000 then b2n (decide (s.tenantCause t ≠ 0)) + 256 * s.tenantCause t
  else if 0x8100 ≤ off ∧ off < 0x8180 then qhaltWord s t ((off - 0x8100) / 4)
  else if 0x8200 ≤ off ∧ off < 0x8280 then
    let p := (off - 0x8200) / 0x40
    let l := off % 0x40 / 8
    if routeTenant s p l ≠ t then 0
    else if off % 8 = 0 then (s.reg (irqhReg p l 1)).toNat else (s.reg (irqhReg p l 2)).toNat % 2
  else if 0x8300 ≤ off ∧ off < 0x8340 then talReg s t (off - 0x8300)
  else if 0xC000 ≤ off ∧ off < 0xC200 then msixWord (s.fn fn) (off - 0xC000)
  else if off = 0xE000 then pbaWord (s.fn fn) 0
  else 0

/-- A word of PF1 BAR0 (R179). -/
def pf1Word (s : State) (off : Nat) : Nat :=
  let ten := fun (lo : Nat) => packBits ((List.range 32).map fun i => decide (s.tenantCause (lo + i) ≠ 0))
  if off = 0 then glbWord s 0 else if off = 4 then ten 1 else if off = 8 then ten 33 else 0

/-- A word of a function's BAR0. -/
def regWord (s : State) (fn off : Nat) : Nat :=
  (if fn = 0 then pf0Word s off else if fn = 1 then pf1Word s off else vfWord s fn off) % 2 ^ 32

/-- A word of PF0 BAR4 (R530). -/
def bar4Word (s : State) (off : Nat) : Nat :=
  if off < 0x1000 then msixWord (s.fn 0) off else if 0x80000 ≤ off ∧ off < 0x80020 then pbaWord (s.fn 0) (off - 0x80000) else 0

/-! ## Read-clear words (R6) and 64-bit pairs (R5) -/

/-- The RC words of a mailbox, and of a tenant's TAL_ block. -/
def mbRc (off : Nat) : Bool := decide (off = 0x200C ∨ off = 0x2010)

/-- The RC words of PF0 BAR0. -/
def pf0Rc (off : Nat) : Bool :=
  if off < 0x20000 then
    decide (off ∈ [0x24, 0x434, 0x1030, 0x10014, 0x10038]) || (decide (0x11000 ≤ off ∧ off < 0x12200) && decide (off % 0x100 ∈ [0x18, 0x1C, 0x20]))
  else if off < 0x40000 then mbRc (off - 0x20000)
  else if off < 0x80000 then decide (off ∈ [0x42018, 0x4201C, 0x42024, 0x42028])
  else if off < 0x100000 then decide (0x88000 ≤ off ∧ off < 0x88200 ∧ off % 0x40 = 0xC)
  else if off < 0x180000 then decide (off % 0x100 = 0x70 ∨ off % 0x100 = 0x74)
  else if off < 0x1C0000 then
    (decide (off < 0x182200) && decide (off % 0x40 ∈ [4, 0x10, 0x14, 0x18]))
      || (decide (0x184000 ≤ off ∧ off < 0x184800) && decide (off % 0x100 = 0xC ∨ off % 0x100 = 0x10))
      || decide (off ∈ [0x18800C, 0x188010, 0x188014])
  else if off < 0x200000 then
    decide (0x1C0008 ≤ off ∧ off ≤ 0x1C0020) || decide (0x1C1000 ≤ off ∧ off < 0x1C2040 ∧ off % 0x40 = 0x18)
  else if off < 0x300000 then
    let o := off % 0x80000
    decide (o ∈ [0x28, 0x2C, 0x30, 0x34, 0x38, 0x3C, 0x4C, 0x190, 0x100C, 0x1010]) || decide (0x100 ≤ o ∧ o < 0x180 ∧ o % 16 = 0xC)
  else if off < 0x400000 then decide (off < 0x300800 ∧ 0x40 ≤ off % 0x100 ∧ off % 0x100 ≤ 0x50)
  else if off < 0x500000 then
    decide (off < 0x400C80 ∧ 0xC ≤ off % 0x80 ∧ off % 0x80 ≤ 0x1C) || decide (0x401000 ≤ off ∧ off < 0x401140 ∧ 0x10 ≤ off % 0x40 ∧ off % 0x40 ≤ 0x1C)
      || (decide (0x402000 ≤ off ∧ off < 0x402500)
        && decide ((0x10 ≤ off % 0x100 ∧ off % 0x100 ≤ 0x3C) ∨ (0x5C ≤ off % 0x100 ∧ off % 0x100 ≤ 0x68)))
  else decide (off ∈ [0x500048, 0x50004C, 0x500050, 0x540014, 0x540018, 0x580018])

/-- The key in `regs` of an RC word that a function's read clears. -/
def rcKey (fn off : Nat) : Option Nat :=
  if fn = 0 then (if pf0Rc off then some off else none)
  else if fn = 1 then none
  else if 0x4000 ≤ off ∧ off < 0x8000 then (if mbRc (off - 0x4000) then some (mbReg (tenantOf fn) (off - 0x4000)) else none)
  else if off = 0x8318 then some (talBase (tenantOf fn) + 0x18)
  else none

/-- The low words of PF0 BAR0's 64-bit pairs, the registers whose names end in _LO (R5). -/
def pf0Pair (off : Nat) : Bool :=
  if off < 0x40000 then decide (off ∈ [0x440, 0x448, 0x10030])
  else if off < 0x80000 then decide (off < 0x42000 ∧ (off % 32 = 8 ∨ off % 32 = 0x10))
  else if off < 0x100000 then decide (0x88000 ≤ off ∧ off < 0x88200 ∧ (off % 0x40 = 4 ∨ off % 0x40 = 0x10))
  else if off < 0x180000 then decide (off % 0x100 ∈ [8, 0x20, 0x28, 0x50, 0x58, 0x60, 0x68])
  else if off < 0x1C0000 then decide (off < 0x182200 ∧ off % 0x40 = 8)
  else if off < 0x200000 then decide (0x1C1000 ≤ off ∧ off < 0x1C2040 ∧ off % 0x40 = 0x28)
  else if off < 0x300000 then decide (off % 0x80000 = 0x20 ∨ off % 0x80000 = 0x40)
  else if off < 0x400000 then decide (off < 0x300800 ∧ (off % 0x100 = 0x20 ∨ off % 0x100 = 0x28))
  else decide (off ∈ [0x500030, 0x540020, 0x580004, 0x58000C, 0x58001C])

/-- The low word of a pair, as a function sees it. -/
def isPairLow (fn off : Nat) : Bool := if fn = 0 then pf0Pair off else decide (2 ≤ fn ∧ off = 0x8328)

/-! ## Which island answers (R526) -/

/-- The votable domain of the block that holds a defined register of PF0 BAR0; none for a register that HC, FB, AO or CP answers and for a reserved one (R8, R525). -/
def blockDomain (off : Nat) : Option Nat :=
  if 0x180000 ≤ off ∧ off < 0x182200 then (if off % 0x40 < 0x20 then some (4 + (off - 0x180000) / 0x40 / 17) else none)
  else if 0x184000 ≤ off ∧ off < 0x184800 then (if off % 0x100 < 0x20 then some (4 + (off - 0x184000) / 0x100) else none)
  else if 0x200000 ≤ off ∧ off < 0x300000 then
    let o := off % 0x80000
    if o < 0x50 ∨ (0x100 ≤ o ∧ o < 0x194) ∨ (0x400 ≤ o ∧ o < 0x600) ∨ (0x1000 ≤ o ∧ o < 0x1014) ∨ (0x1100 ≤ o ∧ o < 0x11C4)
      ∨ (0x1200 ≤ o ∧ o < 0x1220) ∨ (0x2000 ≤ o ∧ o < 0x2800) ∨ (0x3000 ≤ o ∧ o < 0x3800) then
      some (if off < 0x280000 then 12 else 13)
    else none
  else if 0x400000 ≤ off ∧ off < 0x400C80 then
    (if off % 0x80 < 0x24 then some (if (off - 0x400000) / 0x80 < 20 then 14 else 15) else none)
  else if 0x401000 ≤ off ∧ off < 0x401140 then
    (if off % 0x40 < 0x24 then some (if off < 0x401100 then 14 else 15) else none)
  else if 0x402000 ≤ off ∧ off < 0x402500 then
    (if off % 0x100 < 0x6C then some (if off < 0x402400 then 14 else 15) else none)
  else if 0x403000 ≤ off ∧ off < 0x403400 then some 14
  else if 0x500000 ≤ off ∧ off < 0x500060 then some 15
  else none

/-- The words that FB mirrors (R526). -/
def mirrored (off : Nat) : Bool :=
  decide ((0x180000 ≤ off ∧ off < 0x182200 ∧ off % 0x40 = 0) ∨ (0x184000 ≤ off ∧ off < 0x184800 ∧ off % 0x100 ≤ 4)
    ∨ off ∈ [0x200000, 0x280000, 0x201000, 0x281000, 0x500000] ∨ (0x400000 ≤ off ∧ off < 0x400C80 ∧ off % 0x80 = 0)
    ∨ (0x401000 ≤ off ∧ off < 0x401140 ∧ off % 0x40 = 0) ∨ (0x402000 ≤ off ∧ off < 0x402500 ∧ off % 0x100 = 0))

/-- The votable domain that answers an access of PF0 BAR0: none where FB, or an island that no vote covers, answers it. -/
def regDomain (off : Nat) (wide : Bool) : Option Nat :=
  if mirrored off ∧ (!wide ∨ mirrored (off + 4)) then none
  else match blockDomain off with
    | some d => some d
    | none => if wide then blockDomain (off + 4) else none

/-- In recovery PF0 BAR0 answers only the global, life-cycle and mailbox blocks (R528). -/
def answersInRecovery (off : Nat) : Bool := decide (off < 0x10000 ∨ (0x20000 ≤ off ∧ off < 0x40000))

end Sys2Proof.Machine
end

