-- ==== Sys2Proof/Machine/Regs.lean ====
section
/-! DEFINITION. Register accesses (R3-R9, R526-R530, R534): reads that latch and clear, writes with their clamps, and the writes of configuration space that the device's rules read (R172-R191). -/

namespace Sys2Proof.Machine

/-! ## Ignored accesses (R4) -/

/-- The device accepts 32-bit accesses aligned to 4 bytes and 64-bit ones aligned to 8 (R4). -/
def accessOk (off size : Nat) : Bool := decide ((size = 4 ∧ off % 4 = 0) ∨ (size = 8 ∧ off % 8 = 0))

/-- An access completed and ignored: all ones for a read, the record with the address. -/
def ignoreAccess (s : State) (fn off : Nat) (isWrite : Bool) : State :=
  let s := if isWrite then s else s.emit (.regCpl fn off 0xFFFFFFFFFFFFFFFF#64)
  s.raise { code := Ev.regAccessIgnored, src := srcHc, tenant := tenantOf fn, addr := off }

/-- A BAR of a function that does not answer: Unsupported Request (R116 step 8, R127, R191); writes to a function under an FLR are dropped. -/
def noAnswer (s : State) (fn : Nat) (isWrite : Bool) : State :=
  if isWrite then (if (s.fn fn).flr then s else s.emit (.aer fn 0))
  else (s.emit (.aer fn 0)).emit (.hostCpl fn 0 .ur Cs.none [])

/-- REG_ACCESS_IGNORED (R4). -/
def execRegAccessIgnored (fn : Fn) (off size : Nat) (isWrite : Bool) (s : State) : Host.Outcome State Fault Refusal :=
  .next (if accessOk off size then s
    else if !fnAnswers s fn.val then noAnswer s fn.val isWrite
    else ignoreAccess s fn.val off isWrite)

/-! ## Reads (R5, R6) -/

/-- A 32-bit read of a word: the latched high word where one waits, else the value now; the low word of a pair latches the high one. -/
def readWord (s : State) (fn off : Nat) : Nat × State :=
  match s.latched fn off with
  | some v => (v.toNat, s.setLatch fn off none)
  | none => (regWord s fn off, if isPairLow fn off then s.setLatch fn (off + 4) (some (w32 (regWord s fn (off + 4)))) else s)

/-- The RC words that a read returns are cleared. -/
def clearRc (s : State) (fn off : Nat) : State :=
  match rcKey fn off with
  | some k => s.setReg k 0
  | none => s

/-- A read answered by its island: one sample of both words for a 64-bit read. -/
def readNow (s : State) (fn off : Nat) (wide : Bool) : State :=
  if wide then
    let v := regWord s fn off + 0x100000000 * regWord s fn (off + 4)
    (clearRc (clearRc s fn off) fn (off + 4)).emit (.regCpl fn off (BitVec.ofNat 64 v))
  else
    let (v, s) := readWord s fn off
    (clearRc s fn off).emit (.regCpl fn off (BitVec.ofNat 64 v))

/-- All ones returned. -/
def readOnes (s : State) (fn off : Nat) (wide : Bool) : State :=
  s.emit (.regCpl fn off (if wide then 0xFFFFFFFFFFFFFFFF#64 else 0xFFFFFFFF#64))

/-- An access of a register meets the island that answers it (R526): an OFF one is woken and holds it, a DISABLED one ends it (R99). -/
def onIsland (s : State) (fn off : Nat) (wide : Bool) (h : HeldAcc) (go : State → State) (absent : State → State) : State :=
  match (if fn = 0 then regDomain off wide else none) with
  | none => go s
  | some d =>
    let s := refreshDom s d
    if domDisabled s d then absent ((s.incReg 0x10014).raise (absentEv d (tenantOf fn) (tenantOf fn) off))
    else if domUp s d then go s
    else
      let s := raiseTemp s d (tenantOf fn)
      if domUp s d then dropTemp (go s) d (tenantOf fn) else s.modDom d fun x => { x with held := x.held ++ [h] }

/-- A read of BAR0 of a function. -/
def regRead (s : State) (fn off : Nat) (wide : Bool) : State :=
  if !fnAnswers s fn then noAnswer s fn false
  else if s.boot.recovery ∧ fn = 0 ∧ !answersInRecovery off then readOnes s fn off wide
  else if !accessOk off (if wide then 8 else 4) then ignoreAccess s fn off false
  else onIsland s fn off wide (.regRead fn off wide) (fun s => readNow s fn off wide) fun s => readOnes s fn off wide

/-- REG_READ_LOW_LATCH: a 32-bit read (R5). -/
def execRegReadLowLatch (fn : Fn) (off : Nat) (s : State) : Host.Outcome State Fault Refusal := .next (regRead s fn.val off false)

/-- REG_READ_CLEAR: a read that clears the RC words it returns (R6). -/
def execRegReadClear (fn : Fn) (off : Nat) (wide : Bool) (s : State) : Host.Outcome State Fault Refusal := .next (regRead s fn.val off wide)

/-! ## Writes (R6, R534) -/

/-- A whole register that is one numeric field, clamped (R534). -/
def putClamped (s : State) (k lo hi v : Nat) : State := s.setReg k (w32 (clampTo lo hi v))

/-- GLB_ALERT written: each one clears its pending alert (R59, R130). -/
def alertClear (s : State) (v : Word) : State :=
  s.modPins fun p => { p with alertPending := p.alertPending &&& ~~~(v.truncate 4) }

/-- GLB_ALERT_CLEAR. -/
def execGlbAlertClear (v : Word) (s : State) : Host.Outcome State Fault Refusal := .next (alertClear s v)

/-- The queue that a PF0 doorbell word names gets the write; where DISABLE and RESUME come together DISABLE is first (R271). -/
def dbCtl (s : State) (q v : Nat) : State :=
  let s := if bit v 0 then queueDisableEff s q else s
  if bit v 1 then resumeWrite s q else s

/-- A word of a queue's doorbell written (R269): 0 TAIL, 4 CQHEAD, 8 CTL. -/
def dbWrite (s : State) (fn idx off v : Nat) : State :=
  onDoorbell s fn idx fun s q => if off = 0 then tailWrite s q v else if off = 4 then cqHeadWrite s q v else if off = 8 then dbCtl s q v else s

/-- A word of a mailbox written (R153-R155). -/
def mbWrite (s : State) (mb off : Nat) (v : Word) : State :=
  if off < 0x1000 then s.modMb mb fun m => { m with req := m.req.set (fun _ => 0#32) (off / 4) v }
  else if off = 0x2000 then (if v.getLsbD 1 then cancelEff s mb else if v.getLsbD 0 then ringEff s mb else s)
  else if off = 0x2008 then s.modMb mb fun m => { m with err := m.err &&& ~~~(v.truncate 2) }
  else s

/-- A tenant's TAL_ block written (R368, R370, R377, R480). -/
def talWrite (s : State) (t off v : Nat) : State :=
  if s.followed t then s
  else if off = 8 then noteTally (ackWrite s t v) t
  else if off = 0x20 then failRearm s t v
  else s

/-- A word of an MSI-X table written (PCI Express Base Specification): address, data, and the mask bit of Vector Control, which sends a pending message when it clears (R185). -/
def msixWrite (s : State) (fn off : Nat) (v : Word) : State :=
  let e := off / 16
  let put := fun (g : Vec → Vec) => s.modFn fn fun f => { f with vecs := f.vecs.set vecInit e (g (vec f e)) }
  if off % 16 = 0 then put fun x => { x with addr := BitVec.ofNat 64 (x.addr.toNat / 2 ^ 32 * 2 ^ 32 + v.toNat / 4 * 4) }
  else if off % 16 = 4 then put fun x => { x with addr := BitVec.ofNat 64 (x.addr.toNat % 2 ^ 32 + v.toNat * 2 ^ 32) }
  else if off % 16 = 8 then put fun x => { x with data := v }
  else if v.getLsbD 0 then put fun x => { x with mask := true }
  else if (vec (s.fn fn) e).mask then unmaskEff s fn (some e) else s

/-- PF0 writes a route, or a notify route, of a dissolved pair: it is active again (R497). -/
def reactivate (s : State) (k : Nat) : State := s.modTwin fun w => { w with inactive := w.inactive.filter fun n => decide (n ≠ k) }

/-- A word of a port's block written (R311, R315, R317, R328). -/
def portWrite (s : State) (p off : Nat) (v : Word) : State :=
  let n := v.toNat
  let k := paReg p off
  match off with
  | 0x04 => s.setReg k (w32 (n &&& 0xF7 ||| 256 * clampTo 1 255 (bits n 15 8)))
  | 0x08 => putClamped s k 4 65535 (n % 65536)
  | 0x0C => putClamped s k 100 1000000 n
  | 0x10 => s.setReg k (w32 (n % 2 + 256 * clampTo 1 60000 (bits n 23 8)))
  | 0x14 => putClamped s k 1 255 (n % 256)
  | 0x18 => putClamped s k 200 10000 n
  | 0x1C => if bit n 0 then sysresetGo s p else s
  | 0x180 => s.setReg k (v &&& 0x0000FF07#32)
  | 0x184 => s.setReg k v
  | 0x188 =>
    let s := if bit n 0 then irqiRaiseEff s p else s
    if bit n 1 then irqiDropEff s p else s
  | _ =>
    if 0x100 ≤ off ∧ off < 0x180 then
      let l := (off - 0x100) / 16
      if off % 16 = 0 then reactivate (s.setReg k (v &&& 0x03FF7F01#32)) (32 + 8 * p + l)
      else if off % 16 = 8 then rirqClear s 0 p l v
      else s
    else s

/-- A word of the lane, link and ULI_ blocks written (R433, R462). -/
def linkWrite (s : State) (off : Nat) (v : Word) : State :=
  let n := v.toNat
  let key := 0x400000 + off
  if 0x1000 ≤ off ∧ off < 0x1140 then
    if off % 0x40 = 8 then s.setReg key (v &&& 0x33#32)
    else if off % 0x40 = 0xC then s.setReg key (w32 (clampTo 1 1024 (bits n 10 0) + 65536 * clampTo 1 15 (bits n 19 16)))
    else s
  else if 0x2000 ≤ off ∧ off < 0x2500 then
    match off % 0x100 with
    | 0x40 => putClamped s key 10 50000 n
    | 0x44 => putClamped s key 1 1000 n
    | 0x48 => putClamped s key 1000 100000 n
    | 0x4C => putClamped s key 0 1000000 n
    | 0x54 => reactivate (s.setReg key (v &&& 0x00FF7F01#32)) (48 + (off - 0x2000) / 0x100)
    | _ => s
  else s

/-- A word of the global and endpoint blocks written (R130, R189, R201). -/
def glbWrite (s : State) (off : Nat) (v : Word) : State :=
  match off with
  | 0x00C => s.setReg 0xC (clearBits (s.reg 0xC) v)
  | 0x028 => alertClear s v
  | 0x408 => devRelease s v none
  | 0x410 => (List.range 2).foldl (fun s p => if v.getLsbD p then portRelease s p else s) s
  | 0x418 => (List.range 4).foldl (fun s k => if v.getLsbD k then linkRelease s k else s) s
  | 0x42C => tenantRelease s v
  | 0x430 => s.modCont fun c => { c with relErr := c.relErr &&& ~~~(v.truncate 9) }
  | 0x454 => putClamped s 0x454 1 1000 (v.toNat % 1024)
  | _ => s

/-- A 32-bit write of PF0 BAR0 reaches its register. -/
def pf0Write (s : State) (off : Nat) (v : Word) : State :=
  let n := v.toNat
  if off < 0x1000 then glbWrite s off v
  else if off < 0x10000 then s
  else if off < 0x20000 then
    if off = 0x1000C then putClamped s off 0 1000000 n
    else if off = 0x10010 then putClamped s off 10 100000 n
    else if 0x11000 ≤ off ∧ off < 0x12200 ∧ off % 0x100 = 4 then domRelease s ((off - 0x11000) / 0x100) n
    else s
  else if off < 0x24000 then mbWrite s 0 (off - 0x20000) v
  else if off < 0x40000 then s
  else if off < 0x80000 then
    if off < 0x42000 then (if off % 32 < 0x18 then shadowWrite s ((off - 0x40000) / 32) (off % 32 / 4) v else s)
    else if off = 0x42000 then winCommitWrite s n
    else if off = 0x42008 then s.setReg off (clearBits (s.reg off) v)
    else if off = 0x4200C then putClamped s off 100 50000 n
    else if off = 0x42010 ∨ off = 0x42014 then putClamped s off 10 100000 n
    else s
  else if off < 0x100000 then s
  else if off < 0x180000 then
    (if 0xF0 ≤ off % 0x100 ∧ off % 0x100 < 0xFC then dbWrite s 0 ((off - 0x100000) / 0x100) (off % 0x100 - 0xF0) n else s)
  else if off < 0x1C0000 then
    if 0x184000 ≤ off ∧ off < 0x184800 ∧ off % 0x100 = 0x14 then s.setReg off (v &&& 3#32)
    else if off = 0x188000 then s.setReg off (w32 (clampTo 1 255 (n % 256) + 256 * clampTo 1 8 (bits n 11 8) + 65536 * b2n (bit n 16)))
    else s
  else if off < 0x200000 then
    if off = 0x1C0000 ∨ off = 0x1C0100 then putClamped s off 1 10000 n
    else if 0x1C1000 ≤ off ∧ off < 0x1C2040 then talWrite s ((off - 0x1C1000) / 0x40) (off % 0x40) n
    else s
  else if off < 0x300000 then portWrite s (if off < 0x280000 then 0 else 1) (off % 0x80000) v
  else if off < 0x400000 then
    if off = 0x300800 then harAllowEff s 0 n
    else if off = 0x300804 then harAllowEff s 1 n
    else if 0x300810 ≤ off ∧ off < 0x300820 then harAllowEff s (2 + (off - 0x300810) / 4) n
    else s
  else if off < 0x500000 then linkWrite s (off - 0x400000) v
  else if off = 0x50003C then putClamped s off 10 1000 n
  else if off = 0x500040 then putClamped s off 2 100 n
  else if off = 0x500044 then putClamped s off (2 * (s.reg 0x500040).toNat) 1000 n
  else if off = 0x58001C then s.setReg off v
  else if off = 0x580020 then s.setReg off (v &&& 0xFFFF#32)
  else s

/-- A 32-bit write of VF BAR0 reaches its register (R529). -/
def vfWrite (s : State) (fn off : Nat) (v : Word) : State :=
  if off < 0x4000 then dbWrite s fn (off / 16) (off % 16) v.toNat
  else if off < 0x8000 then mbWrite s (tenantOf fn) (off - 0x4000) v
  else if 0x8200 ≤ off ∧ off < 0x8280 ∧ off % 8 = 4 then rirqClear s fn ((off - 0x8200) / 0x40) (off % 0x40 / 8) v
  else if 0x8300 ≤ off ∧ off < 0x8340 then talWrite s (tenantOf fn) (off - 0x8300) v.toNat
  else if 0xC000 ≤ off ∧ off < 0xC200 then msixWrite s fn (off - 0xC000) v
  else s

/-- A 32-bit write of BAR0 of a function. PF1 BAR0 holds no register that takes a write (R179). -/
def writeWord (s : State) (fn off : Nat) (v : Word) : State :=
  if fn = 0 then pf0Write s off v else if fn = 1 then s else vfWrite s fn off v

/-- A write that its island takes: a 64-bit one writes both words, the low one first. -/
def writeNow (s : State) (fn off : Nat) (wide : Bool) (v : DWord) : State :=
  let s := writeWord s fn off (v.truncate 32)
  if wide then writeWord s fn (off + 4) (w32 (v.toNat / 2 ^ 32)) else s

/-- A write of BAR0 of a function. -/
def regWriteBar0 (s : State) (fn off : Nat) (wide : Bool) (v : DWord) : State :=
  if !fnAnswers s fn then noAnswer s fn true
  else if s.boot.recovery ∧ fn = 0 ∧ !answersInRecovery off then s
  else if !accessOk off (if wide then 8 else 4) then ignoreAccess s fn off true
  else onIsland s fn off wide (.regWrite fn off wide v) (fun s => writeNow s fn off wide v) id

/-- A write of PF0 BAR4 (R530). -/
def regWriteBar4 (s : State) (fn off : Nat) (wide : Bool) (v : DWord) : State :=
  if !fnAnswers s fn then noAnswer s fn true
  else if !accessOk off (if wide then 8 else 4) then ignoreAccess s fn off true
  else if fn = 0 ∧ off < 0x1000 then
    let s := msixWrite s 0 off (v.truncate 32)
    if wide then msixWrite s 0 (off + 4) (w32 (v.toNat / 2 ^ 32)) else s
  else s

/-! ## Configuration space (R172-R191) -/

/-- Configuration requests are answered: step 8 of R116 with the host link up, and the function exists outside an FLR. In recovery PF0 alone exists (R120). -/
def cfgAnswers (s : State) (fn : Nat) : Bool :=
  decide (s.ep.link = .l0 ∧ 8 ≤ s.boot.step) && fnEnabled s fn && !(s.fn fn).flr && (decide (fn = 0) || !s.boot.recovery)

/-- A half of a BAR written: the low word keeps the type bits 0xF of a 64-bit BAR apart. -/
def putBar (t : Tbl Word) (i : Nat) (v : Word) : Tbl Word := t.set (fun _ => 0#32) i v

/-- Bus Master Enable set or cleared: messages that were pending for it leave (R185). -/
def setMaster (s : State) (fn : Nat) (on : Bool) : State :=
  let s := s.modFn fn fun f => { f with busMaster := on }
  if on ∧ !(s.fn fn).d3hot then sendPending s fn else s

/-- A register of a function's configuration space written. What the function does not have is ignored. -/
def cfgWrite (s : State) (fn : Nat) (r : CfgReg) (v : Nat) : State :=
  let f := fun (g : FnState → FnState) => s.modFn fn g
  let flush := fun (s : State) => if (s.fn fn).d3hot then s else sendPending s fn
  match r with
  | .memSpace => f fun x => { x with memSpace := bit v 0 }
  | .busMaster => setMaster s fn (bit v 0)
  | .extTag => f fun x => { x with extTag := bit v 0 }
  | .tenBitTag => f fun x => { x with tenBit := bit v 0 }
  | .cplTimeout => f fun x => { x with cto := v % 16 }
  | .ptmEnable => if fn = 0 then f fun x => { x with ptmEnable := bit v 0 } else s
  | .pmeEn =>
    if fn = 0 then
      let s := f fun x => { x with pmeEn := bit v 0 }
      if bit v 0 ∧ (s.fn 0).pmeStatus ∧ s.ep.link = .l0 then s.emit .pmePm else s
    else s
  | .pmeStatus => if bit v 0 then f fun x => { x with pmeStatus := false } else s
  | .ariHier => if fn = 1 ∧ !s.ep.vfEnable then s.modEp fun e => { e with ari := bit v 0 } else s
  | .numVfs => if fn = 1 ∧ !s.ep.vfEnable ∧ v ≤ 64 then s.modEp fun e => { e with numVfs := v } else s
  | .uncorrSeverity => f fun x => { x with severity := w32 v }
  | .msixEnable => flush (f fun x => { x with msixEnable := bit v 0 })
  | .msixFnMask => if bit v 0 then f fun x => { x with fnMask := true } else unmaskEff s fn none
  | .msiEnable => if fn = 0 then flush (f fun x => { x with msiEnable := bit v 0 }) else s
  | .msiMessages => if fn = 0 then f fun x => { x with msiMsgs := 2 ^ min 5 v } else s
  | .msiMask => if fn = 0 then flush (f fun x => { x with msiMask := w32 v }) else s
  | .maxReadReq => f fun x => { x with mrrs := 128 * 2 ^ min 5 v }
  | .barLo i => f fun x => { x with bars := putBar x.bars (2 * i.val) (w32 v) }
  | .barHi i => f fun x => { x with bars := putBar x.bars (2 * i.val + 1) (w32 v) }
  | .vfBarLo i => if fn = 1 then s.modEp fun e => { e with vfBars := putBar e.vfBars (2 * i.val) (w32 v) } else s
  | .vfBarHi i => if fn = 1 then s.modEp fun e => { e with vfBars := putBar e.vfBars (2 * i.val + 1) (w32 v) } else s

/-- A configuration write. -/
def regWriteCfg (s : State) (fn : Nat) (r : CfgReg) (v : DWord) : State :=
  if cfgAnswers s fn then cfgWrite s fn r (v.toNat % 2 ^ 32) else s

/-- REG_WRITE (R6, R526, R534). -/
def execRegWrite (fn : Fn) (sp : RegSpace) (wide : Bool) (v : DWord) (s : State) : Host.Outcome State Fault Refusal :=
  .next (match sp with
    | .bar0 off => regWriteBar0 s fn.val off wide v
    | .bar4 off => regWriteBar4 s fn.val off wide v
    | .cfg r => regWriteCfg s fn.val r v)

end Sys2Proof.Machine
end

