-- ==== Sys2Proof/Machine/PowerRows.lean ====
section
/-! DEFINITION. The ends of a wake, and the forced power-down (R95-R98, R325, R509). -/

namespace Sys2Proof.Machine

/-! ## A wake ends (R96, R98, R509) -/

/-- A held access goes on once its domain is ON (R96). -/
def heldGo (s : State) (d : Nat) (h : HeldAcc) : State :=
  match h with
  | .acc a => sendAcc s a
  | .regWrite fn off wide v => dropTemp (writeNow s fn off wide v) d (tenantOf fn)
  | .regRead fn off wide => dropTemp (readNow s fn off wide) d (tenantOf fn)
  | .debug w addr space write => debugRun s w addr space write

/-- An island marked failed has come up: the mark goes, and it serves as the configuration image names (R509). -/
def islandBack (s : State) (d : Nat) : State :=
  let s := (s.modMram fun m => { m with islandFailed := m.islandFailed.filter fun e => decide (e ≠ d) }).raise
    { code := Ev.islandRestored, src := srcSalt, data := leBytes 2 d }
  if d < 12 then s.modBed (d - 4) fun x => { x with lost := false }
  else if d < 14 then portAtBoot s (d - 12)
  else if d = 14 then (List.range 4).foldl (fun s k => if (imgLink s k).inService ∧ !(imgLink s k).absent then linkStart s k else s) s
  else bootTwin (if (imgLink s 4).inService ∧ !(imgLink s 4).absent then linkStart s 4 else s)

/-- The domain is ON (R96 step 4): a soft request that waited for it drains it, else it is idle or voted; the held accesses proceed in order of arrival. -/
def wakeDone (s : State) (d : Nat) : State :=
  let x := s.dom d
  if x.st ≠ .waking ∨ d ∈ s.pwr.ramp then s
  else
    let lim := us (clampTo 10 100000 (s.reg 0x10010).toNat)
    let s := s.modDom d fun x => { x with
      st := if x.drainWait then .draining else .on, until_ := if x.drainWait then s.now + lim else x.until_
      drainWait := false, reason := 0, held := [] }
    let s := s.incReg (domReg d 0x20)
    let s := if d ∈ s.mram.islandFailed then islandBack s d else s
    checkIdle (x.held.foldl (fun s h => heldGo s d h) s) d

/-- ISLAND_WAKE_DONE (R96). -/
def execIslandWakeDone (d : Fin 18) (s : State) : Host.Outcome State Fault Refusal := .next (wakeDone s d.val)

/-- A held access ends because its domain did not come up, or was forced down, with a CS (R95, R98). -/
def heldEnd (s : State) (cs : Nat) (h : HeldAcc) : State :=
  match h with
  | .acc a => failAcc s a cs (accFirst a) 0 none
  | .regWrite _ _ _ _ => s
  | .regRead fn off wide => if cs = Cs.islandAbsent then readOnes s fn off wide else (s.emit (.aer fn 1)).emit (.hostCpl fn 0 .ca cs [])
  | .debug _ _ _ write => if write.isSome then s else if cs = Cs.islandAbsent then s.emit (.dbgData 0xFFFFFFFF#32) else s.emit .dbgErr

/-- A link in service is contained because SL did not come up (R459 cause 3). -/
def linkIslandFail (s : State) (k : Nat) : State :=
  (enterLink (lanesOff s k) k 3 0).modLink k fun l => { noSession l with st := .contained }

/-- What R98 and R509 do to what an island serves, on its first failure. -/
def islandLost (s : State) (d : Nat) : State :=
  if d < 12 then bedLost s (d - 4)
  else if d < 14 then (if (s.port (d - 12)).st = .inService ∨ (s.port (d - 12)).st = .stopping then enterPort s (d - 12) 6 else s)
  else if d = 14 then ((List.range 4).filter fun k => linkServes s k).foldl linkIslandFail s
  else twinSessionLost s

/-- What a second failure, at step 9 of a power-on reset, leaves (R509): a present port contained, the links that the image names in service contained. -/
def islandStillLost (s : State) (d : Nat) : State :=
  if d < 12 then s
  else if d < 14 then (if (s.port (d - 12)).st = .absent ∨ (imgPort s (d - 12)).absent then s else enterPort s (d - 12) 6)
  else if d = 14 then ((List.range 4).filter fun k => (imgLink s k).inService && !(imgLink s k).absent).foldl linkIslandFail s
  else s

/-- A wake fails (R98): held accesses end, the domain is RETIRED and marked, one record. -/
def wakeFail (s : State) (d : Nat) : State :=
  let x := s.dom d
  if x.st ≠ .waking then s
  else
    let was := decide (d ∈ s.mram.islandFailed)
    let s := (retireDomain (s.atTime x.until_) d).modDom d fun x => { x with held := [], temp := [], drainMb := none, drainWait := false }
    let s := x.held.foldl (fun s h => heldEnd s Cs.islandAbsent h) s
    let s := match x.drainMb with
      | some m => done s m []
      | none => s
    let s := s.raise { code := Ev.islandWakeFail, src := srcSalt, data := leBytes 2 d }
    if was then islandStillLost s d else islandLost s d

/-- ISLAND_WAKE_FAIL (R98). -/
def execIslandWakeFail (d : Fin 18) (s : State) : Host.Outcome State Fault Refusal := .next (wakeFail s d.val)

/-! ## Forced power-down (R95) -/

/-- An unstarted segment of a bed that is forced down is raked to the next bed upward whose island is not DISABLED; a pinned or cancelled one, or one that finds no slot, goes back to the front end (R95). -/
def rakeAway (s : State) (k : Nat) : State :=
  let x := s.slot k
  if x.pinned ∨ x.cancelled then unpush s k
  else match pushBed s (slotBed k) with
    | none => unpush s k
    | some b => match pushPos s (s.q x.queue) b false with
      | none => unpush s k
      | some i => match freeSlotOf s b i with
        | none => unpush s k
        | some k' =>
          let s := (s.addReg (panReg (servingPan s k') 0x10) 0x10000).incReg (panReg (servingPan s k) 0x14)
          moveSlot ((s.incReg (0x18400C + 0x100 * b)).incReg (0x184010 + 0x100 * slotBed k)) k k'

/-- A started segment of the bed ends ABORT_POWER, without a record of its own (R95). -/
def abortStarted (s : State) (k : Nat) : State :=
  let x := s.slot k
  let d := getDesc s x.queue x.uid
  let s := emptySlot (segClose (quitSlot s k (some Cs.abortPower)) k) k
  match d with
  | some d => segFault s x.queue x.uid x.off Cs.abortPower 0 (segResidual d x Cs.abortPower 0)
  | none => s

/-- A bed forced down, with the number of transfers aborted (R95). -/
def forceBed (s : State) (b : Nat) : Nat × State :=
  let here := (busySlots s).filter fun k => decide (slotBed k = b)
  let started := here.filter fun k => (s.slot k).started
  let s := dropRakes s b
  let s := (here.filter fun k => !(s.slot k).started).foldl rakeAway s
  (started.length, started.foldl abortStarted s)

/-- A port forced down: its cycles and accesses end as on entry to containment, rack-master reads with bus error, and it is out of service (R95, R325, R533). -/
def forcePort (s : State) (p : Nat) : Nat × State :=
  let (n, s) := endPortAccs s p Cs.abortPower
  let held := b2n (s.port p).held.isSome
  let s := endHeldRack s p Cs.abortPower none
  let open_ := (List.range 8).filter fun k => let d := Tbl.get dtInit (s.port p).dt k; d.used && d.data.isNone && decide (d.err = 0)
  let s := open_.foldl (fun s k => endDtSlot s p k Cs.abortPower) s
  let s := endPortService (releaseBus s p) p Cs.abortPower
  (n + held + open_.length, s.modPort p fun q => { q with st := if q.st = .absent then .absent else .outOfService, grant := none })

/-- The commands that wait on a link end with a CS. -/
def endLinkCmds (s : State) (k cs : Nat) : State :=
  let l := s.link k
  let s := s.modLink k fun l => { l with svcMb := none, stopMb := none, retrainMb := none, loopMb := none }
  [l.svcMb, l.stopMb, l.retrainMb, l.loopMb].foldl (fun s m => match m with
    | some mb => ran s mb cs []
    | none => s) s

/-- A link forced down: its traffic ends ABORT_POWER with no LINK_DOWN record and no containment, and it is out of service without CLOSE (R95, R458). -/
def forceLink (s : State) (k : Nat) : Nat × State :=
  if (s.link k).st = .absent then (0, s)
  else
    let (counts, s) := endLinkAccs s k Cs.abortPower
    let s := endLinkCmds s k Cs.abortPower
    ((counts.take 4).sum, if (s.link k).st = .outOfService then lanesOff (s.modLink k fun l => { l with loopMode := 0, loopMask := 0 }) k
      else linkOff s k)

/-- What a domain serves is forced down, with the number of transfers aborted (R95 steps 2 and 5). -/
def forceServed (s : State) (d : Nat) : Nat × State :=
  if d < 12 then forceBed s (d - 4)
  else if d < 14 then forcePort s (d - 12)
  else if d = 14 then (List.range 4).foldl (fun (acc : Nat × State) k => let (n, s) := forceLink acc.2 k; (acc.1 + n, s)) (0, s)
  else
    let (n, s) := forceLink s 4
    (n, twinSessionLost s)

/-- The forced power-down of a domain (R95). -/
def forcedDown (s : State) (mb d : Nat) : State :=
  let s := refreshDom s d
  let x := s.dom d
  let s := (s.modDom d fun x => { x with votes := [], temp := [] }).modDbg fun g => { g with votes := g.votes.filter fun e => decide (e ≠ d) }
  if x.st = .disabled then done s mb []
  else
    let s := (s.modDom d fun x => { x with st := .disabled, reason := 3, held := [], drainMb := none, drainWait := false }).modPwr
      fun p => { p with ramp := p.ramp.filter fun e => decide (e ≠ d) }
    let s := match x.drainMb with
      | some m => done s m []
      | none => s
    let s := x.held.foldl (fun s h => heldEnd s Cs.abortPower h) s
    let (n, s) := forceServed s d
    done (s.raise { code := Ev.islandForcedDown, src := srcSalt, data := leBytes 4 d ++ leBytes 4 (x.held.length + n) }) mb []

/-- PWR_DOWN_FORCED: PWR_DOWN with FORCE (R95). -/
def execPwrDownForced (s : State) : Host.Outcome State Fault Refusal :=
  runCmd 0x0801 s fun s mb c => if bit c.flags 8 then forcedDown s mb (wordAt c.payload 0) else s

end Sys2Proof.Machine
end

