-- ==== Sys2Proof/Machine/Dispatch.lean ====
section
/-! DEFINITION. The dispatch of commands to their meanings: one arm per constructor of `Instr`, in the table's order. -/

namespace Sys2Proof.Machine

/-- The effect of a command on everything but the queue (spec/95: each row is whole and indivisible). -/
def exec (i : Instr) (s : State) : Host.Outcome State Fault Refusal :=
  match i with
  | .regAccessIgnored fn off size isWrite => Sys2Proof.Machine.execRegAccessIgnored fn off size isWrite s
  | .regReadLowLatch fn off => Sys2Proof.Machine.execRegReadLowLatch fn off s
  | .regReadClear fn off wide => Sys2Proof.Machine.execRegReadClear fn off wide s
  | .regWrite fn sp wide v => Sys2Proof.Machine.execRegWrite fn sp wide v s
  | .glbAlertClear v => Sys2Proof.Machine.execGlbAlertClear v s
  | .hostPostedWrite fn off data be => Sys2Proof.Machine.execHostPostedWrite fn off data be s
  | .stagedWriteTicket t => Sys2Proof.Machine.execStagedWriteTicket t s
  | .hostRead fn rid off be => Sys2Proof.Machine.execHostRead fn rid off be s
  | .heldReadAdmit uid => Sys2Proof.Machine.execHeldReadAdmit uid s
  | .heldReadComplete uid loop => Sys2Proof.Machine.execHeldReadComplete uid loop s
  | .holdLimitExpire uid => Sys2Proof.Machine.execHoldLimitExpire uid s
  | .poisonReceived fn addr => Sys2Proof.Machine.execPoisonReceived fn addr s
  | .hostLinkCorrectable kind => Sys2Proof.Machine.execHostLinkCorrectable kind s
  | .hostFatal kind => Sys2Proof.Machine.execHostFatal kind s
  | .sramCorrected macroIdx row => Sys2Proof.Machine.execSramCorrected macroIdx row s
  | .sramUncorr owner => Sys2Proof.Machine.execSramUncorr owner s
  | .surpriseLinkDown => Sys2Proof.Machine.execSurpriseLinkDown s
  | .hostLinkTrained => Sys2Proof.Machine.execHostLinkTrained s
  | .hostReadTimeout fn tag => Sys2Proof.Machine.execHostReadTimeout fn tag s
  | .lateCompletion fn tag => Sys2Proof.Machine.execLateCompletion fn tag s
  | .tagQuarantineExpire fn tag => Sys2Proof.Machine.execTagQuarantineExpire fn tag s
  | .rbarSizeWrite size => Sys2Proof.Machine.execRbarSizeWrite size s
  | .vfEnableSet => Sys2Proof.Machine.execVfEnableSet s
  | .vfDisable => Sys2Proof.Machine.execVfDisable s
  | .flrInitiate fn => Sys2Proof.Machine.execFlrInitiate fn s
  | .flrCycleCut p => Sys2Proof.Machine.execFlrCycleCut p s
  | .flrComplete fn => Sys2Proof.Machine.execFlrComplete fn s
  | .pmD3hotEnter fn => Sys2Proof.Machine.execPmD3hotEnter fn s
  | .pmD0Return fn => Sys2Proof.Machine.execPmD0Return fn s
  | .pmeTurnOff => Sys2Proof.Machine.execPmeTurnOff s
  | .hostLinkL2 => Sys2Proof.Machine.execHostLinkL2 s
  | .ltrSend => Sys2Proof.Machine.execLtrSend s
  | .ptmExchange master => Sys2Proof.Machine.execPtmExchange master s
  | .ptmExchangeFail => Sys2Proof.Machine.execPtmExchangeFail s
  | .msixUnmask fn entry => Sys2Proof.Machine.execMsixUnmask fn entry s
  | .deviceContainRelease v cut => Sys2Proof.Machine.execDeviceContainRelease v cut s
  | .portContainRelease v => Sys2Proof.Machine.execPortContainRelease v s
  | .linkContainRelease v => Sys2Proof.Machine.execLinkContainRelease v s
  | .tenantContainRelease v => Sys2Proof.Machine.execTenantContainRelease v s
  | .winShadowWrite w word v => Sys2Proof.Machine.execWinShadowWrite w word v s
  | .winCommit v => Sys2Proof.Machine.execWinCommit v s
  | .winCommitDone => Sys2Proof.Machine.execWinCommitDone s
  | .rackMasterRead p addr space width be block => Sys2Proof.Machine.execRackMasterRead p addr space width be block s
  | .rackMasterReadCompletion p slot res => Sys2Proof.Machine.execRackMasterReadCompletion p slot res s
  | .dtRetry p addr space width be => Sys2Proof.Machine.execDtRetry p addr space width be s
  | .delayedDiscard p slot => Sys2Proof.Machine.execDelayedDiscard p slot s
  | .inboundAbandoned p => Sys2Proof.Machine.execInboundAbandoned p s
  | .rackMasterWrite p addr space data be => Sys2Proof.Machine.execRackMasterWrite p addr space data be s
  | .rackMasterRmw p addr space old new => Sys2Proof.Machine.execRackMasterRmw p addr space old new s
  | .hrdDoorbellRing mb => Sys2Proof.Machine.execHrdDoorbellRing mb s
  | .hrdDoorbellCancel mb withRing => Sys2Proof.Machine.execHrdDoorbellCancel mb withRing s
  | .commandDispatch => Sys2Proof.Machine.execCommandDispatch s
  | .lockoutExpire t => Sys2Proof.Machine.execLockoutExpire t s
  | .nop => Sys2Proof.Machine.execNop s
  | .infoVersion => Sys2Proof.Machine.execInfoVersion s
  | .infoIdentity => Sys2Proof.Machine.execInfoIdentity s
  | .infoStatus => Sys2Proof.Machine.execInfoStatus s
  | .infoCaps => Sys2Proof.Machine.execInfoCaps s
  | .deviceReset => Sys2Proof.Machine.execDeviceReset s
  | .imageBegin => Sys2Proof.Machine.execImageBegin s
  | .imageChunk => Sys2Proof.Machine.execImageChunk s
  | .imageCommit => Sys2Proof.Machine.execImageCommit s
  | .imageConfirm => Sys2Proof.Machine.execImageConfirm s
  | .imageRead => Sys2Proof.Machine.execImageRead s
  | .winSet => Sys2Proof.Machine.execWinSet s
  | .winGet => Sys2Proof.Machine.execWinGet s
  | .winClear => Sys2Proof.Machine.execWinClear s
  | .weirRegionSet => Sys2Proof.Machine.execWeirRegionSet s
  | .weirRegionGet => Sys2Proof.Machine.execWeirRegionGet s
  | .weirDefaultSet => Sys2Proof.Machine.execWeirDefaultSet s
  | .weirRegionLock => Sys2Proof.Machine.execWeirRegionLock s
  | .queueCreate => Sys2Proof.Machine.execQueueCreate s
  | .queueDestroy => Sys2Proof.Machine.execQueueDestroy s
  | .queueReset => Sys2Proof.Machine.execQueueReset s
  | .queueGet => Sys2Proof.Machine.execQueueGet s
  | .settleFence => Sys2Proof.Machine.execSettleFence s
  | .settleFenceEnd fence => Sys2Proof.Machine.execSettleFenceEnd fence s
  | .fenceExpired fence => Sys2Proof.Machine.execFenceExpired fence s
  | .tallyQuotaSet => Sys2Proof.Machine.execTallyQuotaSet s
  | .portServiceIn => Sys2Proof.Machine.execPortServiceIn s
  | .portServiceOut => Sys2Proof.Machine.execPortServiceOut s
  | .portSlaveSet => Sys2Proof.Machine.execPortSlaveSet s
  | .profileGet => Sys2Proof.Machine.execProfileGet s
  | .profileSet => Sys2Proof.Machine.execProfileSet s
  | .profileClear => Sys2Proof.Machine.execProfileClear s
  | .harvestCreate => Sys2Proof.Machine.execHarvestCreate s
  | .harvestPoints => Sys2Proof.Machine.execHarvestPoints s
  | .harvestStart => Sys2Proof.Machine.execHarvestStart s
  | .harvestStop => Sys2Proof.Machine.execHarvestStop s
  | .harvestStopFree => Sys2Proof.Machine.execHarvestStopFree s
  | .harvestGet => Sys2Proof.Machine.execHarvestGet s
  | .floodCreate => Sys2Proof.Machine.execFloodCreate s
  | .routeSet => Sys2Proof.Machine.execRouteSet s
  | .linkServiceIn => Sys2Proof.Machine.execLinkServiceIn s
  | .linkServiceOut => Sys2Proof.Machine.execLinkServiceOut s
  | .linkStatus => Sys2Proof.Machine.execLinkStatus s
  | .linkLoop => Sys2Proof.Machine.execLinkLoop s
  | .loopDurationExpire k errors bits locked => Sys2Proof.Machine.execLoopDurationExpire k errors bits locked s
  | .laneEyeScan => Sys2Proof.Machine.execLaneEyeScan s
  | .eyeScanDone n left right upper lower bits => Sys2Proof.Machine.execEyeScanDone n left right upper lower bits s
  | .linkRetrain => Sys2Proof.Machine.execLinkRetrain s
  | .pwrVoteRaise => Sys2Proof.Machine.execPwrVoteRaise s
  | .pwrVoteWithdraw => Sys2Proof.Machine.execPwrVoteWithdraw s
  | .pwrDownSoft => Sys2Proof.Machine.execPwrDownSoft s
  | .pwrDownForced => Sys2Proof.Machine.execPwrDownForced s
  | .drainEnd d => Sys2Proof.Machine.execDrainEnd d s
  | .drainLimitExpire d => Sys2Proof.Machine.execDrainLimitExpire d s
  | .holdoffExpire d => Sys2Proof.Machine.execHoldoffExpire d s
  | .rampSlotStart => Sys2Proof.Machine.execRampSlotStart s
  | .islandWakeDone d => Sys2Proof.Machine.execIslandWakeDone d s
  | .islandWakeFail d => Sys2Proof.Machine.execIslandWakeFail d s
  | .pwrDomRelease d v => Sys2Proof.Machine.execPwrDomRelease d v s
  | .tideArm => Sys2Proof.Machine.execTideArm s
  | .tideDisarm => Sys2Proof.Machine.execTideDisarm s
  | .tempWarnSet => Sys2Proof.Machine.execTempWarnSet s
  | .tideEnter => Sys2Proof.Machine.execTideEnter s
  | .tideSamplePeriod samples perstRises => Sys2Proof.Machine.execTideSamplePeriod samples perstRises s
  | .tideExitPerst => Sys2Proof.Machine.execTideExitPerst s
  | .powerOnReset testEn smbAddr tornHead => Sys2Proof.Machine.execPowerOnReset testEn smbAddr tornHead s
  | .bootCfgspaceReady => Sys2Proof.Machine.execBootCfgspaceReady s
  | .bootServiceReady => Sys2Proof.Machine.execBootServiceReady s
  | .porstFall => Sys2Proof.Machine.execPorstFall s
  | .internalResetEnter n mv => Sys2Proof.Machine.execInternalResetEnter n mv s
  | .perstFall => Sys2Proof.Machine.execPerstFall s
  | .perstRise => Sys2Proof.Machine.execPerstRise s
  | .hotResetReceived => Sys2Proof.Machine.execHotResetReceived s
  | .watchdogExpire => Sys2Proof.Machine.execWatchdogExpire s
  | .supplyWarn n mv => Sys2Proof.Machine.execSupplyWarn n mv s
  | .supplyFault n mv => Sys2Proof.Machine.execSupplyFault n mv s
  | .portBankPower p b mv => Sys2Proof.Machine.execPortBankPower p b mv s
  | .bankSupplyValid p mv => Sys2Proof.Machine.execBankSupplyValid p mv s
  | .tempWarn t => Sys2Proof.Machine.execTempWarn t s
  | .thermShutdown t => Sys2Proof.Machine.execThermShutdown t s
  | .smbReadStatus => Sys2Proof.Machine.execSmbReadStatus s
  | .smbReadTemp => Sys2Proof.Machine.execSmbReadTemp s
  | .smbReadVcore => Sys2Proof.Machine.execSmbReadVcore s
  | .smbWriteAlertMask v => Sys2Proof.Machine.execSmbWriteAlertMask v s
  | .smbReadUid => Sys2Proof.Machine.execSmbReadUid s
  | .smbReadFokNewest => Sys2Proof.Machine.execSmbReadFokNewest s
  | .smbReadFokOlder => Sys2Proof.Machine.execSmbReadFokOlder s
  | .smbUnknownCommand code => Sys2Proof.Machine.execSmbUnknownCommand code s
  | .smbAlertResponse => Sys2Proof.Machine.execSmbAlertResponse s
  | .bscanTakeover x => Sys2Proof.Machine.execBscanTakeover x s
  | .ownerKeyInstall => Sys2Proof.Machine.execOwnerKeyInstall s
  | .keySet => Sys2Proof.Machine.execKeySet s
  | .keySetErase => Sys2Proof.Machine.execKeySetErase s
  | .lcyAdvance => Sys2Proof.Machine.execLcyAdvance s
  | .lcyReturn => Sys2Proof.Machine.execLcyReturn s
  | .debugUnlock => Sys2Proof.Machine.execDebugUnlock s
  | .debugLock => Sys2Proof.Machine.execDebugLock s
  | .debugUnlockExpire => Sys2Proof.Machine.execDebugUnlockExpire s
  | .debugAccess weir addr space write => Sys2Proof.Machine.execDebugAccess weir addr space write s
  | .twinStatus => Sys2Proof.Machine.execTwinStatus s
  | .twinForm => Sys2Proof.Machine.execTwinForm s
  | .twinFormTimeout => Sys2Proof.Machine.execTwinFormTimeout s
  | .twinDissolve => Sys2Proof.Machine.execTwinDissolve s
  | .twinRoleSet => Sys2Proof.Machine.execTwinRoleSet s
  | .spareStatus => Sys2Proof.Machine.execSpareStatus s
  | .spareBoundsSet => Sys2Proof.Machine.execSpareBoundsSet s
  | .spareRetireNow => Sys2Proof.Machine.execSpareRetireNow s
  | .spareForbid => Sys2Proof.Machine.execSpareForbid s
  | .spareAllow => Sys2Proof.Machine.execSpareAllow s
  | .wearGet => Sys2Proof.Machine.execWearGet s
  | .logRead => Sys2Proof.Machine.execLogRead s
  | .logFokRead => Sys2Proof.Machine.execLogFokRead s
  | .logMark => Sys2Proof.Machine.execLogMark s
  | .doorbellTail fn idx v => Sys2Proof.Machine.execDoorbellTail fn idx v s
  | .doorbellCqhead fn idx v => Sys2Proof.Machine.execDoorbellCqhead fn idx v s
  | .queueDisable fn idx => Sys2Proof.Machine.execQueueDisable fn idx s
  | .queueResume fn idx => Sys2Proof.Machine.execQueueResume fn idx s
  | .descFetchDone q res => Sys2Proof.Machine.execDescFetchDone q res s
  | .segmentPush q => Sys2Proof.Machine.execSegmentPush q s
  | .segmentStart b pos => Sys2Proof.Machine.execSegmentStart b pos s
  | .segmentReadData b pos slot res => Sys2Proof.Machine.execSegmentReadData b pos slot res s
  | .segmentDone b pos slot => Sys2Proof.Machine.execSegmentDone b pos slot s
  | .completionRelease q => Sys2Proof.Machine.execCompletionRelease q s
  | .irqModerationTimer q => Sys2Proof.Machine.execIrqModerationTimer q s
  | .segmentCancel b pos => Sys2Proof.Machine.execSegmentCancel b pos s
  | .rakeAdvertise => Sys2Proof.Machine.execRakeAdvertise s
  | .rakeWithinBed b pos => Sys2Proof.Machine.execRakeWithinBed b pos s
  | .rakeAcrossBeds b pos => Sys2Proof.Machine.execRakeAcrossBeds b pos s
  | .xrakeSegmentsArrive b pos => Sys2Proof.Machine.execXrakeSegmentsArrive b pos s
  | .panFault p => Sys2Proof.Machine.execPanFault p s
  | .panWatchdogExpire p => Sys2Proof.Machine.execPanWatchdogExpire p s
  | .spareSelfTest b pass => Sys2Proof.Machine.execSpareSelfTest b pass s
  | .bedPllUnlock b => Sys2Proof.Machine.execBedPllUnlock b s
  | .masterCycleStart p => Sys2Proof.Machine.execMasterCycleStart p s
  | .busCycleEnd p e => Sys2Proof.Machine.execBusCycleEnd p e s
  | .regionBusTimeout p => Sys2Proof.Machine.execRegionBusTimeout p s
  | .targetRetry p => Sys2Proof.Machine.execTargetRetry p s
  | .retryDelayExpire p => Sys2Proof.Machine.execRetryDelayExpire p s
  | .busGranted p => Sys2Proof.Machine.execBusGranted p s
  | .busReleaseRequest p bclr => Sys2Proof.Machine.execBusReleaseRequest p bclr s
  | .ownLimitExpire p => Sys2Proof.Machine.execOwnLimitExpire p s
  | .arbiterRequest p level => Sys2Proof.Machine.execArbiterRequest p level s
  | .rackArbTimeout p => Sys2Proof.Machine.execRackArbTimeout p s
  | .sysBusTimerExpire p => Sys2Proof.Machine.execSysBusTimerExpire p s
  | .sysresetPulse p => Sys2Proof.Machine.execSysresetPulse p s
  | .sysresetPulseEnd p => Sys2Proof.Machine.execSysresetPulseEnd p s
  | .iackinPass p level => Sys2Proof.Machine.execIackinPass p level s
  | .rackIrqAssert p level e => Sys2Proof.Machine.execRackIrqAssert p level e s
  | .rackIackRetry p level e => Sys2Proof.Machine.execRackIackRetry p level e s
  | .rirqPendingClear fn p level v => Sys2Proof.Machine.execRirqPendingClear fn p level v s
  | .irqiRaise p => Sys2Proof.Machine.execIrqiRaise p s
  | .irqiDrop p => Sys2Proof.Machine.execIrqiDrop p s
  | .irqiAcknowledge p level width => Sys2Proof.Machine.execIrqiAcknowledge p level width s
  | .rackReset p => Sys2Proof.Machine.execRackReset p s
  | .rackResetEnd p => Sys2Proof.Machine.execRackResetEnd p s
  | .stuckLine p line => Sys2Proof.Machine.execStuckLine p line s
  | .noGrant p => Sys2Proof.Machine.execNoGrant p s
  | .sysfailFilterExpire p => Sys2Proof.Machine.execSysfailFilterExpire p s
  | .rackAcfail p => Sys2Proof.Machine.execRackAcfail p s
  | .personalityFault p forbidden line => Sys2Proof.Machine.execPersonalityFault p forbidden line s
  | .liqExpire line => Sys2Proof.Machine.execLiqExpire line s
  | .talAckWrite fn t v => Sys2Proof.Machine.execTalAckWrite fn t v s
  | .talFailRearm fn t v => Sys2Proof.Machine.execTalFailRearm fn t v s
  | .floodSelectorRead n => Sys2Proof.Machine.execFloodSelectorRead n s
  | .floodSelectorDone n res => Sys2Proof.Machine.execFloodSelectorDone n res s
  | .floodOutputReadDone n res => Sys2Proof.Machine.execFloodOutputReadDone n res s
  | .harvestCycleStart n => Sys2Proof.Machine.execHarvestCycleStart n s
  | .harvestPointReturn target => Sys2Proof.Machine.execHarvestPointReturn target s
  | .harvestDeadline n => Sys2Proof.Machine.execHarvestDeadline n s
  | .floodLedgerTimeout target => Sys2Proof.Machine.execFloodLedgerTimeout target s
  | .harAllowWrite idx v => Sys2Proof.Machine.execHarAllowWrite idx v s
  | .receiverDetect k found => Sys2Proof.Machine.execReceiverDetect k found s
  | .laneNoPeer k => Sys2Proof.Machine.execLaneNoPeer k s
  | .laneBitLock n code => Sys2Proof.Machine.execLaneBitLock n code s
  | .laneBlockLock n => Sys2Proof.Machine.execLaneBlockLock n s
  | .trainBlockReceived n phys locked inverted => Sys2Proof.Machine.execTrainBlockReceived n phys locked inverted s
  | .capsReceived k caps => Sys2Proof.Machine.execCapsReceived k caps s
  | .bringupStateTimeout k lane => Sys2Proof.Machine.execBringupStateTimeout k lane s
  | .stirInsert k => Sys2Proof.Machine.execStirInsert k s
  | .stirReceived n payload => Sys2Proof.Machine.execStirReceived n payload s
  | .densityWindow n transitions => Sys2Proof.Machine.execDensityWindow n transitions s
  | .eqAdaptStep n up => Sys2Proof.Machine.execEqAdaptStep n up s
  | .eqVerifyPeriod n => Sys2Proof.Machine.execEqVerifyPeriod n s
  | .laneLoss n cause => Sys2Proof.Machine.execLaneLoss n cause s
  | .swapReceived k logical count => Sys2Proof.Machine.execSwapReceived k logical count s
  | .swapAckReceived k count => Sys2Proof.Machine.execSwapAckReceived k count s
  | .swapSwitch k => Sys2Proof.Machine.execSwapSwitch k s
  | .swapAckTimeout k => Sys2Proof.Machine.execSwapAckTimeout k s
  | .linkNarrowDone k usable => Sys2Proof.Machine.execLinkNarrowDone k usable s
  | .laneRestored n => Sys2Proof.Machine.execLaneRestored n s
  | .laneFailed n => Sys2Proof.Machine.execLaneFailed n s
  | .eiRequest k => Sys2Proof.Machine.execEiRequest k s
  | .eiEnterReceived k => Sys2Proof.Machine.execEiEnterReceived k s
  | .eiExit k locked => Sys2Proof.Machine.execEiExit k locked s
  | .eiVerifyEnd k verified => Sys2Proof.Machine.execEiVerifyEnd k verified s
  | .farLoopOn k => Sys2Proof.Machine.execFarLoopOn k s
  | .farLoopOff k => Sys2Proof.Machine.execFarLoopOff k s
  | .flitGroupReceive k slots => Sys2Proof.Machine.execFlitGroupReceive k slots s
  | .sessionInitReceive k f => Sys2Proof.Machine.execSessionInitReceive k f s
  | .uliMessageSend k => Sys2Proof.Machine.execUliMessageSend k s
  | .uliCplReceive k => Sys2Proof.Machine.execUliCplReceive k s
  | .uliSettleReceive k => Sys2Proof.Machine.execUliSettleReceive k s
  | .uliNotifyReceive k => Sys2Proof.Machine.execUliNotifyReceive k s
  | .uliPeerRequest k => Sys2Proof.Machine.execUliPeerRequest k s
  | .uliCloseReceive k => Sys2Proof.Machine.execUliCloseReceive k s
  | .replayTimerExpire k => Sys2Proof.Machine.execReplayTimerExpire k s
  | .ackOwedTimer k => Sys2Proof.Machine.execAckOwedTimer k s
  | .keepaliveTimer k => Sys2Proof.Machine.execKeepaliveTimer k s
  | .uliReqTimeoutExpire k tag => Sys2Proof.Machine.execUliReqTimeoutExpire k tag s
  | .uliQuarantineExpire k tag => Sys2Proof.Machine.execUliQuarantineExpire k tag s
  | .uliHoldExpire k => Sys2Proof.Machine.execUliHoldExpire k s
  | .sessionSilence k => Sys2Proof.Machine.execSessionSilence k s
  | .twinHelloReceive h => Sys2Proof.Machine.execTwinHelloReceive h s
  | .twinMirrorReceive seq recs => Sys2Proof.Machine.execTwinMirrorReceive seq recs s
  | .twinMirrorAckReceive seq => Sys2Proof.Machine.execTwinMirrorAckReceive seq s
  | .twinCheckSend => Sys2Proof.Machine.execTwinCheckSend s
  | .twinCheckReceive seq crcs => Sys2Proof.Machine.execTwinCheckReceive seq crcs s
  | .twinResyncReceive t recs => Sys2Proof.Machine.execTwinResyncReceive t recs s
  | .twinRoleReceive m => Sys2Proof.Machine.execTwinRoleReceive m s
  | .twinTimeReceive offset => Sys2Proof.Machine.execTwinTimeReceive offset s
  | .twinHeartbeatSend => Sys2Proof.Machine.execTwinHeartbeatSend s
  | .twinHbWrite ok => Sys2Proof.Machine.execTwinHbWrite ok s
  | .twinSilence => Sys2Proof.Machine.execTwinSilence s
  | .twinHbRead v => Sys2Proof.Machine.execTwinHbRead v s
  | .twinHbDecide => Sys2Proof.Machine.execTwinHbDecide s
  | .twinGuardExpire => Sys2Proof.Machine.execTwinGuardExpire s
  | .wearMeasure islands pans blocks => Sys2Proof.Machine.execWearMeasure islands pans blocks s
  | .wearDailyHistory => Sys2Proof.Machine.execWearDailyHistory s
  | .eyeWearScan n hMargin vMargin => Sys2Proof.Machine.execEyeWearScan n hMargin vMargin s
  | .pllFault fb spareOk => Sys2Proof.Machine.execPllFault fb spareOk s
  | .mramVerifyFail block => Sys2Proof.Machine.execMramVerifyFail block s
  | .logRecordCommit => Sys2Proof.Machine.execLogRecordCommit s
  | .linkServiceTimeout k => Sys2Proof.Machine.execLinkServiceTimeout k s
  | .supplyRecover n mv => Sys2Proof.Machine.execSupplyRecover n mv s
  | .tapLeavesExtest => Sys2Proof.Machine.execTapLeavesExtest s
  | .watchedLineNegated p line => Sys2Proof.Machine.execWatchedLineNegated p line s
  | .bprnPass p => Sys2Proof.Machine.execBprnPass p s

end Sys2Proof.Machine
end

