-- ==== Sys2Proof/WellFormed.lean ====
section
/-! DEFINITION. Which terms of `Instr` are commands that the outside can send: the bounds that the wire formats set and the operand types leave open. `exec` gives every term a meaning, well formed or not. -/

namespace Sys2Proof

/-- A rack master's single cycle: a 6-bit space code, a bus width, and one byte enable for each of its bytes, one at least set (R304, R307). -/
def busCycleWf (space width : Nat) (be : List Bool) : Bool :=
  decide (space < 64 ∧ width ∈ [1, 2, 4, 8] ∧ be.length = width ∧ true ∈ be)

/-- A received flit: 320 bytes and 16 parity symbols of 10 bits (R436). -/
def rxFlitWf (f : RxFlit) : Bool := decide (f.bytes.length = 320 ∧ f.parity.length = 16) && f.parity.all fun n => decide (n < 1024)

/-- A received INIT flit: an 8-bit session number and four credit limits of 12 bits (R439). -/
def initWf (f : InitFlit) : Bool := decide (f.session < 256 ∧ f.limits.length = 4) && f.limits.all fun n => decide (n < 4096)

/-- A received PAIR_HELLO: two 16-byte unique IDs and a 32-byte digest (R476, R486). -/
def helloWf (h : Hello) : Bool := decide (h.uid.length = 16 ∧ h.partnerUid.length = 16 ∧ h.digest.length = 32)

/-- The command is one that the outside can send. -/
def Instr.wellFormed : Instr → Bool
  | .regAccessIgnored _ off size _ => decide (0 < size ∧ size ≤ 512 ∧ off < 2 ^ 27)  -- an access of at most Max_Payload_Size inside a 128 MiB BAR0 (R3, R172)
  | .hostPostedWrite _ _ data be => decide (data.length = be.length ∧ 0 < data.length ∧ data.length ≤ 512)  -- one byte enable a byte, at most Max_Payload_Size (R172)
  | .hostRead _ _ _ be => decide (0 < be.length ∧ be.length ≤ 4096)  -- at most Max_Read_Request_Size (R172)
  | .hostReadTimeout _ tag => decide (tag < 1024)  -- a 10-bit tag (R172)
  | .lateCompletion _ tag => decide (tag < 1024)  -- a 10-bit tag (R172)
  | .tagQuarantineExpire _ tag => decide (tag < 1024)  -- a 10-bit tag (R172)
  | .rackMasterRead _ _ space width be _ => busCycleWf space width be  -- a cycle of one bus width
  | .rackMasterReadCompletion _ slot _ => decide (slot < 8 ∨ slot = 64)  -- one of the eight delayed-read slots, or the read that holds the bus
  | .dtRetry _ _ space width be => busCycleWf space width be  -- a cycle of one bus width
  | .delayedDiscard _ slot => decide (slot < 8)  -- one of the eight delayed-read slots (R222)
  | .rackMasterWrite _ _ space data be => decide (space < 64 ∧ data.length = be.length ∧ 0 < data.length ∧ data.length ≤ 2048)  -- at most one MBLT block (R302)
  | .rackMasterRmw _ _ space _ new => decide (space < 64 ∧ new.length ∈ [1, 2, 4, 8])  -- a read-modify-write of one bus width
  | .loopDurationExpire _ errors _ _ => decide (errors.length = 5)  -- one error count a lane of the link (R430)
  | .tideSamplePeriod samples _ => decide (samples.length ≤ 64)  -- at most 64 watch points (R106)
  | .debugAccess _ _ space _ => decide (space < 64)  -- a 6-bit space code (R204)
  | .liqExpire line => decide (line < 16384)  -- a liquor line (R351)
  | .flitGroupReceive _ slots => slots.all rxFlitWf  -- flits of 320 bytes and 16 parity symbols of 10 bits (R436)
  | .sessionInitReceive _ f => initWf f  -- an INIT payload (R439)
  | .uliReqTimeoutExpire _ tag => decide (tag < 4096)  -- a 12-bit tag (R446)
  | .uliQuarantineExpire _ tag => decide (tag < 4096)  -- a 12-bit tag (R446)
  | .twinHelloReceive h => helloWf h  -- the fields of a PAIR_HELLO (R486)
  | .regReadLowLatch .. | .regReadClear .. | .regWrite .. | .glbAlertClear .. | .stagedWriteTicket .. | .heldReadAdmit .. | .heldReadComplete ..
  | .holdLimitExpire .. | .poisonReceived .. | .hostLinkCorrectable .. | .hostFatal .. | .sramCorrected .. | .sramUncorr .. | .surpriseLinkDown ..
  | .hostLinkTrained .. | .rbarSizeWrite .. | .vfEnableSet .. | .vfDisable .. | .flrInitiate .. | .flrCycleCut .. | .flrComplete ..
  | .pmD3hotEnter .. | .pmD0Return .. | .pmeTurnOff .. | .hostLinkL2 .. | .ltrSend .. | .ptmExchange .. | .ptmExchangeFail .. | .msixUnmask ..
  | .deviceContainRelease .. | .portContainRelease .. | .linkContainRelease .. | .tenantContainRelease .. | .winShadowWrite .. | .winCommit ..
  | .winCommitDone .. | .inboundAbandoned .. | .hrdDoorbellRing .. | .hrdDoorbellCancel .. | .commandDispatch .. | .lockoutExpire .. | .nop ..
  | .infoVersion .. | .infoIdentity .. | .infoStatus .. | .infoCaps .. | .deviceReset .. | .imageBegin .. | .imageChunk .. | .imageCommit ..
  | .imageConfirm .. | .imageRead .. | .winSet .. | .winGet .. | .winClear .. | .weirRegionSet .. | .weirRegionGet .. | .weirDefaultSet ..
  | .weirRegionLock .. | .queueCreate .. | .queueDestroy .. | .queueReset .. | .queueGet .. | .settleFence .. | .settleFenceEnd .. | .fenceExpired ..
  | .tallyQuotaSet .. | .portServiceIn .. | .portServiceOut .. | .portSlaveSet .. | .profileGet .. | .profileSet .. | .profileClear ..
  | .harvestCreate .. | .harvestPoints .. | .harvestStart .. | .harvestStop .. | .harvestStopFree .. | .harvestGet .. | .floodCreate ..
  | .routeSet .. | .linkServiceIn .. | .linkServiceOut .. | .linkStatus .. | .linkLoop .. | .laneEyeScan .. | .eyeScanDone .. | .linkRetrain ..
  | .pwrVoteRaise .. | .pwrVoteWithdraw .. | .pwrDownSoft .. | .pwrDownForced .. | .drainEnd .. | .drainLimitExpire .. | .holdoffExpire ..
  | .rampSlotStart .. | .islandWakeDone .. | .islandWakeFail .. | .pwrDomRelease .. | .tideArm .. | .tideDisarm .. | .tempWarnSet .. | .tideEnter ..
  | .tideExitPerst .. | .powerOnReset .. | .bootCfgspaceReady .. | .bootServiceReady .. | .porstFall .. | .internalResetEnter .. | .perstFall ..
  | .perstRise .. | .hotResetReceived .. | .watchdogExpire .. | .supplyWarn .. | .supplyFault .. | .portBankPower .. | .bankSupplyValid ..
  | .tempWarn .. | .thermShutdown .. | .smbReadStatus .. | .smbReadTemp .. | .smbReadVcore .. | .smbWriteAlertMask .. | .smbReadUid ..
  | .smbReadFokNewest .. | .smbReadFokOlder .. | .smbUnknownCommand .. | .smbAlertResponse .. | .bscanTakeover .. | .ownerKeyInstall .. | .keySet ..
  | .keySetErase .. | .lcyAdvance .. | .lcyReturn .. | .debugUnlock .. | .debugLock .. | .debugUnlockExpire .. | .twinStatus .. | .twinForm ..
  | .twinFormTimeout .. | .twinDissolve .. | .twinRoleSet .. | .spareStatus .. | .spareBoundsSet .. | .spareRetireNow .. | .spareForbid ..
  | .spareAllow .. | .wearGet .. | .logRead .. | .logFokRead .. | .logMark .. | .doorbellTail .. | .doorbellCqhead .. | .queueDisable ..
  | .queueResume .. | .descFetchDone .. | .segmentPush .. | .segmentStart .. | .segmentReadData .. | .segmentDone .. | .completionRelease ..
  | .irqModerationTimer .. | .segmentCancel .. | .rakeAdvertise .. | .rakeWithinBed .. | .rakeAcrossBeds .. | .xrakeSegmentsArrive .. | .panFault ..
  | .panWatchdogExpire .. | .spareSelfTest .. | .bedPllUnlock .. | .masterCycleStart .. | .busCycleEnd .. | .regionBusTimeout .. | .targetRetry ..
  | .retryDelayExpire .. | .busGranted .. | .busReleaseRequest .. | .ownLimitExpire .. | .arbiterRequest .. | .rackArbTimeout ..
  | .sysBusTimerExpire .. | .sysresetPulse .. | .sysresetPulseEnd .. | .iackinPass .. | .rackIrqAssert .. | .rackIackRetry .. | .rirqPendingClear ..
  | .irqiRaise .. | .irqiDrop .. | .irqiAcknowledge .. | .rackReset .. | .rackResetEnd .. | .stuckLine .. | .noGrant .. | .sysfailFilterExpire ..
  | .rackAcfail .. | .personalityFault .. | .talAckWrite .. | .talFailRearm .. | .floodSelectorRead .. | .floodSelectorDone ..
  | .floodOutputReadDone .. | .harvestCycleStart .. | .harvestPointReturn .. | .harvestDeadline .. | .floodLedgerTimeout .. | .harAllowWrite ..
  | .receiverDetect .. | .laneNoPeer .. | .laneBitLock .. | .laneBlockLock .. | .trainBlockReceived .. | .capsReceived .. | .bringupStateTimeout ..
  | .stirInsert .. | .stirReceived .. | .densityWindow .. | .eqAdaptStep .. | .eqVerifyPeriod .. | .laneLoss .. | .swapReceived ..
  | .swapAckReceived .. | .swapSwitch .. | .swapAckTimeout .. | .linkNarrowDone .. | .laneRestored .. | .laneFailed .. | .eiRequest ..
  | .eiEnterReceived .. | .eiExit .. | .eiVerifyEnd .. | .farLoopOn .. | .farLoopOff .. | .uliMessageSend .. | .uliCplReceive ..
  | .uliSettleReceive .. | .uliNotifyReceive .. | .uliPeerRequest .. | .uliCloseReceive .. | .replayTimerExpire .. | .ackOwedTimer ..
  | .keepaliveTimer .. | .uliHoldExpire .. | .sessionSilence .. | .twinMirrorReceive .. | .twinMirrorAckReceive .. | .twinCheckSend ..
  | .twinCheckReceive .. | .twinResyncReceive .. | .twinRoleReceive .. | .twinTimeReceive .. | .twinHeartbeatSend .. | .twinHbWrite ..
  | .twinSilence .. | .twinHbRead .. | .twinHbDecide .. | .twinGuardExpire .. | .wearMeasure .. | .wearDailyHistory .. | .eyeWearScan ..
  | .pllFault .. | .mramVerifyFail .. | .logRecordCommit .. | .linkServiceTimeout .. | .supplyRecover .. | .tapLeavesExtest ..
  | .watchedLineNegated .. | .bprnPass .. => true

end Sys2Proof
end

