-- ==== Sys2Proof/Safety.lean ====
section
/-! DEFINITION. The terms in which claims speak of a run: when a command of a mailbox executes, what its answer is, when a register access meets its register at once, and what every command keeps. -/

namespace Sys2Proof.Machine

/-- Command `c` of mailbox `mb` executes, its opcode is `op`, and it does not wait for the partner chip (R164, R484). -/
def Executing (s : State) (op mb : Nat) (c : Cmd) : Prop := execCmd s op = some (mb, c)

/-- `t` is `s` with command `c` of mailbox `mb` answered and nothing else changed (R156, R157, R161): the response of R161 stands in HRD_RSP, STATE is COMPLETE, SEQ is the command's, the mailbox engine is free, HRD_CMD_CNT counts one and, for REJECTED, HRD_REJ_CNT one; the messages and functions are those that MSI-X entry 0 leaves when the IRQ flag asks for it. -/
def Answers (s t : State) (mb : Nat) (c : Cmd) (result cs reason detail : Nat) (payload : List Byte) : Prop :=
  t.mb mb = { s.mb mb with rsp := rspBytes c result cs reason detail payload, st := .complete, cmd := none, seq := c.seq }
    ∧ (∀ m, m ≠ mb → t.mb m = s.mb m)
    ∧ t.her.exec = none
    ∧ t.reg (mbReg mb 0x200C) = s.reg (mbReg mb 0x200C) + 1
    ∧ t.reg (mbReg mb 0x2010) = s.reg (mbReg mb 0x2010) + (if result = 2 then 1 else 0)
    ∧ (∀ k, k ≠ mbReg mb 0x200C → k ≠ mbReg mb 0x2010 → t.reg k = s.reg k)
    ∧ t.ep = (if bit c.flags 0 ∧ mb ≠ 65 then sendMsix s (fnOf mb) 0 else s).ep
    ∧ t.out = (if bit c.flags 0 ∧ mb ≠ 65 then sendMsix s (fnOf mb) 0 else s).out
    ∧ t = { s with her := { s.her with mb := t.her.mb, exec := none }, regs := t.regs, ep := t.ep, out := t.out }

/-- The command ran and ended DONE with `payload`, the effect being `s` (R162). -/
def RanDone (s t : State) (mb : Nat) (c : Cmd) (payload : List Byte) : Prop := Answers s t mb c 0 Cs.done 0 0 payload

/-- The command was REFUSED with a reason of its own, and nothing else changed (R162). -/
def Refuses (s t : State) (mb : Nat) (c : Cmd) (reason : Nat) : Prop := Answers s t mb c 1 0 reason 0 []

/-- The command was REJECTED with a reason of R163, and nothing else changed. -/
def Rejects (s t : State) (mb : Nat) (c : Cmd) (reason : Nat) : Prop := Answers s t mb c 2 0 reason 0 []

/-- The queue of records that wait for the log has room (R518). -/
def LogRoom (s : State) : Prop := s.log.waiting.length < 256

/-- `t` is `s` with the record of `e` queued and nothing else changed: the record of an event whose kind has no rate limit, the queue having room (R510, R518). -/
def Records (s t : State) (e : Ev) : Prop := t = { s with log := { s.log with waiting := s.log.waiting ++ [mkRec s e none] } }

/-- A register of PF0 BAR0 answers at once: PF0 decodes, no recovery firmware hides it, and the power island it needs, if it needs one, is ON (R116, R120, R526). -/
def Pf0Direct (s : State) (off : Nat) : Prop :=
  fnAnswers s 0 = true ∧ s.boot.recovery = false ∧ off % 4 = 0 ∧ ∀ d, regDomain off false = some d → (s.dom d).st = .on

/-- The written bittern log: the ring, the next sequence number and the first-of-kind slots (R515). Records that still wait in the queue are no part of it. -/
abbrev WrittenLog := Tbl (Option EvRec) × Nat × Tbl (Option EvRec)

/-- What almost no command changes: the queue of waiting commands and the life-cycle fuses, and the written log. -/
def State.core (s : State) : (List Instr × BitVec 3) × WrittenLog := ((s.pending, s.mram.fuses), s.log.ring, s.log.seq, s.log.fok)

/-- One record written to the log (R515-R517): the ring slot of its sequence number, the number after it, and its first-of-kind slot when that is empty. -/
def addRec (w : WrittenLog) (r : EvRec) : WrittenLog :=
  (w.1.set (fun _ => none) (w.2.1 % ringSize) (some r), (w.2.1 + 1) % 2 ^ 48,
    if (w.2.2.get (fun _ => none) (fokSlot r.code)).isSome then w.2.2 else w.2.2.set (fun _ => none) (fokSlot r.code) (some r))

/-- `t` has at most `n` more records written than `s`, and the same queue of waiting commands and fuses. -/
def Grew (n : Nat) (s t : State) : Prop := ∃ l : List EvRec, l.length ≤ n ∧ t.core = (s.core.1, l.foldl addRec s.core.2)

/-- Nothing of the written log of `s` is cleared or rewritten in `t` (R515, R517, R519): each filled first-of-kind slot holds its record, and each record of the ring that is still among the newest 30,592 stands under its number. -/
def LogKept (s t : State) : Prop :=
  (∀ k r, fokRec s k = some r → fokRec t k = some r) ∧ s.log.seq ≤ t.log.seq
    ∧ ∀ n r, ringRec s n = some r → oldestSeq t ≤ n → ringRec t n = some r

/-- The life-cycle fuses hold one of the four patterns of R134: RAW 000, PROVISIONED 001, FIELD 011, RETURNED 111. -/
def LegalLifeCycle (s : State) : Prop := s.mram.fuses ∈ [0#3, 1#3, 3#3, 7#3]

end Sys2Proof.Machine
end

