-- ==== Sys2Proof/Certificates/Slice0/Obligations.lean ====
section
/-! DEFINITION. The statements for the provers, family by family of the command table; each docstring names the rows and the rules. -/

open Sys2Proof Sys2Proof.Machine

/-- A step takes the command at the front of the queue and is `exec` of it on the state with the queue's rest (spec/95: each row is whole and indivisible). The queue is the model's own (notes/assumptions/1). With an empty queue the block idles: the time base counts 40 ns, one period of SYS_REFCLK; the tick is the model's choice (notes/assumptions/2). -/
def Obligations.CommandsRunInOrder : Prop :=
  (∀ (c : Instr) (rest : List Instr) (s : State), s.pending = c :: rest → step s = exec c { s with pending := rest })
  ∧ (∀ s : State, s.pending = [] → step s = .next { s with now := s.now + 40 })

/-- R5 and R6, through the rows REG_READ_LOW_LATCH and REG_READ_CLEAR: what a read answers, what it latches and what it clears. -/
def Obligations.RegisterReadsLatchAndClear : Prop :=
  (∀ (s : State) (fn : Fn) (off : Nat), fnAnswers s fn.val = true → (fn.val = 0 → Pf0Direct s off) → off % 4 = 0 →
      s.latched fn.val off = none → isPairLow fn.val off = true →
      ∃ t, exec (.regReadLowLatch fn off) s = .next t
        ∧ t.out = .regCpl fn.val off (BitVec.ofNat 64 (regWord s fn.val off)) :: s.out
        ∧ t.latched fn.val (off + 4) = some (w32 (regWord s fn.val (off + 4)))
        ∧ t = { s with out := t.out, latch := t.latch, regs := t.regs })
  ∧ (∀ (s : State) (fn : Fn) (off : Nat) (v : Word), fnAnswers s fn.val = true → (fn.val = 0 → Pf0Direct s off) → off % 4 = 0 →
      s.latched fn.val off = some v →
      ∃ t, exec (.regReadLowLatch fn off) s = .next t
        ∧ t.out = .regCpl fn.val off (BitVec.ofNat 64 v.toNat) :: s.out
        ∧ t.latched fn.val off = none
        ∧ t = { s with out := t.out, latch := t.latch, regs := t.regs })
  ∧ (∀ (s : State) (fn : Fn) (off k : Nat), fnAnswers s fn.val = true → (fn.val = 0 → Pf0Direct s off) → off % 4 = 0 →
      s.latched fn.val off = none → rcKey fn.val off = some k →
      ∃ t, exec (.regReadClear fn off false) s = .next t
        ∧ t.out = .regCpl fn.val off (BitVec.ofNat 64 (regWord s fn.val off)) :: s.out
        ∧ t.reg k = 0 ∧ (∀ j, j ≠ k → t.reg j = s.reg j)
        ∧ t = { s with out := t.out, latch := t.latch, regs := t.regs })

/-- R534 for the whole-register numeric fields of PF0 that no other rule touches, R4 for the accesses that are ignored, R59 for GLB_ALERT. -/
def Obligations.RegisterWritesClamp : Prop :=
  (∀ (s : State) (off lo hi : Nat) (v : DWord),
      (off, lo, hi) ∈ [(0x1000C, 0, 1000000), (0x10010, 10, 100000), (0x4200C, 100, 50000), (0x42010, 10, 100000), (0x42014, 10, 100000),
        (0x1C0000, 1, 10000), (0x1C0100, 1, 10000), (0x50003C, 10, 1000), (0x500040, 2, 100)] →
      Pf0Direct s off →
      exec (.regWrite 0 (.bar0 off) false v) s
        = .next (s.setReg off (w32 (max lo (min hi (v.toNat % 2 ^ 32))))))
  ∧ (∀ (s : State) (fn : Fn) (off size : Nat) (isWrite : Bool), ¬(size = 4 ∧ off % 4 = 0) → ¬(size = 8 ∧ off % 8 = 0) →
      fnAnswers s fn.val = true → LogRoom s →
      ∃ t u, exec (.regAccessIgnored fn off size isWrite) s = .next t
        ∧ u = (if isWrite then s else { s with out := .regCpl fn.val off 0xFFFFFFFFFFFFFFFF#64 :: s.out })
        ∧ Records u t { code := Ev.regAccessIgnored, src := 0x0200, tenant := tenantOf fn.val, addr := off })
  ∧ (∀ (s : State) (v : Word), ∃ t, exec (.glbAlertClear v) s = .next t
        ∧ (∀ i, i < 4 → t.pins.alertPending.getLsbD i = (s.pins.alertPending.getLsbD i && !v.getLsbD i))
        ∧ t = { s with pins := { s.pins with alertPending := t.pins.alertPending } })

/-- HOST_POSTED_WRITE and STAGED_WRITE_TICKET (R23-R25, R205, R362, R540): the fate of a window write, clause by clause. -/
def Obligations.WindowWritesAreStagedInOrder : Prop :=
  (∀ (s : State) (fn : Fn) (off : Nat) (data : List Byte) (be : List Bool),
    fnAnswers s fn.val = true → fn.val ≠ 1 → off < bar2Size s (tenantOf fn.val) → commitHolds s (tenantOf fn.val) = false →
    (winMatch s (tenantOf fn.val) off = none → LogRoom s →
      ∃ t, exec (.hostPostedWrite fn off data be) s = .next t
        ∧ t.reg 0x42018 = s.reg 0x42018 + 1 ∧ (∀ k, k ≠ 0x42018 → t.reg k = s.reg k)
        ∧ t.log.waiting = s.log.waiting
            ++ [mkRec s { code := Ev.windowMiss, src := 0x0200, tenant := tenantOf fn.val, cs := Cs.windowMiss, addr := off } none]
        ∧ t.out = .aer fn.val 0 :: s.out
        ∧ t = { s with regs := t.regs, log := { s.log with waiting := t.log.waiting }, out := t.out })
    ∧ (∀ f, winMatch s (tenantOf fn.val) off = some f → s.tenantStopped (tenantOf fn.val) = false →
        let a := writeAcc s (tenantOf fn.val) f off (enabled data be)
        let q := s.tally (tenantOf fn.val)
        (f.target = 6 → exec (.hostPostedWrite fn off data be) s = .next (hostWriteRuns s (tenantOf fn.val) a.addr a.bytes))
        ∧ (f.target ≠ 6 → q.waiters = [] → entryFree s (tenantOf fn.val) = true → 0 < countSome a.bytes → s.leads (tenantOf fn.val) = false →
            exec (.hostPostedWrite fn off data be) s
              = .next (sendAcc (issueTicket s (tenantOf fn.val) a.target a.space (accFirst a) (a.bytes.length - firstSome a.bytes) false).2
                  { a with ticket := ticketSucc q.issued }))
        ∧ (f.target ≠ 6 → (q.waiters ≠ [] ∨ entryFree s (tenantOf fn.val) = false) → (staged q).length < 16 →
            exec (.hostPostedWrite fn off data be) s
              = .next (s.setTally (tenantOf fn.val) { q with waiters := q.waiters ++ [.window a] }))
        ∧ (f.target ≠ 6 → (q.waiters ≠ [] ∨ entryFree s (tenantOf fn.val) = false) → 16 ≤ (staged q).length →
            exec (.hostPostedWrite fn off data be) s
              = .next (enterTenant (s.raise { code := Ev.talStageDrop, src := 0x0200, tenant := tenantOf fn.val, cs := Cs.ledgerFull, addr := accFirst a })
                  (tenantOf fn.val) 1))))
  ∧ (∀ (s : State) (n : Tenant) (a : Acc) (r : List Waiter), (s.tally n.val).waiters = .window a :: r → entryFree s n.val = true →
      a.tenant = n.val → 0 < countSome a.bytes → s.leads n.val = false →
      let u := s.setTally n.val { s.tally n.val with waiters := r }
      exec (.stagedWriteTicket n) s
        = .next (sendAcc (issueTicket u n.val a.target a.space (accFirst a) (a.bytes.length - firstSome a.bytes) false).2
            { a with ticket := ticketSucc (s.tally n.val).issued }))

/-- HOST_READ, HELD_READ_ADMIT, HELD_READ_COMPLETE and HOLD_LIMIT_EXPIRE (R26, R28, R205, R217). -/
def Obligations.HeldReadsAreAnsweredOnce : Prop :=
  (∀ (s : State) (fn : Fn) (rid off : Nat) (be : List Bool),
    fnAnswers s fn.val = true → fn.val ≠ 1 → off < bar2Size s (tenantOf fn.val) → commitHolds s (tenantOf fn.val) = false →
    (winMatch s (tenantOf fn.val) off = none → LogRoom s →
      ∃ t, exec (.hostRead fn rid off be) s = .next t
        ∧ t.out = .hostCpl fn.val rid .ur Cs.windowMiss [] :: .aer fn.val 0 :: s.out
        ∧ t.reg 0x42018 = s.reg 0x42018 + 1
        ∧ t.log.waiting = s.log.waiting
            ++ [mkRec s { code := Ev.windowMiss, src := 0x0200, tenant := tenantOf fn.val, cs := Cs.windowMiss, addr := off } none]
        ∧ t = { s with regs := t.regs, log := { s.log with waiting := t.log.waiting }, out := t.out })
    ∧ (∀ f, winMatch s (tenantOf fn.val) off = some f → s.tenantStopped (tenantOf fn.val) = false → f.target ≠ 6 →
        ∃ t r, exec (.hostRead fn rid off be) s = .next t
          ∧ t.reads = s.reads ++ [r]
          ∧ r.uid = s.qs.orderNext ∧ r.who = .host fn.val rid ∧ r.tenant = tenantOf fn.val ∧ r.target = f.target ∧ r.stage = .room
          ∧ r.haddr = f.base + (off - f.aper) ∧ r.hlen = be.length ∧ r.accepted = s.now ∧ r.res = none
          ∧ t = { s with reads := t.reads, qs := { s.qs with orderNext := s.qs.orderNext + 1 } }))
  ∧ (∀ (s : State) (r : HeldRead) (rest : List HeldRead), s.reads = r :: rest → r.stage = .room → r.target ≠ 6 →
      lateRoom s (linesIn (wantAddrs r)) = true →
      exec (.heldReadAdmit r.uid) s
        = .next (ltArrive { s with reads := { r with lines := linesIn (wantAddrs r), stage := .target } :: rest } r.uid))
  ∧ (∀ (s : State) (r : HeldRead) (fn rid : Nat) (e : AccEnd) (x : HostRes), getRead s r.uid = some r → r.who = .host fn rid → r.target ≠ 6 →
      r.res = some e → e.cs = Cs.done → r.ended = 0 → r.dueOn = [] → r.stage = .back →
      ∃ t data, exec (.heldReadComplete r.uid x) s = .next t
        ∧ data = endianBack r.endian r.haddr r.hlen r.addr (ltReturn s r e).1.data
        ∧ t.out = .hostCpl fn rid .sc Cs.done data :: (ltReturn s r e).2.out
        ∧ getRead t r.uid = none)
  ∧ (∀ (s : State) (r : HeldRead) (fn rid : Nat), getRead s r.uid = some r → r.who = .host fn rid → r.ended = 0 →
      let u := ((s.atTime (r.accepted + holdLimit s)).incReg 0x42028).raise
        { code := Ev.holdLimit, src := 0x0200, tenant := r.tenant, cs := Cs.farTimeout, addr := r.haddr }
      exec (.holdLimitExpire r.uid) s = .next (abortHostRead u r Cs.farTimeout 2 true))

/-- POISON_RECEIVED, HOST_LINK_CORRECTABLE, HOST_FATAL, SRAM_CORRECTED, SRAM_UNCORR, HOST_READ_TIMEOUT, LATE_COMPLETION and TAG_QUARANTINE_EXPIRE (R186, R228). -/
def Obligations.HostErrorsAreReported : Prop :=
  (∀ (s : State) (fn : Fn) (addr : Nat), LogRoom s → ∃ t, exec (.poisonReceived fn addr) s = .next t
      ∧ t.out = .aer fn.val 4 :: s.out
      ∧ t.log.waiting = s.log.waiting ++ [mkRec s { code := Ev.poisonReceived, src := 0x0200, tenant := tenantOf fn.val, cs := Cs.hostPoison, addr := addr } none]
      ∧ t = { s with out := t.out, log := { s.log with waiting := t.log.waiting } })
  ∧ (∀ (s : State) (kind : LinkCorr), ∃ t, exec (.hostLinkCorrectable kind) s = .next t
      ∧ t.out = .aer 0 5 :: s.out ∧ t.log = (s.raise { code := Ev.hostLinkCorr, src := 0x0200 }).log
      ∧ t = { s with out := t.out, log := t.log, regs := t.regs })
  ∧ (∀ (s : State) (kind : LinkFatal), exec (.hostFatal kind) s
      = .next (if (s.fn 0).severity.getLsbD (fatalBit kind)
          then enterDevice ((s.emit (.aer 0 6)).raise { code := Ev.hostFatal, src := 0x0200, enters := 2 }) 1
          else (s.emit (.aer 0 6)).raise { code := Ev.hostFatal, src := 0x0200 }))
  ∧ (∀ (s : State) (n : Tenant), exec (.sramUncorr (some n)) s
      = .next (enterTenant (s.raise { code := Ev.sramUncorr, src := 0x0200, tenant := n.val, enters := 1 }) n.val 2))
  ∧ (∀ s : State, exec (.sramUncorr none) s
      = .next (enterDevice ((s.emit (.aer 0 7)).raise { code := Ev.sramUncorr, src := 0x0200, enters := 2 }) 2))
  ∧ (∀ (s : State) (m : Fin 96) (row : Nat), LogRoom s →
      (Tbl.get (fun _ => []) s.spares.rowErrs (rowKey m.val row)).length + 1 < rowCeLimit s →
      ∃ t, exec (.sramCorrected m row) s = .next t
        ∧ t.out = .aer 0 8 :: s.out
        ∧ t.log.waiting = s.log.waiting ++ [mkRec s { code := Ev.sramCorrected, src := 0x0200 } none]
        ∧ Tbl.get (fun _ => []) t.spares.rowErrs (rowKey m.val row)
            = (Tbl.get (fun _ => []) s.spares.rowErrs (rowKey m.val row)).filter (fun n => decide (s.now < n + 86400000000000)) ++ [s.now]
        ∧ t = { s with out := t.out, log := t.log, spares := t.spares })
  ∧ (∀ (s : State) (fn : Fn) (tag : Nat), tag ∈ (s.fn fn.val).quar → LogRoom s →
      ∃ t, exec (.lateCompletion fn tag) s = .next t
        ∧ t.reg 0x4201C = s.reg 0x4201C + 1 ∧ t.out = .aer fn.val 3 :: s.out
        ∧ t.log.waiting = s.log.waiting ++ [mkRec s { code := Ev.lateCompletion, src := 0x0200, tenant := tenantOf fn.val } none]
        ∧ t = { s with regs := t.regs, out := t.out, log := { s.log with waiting := t.log.waiting } })
  ∧ (∀ (s : State) (fn : Fn) (tag : Nat), ∃ t, exec (.tagQuarantineExpire fn tag) s = .next t
      ∧ (t.fn fn.val).quar = (s.fn fn.val).quar.filter (fun n => decide (n ≠ tag))
      ∧ t = s.setFn fn.val { s.fn fn.val with quar := (t.fn fn.val).quar })
  ∧ (∀ (s : State) (fn : Fn) (tag : Nat) (use : TagUse), (s.fn fn.val).tags.find? (fun x => decide (x.1 = tag)) = some (tag, use) →
      let u := s.setFn fn.val { s.fn fn.val with quar := insertAsc tag (s.fn fn.val).quar }
      exec (.hostReadTimeout fn tag) s = .next (freeTag (timedOut (u.emit (.aer fn.val 2)) use) fn.val tag))

/-- FLR_INITIATE, FLR_CYCLE_CUT, FLR_COMPLETE, VF_ENABLE_SET, VF_DISABLE and RBAR_SIZE_WRITE (R127, R178, R180, R535). -/
def Obligations.FunctionResetsAndVfs : Prop :=
  (∀ (s : State) (fn : Fn), fnEnabled s fn.val = true → (s.fn fn.val).flr = false → s.served = true →
      ∃ t, exec (.flrInitiate fn) s = .next t ∧ (t.fn fn.val).flr = true ∧ (fn.val = 1 → t.ep.vfEnable = false))
  ∧ (∀ (s : State) (fn : Fn), (s.fn fn.val).flr = true →
      ∃ t, exec (.flrComplete fn) s = .next t
        ∧ t.fn fn.val = flrCfg (s.fn fn.val) ∧ (t.fn fn.val).flr = false ∧ (t.fn fn.val).busMaster = false
        ∧ (∀ g, g ≠ fn.val → t.fn g = s.fn g)
        ∧ (fn.val = 1 → t.ep.numVfs = 0 ∧ t.ep.ari = false)
        ∧ (fn.val ≠ 1 → s.served = true → t.mb (tenantOf fn.val) = { mbInit (tenantOf fn.val) with st := .idle }))
  ∧ (∀ (s : State) (p : PortId), (s.port p.val).opens.any (fun o => (s.fn (fnOf o.acc.tenant)).flr) = true →
      let mine := fun (o : OpenAcc) => (s.fn (fnOf o.acc.tenant)).flr
      let os := (s.port p.val).opens.filter mine
      let u := s.setPort p.val { s.port p.val with opens := (s.port p.val).opens.filter fun o => decide (o ∉ os) }
      exec (.flrCycleCut p) s = .next (afterCycle (os.foldl (fun s o => cutOpen s p.val Cs.abortReset o) u) p.val))
  ∧ (∀ s : State, s.ep.vfEnable = false → s.boot.recovery = false →
      (s.ep.ari = false → LogRoom s → ∃ t, exec .vfEnableSet s = .next t ∧ Records s t { code := Ev.sriovNoAri, src := 0x0200 })
      ∧ (s.ep.ari = true → s.ep.keptVfs = [] → ∃ t, exec .vfEnableSet s = .next t ∧ t.ep.vfEnable = true ∧ t.cont.linkWasDown = false
          ∧ t = { s with ep := { s.ep with vfEnable := true }, cont := { s.cont with linkWasDown := false } }))
  ∧ (∀ s : State, s.ep.vfEnable = true →
      exec .vfDisable s = .next (((liveVfs s).foldl (fun u n => if (u.fn (n + 1)).flr then u else flrBegin u (n + 1)) s).modEp fun e => { e with vfEnable := false }))
  ∧ (∀ (s : State) (size : Nat), ((s.fn 0).memSpace = true → LogRoom s →
        ∃ t, exec (.rbarSizeWrite size) s = .next t ∧ Records s t { code := Ev.rbarIgnored, src := 0x0200 })
      ∧ ((s.fn 0).memSpace = false → 10 ≤ size → size ≤ 16 →
        exec (.rbarSizeWrite size) s = .next (reachCheck { s with ep := { s.ep with bar2Log2 := size + 20 } })))

/-- SURPRISE_LINK_DOWN, HOST_LINK_TRAINED, PME_TURN_OFF and HOST_LINK_L2 (R105, R192, R196, R535). -/
def Obligations.HostLinkStates : Prop :=
  (∀ s : State, s.ep.link = .l0 → ∃ t u, exec .surpriseLinkDown s = .next t ∧ t = enterDevice u 0
      ∧ u.ep.vfEnable = false ∧ u.ep.numVfs = 0 ∧ u.ep.ari = false
      ∧ u.ep.keptVfs = (liveVfs s).foldl (fun l n => insertAsc n l) s.ep.keptVfs
      ∧ u.ep.bar2Log2 = s.img.pf0Bar2Log2)
  ∧ (∀ s : State, (s.ep.link = .down ∨ (s.ep.link = .reset ∧ s.pins.perst = true ∧ 7 ≤ s.boot.step)) →
      s.tide.woke = false → (s.fn 0).pmeStatus = false →
      exec .hostLinkTrained s = .next { s with ep := { s.ep with link := .l0 } })
  ∧ (∀ s : State, s.ep.link = .l0 →
      exec .pmeTurnOff s = .next { s with ep := { s.ep with link := .l23Ready }, out := .pmeToAck :: s.out })
  ∧ (∀ s : State, s.ep.link = .l23Ready → s.tide.armed = false →
      exec .hostLinkL2 s = .next { s with ep := { s.ep with link := .l2 } })
  ∧ (∀ s : State, s.ep.link = .l23Ready → awake s = true → exec .hostLinkL2 s = .next (tideBegin { s with ep := { s.ep with link := .l2 } }))

/-- PM_D3HOT_ENTER, PM_D0_RETURN, LTR_SEND, PTM_EXCHANGE, PTM_EXCHANGE_FAIL and MSIX_UNMASK (R185, R187, R189-R191). -/
def Obligations.PowerStatesLtrPtmMsix : Prop :=
  (∀ (s : State) (fn : Fn), fnEnabled s fn.val = true →
      exec (.pmD3hotEnter fn) s = .next (s.setFn fn.val { s.fn fn.val with d3hot := true }))
  ∧ (∀ (s : State) (fn e : Nat), (s.fn fn).d3hot = true → (s.fn fn).flr = false → ¬(fn = 0 ∧ e = 7) →
      sendMsix s fn e = s.setFn fn { s.fn fn with heldOut := (s.fn fn).heldOut ++ [.msix fn e] })
  ∧ (∀ (s : State) (fn : Fn), (s.fn fn.val).d3hot = true → (s.fn fn.val).heldOut = [] → s.cont.dev = false →
      ∃ t, exec (.pmD0Return fn) s = .next t ∧ (t.fn fn.val).d3hot = false ∧ (t.fn fn.val).heldOut = []
        ∧ t.out = s.out ∧ t = { s with ep := t.ep })
  ∧ (∀ (s : State) (fn : Fn) (a : Nat) (d : List Byte), (s.fn fn.val).d3hot = true → s.cont.dev = false →
      (s.fn fn.val).heldOut = [.hostWrite (tenantOf fn.val) a d] →
      ∃ t, exec (.pmD0Return fn) s = .next t ∧ (t.fn fn.val).d3hot = false ∧ (t.fn fn.val).heldOut = []
        ∧ t.out = .hostWrite (tenantOf fn.val) a d :: s.out)
  ∧ (∀ s : State, s.ep.link = .l0 → ltrValue s ≠ s.ep.ltrLast → (∀ n, s.ep.ltrAt = some n → n + 100000 ≤ s.now) →
      exec .ltrSend s = .next { s with out := .ltr (ltrValue s) :: s.out, ep := { s.ep with ltrLast := ltrValue s, ltrAt := some s.now } })
  ∧ (∀ (s : State) (m : DWord), (s.fn 0).ptmEnable = true → s.ep.link = .l0 →
      ∃ t, exec (.ptmExchange m) s = .next t ∧ t.ep.ptmOffset = m - BitVec.ofNat 64 s.now
        ∧ t.ep.ptmHist = (t.ep.ptmOffset :: s.ep.ptmHist).take 8
        ∧ (s.ep.ptmHist ≠ [] → 500 ≤ offDist t.ep.ptmOffset s.ep.ptmOffset → t.ep.ptmStatus = 0#3)
        ∧ -200 ≤ t.ep.ptmRate.toInt ∧ t.ep.ptmRate.toInt ≤ 200
        ∧ t.out = .ptmRequest :: s.out ∧ t = { s with out := t.out, ep := t.ep, fresh := s.fresh + 1 })
  ∧ (∀ s : State, (s.fn 0).ptmEnable = true →
      exec .ptmExchangeFail s = .next { s with out := .ptmRequest :: s.out, ep := { s.ep with ptmHist := [], ptmStatus := 4#3 } })
  ∧ (∀ (s : State) (fn : Fn) (e : Nat), (s.fn fn.val).d3hot = false → (s.fn fn.val).msixEnable = true → (s.fn fn.val).fnMask = false →
      (s.fn fn.val).busMaster = true → s.cont.dev = false → (vec (s.fn fn.val) e).pend = true →
      ∃ t, exec (.msixUnmask fn (some e)) s = .next t ∧ t.out = .msix fn.val e :: s.out
        ∧ vec (t.fn fn.val) e = { vec (s.fn fn.val) e with mask := false, pend := false }
        ∧ (∀ j, j ≠ e → vec (t.fn fn.val) j = vec (s.fn fn.val) j) ∧ t = { s with ep := t.ep, out := t.out })

/-- DEVICE_, PORT_, LINK_ and TENANT_CONTAIN_RELEASE (R198-R201, R536, R537). -/
def Obligations.ContainmentReleases : Prop :=
  (∀ (s : State) (v : Word), v.getLsbD 0 = true → s.cont.dev = true →
      (devReleaseRefused s = true → exec (.deviceContainRelease v none) s = .next { s with cont := { s.cont with relErr := s.cont.relErr ||| 1#9 } })
      ∧ (devReleaseRefused s = false → exec (.deviceContainRelease v none) s = .next (releaseSteps s none))
      ∧ (devReleaseRefused s = false → frozenQueues s = [] →
          ∃ t, exec (.deviceContainRelease v none) s = .next t ∧ t.cont = { s.cont with dev := false, devCause := 0#6, releasing := false })
      ∧ (∀ c, cutContains s c = true → exec (.deviceContainRelease v (some (0, c))) s
          = .next ((cutCause s c).modCont fun x => { x with relErr := x.relErr ||| 1#9 })))
  ∧ (∀ (s : State) (p : PortId), s.portCause p.val ≠ 0 →
      (portPersists s p.val = true → exec (.portContainRelease (BitVec.ofNat 32 (2 ^ p.val))) s
          = .next { s with cont := { s.cont with relErr := s.cont.relErr ||| BitVec.ofNat 9 (2 ^ (1 + p.val)) } })
      ∧ (portPersists s p.val = false → (s.port p.val).st = .contained → persFail s p.val = none →
          ∃ t, exec (.portContainRelease (BitVec.ofNat 32 (2 ^ p.val))) s = .next t
            ∧ t.portCause p.val = 0 ∧ (t.port p.val).st = .inService ∧ (t.port p.val).persOk = true
            ∧ (∀ q, q ≠ p.val → t.portCause q = s.portCause q)))
  ∧ (∀ (s : State) (k : Fin 4), s.linkCause k.val ≠ 0 →
      (linkPersists s k.val = true → exec (.linkContainRelease (BitVec.ofNat 32 (2 ^ k.val))) s
          = .next { s with cont := { s.cont with relErr := s.cont.relErr ||| BitVec.ofNat 9 (2 ^ (4 + k.val)) } })
      ∧ (linkPersists s k.val = false →
          ∃ t, exec (.linkContainRelease (BitVec.ofNat 32 (2 ^ k.val))) s = .next t
            ∧ t.linkCause k.val = 0 ∧ (∀ q, q ≠ k.val → t.linkCause q = s.linkCause q)
            ∧ ((s.link k.val).st = .contained → (s.link k.val).lst ≠ .active → (t.link k.val).st = .waiting)))
  ∧ (∀ (s : State) (n : Tenant), s.tenantCause n.val ≠ 0 →
      ∃ t, exec (.tenantContainRelease (BitVec.ofNat 32 (0x80000000 + n.val))) s = .next t
        ∧ t.tenantCause n.val = 0 ∧ (∀ m, m ≠ n.val → t.tenantCause m = s.tenantCause m) ∧ t.cont.dev = s.cont.dev)

/-- WIN_SHADOW_WRITE, WIN_COMMIT and WIN_COMMIT_DONE (R212-R215). -/
def Obligations.WindowCommitIsAtomic : Prop :=
  (∀ (s : State) (w : Fin 256) (i : Fin 6) (v : Word), s.win.commit = none →
      ∃ t, exec (.winShadowWrite w i v) s = .next t
        ∧ winWord t.win.shadow w.val i.val = (v &&& winMask i.val).toNat
        ∧ (∀ x j, j < 6 → ¬(x = w.val ∧ j = i.val) → winWord t.win.shadow x j = winWord s.win.shadow x j)
        ∧ t = { s with win := { s.win with shadow := t.win.shadow } })
  ∧ (∀ (s : State) (w : Fin 256) (i : Fin 6) (v : Word) (c : Commit), s.win.commit = some c →
      exec (.winShadowWrite w i v) s
        = .next { s with win := { s.win with commit := some { c with shadows := c.shadows ++ [(8 * w.val + i.val, v)] } } })
  ∧ (∀ (s : State) (v : Word), v.getLsbD 31 = true → s.win.commit = none →
      ∃ t c, exec (.winCommit v) s = .next t ∧ t = { s with win := { s.win with commit := some c } }
        ∧ c.first = v.toNat % 256 ∧ c.last = v.toNat / 256 % 256 ∧ (c.result, c.bad) = commitCheck s c.first c.last
        ∧ c.shadows = [] ∧ c.reqs = [])
  ∧ (∀ (s : State) (v : Word) (c : Commit), v.getLsbD 31 = true → s.win.commit = some c →
      exec (.winCommit v) s = .next (s.setReg 0x42008 (s.reg 0x42008 ||| 1#32)))
  ∧ (∀ (s : State) (c : Commit), s.win.commit = some c → c.shadows = [] → c.reqs = [] → c.first ≤ c.last → c.last < 256 →
      ∃ t, exec .winCommitDone s = .next t
        ∧ t.win.commit = none ∧ t.win.shadow = s.win.shadow
        ∧ (∀ w i, i < 6 → winWord t.win.work w i
            = if c.result = 0 ∧ c.first ≤ w ∧ w ≤ c.last then winWord s.win.shadow w i else winWord s.win.work w i)
        ∧ (t.reg 0x42004).toNat % 16 = c.result % 16 ∧ (t.reg 0x42004).toNat / 65536 = ((s.reg 0x42004).toNat / 65536 + 1) % 65536
        ∧ (∀ k, k ≠ 0x42004 → t.reg k = s.reg k)
        ∧ t = { s with win := t.win, regs := t.regs })

/-- WIN_SET, WIN_GET and WIN_CLEAR (R215, R216), with their answers (R161-R163). -/
def Obligations.WindowCommands : Prop :=
  (∀ (s : State) (mb : Nat) (c : Cmd), Executing s 0x0200 mb c → s.win.commit = none →
      let w := wordAt c.payload 0
      let u := (List.range 6).foldl (fun u i => setShadow u w i (w32 (wordAt c.payload (4 * (i + 1))))) s
      let own := winAllowed s mb w = true ∧ (mbTenant mb = 0 ∨ bits (wordAt c.payload 4) 14 8 = mbTenant mb)
      (own → (commitCheck u w w).1 = 0 → ∃ t, exec .winSet s = .next t ∧ RanDone (endCommit u w w 0 (commitCheck u w w).2) t mb c [])
      ∧ (own → (commitCheck u w w).1 ≠ 0 → ∃ t, exec .winSet s = .next t
          ∧ Answers (commitStatus s (commitCheck u w w).1 (commitCheck u w w).2) t mb c 1 0 (commitCheck u w w).1 (commitCheck u w w).2 [])
      ∧ (¬own → ∃ t, exec .winSet s = .next t ∧ Rejects s t mb c 6))
  ∧ (∀ (s : State) (mb : Nat) (c : Cmd), Executing s 0x0201 mb c →
      let w := wordAt c.payload 0
      (winAllowed s mb w = true → ∃ t, exec .winGet s = .next t
          ∧ RanDone s t mb c (bytesOfWords ([0, 1, 2, 3, 4, 5].map (winWord s.win.shadow w) ++ [winStatus s w, 0])))
      ∧ (winAllowed s mb w = false → ∃ t, exec .winGet s = .next t ∧ Rejects s t mb c 6))
  ∧ (∀ (s : State) (mb : Nat) (c : Cmd), Executing s 0x0202 mb c → s.win.commit = none →
      let w := wordAt c.payload 0
      (winAllowed s mb w = true → ∃ t u, exec .winClear s = .next t ∧ RanDone u t mb c []
          ∧ (∀ x i, i < 6 → winWord u.win.shadow x i = (if x = w then 0 else winWord s.win.shadow x i)
              ∧ winWord u.win.work x i = (if x = w then 0 else winWord s.win.work x i))
          ∧ u = { s with win := u.win, regs := u.regs })
      ∧ (winAllowed s mb w = false → ∃ t, exec .winClear s = .next t ∧ Rejects s t mb c 6))

/-- RACK_MASTER_READ, RACK_MASTER_READ_COMPLETION, RACK_MASTER_WRITE, RACK_MASTER_RMW and INBOUND_ABANDONED (R30, R31, R221, R304-R309, R319). -/
def Obligations.RackMastersReachHostMemory : Prop :=
  (∀ (s : State) (p : PortId) (addr space width : Nat) (be : List Bool) (block : Bool) (data : List Byte) (old : HostRes) (new : List Byte),
    slvReady s p.val = true →
    (slvMatch s p.val addr space = none → retryAnswers s p.val = false →
      exec (.rackMasterRead p addr space width be block) s = .next s
        ∧ exec (.rackMasterWrite p addr space data be) s = .next s
        ∧ exec (.rackMasterRmw p addr space old new) s = .next s)
    ∧ (∀ r, slvMatch s p.val addr space = some r →
        let u := s.incReg (paReg p.val 0x34)
        (∀ d, inboundDenial u p.val r (hostRange u p.val r addr ((enabled data be).map Option.isSome)).2.1
              (hostRange u p.val r addr ((enabled data be).map Option.isSome)).2.2 false true false = some d →
            exec (.rackMasterWrite p addr space data be) s = .next (denyInbound u p.val addr space (slvTenant u p.val r) d))
        ∧ (inboundDenial u p.val r (hostRange u p.val r addr ((enabled data be).map Option.isSome)).2.1
              (hostRange u p.val r addr ((enabled data be).map Option.isSome)).2.2 false true false = none →
            exec (.rackMasterWrite p addr space data be) s = .next (rackHostWrite (u.emit (.slaveAck p.val [])) p.val r addr (enabled data be)))
        ∧ (retryAnswers s p.val = false →
            let b := rackReadBe u p.val r addr space width be block
            let h := hostRange u p.val r addr b
            (∀ d, inboundDenial u p.val r h.2.1 h.2.2 true false false = some d →
              exec (.rackMasterRead p addr space width be block) s = .next (denyInbound u p.val addr space (slvTenant u p.val r) d))
            ∧ (inboundDenial u p.val r h.2.1 h.2.2 true false false = none →
              ∃ v x, exec (.rackMasterRead p addr space width be block) s = .next (rackSend v p.val)
                ∧ v = u.setPort p.val { u.port p.val with held := some x }
                ∧ x.addr = addr ∧ x.space = space ∧ x.tenant = slvTenant u p.val r ∧ x.haddr = h.2.1 ∧ x.len = h.2.2 ∧ x.got = []))
        ∧ (let h := hostRange u p.val r addr (List.replicate new.length true)
           let fn := fnOf (slvTenant u p.val r)
           (∀ d, inboundDenial u p.val r h.2.1 h.2.2 true true true = some d →
              exec (.rackMasterRmw p addr space old new) s = .next (denyInbound u p.val addr space (slvTenant u p.val r) d))
           ∧ (∀ b v, inboundDenial u p.val r h.2.1 h.2.2 true true true = none → old = .ok b → b.length = h.2.2 →
              hostRead u (slvTenant u p.val r) h.2.1 h.2.2 (.rack p.val 65) = some v →
              ∃ w, w = v.setFn fn { v.fn fn with tags := (v.fn fn).tags.filter fun e => decide (e.2 ≠ .rack p.val 65) }
                ∧ exec (.rackMasterRmw p addr space old new) s = .next (rackHostWrite (w.emit (.slaveAck p.val
                    (rackData (slvEndian w p.val r) addr (addr - addr % endianUnit (slvEndian w p.val r)) (h.2.1 - h.1) (List.replicate new.length true) b)))
                    p.val r addr (new.map some))))))
  ∧ (∀ (s : State) (p : PortId) (h : HeldRack) (tag : Nat) (d : List Byte), (s.port p.val).held = some h → (s.port p.val).st = .inService →
      tagOf (s.fn (fnOf h.tenant)) (.rack p.val 64) = some tag →
      d.length = mrrsPiece s h.tenant (h.haddr + h.got.length) (h.len - h.got.length) → h.got.length + d.length = h.len →
      ∃ t, exec (.rackMasterReadCompletion p 64 (.ok d)) s = .next t
        ∧ t.out = .slaveAck p.val (rackData h.endian h.addr (h.addr - h.addr % endianUnit h.endian) (h.haddr - h.base) h.be (h.got ++ d)) :: s.out
        ∧ (t.port p.val).held = none ∧ (∀ x, x ∈ (t.fn (fnOf h.tenant)).tags → x.1 ≠ tag))
  ∧ (∀ (s : State) (p : PortId) (h : HeldRack), (s.port p.val).held = some h → (s.port p.val).st = .inService → LogRoom s →
      ∃ t, exec (.inboundAbandoned p) s = .next t ∧ (t.port p.val).held = none
        ∧ t.log.waiting = s.log.waiting ++ [mkRec s { code := Ev.inboundAbandoned, src := srcPort p.val, tenant := h.tenant, addr := h.addr } none])

/-- RACK_MASTER_READ on a retry personality, DT_RETRY and DELAYED_DISCARD (R222). -/
def Obligations.DelayedReadsMatchExactly : Prop :=
  (∀ (s : State) (p : PortId) (addr space width r : Nat) (be : List Bool), slvReady s p.val = true → retryAnswers s p.val = true →
      dtMatch s p.val addr space width be = none → slvMatch s p.val addr space = some r →
      let u := s.incReg (paReg p.val 0x34)
      let h := hostRange u p.val r addr (rackReadBe u p.val r addr space width be false)
      inboundDenial u p.val r h.2.1 h.2.2 true false false = none →
      ((∀ k, k < 8 → (Tbl.get dtInit (s.port p.val).dt k).used = true) →
        exec (.rackMasterRead p addr space width be false) s = .next { u with out := .slaveRetry p.val :: s.out })
      ∧ (∀ k, (List.range 8).find? (fun k => !(Tbl.get dtInit (s.port p.val).dt k).used) = some k →
        ∃ v d, exec (.rackMasterRead p addr space width be false) s = .next ((dtSend v p.val k).emit (.slaveRetry p.val))
          ∧ v = setDt u p.val k d ∧ d.used = true ∧ d.addr = addr ∧ d.space = space ∧ d.width = width ∧ d.be = be ∧ d.data = none ∧ d.err = 0
          ∧ d.tenant = slvTenant u p.val r ∧ d.haddr = h.2.1 ∧ d.len = h.2.2))
  ∧ (∀ (s : State) (p : PortId) (addr space width : Nat) (be : List Bool), slvReady s p.val = true →
      (∀ k d, dtMatch s p.val addr space width be = some k → (Tbl.get dtInit (s.port p.val).dt k).data = some d →
        ∃ t, exec (.dtRetry p addr space width be) s = .next t ∧ t.out = .slaveAck p.val d :: s.out
          ∧ Tbl.get dtInit (t.port p.val).dt k = dtInit k ∧ (∀ j, j ≠ k → Tbl.get dtInit (t.port p.val).dt j = Tbl.get dtInit (s.port p.val).dt j)
          ∧ t = { s with out := t.out, ports := t.ports })
      ∧ (∀ k, let d := Tbl.get dtInit (s.port p.val).dt k
          dtMatch s p.val addr space width be = some k → d.data = none → d.err ≠ 0 →
          exec (.dtRetry p addr space width be) s = .next (raiseOpt (inboundErr (setDt s p.val k (dtInit k)) p.val d.addr d.err d.space)
            ((rackEv p.val d.err).map fun e => { e with tenant := d.tenant, cs := d.err, addr := d.addr })))
      ∧ (dtMatch s p.val addr space width be = none → exec (.dtRetry p addr space width be) s = .next s))
  ∧ (∀ (s : State) (p : PortId) (k : Nat), LogRoom s →
      let d := Tbl.get dtInit (s.port p.val).dt k
      d.used = true → (d.data.isSome = true ∨ d.err ≠ 0) →
      ∃ t, exec (.delayedDiscard p k) s = .next t ∧ (Tbl.get dtInit (t.port p.val).dt k).used = false
        ∧ t.reg 0x42024 = s.reg 0x42024 + (if p.val = 0 then 1 else 0x10000) ∧ t.now = max s.now d.expires
        ∧ t.log.waiting = s.log.waiting ++ [mkRec t { code := Ev.delayedDiscard, src := srcPort p.val, tenant := d.tenant, addr := d.addr } none]
        ∧ t = { s with now := t.now, ports := t.ports, regs := t.regs, log := t.log })

/-- HRD_DOORBELL_RING, HRD_DOORBELL_CANCEL, COMMAND_DISPATCH and LOCKOUT_EXPIRE (R146, R154-R158, R164). -/
def Obligations.MailboxDoorbellsAndDispatch : Prop :=
  (∀ (s : State) (mb : Fin 66), doorbellOpen s mb.val = true →
      (((s.mb mb.val).st = .idle ∨ (s.mb mb.val).st = .complete) →
        ∃ t, exec (.hrdDoorbellRing mb) s = .next t
          ∧ t.mb mb.val = { s.mb mb.val with st := .queued, cmd := some (copyCmd (s.mb mb.val)), seq := (copyCmd (s.mb mb.val)).seq }
          ∧ t.her.queue = s.her.queue ++ [mb.val] ∧ (∀ m, m ≠ mb.val → t.mb m = s.mb m)
          ∧ t = { s with her := { s.her with mb := t.her.mb, queue := t.her.queue } })
      ∧ (((s.mb mb.val).st = .queued ∨ (s.mb mb.val).st = .executing ∨ (s.mb mb.val).st = .waiting) →
        exec (.hrdDoorbellRing mb) s = .next (s.setMb mb.val { s.mb mb.val with err := (s.mb mb.val).err ||| 1#2 }))
      ∧ (∀ r, (s.mb mb.val).st ≠ .waiting →
        exec (.hrdDoorbellCancel mb r) s = .next (s.setMb mb.val { s.mb mb.val with err := (s.mb mb.val).err ||| 2#2 }))
      ∧ (∀ r c, (s.mb mb.val).st = .waiting → (s.mb mb.val).cmd = some c →
        ∃ t, exec (.hrdDoorbellCancel mb r) s = .next t ∧ (t.mb mb.val).st = .complete ∧ (t.mb mb.val).cmd = none
          ∧ (t.mb mb.val).rsp = rspBytes c 3 0 0 0 []))
  ∧ (∀ (s : State) (mb : Nat) (rest : List Nat) (c : Cmd), s.served = true → s.her.exec = none → s.her.queue = mb :: rest →
      (s.mb mb).cmd = some c →
      exec .commandDispatch s = .next (checkCmd (({ s with her := { s.her with queue := rest, exec := some mb } }).modMb mb fun m => { m with st := .executing }) mb c))
  ∧ (∀ (s : State) (n : Tenant), (s.key n.val).lockedUntil ≠ 0 →
      ∃ t, exec (.lockoutExpire n) s = .next t ∧ t.key n.val = { s.key n.val with lockedUntil := 0 }
        ∧ t.now = max s.now (s.key n.val).lockedUntil ∧ (∀ m, m ≠ n.val → t.key m = s.key m)
        ∧ t = { s with now := t.now, mram := { s.mram with keys := t.mram.keys } })

/-- What COMMAND_DISPATCH checks (`checkCmd`), in order (R140-R144, R159, R160, R163, R168); `Answers` is the answer of R161. -/
def Obligations.CommandChecksInOrder : Prop :=
  ∀ (s : State) (mb : Nat) (c : Cmd), s.her.exec = some mb → (s.mb mb).cmd = some c →
    let t := checkCmd s mb c
    let serves := s.boot.recovery = false ∨ recoveryServes mb c = true
    (lengthOk c = none → Rejects s t mb c 1)
    ∧ (lengthOk c ≠ none → ¬serves → Rejects s t mb c 5)
    ∧ (lengthOk c = some false → serves → Rejects s t mb c 2)
    ∧ (lengthOk c = some true → serves →
        (flagsOk c = false → Rejects s t mb c 3)
        ∧ (flagsOk c = true → critical c.opcode = false → maySend mb c.opcode = false → Rejects s t mb c 4)
        ∧ (flagsOk c = true → (critical c.opcode = true ∨ maySend mb c.opcode = true) →
            (payloadOk s c = false → Rejects s t mb c 3)
            ∧ (payloadOk s c = true →
                (cmdContained s (mbTenant mb) c = true → LogRoom s →
                  ∃ u, Records s u { code := Ev.contained, src := 0x1003, tenant := mbTenant mb, cs := Cs.contained }
                    ∧ Answers u t mb c 0 Cs.contained 0 0 [])
                ∧ (cmdContained s (mbTenant mb) c = false → critical c.opcode = false → t = s)
                ∧ (cmdContained s (mbTenant mb) c = false → critical c.opcode = true → authReason s mb c = 0 →
                    t = s.setKey (mbTenant mb) { s.key (mbTenant mb) with counter := c.counter, fails := 0, lockouts := 0, lockedUntil := 0 })
                ∧ (cmdContained s (mbTenant mb) c = false → critical c.opcode = true → authReason s mb c ≠ 0 →
                    ∃ u, u = authFail s (mbTenant mb) (authReason s mb c) c ∧ Answers u t mb c 0 Cs.authFail (authReason s mb c) 0 [])))) 

/-- NOP, INFO_VERSION, INFO_IDENTITY, INFO_STATUS, INFO_CAPS and DEVICE_RESET (R170). -/
def Obligations.InformationCommands : Prop :=
  (∀ (s : State) (mb : Nat) (c : Cmd), Executing s 0x0000 mb c → ∃ t, exec .nop s = .next t ∧ RanDone s t mb c [])
  ∧ (∀ (s : State) (mb : Nat) (c : Cmd), Executing s 0x0001 mb c → ∃ t, exec .infoVersion s = .next t
      ∧ RanDone s t mb c (bytesOfWords [fwVerWord s 0, fwVerWord s 1, cfgVerWord s 0, cfgVerWord s 1, 0x00010000]))
  ∧ (∀ (s : State) (mb : Nat) (c : Cmd), Executing s 0x0002 mb c → ∃ t, exec .infoIdentity s = .next t
      ∧ RanDone s t mb c (bytesOfWords [lcyWord s 0, lcyWord s 4, lcyWord s 8, 0] ++ uniqueId))
  ∧ (∀ (s : State) (mb : Nat) (c : Cmd), Executing s 0x0003 mb c → ∃ t, exec .infoStatus s = .next t
      ∧ RanDone s t mb c (bytesOfWords [glbStatus s, containWord s (mbTenant mb), b2n (s.key (mbTenant mb)).key.isSome]
          ++ leBytes 8 (s.key (mbTenant mb)).counter ++ leBytes 4 (lockoutMs s (mbTenant mb))))
  ∧ (∀ (s : State) (mb : Nat) (c : Cmd), Executing s 0x0004 mb c → ∃ t bs, exec .infoCaps s = .next t
      ∧ bs = (List.range 32).map (fun i => Config.freeResponse (s.fresh + i)) ∧ RanDone { s with fresh := s.fresh + 32 } t mb c bs)
  ∧ (∀ (s : State) (mb : Nat) (c : Cmd), Executing s 0x0100 mb c → ∃ u, RanDone s u mb c []
      ∧ exec .deviceReset s = .next (wideReset (commitAll u 600) .device 3))

/-- IMAGE_BEGIN, IMAGE_CHUNK, IMAGE_COMMIT, IMAGE_CONFIRM and IMAGE_READ (R119, R121, R123). The refusal reasons are the model's numbers (assumption 45). -/
def Obligations.ImageSessions : Prop :=
  (∀ (s : State) (mb : Nat) (c : Cmd), Executing s 0x0101 mb c →
      let kind := wordAt c.payload 0
      ((session s kind).isSome = true → ∃ t, exec .imageBegin s = .next t ∧ Refuses s t mb c 1)
      ∧ (session s kind = none → kind ≤ 1 → ∃ t u, exec .imageBegin s = .next t ∧ RanDone u t mb c []
          ∧ session u kind = some { total := wordAt c.payload 4, slot := inactiveSlot s kind }
          ∧ imgOf u kind (inactiveSlot s kind) = { imgOf s kind (inactiveSlot s kind) with valid := false }
          ∧ (inactiveSlot s kind ≤ 1 → imgOf u kind (1 - inactiveSlot s kind) = imgOf s kind (1 - inactiveSlot s kind))
          ∧ (∀ n, imgOf u (1 - kind) n = imgOf s (1 - kind) n) ∧ u.mram.boot = s.mram.boot))
  ∧ (∀ (s : State) (mb : Nat) (c : Cmd) (x : ImgSession), Executing s 0x0102 mb c → session s (chunkKind s) = some x → x.slot ≤ 1 →
      (x.total < wordAt c.payload 0 + wordAt c.payload 4 → ∃ t, exec .imageChunk s = .next t ∧ Rejects s t mb c 3)
      ∧ (wordAt c.payload 0 + wordAt c.payload 4 ≤ x.total → ∃ t u, exec .imageChunk s = .next t ∧ RanDone u t mb c []
          ∧ (∀ j, Tbl.get (fun _ => 0#8) (imgOf u (chunkKind s) x.slot).bytes j
              = if wordAt c.payload 0 ≤ j ∧ j < wordAt c.payload 0 + (c.payload.drop 8).length then (c.payload.drop 8).getD (j - wordAt c.payload 0) 0#8
                else Tbl.get (fun _ => 0#8) (imgOf s (chunkKind s) x.slot).bytes j)
          ∧ imgOf u (chunkKind s) (1 - x.slot) = imgOf s (chunkKind s) (1 - x.slot)
          ∧ u = { s with mram := u.mram }))
  ∧ (∀ (s : State) (mb : Nat) (c : Cmd) (x : ImgSession), Executing s 0x0103 mb c → session s (wordAt c.payload 0) = some x →
      let kind := wordAt c.payload 0
      (imgCheck s kind x.slot ≠ 0 → ∃ t, exec .imageCommit s = .next t ∧ Refuses s t mb c (imgCheck s kind x.slot))
      ∧ (imgCheck s kind x.slot = 0 → ∃ t u, exec .imageCommit s = .next t ∧ RanDone u t mb c [] ∧ session u kind = none
          ∧ (kind = 0 → u.mram.boot = { s.mram.boot with fwPending := x.slot, trial := true, attempts := 0 } ∧ u.boot.trialUnconfirmed = false)
          ∧ (kind ≠ 0 → u.mram.boot = { s.mram.boot with cfgActive := x.slot })))
  ∧ (∀ (s : State) (mb : Nat) (c : Cmd), Executing s 0x0104 mb c →
      (s.boot.trialUnconfirmed = false → ∃ t, exec .imageConfirm s = .next t ∧ RanDone s t mb c [])
      ∧ (s.boot.trialUnconfirmed = true → ∃ t u, exec .imageConfirm s = .next t ∧ RanDone u t mb c []
          ∧ u.mram.boot = { s.mram.boot with fwActive := s.mram.boot.fwPending, trial := false, attempts := 0 }
          ∧ u.boot.trialUnconfirmed = false ∧ s.mram.minSec ≤ u.mram.minSec
          ∧ u = { s with mram := { s.mram with boot := u.mram.boot, minSec := u.mram.minSec }, boot := { s.boot with trialUnconfirmed := false, hostConfirm := false } }))
  ∧ (∀ (s : State) (mb : Nat) (c : Cmd), Executing s 0x0105 mb c → ∃ t, exec .imageRead s = .next t
      ∧ RanDone s t mb c ((List.range (wordAt c.payload 12)).map fun j =>
          Tbl.get (fun _ => 0#8) (imgOf s (wordAt c.payload 0) (wordAt c.payload 4)).bytes (wordAt c.payload 8 + j)))

/-- WEIR_REGION_SET, WEIR_REGION_GET, WEIR_DEFAULT_SET and WEIR_REGION_LOCK (chapter 18). -/
def Obligations.WeirCommands : Prop :=
  (∀ (s : State) (mb : Nat) (c : Cmd), Executing s 0x0300 mb c →
      let w := bits (wordAt c.payload 0) 2 0
      let r := bits (wordAt c.payload 0) 13 8
      let ws := (List.range 8).map fun i => wordAt c.payload (4 * (i + 1))
      (regionRefusal s w r ws ≠ 0 → ∃ t, exec .weirRegionSet s = .next t ∧ Refuses s t mb c (regionRefusal s w r ws))
      ∧ (rgnLocked s w r = true → regionRefusal s w r ws ≠ 0)
      ∧ (regionRefusal s w r ws = 0 → ∃ t u, exec .weirRegionSet s = .next t ∧ RanDone u t mb c []
          ∧ (∀ i, 1 ≤ i → i ≤ 8 → rgnWord u w r i = wordAt c.payload (4 * i))
          ∧ (∀ x q i, q < 64 → i < 16 → ¬(x = w ∧ q = r) → rgnWord u x q i = rgnWord s x q i)
          ∧ u = { s with weirs := { s.weirs with rgn := u.weirs.rgn } }))
  ∧ (∀ (s : State) (mb : Nat) (c : Cmd), Executing s 0x0301 mb c → ∃ t, exec .weirRegionGet s = .next t
      ∧ RanDone s t mb c (rgnBytes s (bits (wordAt c.payload 0) 2 0) (bits (wordAt c.payload 0) 13 8)))
  ∧ (∀ (s : State) (mb : Nat) (c : Cmd), Executing s 0x0302 mb c → ∃ t u, exec .weirDefaultSet s = .next t ∧ RanDone u t mb c []
      ∧ (∀ x, Tbl.get (fun _ => 0) u.weirs.dflt x
          = if x = bits (wordAt c.payload 0) 2 0 then bits (wordAt c.payload 0) 9 8 else Tbl.get (fun _ => 0) s.weirs.dflt x)
      ∧ u = { s with weirs := { s.weirs with dflt := u.weirs.dflt } })
  ∧ (∀ (s : State) (mb : Nat) (c : Cmd), Executing s 0x0303 mb c →
      let w := byteAt c.payload 0
      let r := byteAt c.payload 1
      (rgnLocked s w r = true → ∃ t, exec .weirRegionLock s = .next t ∧ RanDone s t mb c [])
      ∧ (rgnLocked s w r = false → lockRefusal s w r ≠ 0 → ∃ t, exec .weirRegionLock s = .next t ∧ Refuses s t mb c (lockRefusal s w r))
      ∧ (rgnLocked s w r = false → lockRefusal s w r = 0 → ∃ t, exec .weirRegionLock s = .next t
          ∧ RanDone { s with weirs := { s.weirs with locked := insertAsc (w * 64 + r) s.weirs.locked } } t mb c []))

/-- TAL_ACK_WRITE, TAL_FAIL_REARM and TALLY_QUOTA_SET (R364-R370, R376, R377). -/
def Obligations.TallyMarksAndQuotas : Prop :=
  (∀ (s : State) (fn : Fn) (n : Tenant) (v : Word), mayNameTenant fn.val n.val = true → s.followed n.val = false → s.leads n.val = false →
      let q := s.tally n.val
      let m := if ticketAfter v.toNat (frontier q) then frontier q else v.toNat
      ∃ t, exec (.talAckWrite fn n v) s = .next t
        ∧ (t.tally n.val).ack = (if ticketAfter m q.ack then m else q.ack)
        ∧ (t.tally n.val).kept = (if ticketAfter m q.ack ∨ m = q.ack then q.kept.filter (fun k => ticketAfter k.ticket m) else q.kept)
        ∧ (t.tally n.val).overflow = false ∧ (t.tally n.val).issued = q.issued ∧ (t.tally n.val).unsettled = q.unsettled
        ∧ (∀ m, m ≠ n.val → t.tally m = s.tally m) ∧ t = { s with tal := { s.tal with t := t.tal.t } })
  ∧ (∀ (s : State) (fn : Fn) (n : Tenant) (v : Word), mayNameTenant fn.val n.val = true → s.followed n.val = false →
      exec (.talFailRearm fn n v) s = .next (if privOf s n.val
        then s.setTally n.val { s.tally n.val with latchValid := (s.tally n.val).latchValid && !v.getLsbD 0, latchMore := (s.tally n.val).latchMore && !v.getLsbD 1 }
        else s))
  ∧ (∀ (s : State) (mb : Nat) (c : Cmd), Executing s 0x0405 mb c →
      let n := wordAt c.payload 0
      let q := wordAt c.payload 4
      (3584 < quotaSum s - (s.tally n).quota + q → ∃ t, exec .tallyQuotaSet s = .next t ∧ Refuses s t mb c 1)
      ∧ (quotaSum s - (s.tally n).quota + q ≤ 3584 →
          ∃ t, exec .tallyQuotaSet s = .next t ∧ RanDone (s.setTally n { s.tally n with quota := q }) t mb c []))

/-- SETTLE_FENCE, SETTLE_FENCE_END and FENCE_EXPIRED (R371-R373). -/
def Obligations.FencesWaitForSettling : Prop :=
  (∀ (s : State) (mb : Nat) (c : Cmd), Executing s 0x0404 mb c →
      let n := wordAt c.payload 4
      let f := fenceTicket (s.tally n) (wordAt c.payload 0)
      (ownsObject mb n = false → ∃ t, exec .settleFence s = .next t ∧ Rejects s t mb c 6)
      ∧ (ownsObject mb n = true → s.followed n = false → fenceReached (s.tally n) f.1 = false → (∀ g ∈ s.tal.fences, g.id < s.tal.nextFence) →
          ∃ t, exec .settleFence s = .next t
            ∧ t.tal.fences = s.tal.fences ++ [{ id := s.tal.nextFence, tenant := n, n := f.1, limitAt := s.now + fenceLimit s, mb := some mb, queue := none, clamped := f.2 }]
            ∧ t.tal.nextFence = s.tal.nextFence + 1
            ∧ t.mb mb = { s.mb mb with st := .waiting } ∧ t.her.exec = none
            ∧ t = { s with tal := { s.tal with fences := t.tal.fences, nextFence := t.tal.nextFence }, her := { s.her with mb := t.her.mb, exec := none } })
      ∧ (ownsObject mb n = true → s.followed n = false → fenceReached (s.tally n) f.1 = true → fenceKept (s.tally n) f.1 = [] →
          (∀ g ∈ s.tal.fences, g.id < s.tal.nextFence) →
          ∃ t, exec .settleFence s = .next t ∧ (t.mb mb).st = .complete
            ∧ (t.mb mb).rsp = rspBytes c 0 Cs.done 0 0 (fenceBytes (s.tally n) f.1 0 Cs.done 0 f.2) ∧ t.tal.fences = s.tal.fences))
  ∧ (∀ (q : TallyT) (n : Nat), (n = 0 → fenceTicket q n = (q.issued, false)) ∧ (n ≠ 0 → ticketAfter n q.issued = true → fenceTicket q n = (q.issued, true))
      ∧ (n ≠ 0 → ticketAfter n q.issued = false → fenceTicket q n = (n, false)))
  ∧ (∀ (s : State) (f : Fence), s.tal.fences.find? (fun g => decide (g.id = f.id)) = some f →
      let q := s.tally f.tenant
      (fenceReached q f.n = false → exec (.settleFenceEnd f.id) s = .next s)
      ∧ (fenceReached q f.n = true → exec (.fenceExpired f.id) s = .next s)
      ∧ (fenceReached q f.n = true → fenceKept q f.n = [] → exec (.settleFenceEnd f.id) s = .next (endFence s f Cs.done 0 0))
      ∧ (∀ k r, fenceReached q f.n = true → fenceKept q f.n = k :: r → exec (.settleFenceEnd f.id) s = .next (endFence s f k.cs k.ticket k.addr))
      ∧ (∀ u : Unsettled, fenceReached q f.n = false → fenceUnsettled q f.n = some u → LogRoom s →
          ∃ v, exec (.fenceExpired f.id) s = .next (endFence v f Cs.farTimeout u.ticket u.addr)
            ∧ Records { s with now := max s.now f.limitAt } v
                { code := Ev.fenceExpired, src := 0x0300, tenant := f.tenant, cs := Cs.farTimeout, addr := u.addr, ticket := u.ticket }))
  ∧ (∀ (s : State) (f : Fence) (cs ticket addr : Nat),
      let t := endFence s f cs ticket addr
      t.tal.fences = s.tal.fences.filter (fun g => decide (g.id ≠ f.id)) ∧ (∀ m, t.tally m = s.tally m)
      ∧ (f.mb = none → f.queue = none → t = { s with tal := { s.tal with fences := t.tal.fences } })
      ∧ (∀ mb c, f.queue = none → f.mb = some mb → (s.mb mb).cmd = some c → (t.mb mb).st = .complete ∧ (t.mb mb).rsp = rspBytes c 0 cs 0 0
          (fenceBytes (s.tally f.tenant) f.n ticket (if ticket = 0 then Cs.done else cs) addr f.clamped))
      ∧ (∀ q u, f.queue = some (q, u) → f.mb = none →
          t.q q = { s.q q with descs := (s.q q).descs.map fun d => if d.uid = u then { d with fence := none, final := some (cs, ticket) } else d }
          ∧ ∀ r, r ≠ q → t.q r = s.q r))

/-- What issuing and settling do (R362-R369), and LIQ_EXPIRE (R355). -/
def Obligations.TicketsSettleOnce : Prop :=
  (∀ (s : State) (n target space addr len : Nat) (flood : Bool),
      let r := issueTicket s n target space addr len flood
      r.1 = (if (s.tally n).issued = 0xFFFFFFFF then 1 else (s.tally n).issued + 1)
      ∧ (r.2.tally n).issued = r.1
      ∧ (r.2.tally n).unsettled = (s.tally n).unsettled ++ [{ ticket := r.1, addr := addr, target := target, space := space, flood := flood, detached := 0 }]
      ∧ (∀ m, m ≠ n → r.2.tally m = s.tally m))
  ∧ (∀ (s : State) (n ticket addr : Nat) (ev : Option Ev), (∀ u ∈ (s.tally n).unsettled, u.ticket ≠ ticket) → ∀ cs, settle s n ticket cs addr ev = s)
  ∧ (∀ (s : State) (n ticket addr : Nat) (ev : Option Ev) (u : Unsettled), s.leads n = false →
      (s.tally n).unsettled.find? (fun u => decide (u.ticket = ticket)) = some u →
      settle s n ticket Cs.done addr ev
        = s.setTally n { s.tally n with unsettled := dropFirst (fun u => decide (u.ticket = ticket)) (s.tally n).unsettled })
  ∧ (∀ (s : State) (n ticket cs addr : Nat) (u : Unsettled), s.leads n = false → privOf s n = false →
      (s.tally n).unsettled.find? (fun u => decide (u.ticket = ticket)) = some u → u.detached = 0 → cs ≠ Cs.done → (s.tally n).kept.length < 32 →
      let t := settle s n ticket cs addr none
      let k : Kept := { ticket := ticket, cs := cs, addr := addr, target := u.target, space := u.space, flood := u.flood }
      t.reg (talBase n + 0x18) = s.reg (talBase n + 0x18) + 1
      ∧ (t.tally n).unsettled = dropFirst (fun u => decide (u.ticket = ticket)) (s.tally n).unsettled
      ∧ (t.tally n).kept = keepOrdered k (s.tally n).kept
      ∧ t = { s with regs := t.regs, tal := { s.tal with t := t.tal.t } })
  ∧ (∀ (s : State) (i : Nat) (l : LiqLine), s.liq.lines[i]? = some l → l.pool ≠ 0 → l.bytes ≠ [] →
      let first := (l.bytes.map fun b => b.expires).foldl min (2 ^ 64)
      (∀ b ∈ l.bytes, b.expires ≤ max s.now first) →
      ∃ t, exec (.liqExpire i) s = .next t ∧ t.now = max s.now first ∧ t.reg 0x1C0010 = s.reg 0x1C0010 + 1 ∧ (∀ x ∈ t.liq.lines, x ≠ l))

/-- What raising an event does (R510, R513, R518, R531). -/
def Obligations.EventRecordsAreQueued : Prop :=
  (∀ (s : State) (e : Ev), rateLimit e.code = 0 → (e.code ≠ Ev.contained ∨ e.key = 0) →
      (s.log.waiting.length < 256 → ∃ r, s.raise e = { s with log := { s.log with waiting := s.log.waiting ++ [r] } }
        ∧ r.time = s.now ∧ r.source = e.src ∧ r.tenant = e.tenant ∧ r.code = e.code ∧ r.cs = e.cs ∧ r.addr = e.addr ∧ r.ticket = e.ticket
        ∧ r.severity = severityOf e)
      ∧ (256 ≤ s.log.waiting.length → (s.raise e).log = { s.log with dropsOwed := s.log.dropsOwed + 1 }
        ∧ (s.raise e).reg 0x580018 = s.reg 0x580018 + 1 ∧ s.raise e = { s with log := (s.raise e).log, regs := (s.raise e).regs }))
  ∧ (∀ (s : State) (e : Ev) (n : Nat), rateLimit e.code = n → 0 < n → e.code ≠ Ev.contained → LogRoom s →
      let k := e.code * 65536 + e.key
      let r := Tbl.get rateInit s.log.rates k
      let w := if r.interval = s.now / 1000000000 + 1 then r.written else 0
      (w < n → ∃ x, (s.raise e).log.waiting = s.log.waiting ++ [x] ∧ x.code = e.code ∧ x.data = slice e.data 0 32 ++ leBytes 4 (min (r.suppressed + 1) 0xFFFFFFFF)
        ∧ Tbl.get rateInit (s.raise e).log.rates k = { interval := s.now / 1000000000 + 1, written := w + 1, suppressed := 0 })
      ∧ (n ≤ w → (s.raise e).log.waiting = s.log.waiting
        ∧ Tbl.get rateInit (s.raise e).log.rates k = { interval := s.now / 1000000000 + 1, written := w, suppressed := r.suppressed + 1 }))
  ∧ (∀ e : Ev, e.enters = 2 → severityOf e = 4)
  ∧ (∀ e : Ev, e.enters ≠ 2 → e.critical = false → e.code ∉ [Ev.thermShutdown, Ev.bedLost, Ev.pllLost, Ev.islandWakeFail] →
      ((0x10 ≤ e.cs ∧ e.cs ≤ 0x22) ∨ e.enters = 1) → severityOf e = 3)

/-- LOG_READ, LOG_FOK_READ, LOG_MARK and LOG_RECORD_COMMIT (R515-R521). -/
def Obligations.LogCommands : Prop :=
  (∀ (s : State) (mb : Nat) (c : Cmd), Executing s 0x0C00 mb c →
      let from_ := readStart s (field c.payload 0 6)
      let r := scanRecs (ringRec s) (mbTenant mb) s.log.seq 512 (byteAt c.payload 6) from_.1
      ∃ t, exec .logRead s = .next t
        ∧ RanDone s t mb c (leBytes 6 r.1 ++ leBytes 1 r.2.length ++ leBytes 1 (b2n from_.2) ++ r.2.flatMap recBytes))
  ∧ (∀ (s : State) (mb : Nat) (c : Cmd), Executing s 0x0C01 mb c →
      let n := field c.payload 0 6
      let r := scanRecs (fokRec s) (mbTenant mb) 1664 512 (byteAt c.payload 6) (if n = 0xFFFFFFFFFFFF then 0 else min 1664 n)
      ∃ t, exec .logFokRead s = .next t
        ∧ RanDone s t mb c (leBytes 6 r.1 ++ leBytes 1 r.2.length ++ leBytes 1 0 ++ r.2.flatMap recBytes))
  ∧ (∀ (s : State) (mb : Nat) (c : Cmd), Executing s 0x0C02 mb c → LogRoom s →
      ∃ t u, exec .logMark s = .next t ∧ RanDone u t mb c []
        ∧ Records s u { code := Ev.logMark, src := 0xFFFF, tenant := mbTenant mb, data := c.payload })
  ∧ (∀ (s : State) (r : EvRec) (rest : List EvRec), s.log.ready = true → s.log.waiting = r :: rest →
      exec .logRecordCommit s = .next (oweDrops (commitRec { s with log := { s.log with waiting := rest } } r)))
  ∧ (∀ s : State, s.log.ready = false → exec .logRecordCommit s = .next s)

/-- QUEUE_CREATE, QUEUE_DESTROY, QUEUE_RESET and QUEUE_GET (R266-R268, R290, R291). -/
def Obligations.QueueCommands : Prop :=
  (∀ (s : State) (mb : Nat) (c : Cmd), Executing s 0x0400 mb c →
      let p := c.payload
      let t := bits (wordAt p 0) 14 8
      (ownsObject mb t = false → ∃ x, exec .queueCreate s = .next x ∧ Rejects s x mb c Rej.notOwner)
      ∧ (ownsObject mb t = true → s.followed t = false → createRefusal s p ≠ 0 →
          ∃ x, exec .queueCreate s = .next x ∧ Refuses s x mb c (createRefusal s p))
      ∧ (∀ q, ownsObject mb t = true → s.followed t = false → s.leads t = false → createRefusal s p = 0 → freeQueue s = some q →
          ∃ x u, exec .queueCreate s = .next x ∧ RanDone u x mb c (leBytes 4 (q + (u.q q).dbIdx * 65536))
            ∧ (u.q q).st = .active ∧ (u.q q).tenant = t ∧ (u.q q).chain = bit (wordAt p 0) 0 ∧ (u.q q).cont = bit (wordAt p 0) 1
            ∧ (u.q q).homeOnly = bit (wordAt p 0) 2 ∧ (bits (wordAt p 0) 7 4 < 8 → (u.q q).bed = bits (wordAt p 0) 7 4)
            ∧ (u.q q).ring = field p 8 8 ∧ (u.q q).cq = field p 0x18 8 ∧ (u.q q).cqLog2 = wordAt p 0x20
            ∧ (u.q q).depth = (if bits (wordAt p 0) 30 24 = 0 then 16 else bits (wordAt p 0) 30 24)
            ∧ (u.q q).chainLimit = (if wordAt p 0x24 = 0 then 65536 else wordAt p 0x24)
            ∧ (u.q q).head = 0 ∧ (u.q q).tail = 0 ∧ (u.q q).descs = [] ∧ (u.q q).phase = true
            ∧ (∀ r, r ≠ q → u.q r = s.q r) ∧ u = { s with qs := { s.qs with ctx := u.qs.ctx } }))
  ∧ (∀ (s : State) (mb : Nat) (c : Cmd) (destroy : Bool), Executing s (if destroy then 0x0401 else 0x0402) mb c →
      let q := wordAt c.payload 0
      (s.q q).st ≠ .free → s.followed (s.q q).tenant = false → s.leads (s.q q).tenant = false → queueBusy (s.q q) = false →
      (ownsObject mb (s.q q).tenant = false → ∃ x, exec (if destroy then .queueDestroy else .queueReset) s = .next x ∧ Rejects s x mb c Rej.notOwner)
      ∧ (ownsObject mb (s.q q).tenant = true → ∃ x u, exec (if destroy then .queueDestroy else .queueReset) s = .next x ∧ RanDone u x mb c []
          ∧ (destroy = true → u.q q = qctxInit q ∧ u.reg (0x100070 + 0x100 * q) = 0 ∧ u.reg (0x100074 + 0x100 * q) = 0)
          ∧ (destroy = false → u.q q = resetCtx (s.q q) ∧ u.regs = s.regs)
          ∧ (∀ k, k ≠ 0x100070 + 0x100 * q → k ≠ 0x100074 + 0x100 * q → u.reg k = s.reg k)
          ∧ (∀ r, r ≠ q → u.q r = s.q r) ∧ u = { s with qs := { s.qs with ctx := u.qs.ctx }, regs := u.regs }))
  ∧ (∀ (s : State) (mb : Nat) (c : Cmd), Executing s 0x0403 mb c →
      let q := wordAt c.payload 0
      (ownsObject mb (s.q q).tenant = false → ∃ x, exec .queueGet s = .next x ∧ Rejects s x mb c Rej.notOwner)
      ∧ (ownsObject mb (s.q q).tenant = true → ∃ x, exec .queueGet s = .next x ∧ RanDone s x mb c (bytesOfWords (qctxWords s q))))

/-- DOORBELL_TAIL, DOORBELL_CQHEAD, QUEUE_DISABLE and QUEUE_RESUME (R269-R274, R289). -/
def Obligations.DoorbellsMoveQueues : Prop :=
  (∀ (s : State) (fn : Fn) (idx q : Nat) (v : Word), fnAnswers s fn.val = true → doorbellQueue s fn.val idx = some q → dbDeaf s q = false →
      ((s.q q).chain = false → v.toNat % 65536 < 2 ^ (s.q q).ringLog2 →
        exec (.doorbellTail fn idx v) s = .next (fetchNext (s.modQ q fun c => { c with tail := v.toNat % 65536 }) q))
      ∧ ((s.q q).chain = false → 2 ^ (s.q q).ringLog2 ≤ v.toNat % 65536 → ∃ t, exec (.doorbellTail fn idx v) s = .next t
          ∧ t.reg (0x100070 + 0x100 * q) = s.reg (0x100070 + 0x100 * q) + 1 ∧ (∀ k, k ≠ 0x100070 + 0x100 * q → t.reg k = s.reg k)
          ∧ t = { s with regs := t.regs })
      ∧ (v.toNat % 65536 < 2 ^ (s.q q).cqLog2 → ∃ t, exec (.doorbellCqhead fn idx v) s = .next t
          ∧ t.q q = { s.q q with cqHead := v.toNat % 65536 } ∧ (∀ r, r ≠ q → t.q r = s.q r) ∧ t = { s with qs := { s.qs with ctx := t.qs.ctx } })
      ∧ (2 ^ (s.q q).cqLog2 ≤ v.toNat % 65536 → exec (.doorbellCqhead fn idx v) s = .next (s.incReg (0x100070 + 0x100 * q))))
  ∧ (∀ (s : State) (fn : Fn) (idx q : Nat) (v : Word), fnAnswers s fn.val = true → doorbellQueue s fn.val idx = some q → dbDeaf s q = true →
      ∀ row, row ∈ [Instr.doorbellTail fn idx v, .doorbellCqhead fn idx v, .queueDisable fn idx, .queueResume fn idx] →
        exec row s = .next (s.incReg (0x100070 + 0x100 * q)))
  ∧ (∀ (s : State) (fn : Fn) (idx : Nat) (v : Word), fnAnswers s fn.val = true → doorbellQueue s fn.val idx = none →
      ∀ row, row ∈ [Instr.doorbellTail fn idx v, .doorbellCqhead fn idx v, .queueDisable fn idx, .queueResume fn idx] → exec row s = .next s)
  ∧ (∀ (s : State) (fn : Fn) (idx q : Nat), fnAnswers s fn.val = true → doorbellQueue s fn.val idx = some q →
      s.followed (s.q q).tenant = false → s.leads (s.q q).tenant = false →
      ((s.q q).st = .active ∨ (s.q q).st = .halted → ∃ t, exec (.queueDisable fn idx) s = .next t ∧ t = disableNow s q
          ∧ (t.q q).st = .disabled ∧ (t.q q).halting = false ∧ (t.q q).descs = [])
      ∧ ((s.q q).st = .halted → (s.q q).needReset = false →
          exec (.queueResume fn idx) s
            = .next (fetchNext (s.modQ q fun c => { c with st := .active, halting := false, chainCount := 0, mirrorWait := false }) q)))

/-- DESC_FETCH_DONE and SEGMENT_PUSH (R236, R239, R246, R272, R286, R288). -/
def Obligations.DescriptorsAreFetchedCutAndPushed : Prop :=
  (∀ (s : State) (q : Fin 2048) (tag addr n w : Nat) (d : List Byte), (s.q q.val).fetching = some (w, addr, n) → 0 < n → (s.q q.val).halting = false →
      tagOf (s.fn (fnOf (s.q q.val).tenant)) (.fetch q.val) = some tag → d.length = 64 * n →
      exec (.descFetchDone q (.ok d)) s
        = .next (fetchNext (takeFetch ((freeTag s (fnOf (s.q q.val).tenant) tag).modQ q.val fun c => { c with fetching := none }) q.val addr n d) q.val))
  ∧ (∀ (s : State) (q : Fin 2048) (tag addr n w : Nat) (res : HostRes), (s.q q.val).fetching = some (w, addr, n) → 0 < n →
      tagOf (s.fn (fnOf (s.q q.val).tenant)) (.fetch q.val) = some tag → res ∈ [HostRes.ur, .ca, .poison] →
      ∃ t d, exec (.descFetchDone q res) s = .next t ∧ (t.q q.val).halting = true ∧ (t.q q.val).fetching = none
        ∧ (t.q q.val).descs = (s.q q.val).descs ++ [d] ∧ d.final = some (hostCs (hostEnd res), 0xFFFFFFFF) ∧ d.fetchFail = true
        ∧ ((s.q q.val).halting = false → (t.q q.val).faultCs = hostCs (hostEnd res) ∧ (t.q q.val).faultAddr = addr)
        ∧ (∀ r, r ≠ q.val → t.q r = s.q r))
  ∧ (∀ (s : State) (q : Fin 2048), (s.q q.val).fetching = none → ∀ res, exec (.descFetchDone q res) s = .next (fetchNext s q.val))
  ∧ (∀ (s : State) (q : Fin 2048),
      ((s.q q.val).st ≠ .active → exec (.segmentPush q) s = .next s)
      ∧ (∀ u b, (s.q q.val).st = .active → mayRun s (s.q q.val).tenant = true → u = countDeferred s q.val (s.q q.val).descs false →
          atCap u (s.q q.val).tenant = false → pushBed u (s.q q.val).bed = some b →
          exec (.segmentPush q) s = .next (pushFirst u q.val b (pushable (s.q q.val).descs false false))))
  ∧ (∀ (s : State) (q b i k : Nat) (d : Desc) (g : SegPlan), freeSlotOf s b i = some k →
      let t := putSegment s q b i d g
      (t.slot k).busy = true ∧ (t.slot k).started = false ∧ (t.slot k).queue = q ∧ (t.slot k).uid = d.uid ∧ (t.slot k).off = g.off
        ∧ (t.slot k).len = g.len ∧ (t.slot k).src = g.src ∧ (t.slot k).dst = g.dst ∧ (t.slot k).tenant = (s.q q).tenant
        ∧ (t.slot k).pinned = g.pinned ∧ (∀ j, j ≠ k → t.slot j = s.slot j)
        ∧ (t.q q).descs = modFirst (fun x => decide (x.uid = d.uid))
            (fun x => { x with toPush := x.toPush.tail, inPans := x.inPans ++ [(g.off, g.len, g.pinned)] }) (s.q q).descs
        ∧ ∀ r, r ≠ q → t.q r = s.q r)

/-- COMPLETION_RELEASE and IRQ_MODERATION_TIMER (R252, R281-R285). -/
def Obligations.EntriesAreReleasedInOrder : Prop :=
  (∀ (s : State) (q : Fin 2048), mayRelease s q.val = false → exec (.completionRelease q) s = .next s)
  ∧ (∀ (s : State) (q : Fin 2048), mayRelease s q.val = true → (s.q q.val).descs = [] →
      exec (.completionRelease q) s = .next (haltCheck s q.val))
  ∧ (∀ (s : State) (q : Fin 2048) (d : Desc) (r : List Desc), mayRelease s q.val = true → (s.q q.val).descs = d :: r →
      (d.opcode = 4 → d.final = none → d.fence = none → exec (.completionRelease q) s = .next (settleStart s q.val d))
      ∧ (¬(d.opcode = 4 ∧ d.final = none) →
        (halfDue d = false → segsDone d = false → exec (.completionRelease q) s = .next s)
        ∧ (halfDue d = true ∨ segsDone d = true → cqRoom (s.q q.val) = false →
            ((s.q q.val).stalled = true → exec (.completionRelease q) s = .next s)
            ∧ ((s.q q.val).stalled = false → ∃ t, exec (.completionRelease q) s = .next t ∧ (t.q q.val) = { s.q q.val with stalled := true }
                ∧ t.reg (0x100074 + 0x100 * q.val) = s.reg (0x100074 + 0x100 * q.val) + 1
                ∧ (∀ j, j ≠ q.val → t.q j = s.q j) ∧ (∀ k, k ≠ 0x100074 + 0x100 * q.val → t.reg k = s.reg k)
                ∧ t = { s with qs := { s.qs with ctx := t.qs.ctx }, regs := t.regs }))
        ∧ (cqRoom (s.q q.val) = true → s.leads (s.q q.val).tenant = false →
            (halfDue d = true → exec (.completionRelease q) s = .next (halfEntry (s.modQ q.val fun c => { c with mirrorWait := false }) q.val d))
            ∧ (halfDue d = false → segsDone d = true →
                exec (.completionRelease q) s = .next (fullEntry (s.modQ q.val fun c => { c with mirrorWait := false }) q.val d)))))
  ∧ (∀ (s : State) (q : Fin 2048),
      (0 < (s.q q.val).irqPend → 0 < (s.q q.val).timer → ∃ t, exec (.irqModerationTimer q) s = .next t ∧ (t.q q.val) = { s.q q.val with irqPend := 0 }
        ∧ t.now = max s.now (s.q q.val).irqAt ∧ (∀ j, j ≠ q.val → t.q j = s.q j) ∧ t.regs = s.regs
        ∧ t = { s with now := t.now, qs := { s.qs with ctx := t.qs.ctx }, ep := t.ep, out := t.out })
      ∧ ((s.q q.val).irqPend = 0 ∨ (s.q q.val).timer = 0 → exec (.irqModerationTimer q) s = .next s))

/-- SEGMENT_START, SEGMENT_READ_DATA, SEGMENT_DONE and SEGMENT_CANCEL (R240-R242, R251). -/
def Obligations.SegmentsRunAndAreReported : Prop :=
  (∀ (s : State) (b : Fin 8) (pos : Fin 16),
      let can := oldestOf s ((posBusy s b.val pos.val).filter fun k => startable s k)
      (s.cont.dev = true ∨ domUp (refreshDom s (4 + b.val)) (4 + b.val) = false → exec (.segmentStart b pos) s = .next s)
      ∧ (can = none → exec (.segmentStart b pos) s = .next s)
      ∧ (∀ k, can = some k → windowFits s b.val pos.val k = false → exec (.segmentStart b pos) s = .next s)
      ∧ (∀ k, can = some k → s.cont.dev = false → domUp (refreshDom s (4 + b.val)) (4 + b.val) = true → windowFits s b.val pos.val k = true →
          exec (.segmentStart b pos) s = .next (startSlot s k)))
  ∧ (∀ (s : State) (b : Fin 8) (pos : Fin 16) (slot : Fin 32) (res : HostRes),
      let k := (b.val * 16 + pos.val) * 32 + slot.val
      ((s.slot k).busy = false ∨ (s.slot k).started = false → exec (.segmentReadData b pos slot res) s = .next s)
      ∧ ((s.slot k).busy = true → (s.slot k).started = true → isRmwSlot s k = false →
          (∀ a e, (s.slot k).src = .host a e → exec (.segmentReadData b pos slot res) s = .next (segHostData s k (hostEnd res)))
          ∧ (∀ x1 x2 x3 x4 x5 x6 x7 x8, (s.slot k).src = .rack x1 x2 x3 x4 x5 x6 x7 x8 → exec (.segmentReadData b pos slot res) s = .next (segRackData s k)))
      ∧ ((s.slot k).busy = true → (s.slot k).started = true → (s.slot k).frozen = false → isRmwSlot s k = true →
          exec (.segmentReadData b pos slot res) s = .next (segRmwData s k)))
  ∧ (∀ (s : State) (b : Fin 8) (pos : Fin 16) (slot : Fin 32),
      let k := (b.val * 16 + pos.val) * 32 + slot.val
      let u := slotFlush s k
      (segFinished (u.slot k) = false → exec (.segmentDone b pos slot) s = .next u)
      ∧ (segFinished (u.slot k) = true → (u.slot k).fail = none → ∃ v, exec (.segmentDone b pos slot) s = .next (halfNow v (u.slot k).queue)
          ∧ v.slot k = slotInit k ∧ (∀ j, j ≠ k → v.slot j = u.slot j)
          ∧ v.reg (panReg (servingPan u k) 4) = u.reg (panReg (servingPan u k) 4) + 1
          ∧ ∀ r, r ≠ (u.slot k).queue → v.q r = u.q r))
  ∧ (∀ (s : State) (b : Fin 8) (pos : Fin 16),
      let gone := oldestOf s ((posBusy s b.val pos.val).filter fun k => (s.slot k).cancelled && (s.slot k).moving.isNone)
      (gone = none → exec (.segmentCancel b pos) s = .next s)
      ∧ (∀ k, gone = some k → ∃ t, exec (.segmentCancel b pos) s = .next t ∧ t.slot k = slotInit k ∧ (∀ j, j ≠ k → t.slot j = s.slot j)
          ∧ ∀ r, r ≠ (s.slot k).queue → t.q r = s.q r))

/-- RAKE_ADVERTISE, RAKE_WITHIN_BED, RAKE_ACROSS_BEDS and XRAKE_SEGMENTS_ARRIVE (R247-R250). -/
def Obligations.PansRakeWork : Prop :=
  (∀ s : State, ∃ t, exec .rakeAdvertise s = .next t ∧ (∀ b, b < 8 → t.bed b = { s.bed b with advertised := bedRakable s b })
      ∧ (∀ b, 8 ≤ b → t.bed b = s.bed b) ∧ t = { s with qs := t.qs } ∧ t.qs.slots = s.qs.slots ∧ t.qs.ctx = s.qs.ctx ∧ t.qs.xrakes = s.qs.xrakes)
  ∧ (∀ (s : State) (b : Fin 8) (pos : Fin 16), (mayRake s b.val pos.val = false →
        exec (.rakeWithinBed b pos) s = .next s ∧ exec (.rakeAcrossBeds b pos) s = .next s)
      ∧ (donorPos s b.val false = none → exec (.rakeWithinBed b pos) s = .next s)
      ∧ (∀ j k k', mayRake s b.val pos.val = true → donorPos s b.val false = some j → newestOf s (posRakable s b.val j false) = some k →
          freeSlotOf s b.val pos.val = some k' → windowFits s b.val pos.val k = true → k ≠ k' →
          ∃ u, exec (.rakeWithinBed b pos) s = .next (if startable u k' then startSlot u k' else u)
            ∧ u.slot k = slotInit k ∧ u.slot k' = { s.slot k with order := s.qs.orderNext, moving := none }
            ∧ (∀ x, x ≠ k → x ≠ k' → u.slot x = s.slot x)
            ∧ (panReg (servingPan s k') 0x10 ≠ panReg (servingPan s k) 0x14 →
                u.reg (panReg (servingPan s k') 0x10) = s.reg (panReg (servingPan s k') 0x10) + 1
                ∧ u.reg (panReg (servingPan s k) 0x14) = s.reg (panReg (servingPan s k) 0x14) + 1)))
  ∧ (∀ (s : State) (b : Fin 8) (pos : Fin 16), mayRake s b.val pos.val = true → donorPos s b.val false = none →
      bit (rakeCtl s) 16 = true → bit (bedCtl s b.val) 1 = true → (s.qs.xrakes.any fun r => decide (r.1 = 16 * b.val + pos.val)) = false →
      (victimBed s b.val = none → exec (.rakeAcrossBeds b pos) s = .next s)
      ∧ (∀ v, victimBed s b.val = some v → domUp s (4 + v) = false → exec (.rakeAcrossBeds b pos) s = .next (s.incReg 0x188014))
      ∧ (∀ v l t, victimBed s b.val = some v → domUp s (4 + v) = true →
          takeAcross s v (16 * b.val + pos.val) (min (min (clampTo 1 8 (bits (rakeCtl s) 11 8)) (posFree s b.val pos.val))
            (min (max 1 ((16384 - windowUsed s b.val pos.val) / 4096)) (((s.bed v).advertised + 1) / 2))) = (l, t) →
          exec (.rakeAcrossBeds b pos) s = .next (if l = [] then t.incReg 0x188014 else t.modQs fun q => { q with xrakes := q.xrakes ++ [(16 * b.val + pos.val, l)] })))
  ∧ (∀ (s : State) (b : Fin 8) (pos : Fin 16),
      let mine := s.qs.xrakes.find? fun r => decide (r.1 = 16 * b.val + pos.val)
      (mine = none → exec (.xrakeSegmentsArrive b pos) s = .next s)
      ∧ (∀ d k, mine = some (d, [k]) → (s.slot k).moving = some (16 * b.val + pos.val) →
          (freeSlotOf s b.val pos.val = none → ∃ t, exec (.xrakeSegmentsArrive b pos) s = .next t
            ∧ t.slot k = { s.slot k with moving := none } ∧ ∀ j, j ≠ k → t.slot j = s.slot j)
          ∧ (∀ k', freeSlotOf s b.val pos.val = some k' → k ≠ k' → ∃ u, exec (.xrakeSegmentsArrive b pos) s
              = .next (if startable u k' ∧ !u.cont.dev ∧ domUp u (4 + b.val) ∧ windowFits u b.val pos.val k' then startSlot u k' else u)
            ∧ u.slot k = slotInit k ∧ u.slot k' = { s.slot k with order := s.qs.orderNext, moving := none }
            ∧ ∀ x, x ≠ k → x ≠ k' → u.slot x = s.slot x)))

/-- PAN_FAULT, PAN_WATCHDOG_EXPIRE, SPARE_SELF_TEST and BED_PLL_UNLOCK (R257-R261). -/
def Obligations.PansRetireToTheirSpare : Prop :=
  (∀ (s : State) (p : Fin 136), (panServes s p.val = false → exec (.panFault p) s = .next s ∧ exec (.panWatchdogExpire p) s = .next s)
      ∧ (panServes s p.val = true → exec (.panFault p) s = .next (retirePan s p.val 0 0 0)))
  ∧ (∀ (s : State) (p : Fin 136) (k : Nat), panServes s p.val = true → k ∈ posBusy s (p.val / 17) (s.pan p.val).pos →
      (s.slot k).started = true → (s.slot k).frozen = false → (s.slot k).sent = false → (s.slot k).readReq = false →
      (s.slot k).waitEntry = false → slotReadOf s k = none → isRmwSlot s k = false →
      exec (.panWatchdogExpire p) s = .next (retirePan s p.val 0 0 0))
  ∧ (∀ (s : State) (p sp action m b : Nat), bedSpare s (p / 17) = some sp → sp ≠ p →
      let t := retirePan s p action m b
      (t.pan p) = { st := 4, pos := 31 } ∧ (t.pan sp) = { st := 0, pos := (s.pan p).pos } ∧ ∀ q, q ≠ p → q ≠ sp → t.pan q = s.pan q)
  ∧ (∀ (s : State) (p action m b : Nat), bedSpare s (p / 17) = none →
      let t := retirePan s p action m b
      (t.pan p) = { st := 4, pos := 31 } ∧ (∀ q, q ≠ p → t.pan q = s.pan q)
        ∧ ((s.pan p).pos, (fosterPos s (p / 17) (s.pan p).pos).getD 31) ∈ (t.bed (p / 17)).closed)
  ∧ (∀ (s : State) (b : Fin 8), exec (.spareSelfTest b true) s = .next s
      ∧ (bedSpare s b.val = none → exec (.spareSelfTest b false) s = .next s)
      ∧ (∀ sp, bedSpare s b.val = some sp → LogRoom s → ∃ t, exec (.spareSelfTest b false) s = .next t ∧ t.pan sp = { st := 5, pos := 31 }
          ∧ (∀ q, q ≠ sp → t.pan q = s.pan q)
          ∧ Records { s with qs := { s.qs with pans := t.qs.pans }, mram := t.mram } t
              { code := Ev.panSpareFail, src := srcPan sp, data := spareData 1 0 sp 0 0 0 }))
  ∧ (∀ (s : State) (b : Fin 8), (domUp s (4 + b.val) = false → exec (.bedPllUnlock b) s = .next s)
      ∧ (domUp s (4 + b.val) = true → ∃ t, exec (.bedPllUnlock b) s = .next t ∧ t = bedLost s b.val
          ∧ (t.bed b.val).lost = true ∧ (t.bed b.val).advertised = 0))

/-- PORT_SERVICE_IN, PORT_SERVICE_OUT, PORT_SLAVE_SET, PROFILE_GET, PROFILE_SET and PROFILE_CLEAR (R295-R297, R304, R305, chapter 14). -/
def Obligations.PortServiceAndProfiles : Prop :=
  (∀ (s : State) (mb : Nat) (c : Cmd) (into : Bool), Executing s 0x0500 mb c → bit (wordAt c.payload 0) 8 = into →
      let p := wordAt c.payload 0 % 2
      let row := if into then Instr.portServiceIn else .portServiceOut
      (targetAbsent s p = true → stopReached s p = false → ∃ t, exec row s = .next t ∧ Refuses s t mb c 1)
      ∧ (targetAbsent s p = false →
        ((s.port p).st = .contained → ∃ t, exec row s = .next t ∧ Refuses s t mb c 3)
        ∧ ((s.port p).st = (if into then PortSt.inService else .outOfService) → ∃ t, exec row s = .next t ∧ RanDone s t mb c [])
        ∧ (into = false → (s.port p).st = .inService → exec row s = .next (finishStop (svcStop s p mb) p))
        ∧ (into = true → (s.port p).st = .outOfService → ((List.range 4).any fun b => !bankOk s p b) = true →
            ∃ t, exec row s = .next t ∧ Refuses s t mb c 4)
        ∧ (into = true → (s.port p).st = .outOfService → ((List.range 4).all fun b => bankOk s p b) = true →
            (∀ kind off, persFail s p = some (kind, off) → exec row s = .next (finishStop (refuse (persInvalid s p kind off) mb 5 0) p))
            ∧ (persFail s p = none → exec row s = .next (finishStop (done (portUp (loadPers s p).2 p) mb []) p)))))
  ∧ (∀ (s : State) (mb : Nat) (c : Cmd), Executing s 0x0501 mb c →
      let p := wordAt c.payload 0 % 2
      let r := bits (wordAt c.payload 0) 11 8
      let ws := wordsOf c.payload 8
      (slaveRefusal s p r ws ≠ 0 → ∃ t, exec .portSlaveSet s = .next t ∧ Refuses s t mb c (slaveRefusal s p r ws))
      ∧ (slaveRefusal s p r ws = 0 → ∃ t u, exec .portSlaveSet s = .next t ∧ RanDone { u with twin := t.twin } t mb c []
          ∧ (∀ i, i < 8 → slvWord u p r i = (w32 (nth ws i 0)).toNat)
          ∧ (∀ x q i, i < 8 → ¬(x = p ∧ q = r) → slvWord u x q i = slvWord s x q i)
          ∧ u = { s with ports := u.ports }
          ∧ t.twin = { s.twin with inactive := s.twin.inactive.filter fun n => decide (n ≠ 16 * p + r) }))
  ∧ (∀ (s : State) (mb : Nat) (c : Cmd), Executing s 0x0502 mb c → ∃ t, exec .profileGet s = .next t
      ∧ RanDone s t mb c (bytesOfWords (profWords s (wordAt c.payload 0 % 2) (bits (wordAt c.payload 0) 13 8))))
  ∧ (∀ (s : State) (mb : Nat) (c : Cmd), Executing s 0x0503 mb c →
      let p := wordAt c.payload 0 % 2
      let r := bits (wordAt c.payload 0) 13 8
      let u := s.modProf (profKey p r) fun x => { x with
        w3 := w32 (x.w3.toNat % 4 + wordAt c.payload 4), w4 := w32 (wordAt c.payload 8), w5 := w32 (wordAt c.payload 12) }
      (warm (s.prof (profKey p r)) = false → exec .profileSet s
          = .next (done (recheckBudgets (u.modProf (profKey p r) fun x => { x with t := profTimeout x })) mb []))
      ∧ (warm (s.prof (profKey p r)) = true → exec .profileSet s = .next (done (recheckBudgets (evalProfile u p r)) mb [])))
  ∧ (∀ (s : State) (mb : Nat) (c : Cmd), Executing s 0x0504 mb c → bit (wordAt c.payload 4) 1 = false →
      let p := wordAt c.payload 0 % 2
      let r := bits (wordAt c.payload 0) 13 8
      let v := clearProfile (discardSamples s p [r]) p r (bit (wordAt c.payload 4) 0)
      exec .profileClear s = .next (done (recheckBudgets v) mb [])
        ∧ (v.prof (profKey p r)).subs = [] ∧ (v.prof (profKey p r)).part = [] ∧ ∀ k, k ≠ profKey p r → v.prof k = s.prof k)
  ∧ (∀ (s : State) (mb : Nat) (c : Cmd), Executing s 0x0504 mb c → bit (wordAt c.payload 4) 1 = true →
      let p := wordAt c.payload 0 % 2
      let rs := List.range (persRegions (persT s p))
      exec .profileClear s = .next (done (recheckBudgets (rs.foldl (fun s r => clearProfile s p r (bit (wordAt c.payload 4) 0)) (discardSamples s p rs))) mb []))

/-- HARVEST_CREATE, HARVEST_POINTS, HARVEST_START, HARVEST_STOP, HARVEST_GET, FLOOD_CREATE and ROUTE_SET (chapter 15). -/
def Obligations.SchedulesAreBuiltAndStarted : Prop :=
  (∀ (s : State) (mb : Nat) (c : Cmd), Executing s 0x0600 mb c → ownsObject mb (wordAt c.payload 0 % 128) = true →
      let p := c.payload
      (wordAt p 0x18 = 0 → ∃ t, exec .harvestCreate s = .next t ∧ Refuses s t mb c 1)
      ∧ (wordAt p 0x18 ≠ 0 → field p 0x10 8 % 64 ≠ 0 → ∃ t, exec .harvestCreate s = .next t ∧ Refuses s t mb c 2)
      ∧ (wordAt p 0x18 ≠ 0 → field p 0x10 8 % 64 = 0 →
          (((∀ h, h < 8 → (s.sched h).st ≠ .free) ∨ takeRun s (wordAt p 0 % 128) (wordAt p 0xC) = none) →
            ∃ t, exec .harvestCreate s = .next t ∧ Refuses s t mb c 3)
          ∧ (∀ h f, h < 8 → (s.sched h).st = .free → (∀ g, g < h → (s.sched g).st ≠ .free) →
              takeRun s (wordAt p 0 % 128) (wordAt p 0xC) = some f →
              ∃ t u, exec .harvestCreate s = .next t ∧ RanDone u t mb c (leBytes 4 h) ∧ (u.sched h).st = .stopped
                ∧ (u.sched h).tenant = wordAt p 0 % 128 ∧ (u.sched h).period = wordAt p 4 ∧ (u.sched h).phase = wordAt p 8
                ∧ (u.sched h).hFirst = f ∧ (u.sched h).hCap = wordAt p 0xC ∧ (u.sched h).image = field p 0x10 8 ∧ (u.sched h).half = wordAt p 0x18
                ∧ (∀ g, g ≠ h → u.sched g = s.sched g) ∧ u = { s with har := u.har })))
  ∧ (∀ (s : State) (mb : Nat) (c : Cmd), Executing s 0x0601 mb c →
      let p := c.payload
      let h := wordAt p 0 % 8
      let flood := bit (wordAt p 0) 8
      let cap := if flood then (if (s.sched h).hasFlood then (s.sched h).fCap else 0) else (s.sched h).hCap
      ownsObject mb (s.sched h).tenant = true →
      (cap < field p 4 2 + field p 6 2 → ∃ t, exec .harvestPoints s = .next t ∧ Rejects s t mb c Rej.badParam)
      ∧ (field p 4 2 + field p 6 2 ≤ cap → (s.sched h).st ≠ .stopped → ∃ t, exec .harvestPoints s = .next t ∧ Answers s t mb c 1 0 4 h [])
      ∧ (field p 4 2 + field p 6 2 ≤ cap → (s.sched h).st = .stopped →
          ∃ t u, exec .harvestPoints s = .next t ∧ RanDone u t mb c []
            ∧ (∀ i, i < field p 6 2 → Tbl.get (fun _ => false) u.har.loaded ((if flood then (s.sched h).fFirst else (s.sched h).hFirst) + field p 4 2 + i) = true)
            ∧ (∀ g, u.sched g = s.sched g) ∧ u = { s with har := u.har }))
  ∧ (∀ (s : State) (mb : Nat) (c : Cmd), Executing s 0x0602 mb c →
      let h := wordAt c.payload 0 % 8
      ownsObject mb (s.sched h).tenant = true → s.followed (s.sched h).tenant = false → (s.sched h).st = .stopped →
      (∀ why d, firstRefusal s h = some (why, d) → ∃ t, exec .harvestStart s = .next t ∧ Answers s t mb c 1 0 why d [])
      ∧ (∀ g, firstRefusal s h = none → failingSched s h = some g → bit (wordAt c.payload 0) 8 = false →
          ∃ t, exec .harvestStart s = .next t ∧ Answers s t mb c 1 0 8 g (startBytes s h))
      ∧ (firstRefusal s h = none → failingSched s h = none →
          exec .harvestStart s = .next (done (startSched s h false) mb (startBytes s h)))
      ∧ (firstRefusal s h = none → failingSched s h ≠ none → bit (wordAt c.payload 0) 8 = true →
          exec .harvestStart s = .next (done (startSched s h true) mb (startBytes s h))))
  ∧ (∀ (s : State) (mb : Nat) (c : Cmd) (free : Bool), Executing s 0x0603 mb c → bit (wordAt c.payload 0) 8 = free →
      let h := wordAt c.payload 0 % 8
      let row := if free then Instr.harvestStopFree else .harvestStop
      ownsObject mb (s.sched h).tenant = true →
      ((s.sched h).st = .free → ∃ t, exec row s = .next t ∧ Rejects s t mb c Rej.badParam)
      ∧ ((s.sched h).st = .stopped → ∃ t u, exec row s = .next t ∧ RanDone u t mb c []
          ∧ u.sched h = (if free then schedInit h else s.sched h) ∧ (∀ g, g ≠ h → u.sched g = s.sched g) ∧ u = { s with har := u.har })
      ∧ ((s.sched h).st = .running → ∃ u, exec row s = .next (done u mb []) ∧ (u.sched h).st = (if free then .free else .stopped)))
  ∧ (∀ (s : State) (mb : Nat) (c : Cmd), Executing s 0x0604 mb c → ownsObject mb (s.sched (wordAt c.payload 0)).tenant = true →
      ∃ t, exec .harvestGet s = .next t ∧ RanDone s t mb c (bytesOfWords (schedWords s (wordAt c.payload 0))))
  ∧ (∀ (s : State) (mb : Nat) (c : Cmd) (f : Nat), Executing s 0x0605 mb c →
      let p := c.payload
      let x := s.sched (wordAt p 0)
      ownsObject mb x.tenant = true → wordAt p 4 ≠ 0 → wordAt p 0x10 ≠ 0 → field p 8 8 % 64 = 0 → takeRun s x.tenant (wordAt p 4) = some f →
      (x.st ≠ .stopped → ∃ t, exec .floodCreate s = .next t ∧ Answers s t mb c 1 0 4 (wordAt p 0) [])
      ∧ (x.st = .stopped → x.hasFlood = false → ∃ t u, exec .floodCreate s = .next t ∧ RanDone u t mb c []
          ∧ u.sched (wordAt p 0) = { x with hasFlood := true, fFirst := f, fCap := wordAt p 4, outBase := field p 8 8, outSize := wordAt p 0x10 }
          ∧ (∀ g, g ≠ wordAt p 0 → u.sched g = s.sched g) ∧ u = { s with har := u.har }))
  ∧ (∀ (s : State) (mb : Nat) (c : Cmd), Executing s 0x0606 mb c →
      let p := wordAt c.payload 0 % 2
      let r := bits (wordAt c.payload 0) 13 8
      (routeInUse s p r = true → ∃ t, exec .routeSet s = .next t ∧ Refuses s t mb c 5)
      ∧ (routeInUse s p r = false → ∃ t u, exec .routeSet s = .next t ∧ RanDone u t mb c []
          ∧ Tbl.get routeInit u.har.routes (p * 64 + r) = (wordsOf c.payload 4).map w32
          ∧ (∀ k, k ≠ p * 64 + r → Tbl.get routeInit u.har.routes k = Tbl.get routeInit s.har.routes k) ∧ u = { s with har := { s.har with routes := u.har.routes } }))

/-- LINK_SERVICE_IN, LINK_SERVICE_OUT, LINK_STATUS, LINK_LOOP, LANE_EYE_SCAN, EYE_SCAN_DONE, LINK_RETRAIN and LINK_SERVICE_TIMEOUT (chapters 16 and 17). -/
def Obligations.LinkCommands : Prop :=
  (∀ (s : State) (mb : Nat) (c : Cmd), Executing s 0x0700 mb c → bit (wordAt c.payload 0) 8 = true →
      let k := wordAt c.payload 0 % 8
      let row := Instr.linkServiceIn
      ((imgLink s k).absent = true ∨ (s.link k).st = .absent → ∃ t, exec row s = .next t ∧ Refuses s t mb c 1)
      ∧ ((imgLink s k).absent = false → (s.link k).st ≠ .absent →
        (s.linkCause k ≠ 0 → ∃ t, exec row s = .next t ∧ Refuses s t mb c 3)
        ∧ (s.linkCause k = 0 → (s.link k).st = .up → (s.link k).stopMb = none → ∃ t, exec row s = .next t ∧ RanDone s t mb c [])
        ∧ (s.linkCause k = 0 → (s.link k).st = .outOfService →
            exec row s = .next (linkStart (waitCmd (s.modLink k fun l => { l with svcMb := some mb }) mb) k))))
  ∧ (∀ (s : State) (mb : Nat) (c : Cmd), Executing s 0x0700 mb c → bit (wordAt c.payload 0) 8 = false →
      let k := wordAt c.payload 0 % 8
      let row := Instr.linkServiceOut
      ((imgLink s k).absent = true ∨ (s.link k).st = .absent → ∃ t, exec row s = .next t ∧ Refuses s t mb c 1)
      ∧ ((imgLink s k).absent = false → (s.link k).st = .outOfService → ∃ t, exec row s = .next t ∧ RanDone s t mb c [])
      ∧ ((imgLink s k).absent = false → (s.link k).st ≠ .absent → (s.link k).st ≠ .outOfService →
          ∃ u, exec row s = .next (linkStopCheck ((linkWaiting (s.link k)).foldl (fun s a => failAcc s a Cs.islandAbsent (accFirst a) 0
              (some { code := Ev.portNotInService, src := srcLink k, key := 0x12 + k })) u) k)
            ∧ (u.link k).stopMb = some mb ∧ (u.link k).svcMb = none ∧ (u.mb mb).st = .waiting
            ∧ (linkWaiting (s.link k) = [] → (u.link k).txQ = (s.link k).txQ)
            ∧ (∀ j, j ≠ k → u.link j = s.link j) ∧ u = { s with links := u.links, her := u.her }))
  ∧ (∀ (s : State) (mb : Nat) (c : Cmd), Executing s 0x0701 mb c → ∃ t, exec .linkStatus s = .next t
      ∧ RanDone s t mb c (bytesOfWords ((List.range 16).map fun i => uliWord s (wordAt c.payload 0 % 8) (4 * i))))
  ∧ (∀ (s : State) (mb : Nat) (c : Cmd), Executing s 0x0702 mb c →
      let k := wordAt c.payload 0 % 8
      let w := wordAt c.payload 4
      ((s.link k).st ≠ .outOfService → ∃ t, exec .linkLoop s = .next t ∧ Refuses s t mb c 1)
      ∧ ((s.link k).st = .outOfService → w % 4 = 3 → (s.link k).peerLoopOk = false → ∃ t, exec .linkLoop s = .next t ∧ Refuses s t mb c 2)
      ∧ ((s.link k).st = .outOfService → w % 4 ≠ 0 → (w % 4 = 3 → (s.link k).peerLoopOk = true) → (s.link k).loopMode = 0 →
          ∃ t, exec .linkLoop s = .next t ∧ (t.link k).lst = .loop ∧ (t.link k).loopMode = w % 4 ∧ (t.link k).loopMask = bits w 8 4
            ∧ (t.link k).loopMb = some mb ∧ (t.mb mb).st = .waiting ∧ (∀ p, p < 5 → bit w (4 + p) = true → (t.lane (laneNo k p)).st = .loop)
            ∧ (∀ p, p < 5 → bit w (4 + p) = false → t.lane (laneNo k p) = s.lane (laneNo k p)))
      ∧ ((s.link k).st = .outOfService → w % 4 = 0 → (s.link k).loopMode = 0 →
          ∃ t, exec .linkLoop s = .next t ∧ RanDone { s with fresh := s.fresh + 7 } t mb c []))
  ∧ (∀ (s : State) (k : LinkId) (es : List Word) (n : DWord) (l : BitVec 5), ((s.link k.val).loopMode = 0 → exec (.loopDurationExpire k es n l) s = .next s)
      ∧ (∀ mb, (s.link k.val).loopMode ≠ 0 → (s.link k.val).loopMb = some mb → ∃ u, exec (.loopDurationExpire k es n l) s
            = .next (done u mb (loopBytes (es.map BitVec.toNat) n.toNat l.toNat))
          ∧ (u.link k.val).lst = .off ∧ (u.link k.val).loopMode = 0 ∧ (u.link k.val).loopMb = none ∧ ∀ j, j ≠ k.val → u.link j = s.link j))
  ∧ (∀ (s : State) (mb : Nat) (c : Cmd), Executing s 0x0703 mb c →
      (receiving (s.lane (wordAt c.payload 0)) = false → ∃ t, exec .laneEyeScan s = .next t ∧ Refuses s t mb c 1)
      ∧ (receiving (s.lane (wordAt c.payload 0)) = true → ∃ t, exec .laneEyeScan s = .next t ∧ (t.mb mb).st = .waiting
          ∧ (t.mb mb).cmd = some c ∧ (∀ m, m ≠ mb → t.mb m = s.mb m) ∧ t = { s with her := t.her }))
  ∧ (∀ (s : State) (n : LaneId) (l r u d : BitVec 16) (b : Word),
      (∀ c, (s.mb 0).st = .waiting → (s.mb 0).cmd = some c → c.opcode = 0x0703 → wordAt c.payload 0 = n.val →
        exec (.eyeScanDone n l r u d b) s = .next (done s 0 (eyeBytes s n.val l.toNat r.toNat u.toNat d.toNat b.toNat)))
      ∧ ((s.mb 0).st ≠ .waiting → exec (.eyeScanDone n l r u d b) s = .next s))
  ∧ (∀ (s : State) (mb : Nat) (c : Cmd), Executing s 0x0704 mb c →
      let k := wordAt c.payload 0 % 8
      ((imgLink s k).absent = true ∨ (s.link k).st = .absent → ∃ t, exec .linkRetrain s = .next t ∧ Refuses s t mb c 1)
      ∧ ((imgLink s k).absent = false → (s.link k).st = .outOfService → ∃ t, exec .linkRetrain s = .next t ∧ Answers s t mb c 0 Cs.linkDown 0 0 [])
      ∧ ((imgLink s k).absent = false → (s.link k).st = .up ∨ (s.link k).st = .held →
          exec .linkRetrain s = .next (startBringup (holdSession (waitCmd (s.modLink k fun l => { l with retrainMb := some mb }) mb) k) k)))
  ∧ (∀ (s : State) (k : LinkId), ((s.link k.val).svcMb = none → exec (.linkServiceTimeout k) s = .next s)
      ∧ (∀ mb, (s.link k.val).svcMb = some mb → (s.link k.val).st ≠ .up → linkServes s k.val = true →
          exec (.linkServiceTimeout k) s = .next (ran (s.modLink k.val fun l => { l with svcMb := none }) mb Cs.linkDown [])))

/-- PWR_VOTE_RAISE, PWR_VOTE_WITHDRAW, PWR_DOWN_SOFT, PWR_DOWN_FORCED, DRAIN_END, DRAIN_LIMIT_EXPIRE, HOLDOFF_EXPIRE and RAMP_SLOT_START (R90-R97). -/
def Obligations.PowerVotesAndDrains : Prop :=
  (∀ (s : State) (mb : Nat) (c : Cmd), Executing s 0x0800 mb c →
      (bit (wordAt c.payload 0) 16 = true → exec .pwrVoteRaise s
          = .next (done ((voteDomains (wordAt c.payload 0)).foldl (fun s d => raiseVote s d (mbTenant mb)) s) mb []))
      ∧ (bit (wordAt c.payload 0) 16 = false → exec .pwrVoteWithdraw s
          = .next (done ((voteDomains (wordAt c.payload 0)).foldl (fun s d => dropVote s d (mbTenant mb)) s) mb [])))
  ∧ (∀ (s : State) (d client : Nat), votable d = true → (s.dom d).st = .on →
      let t := raiseVote s d client
      (t.dom d).votes = insertAsc client (s.dom d).votes ∧ (t.dom d).st = .on ∧ (∀ e, e ≠ d → t.dom e = s.dom e) ∧ t = { s with pwr := t.pwr })
  ∧ (∀ (s : State) (d client : Nat), votable d = true → (s.dom d).st = .off →
      let t := raiseVote s d client
      (t.dom d).votes = insertAsc client (s.dom d).votes ∧ (t.dom d).st = .waking ∧ (t.dom d).until_ = s.now + us 20 ∧ d ∈ t.pwr.ramp
        ∧ (∀ e, e ≠ d → t.dom e = s.dom e) ∧ t = { s with pwr := t.pwr })
  ∧ (∀ (s : State) (d client : Nat), votable d = true → (s.dom d).st = .on → heldVotes (s.dom d) = [client] → (s.dom d).temp = [] →
      let t := dropVote s d client
      (t.dom d).st = .holdoff ∧ (t.dom d).votes = [] ∧ (t.dom d).until_ = s.now + us (min 1000000 (s.reg 0x1000C).toNat) ∧ ∀ e, e ≠ d → t.dom e = s.dom e)
  ∧ (∀ (s : State) (mb : Nat) (c : Cmd), Executing s 0x0801 mb c → bit c.flags 8 = false →
      let d := wordAt c.payload 0
      let v := heldVotes (s.dom d)
      ((s.dom d).st = .off ∨ (s.dom d).st = .disabled → ∃ t, exec .pwrDownSoft s = .next t ∧ RanDone s t mb c [])
      ∧ (∀ x r, (s.dom d).st = .on → (v.filter fun c => !isXfer c) = x :: r →
          ∃ t u, exec .pwrDownSoft s = .next t ∧ Answers u t mb c 1 0 1 x [] ∧ (u.dom d).log.head? = some (x, 1, s.now / 1000)
            ∧ (u.dom d).st = .on ∧ ∀ e, e ≠ d → u.dom e = s.dom e)
      ∧ ((s.dom d).st = .on → (v.filter fun c => !isXfer c) = [] → ∃ t, exec .pwrDownSoft s = .next t ∧ (t.dom d).st = .draining ∧ (t.dom d).drainMb = some mb
          ∧ (t.dom d).until_ = s.now + us (clampTo 10 100000 (s.reg 0x10010).toNat) ∧ (t.mb mb).st = .waiting
          ∧ (∀ e, e ≠ d → t.dom e = s.dom e) ∧ t = { s with pwr := t.pwr, her := t.her, regs := t.regs }))
  ∧ (∀ (s : State) (mb : Nat) (c : Cmd), Executing s 0x0801 mb c → bit c.flags 8 = true →
      let d := wordAt c.payload 0
      ((s.dom d).st = .disabled → ∃ t u, exec .pwrDownForced s = .next t ∧ RanDone u t mb c [] ∧ (u.dom d).votes = [] ∧ (u.dom d).temp = []
          ∧ (u.dom d).st = .disabled ∧ (∀ e, e ≠ d → u.dom e = s.dom e) ∧ u = { s with pwr := u.pwr, dbg := u.dbg })
      ∧ (exec .pwrDownForced s = .next (forcedDown s mb d)))
  ∧ (∀ (s : State) (d : Fin 18),
      ((s.dom d.val).st = .draining → heldVotes (s.dom d.val) = [] →
        ∃ u, (u.dom d.val).st = .entering ∧ (u.dom d.val).until_ = s.now + us 2 ∧ (u.dom d.val).drainMb = none ∧ u = { s with pwr := u.pwr }
          ∧ ((s.dom d.val).drainMb = none → exec (.drainEnd d) s = .next u)
          ∧ ∀ m, (s.dom d.val).drainMb = some m → exec (.drainEnd d) s = .next (done u m []))
      ∧ ((s.dom d.val).st ≠ .draining → exec (.drainEnd d) s = .next s ∧ exec (.drainLimitExpire d) s = .next s)
      ∧ (∀ x r, (s.dom d.val).st = .draining → heldVotes (s.dom d.val) = x :: r → exec (.drainEnd d) s = .next s
          ∧ exec (.drainLimitExpire d) s = .next (refuseDrain (s.atTime (s.dom d.val).until_) d.val x 3))
      ∧ ((s.dom d.val).st = .holdoff → ∃ t, exec (.holdoffExpire d) s = .next t ∧ (t.dom d.val).st = .entering
          ∧ t.now = max s.now (s.dom d.val).until_ ∧ (t.dom d.val).until_ = t.now + us 2 ∧ (∀ e, e ≠ d.val → t.dom e = s.dom e)
          ∧ t = { s with now := t.now, pwr := t.pwr })
      ∧ ((s.dom d.val).st ≠ .holdoff → exec (.holdoffExpire d) s = .next s))
  ∧ (∀ s : State, exec .rampSlotStart s = .next { s with pwr := { s.pwr with ramp := s.pwr.ramp.tail } })

/-- ISLAND_WAKE_DONE, ISLAND_WAKE_FAIL and PWR_DOM_RELEASE (R95-R98). -/
def Obligations.IslandsWakeOrFail : Prop :=
  (∀ (s : State) (d : Fin 18),
      ((s.dom d.val).st ≠ .waking ∨ d.val ∈ s.pwr.ramp → exec (.islandWakeDone d) s = .next s)
      ∧ ((s.dom d.val).st = .waking → d.val ∉ s.pwr.ramp → (s.dom d.val).held = [] → (s.dom d.val).drainWait = false →
          d.val ∉ s.mram.islandFailed → heldVotes (s.dom d.val) ≠ [] →
          ∃ t, exec (.islandWakeDone d) s = .next t ∧ (t.dom d.val).st = .on ∧ (t.dom d.val).reason = 0 ∧ (t.dom d.val).votes = (s.dom d.val).votes
            ∧ t.reg (domReg d.val 0x20) = s.reg (domReg d.val 0x20) + 1 ∧ (∀ k, k ≠ domReg d.val 0x20 → t.reg k = s.reg k)
            ∧ (∀ e, e ≠ d.val → t.dom e = s.dom e) ∧ t = { s with pwr := t.pwr, regs := t.regs }))
  ∧ (∀ (s : State) (d : Fin 18) (h : HeldAcc) (r : List HeldAcc), (s.dom d.val).st = .waking → d.val ∉ s.pwr.ramp → (s.dom d.val).held = h :: r →
      (s.dom d.val).drainWait = false → d.val ∉ s.mram.islandFailed →
      ∃ u, (u.dom d.val).st = .on ∧ (u.dom d.val).held = [] ∧ u = { s with pwr := u.pwr, regs := u.regs }
        ∧ exec (.islandWakeDone d) s = .next (checkIdle (r.foldl (fun s h => heldGo s d.val h) (heldGo u d.val h)) d.val))
  ∧ (∀ (s : State) (d : Fin 18), ((s.dom d.val).st ≠ .waking → exec (.islandWakeFail d) s = .next s)
      ∧ ((s.dom d.val).st = .waking → (s.dom d.val).held = [] → (s.dom d.val).drainMb = none → d.val ∉ s.mram.islandFailed → LogRoom s →
          ∃ u v, exec (.islandWakeFail d) s = .next (islandLost v d.val)
            ∧ (u.dom d.val).st = .disabled ∧ (u.dom d.val).reason = 2 ∧ u.mram.islandFailed = insertAsc d.val s.mram.islandFailed
            ∧ (∀ e, e ≠ d.val → u.dom e = s.dom e) ∧ u = { s with now := max s.now (s.dom d.val).until_, pwr := u.pwr, mram := { s.mram with islandFailed := u.mram.islandFailed } }
            ∧ Records u v { code := Ev.islandWakeFail, src := srcSalt, data := leBytes 2 d.val }))
  ∧ (∀ (s : State) (d : Fin 18) (v : Word), (v.getLsbD 0 = false ∨ (s.dom d.val).st ≠ .disabled ∨ (s.dom d.val).reason ≠ 3 → exec (.pwrDomRelease d v) s = .next s)
      ∧ (v.getLsbD 0 = true → (s.dom d.val).st = .disabled → (s.dom d.val).reason = 3 →
          (heldVotes (s.dom d.val) = [] → ∃ t, exec (.pwrDomRelease d v) s = .next t ∧ t.dom d.val = { s.dom d.val with st := .off, reason := 0 }
            ∧ (∀ e, e ≠ d.val → t.dom e = s.dom e) ∧ t = { s with pwr := t.pwr })
          ∧ (heldVotes (s.dom d.val) ≠ [] → ∃ t, exec (.pwrDomRelease d v) s = .next t ∧ (t.dom d.val).st = .waking ∧ (t.dom d.val).reason = 0
            ∧ (t.dom d.val).until_ = s.now + us 20 ∧ t = { s with pwr := t.pwr })))

/-- TIDE_ARM, TIDE_DISARM, TEMP_WARN_SET, TIDE_ENTER, TIDE_SAMPLE_PERIOD and TIDE_EXIT_PERST (R104-R111). -/
def Obligations.TideWatch : Prop :=
  (∀ (s : State) (mb : Nat) (c : Cmd), Executing s 0x0802 mb c →
      let why := tideRefusal s (wordAt c.payload 0) (tideList c.payload)
      (why ≠ 0 → ∃ t, exec .tideArm s = .next t ∧ Refuses s t mb c why)
      ∧ (why = 0 → ∃ t, exec .tideArm s = .next t ∧ RanDone { s with tide := { s.tide with
          armed := true, period := wordAt c.payload 0, points := tideList c.payload, cause := 0, value := 0, matched := 0 } } t mb c []))
  ∧ (∀ (s : State) (mb : Nat) (c : Cmd), Executing s 0x0803 mb c →
      ∃ t, exec .tideDisarm s = .next t ∧ RanDone { s with tide := { s.tide with armed := false } } t mb c [])
  ∧ (∀ (s : State) (mb : Nat) (c : Cmd), Executing s 0x0804 mb c →
      ∃ t, exec .tempWarnSet s = .next t ∧ RanDone { s with mon := { s.mon with warnThr := wordAt c.payload 0 } } t mb c [])
  ∧ (∀ s : State, (s.tide.entering = false → exec .tideEnter s = .next s)
      ∧ (s.tide.entering = true → ∃ u t, exec .tideEnter s = .next t ∧ t = { u with tide := { u.tide with active := true, entering := false } }
          ∧ u = goDark (commitAll ((s.raise (saltEv Ev.tideEnter)).modTide fun x => { x with frozen := tideFreeze (s.raise (saltEv Ev.tideEnter)) }) 600)))
  ∧ (∀ (s : State) (l : List TideSample) (p : Bool), s.tide.active = false → exec (.tideSamplePeriod l p) s = .next s)
  ∧ (∀ (s : State) (l : List TideSample) (p : Bool), s.tide.active = true →
      let prs := tidePairs s l
      let met := (prs.filter fun e => tideMet e.2.1 e.2.2).map fun e => e.1
      let failed := prs.filter fun e => tideFailed e.2.1 e.2.2
      let wakes := failed.any fun e => tpErrWake e.2.1
      (met = [] → wakes = false → (p = false ∨ s.pins.perst = true) → ∃ t, exec (.tideSamplePeriod l p) s = .next t
          ∧ t.now = max s.now (s.now + ms s.tide.period) ∧ t.tide.points = (prs.map fun e => tideStep e.2.1 e.2.2)
          ∧ t.reg 0x10038 = s.reg 0x10038 + w32 failed.length ∧ (∀ k, k ≠ 0x10038 → t.reg k = s.reg k)
          ∧ t = { s with now := t.now, tide := { s.tide with points := t.tide.points }, regs := t.regs, out := t.out })
      ∧ (∀ i r, met = i :: r → ∃ u, exec (.tideSamplePeriod l p) s = .next (tideLeave u) ∧ u.pins.wake = true ∧ u.tide.woke = true
          ∧ u.tide.cause = w32 (i + 256 + 512 * b2n wakes + 1024 * b2n (p && !s.pins.perst)) ∧ u.pins.perst = (s.pins.perst || p)
          ∧ u.now = max s.now (s.now + ms s.tide.period)))
  ∧ (∀ s : State, (s.tide.active = true → s.pins.perst = false → ∃ u, u.pins.perst = true ∧ u.tide.cause = 1024#32 ∧ u.tide.matched = 0
        ∧ u = { s with pins := u.pins, tide := u.tide }
        ∧ exec .tideExitPerst s = .next ((tideLeave u).raise { saltEv Ev.tideWake with data := leBytes 4 1024 }))
      ∧ (s.tide.active = false ∨ s.pins.perst = true → exec .tideExitPerst s = .next s))

/-- PORST_FALL, POWER_ON_RESET, INTERNAL_RESET_ENTER, PERST_FALL, PERST_RISE, BOOT_CFGSPACE_READY, BOOT_SERVICE_READY, HOT_RESET_RECEIVED and WATCHDOG_EXPIRE (R112-R125). -/
def Obligations.ResetsAndBoot : Prop :=
  (∀ s : State, (s.pins.porst = false → exec .porstFall s = .next s)
      ∧ (s.pins.porst = true → ∃ t, exec .porstFall s = .next t ∧ t.pins.porst = false ∧ t.boot.powerOnPending = true ∧ t.boot.step = 0
          ∧ t.mram = { s.mram with keys := t.mram.keys } ∧ t.log.ring = s.log.ring ∧ t.log.seq = s.log.seq ∧ t.pending = s.pending
          ∧ (∀ q, t.q q = qctxInit q) ∧ t.win = State.reset.win))
  ∧ (∀ (s : State) (te torn : Bool) (a : BitVec 2),
      (s.boot.powerOnPending = false ∨ suppliesValid s = false → exec (.powerOnReset te a torn) s = .next s)
      ∧ (s.boot.powerOnPending = true → suppliesValid s = true → ∃ u, exec (.powerOnReset te a torn) s = .next (thermEff u s.mon.temp)
          ∧ u.boot.step = 7 ∧ u.boot.powerOnPending = false ∧ u.log.ready = true ∧ u.pins.smbAddr = a ∧ u.pins.porst = true))
  ∧ (∀ (s : State) (sup : Supply) (mv : Nat), (supplyResets (supplyIdx sup) mv = true → s.mon.internalReset = false → supplyIdx sup < 6 →
        ∃ t, exec (.internalResetEnter sup mv) s = .next t ∧ t.mon.internalReset = true ∧ t.boot.powerOnPending = !s.pins.porst ∧ t.boot.step = 0
          ∧ t.mv (supplyIdx sup) = mv)
      ∧ (supplyResets (supplyIdx sup) mv = false ∨ s.mon.internalReset = true →
        exec (.internalResetEnter sup mv) s = .next (setMv s (supplyIdx sup) mv)))
  ∧ (∀ s : State, (s.pins.perst = false → exec .perstFall s = .next s)
      ∧ (s.pins.perst = true →
          let u : State := { s with pins := { s.pins with perst := false } }
          (awake u = false → exec .perstFall s = .next u)
          ∧ (awake u = true → s.tide.armed = true → exec .perstFall s = .next (tideBegin u))
          ∧ (awake u = true → s.tide.armed = false → exec .perstFall s = .next (hostReset u 5))))
  ∧ (∀ s : State, (s.pins.perst = true ∨ s.tide.active = true → exec .perstRise s = .next s)
      ∧ (s.pins.perst = false → s.tide.active = false →
          exec .perstRise s = .next { s with pins := { s.pins with perst := true }, boot := { s.boot with step := if s.boot.step = 6 then 7 else s.boot.step } }))
  ∧ (∀ s : State, (s.boot.step = 7 → s.pins.perst = true → exec .bootCfgspaceReady s
          = .next { s with boot := { s.boot with step := 8, awaitPerst := false }, pins := { s.pins with clkreqHeld := false } })
      ∧ (s.boot.step ≠ 7 ∨ s.pins.perst = false → exec .bootCfgspaceReady s = .next s))
  ∧ (∀ s : State, (s.boot.step ≠ 8 → exec .bootServiceReady s = .next s)
      ∧ (s.boot.step = 8 → s.boot.recovery = true → ∃ u, exec .bootServiceReady s = .next (bootMailboxes u) ∧ u.boot.step = 9
          ∧ u.reg 0x20 = w32 ((s.now - s.boot.began) / 1000) ∧ (∀ k, k ≠ 0x20 → u.reg k = s.reg k) ∧ u = { s with boot := u.boot, regs := u.regs })
      ∧ (s.boot.step = 8 → s.boot.recovery = false → ∃ u v, u.boot.step = 9 ∧ u.boot.wdogRun = 0 ∧ u = { s with boot := u.boot, regs := u.regs }
          ∧ exec .bootServiceReady s = .next (bootMailboxes v)
          ∧ ∃ w x, w = (if s.boot.trialUnconfirmed ∧ !s.boot.hostConfirm then confirmTrial u else u)
            ∧ x = privExcess (bootProfiles (applyWeirs w (decide (w.boot.entry = 1 ∧ lcyState w ≠ 3))))
            ∧ v = bootTwin ((List.range 5).foldl bootLink ((List.range 2).foldl (fun s p => endPortOrphans (bootPort s p) p)
                (if x.boot.entry = 1 then x.mram.islandFailed.foldl startWake x else x)))))
  ∧ (∀ (s : State) (m : Nat), m < 66 → (bootMailboxes s).mb m
      = if (s.mb m).st = .booting then { s.mb m with st := if (s.mb m).held then .queued else .idle, held := false } else s.mb m)
  ∧ (∀ s : State, (awake s = true → s.ep.link = .l0 → exec .hotResetReceived s = .next (hostReset s 6))
      ∧ (awake s = false ∨ s.ep.link ≠ .l0 → exec .hotResetReceived s = .next s))
  ∧ (∀ s : State, (awake s = true → 6 ≤ s.boot.step → s.boot.recovery = false → ∃ u, exec .watchdogExpire s = .next ((wideReset u .device 4).incReg 0x24)
        ∧ u.boot.wdogRun = s.boot.wdogRun + 1 ∧ u.mram = s.mram ∧ u.qs = s.qs)
      ∧ (awake s = false ∨ s.boot.step < 6 ∨ s.boot.recovery = true → exec .watchdogExpire s = .next s))

/-- What the wide resets clear and keep (R115). -/
def Obligations.WideResetsClear : Prop :=
  ∀ s : State,
    let t := clearWide s
    (∀ q, t.q q = qctxInit q) ∧ (∀ k, t.slot k = slotInit k) ∧ t.win = State.reset.win ∧ t.reads = [] ∧ t.har = State.reset.har
      ∧ t.her = State.reset.her ∧ t.links = State.reset.links ∧ t.ep.fns = State.reset.ep.fns ∧ t.twin = State.reset.twin
      ∧ t.now = s.now ∧ t.mram = s.mram ∧ t.log = s.log ∧ t.mon = s.mon ∧ t.boot = s.boot ∧ t.pending = s.pending
      ∧ t.pins.porst = s.pins.porst ∧ t.pins.perst = s.pins.perst ∧ t.weirs.locked = s.weirs.locked
      ∧ (∀ k, t.reg k = if regKept k then s.reg k else regReset k)

/-- SUPPLY_WARN, SUPPLY_FAULT, PORT_BANK_POWER, BANK_SUPPLY_VALID, SUPPLY_RECOVER, TEMP_WARN and THERM_SHUTDOWN (R55, R56, R77-R80). -/
def Obligations.SuppliesAndTemperature : Prop :=
  (∀ (s : State) (sup : Supply) (mv : Nat),
      let k := supplyIdx sup
      (awake s = true → mvWarned s k mv = true → exec (.supplyWarn sup mv) s = .next (warnOnce (setMv s k mv) k mv))
      ∧ (awake s = false ∨ mvWarned s k mv = false → exec (.supplyWarn sup mv) s = .next (setMv s k mv)))
  ∧ (∀ (s : State) (k mv : Nat), (k ∈ s.mon.warned → warnOnce s k mv = s)
      ∧ (k ∉ s.mon.warned → LogRoom s → ∃ u, warnOnce s k mv = sendMsix u 0 6 ∧ u.mon.warned = insertAsc k s.mon.warned
          ∧ u.pins.alertPending.getLsbD 1 = true
          ∧ Records { s with mon := u.mon, pins := u.pins } u { code := Ev.supplyWarn, src := srcAo, data := leBytes 4 k ++ leBytes 4 mv }))
  ∧ (∀ (s : State) (sup : Supply) (mv : Nat), supplyIdx sup < 6 → supplyResets (supplyIdx sup) mv = false →
      let k := supplyIdx sup
      (awake s = false ∨ supplyFaulty k mv = false → exec (.supplyFault sup mv) s = .next (setMv s k mv))
      ∧ (awake s = true → supplyFaulty k mv = true → k ∈ s.mon.faulted → exec (.supplyFault sup mv) s = .next (warnOnce (setMv s k mv) k mv))
      ∧ (awake s = true → supplyFaulty k mv = true → k ∉ s.mon.faulted → ∃ u, exec (.supplyFault sup mv) s = .next (enterDevice u 3)
          ∧ u.mon.faulted = insertAsc k s.mon.faulted))
  ∧ (∀ (s : State) (p : PortId) (b : Fin 4) (mv : Nat),
      let k := 6 + 4 * p.val + b.val
      (bankFaulty (setMv s k mv) p.val b.val mv = false ∨ k ∈ s.mon.faulted → exec (.portBankPower p b mv) s = .next (setMv s k mv))
      ∧ (bankFaulty (setMv s k mv) p.val b.val mv = true → k ∉ s.mon.faulted → ∃ u, u.mon.faulted = insertAsc k s.mon.faulted ∧ u.ports = s.ports
          ∧ (monitorRuns s p.val = false → exec (.portBankPower p b mv) s = .next u)
          ∧ (monitorRuns s p.val = true → ∃ v, v.ports = s.ports ∧ exec (.portBankPower p b mv) s = .next (enterPort v p.val 4))))
  ∧ (∀ (s : State) (p : PortId) (mv : Nat), ∃ t, exec (.bankSupplyValid p mv) s = .next t ∧ t.mv (9 + 4 * p.val) = mv
      ∧ (∀ k, k ≠ 9 + 4 * p.val → t.mv k = s.mv k)
      ∧ t.port p.val = (if (s.port p.val).st = .inService ∨ (s.port p.val).st = .stopping then s.port p.val else { s.port p.val with oeN := 0xFF#8 })
      ∧ (∀ q, q ≠ p.val → t.port q = s.port q) ∧ t = { s with mon := { s.mon with mv := t.mon.mv }, ports := t.ports })
  ∧ (∀ (s : State) (sup : Supply) (mv : Nat),
      let k := supplyIdx sup
      ∃ t, exec (.supplyRecover sup mv) s = .next t ∧ t.mv k = mv ∧ (mvWarned s k mv = false → k ∉ t.mon.warned) ∧ (mvFaulty s k mv = false → k ∉ t.mon.faulted)
        ∧ (mvWarned s k mv = true → t.mon.warned = s.mon.warned) ∧ (mvFaulty s k mv = true → t.mon.faulted = s.mon.faulted)
        ∧ (∀ j, j ≠ k → (j ∈ t.mon.warned ↔ j ∈ s.mon.warned)) ∧ t = { s with mon := t.mon })
  ∧ (∀ (s : State) (x : BitVec 16),
      (awake s = false → exec (.tempWarn x) s = .next { s with mon := { s.mon with temp := x } })
      ∧ (awake s = true → exec (.tempWarn x) s = .next (tempSeen s x)))
  ∧ (∀ (s : State) (x : BitVec 16),
      ((s.mon.warnThr : Int) < x.toInt → s.mon.tempWarned = false → LogRoom s → ∃ u, tempSeen s x = sendMsix u 0 6 ∧ u.mon = { s.mon with temp := x, tempWarned := true }
          ∧ u.pins.alertPending.getLsbD 0 = true
          ∧ Records { s with mon := u.mon, pins := u.pins } u { code := Ev.tempWarn, src := srcAo, data := leBytes 2 x.toNat })
      ∧ ((s.mon.warnThr : Int) < x.toInt → s.mon.tempWarned = true → tempSeen s x = { s with mon := { s.mon with temp := x } })
      ∧ (x.toInt + 40 ≤ s.mon.warnThr → tempSeen s x = { s with mon := { s.mon with temp := x, tempWarned := false } })
      ∧ (x.toInt ≤ s.mon.warnThr → (s.mon.warnThr : Int) < x.toInt + 40 → tempSeen s x = { s with mon := { s.mon with temp := x } }))
  ∧ (∀ (s : State) (x : BitVec 16), (x.toInt ≤ shutdownTemp → awake s = true → exec (.thermShutdown x) s = .next (tempSeen s x))
      ∧ (shutdownTemp < x.toInt → awake s = true ∨ s.tide.active = true → ∃ t, exec (.thermShutdown x) s = .next t ∧ t.mon.shutdown = true ∧ t.cont.dev = true
          ∧ (s.tide.active = true → t.mon.temp = x)))

/-- The SMBus rows (R59, R60). -/
def Obligations.SmbusReads : Prop :=
  ∀ s : State,
    (exec .smbReadStatus s = .next { s with out := (s.emit (.smbWord (BitVec.ofNat 16 (smbStatus s)))).out
                                            pins := { s.pins with alertPending := 0#4, alertAcked := false } })
    ∧ exec .smbReadTemp s = .next (s.emit (.smbWord s.mon.temp))
    ∧ exec .smbReadVcore s = .next (s.emit (.smbWord (BitVec.ofNat 16 (s.mv 0))))
    ∧ (∀ v : BitVec 16, exec (.smbWriteAlertMask v) s = .next { s with out := (s.emit .smbAck).out, pins := { s.pins with alertMask := v.truncate 4 } })
    ∧ exec .smbReadUid s = .next (s.emit (.smbBlock uniqueId))
    ∧ exec .smbReadFokNewest s = .next (s.emit (.smbBlock (fokNth s 0 ++ fokNth s 1)))
    ∧ exec .smbReadFokOlder s = .next (s.emit (.smbBlock (fokNth s 2 ++ fokNth s 3)))
    ∧ (∀ c : Byte, 7 ≤ c.toNat → exec (.smbUnknownCommand c) s = .next (s.emit .smbNack))
    ∧ (alertLow s = false → exec .smbAlertResponse s = .next s)
    ∧ (alertLow s = true → ∃ t, exec .smbAlertResponse s = .next t ∧ t.out = (s.emit (.smbAra (0x58#7 + s.pins.smbAddr.setWidth 7))).out
        ∧ alertLow t = false ∧ t.pins.alertPending = s.pins.alertPending ∧ t = { s with out := t.out, pins := t.pins })

/-- OWNER_KEY_INSTALL, KEY_SET, LCY_ADVANCE, LCY_RETURN, BSCAN_TAKEOVER and TAP_LEAVES_EXTEST (R136-R141, R148). -/
def Obligations.KeysAndLifeCycle : Prop :=
  (∀ (s : State) (mb : Nat) (c : Cmd), Executing s 0x0900 mb c →
      (lcyState s ≠ 0 → exec .ownerKeyInstall s = .next (respond (authFail s 0 5 c) mb 0 Cs.authFail 5 0 []))
      ∧ (lcyState s = 0 → ∃ t u, exec .ownerKeyInstall s = .next t ∧ t.mram.fuses = s.mram.fuses ||| 1#3
          ∧ (u.key 0).key = some (slice c.payload 0 32) ∧ (u.key 0).counter = 0 ∧ (∀ k, k ≠ 0 → u.key k = s.key k)
          ∧ t = wideReset (commitAll (done u mb []) 600) .device 3))
  ∧ (∀ (s : State) (mb : Nat) (c : Cmd), Executing s 0x0902 mb c → ∃ t u, exec .lcyAdvance s = .next t
      ∧ t.mram.fuses = s.mram.fuses ||| 3#3 ∧ t = wideReset (commitAll (done u mb []) 600) .device 3 ∧ (∀ k, u.key k = s.key k)
      ∧ u.dbg.isOpen = false)
  ∧ (∀ (s : State) (mb : Nat) (c : Cmd), Executing s 0x0903 mb c → ∃ t u, exec .lcyReturn s = .next t
      ∧ t.mram.fuses = s.mram.fuses ||| 7#3 ∧ t = wideReset (commitAll (done u mb []) 600) .device 3 ∧ (∀ k, u.key k = keyInit k)
      ∧ u.weirs.locked = [] ∧ (∀ w r i, rgnWord u w r i = 0)
      ∧ (bit c.flags 8 = true → (imgOf u 1 0).valid = false ∧ (imgOf u 1 1).valid = false))
  ∧ (∀ (s : State) (mb : Nat) (c : Cmd), Executing s 0x0901 mb c →
      let k := wordAt c.payload 0
      (bit c.flags 8 = false → ∃ t u, exec .keySet s = .next t ∧ RanDone u t mb c []
          ∧ u.key k = { s.key k with key := some (newKey s mb c) } ∧ (∀ j, j ≠ k → u.key j = s.key j)
          ∧ u = { s with fresh := s.fresh + 32, mram := { s.mram with keys := u.mram.keys } })
      ∧ (bit c.flags 8 = true → ∃ t u, exec .keySetErase s = .next t ∧ RanDone u t mb c []
          ∧ u.key k = { s.key k with key := none } ∧ (∀ j, j ≠ k → u.key j = s.key j)
          ∧ u = { s with mram := { s.mram with keys := u.mram.keys } }))
  ∧ (∀ (s : State) (i : TapInstr), (awake s = true → LogRoom s → ∃ u, exec (.bscanTakeover i) s = .next (enterDevice u 5) ∧ u.cont.tapTakeover = true
        ∧ u.dbg.takeover = true ∧ Records { s with cont := u.cont, dbg := u.dbg } u { code := Ev.bscanTakeover, src := srcAo, enters := 2 })
      ∧ (awake s = false → s.tide.active = false → exec (.bscanTakeover i) s = .next s))
  ∧ (∀ s : State, exec .tapLeavesExtest s = .next { s with cont := { s.cont with tapTakeover := false } })

/-- DEBUG_UNLOCK, DEBUG_LOCK, DEBUG_UNLOCK_EXPIRE and DEBUG_ACCESS (R135, R149-R151). -/
def Obligations.DebugPort : Prop :=
  (∀ (s : State) (mb : Nat) (c : Cmd), Executing s 0x0904 mb c →
      (lcyState s = 0 ∨ lcyState s = 3 → ∃ t, exec .debugUnlock s = .next t ∧ RanDone s t mb c [])
      ∧ (¬(lcyState s = 0 ∨ lcyState s = 3) → LogRoom s → ∃ t u, exec .debugUnlock s = .next t ∧ RanDone u t mb c []
          ∧ u.dbg = { s.dbg with isOpen := true, expires := some (s.now + wordAt c.payload 0 * 1000000000) }
          ∧ (s.dbg.isOpen = true → u = { s with dbg := u.dbg })
          ∧ (s.dbg.isOpen = false → Records { s with dbg := u.dbg } u { code := Ev.debugOpen, src := srcSalt })))
  ∧ (∀ (s : State) (mb : Nat) (c : Cmd), Executing s 0x0905 mb c →
      (s.dbg.isOpen = false → ∃ t, exec .debugLock s = .next t ∧ RanDone s t mb c [])
      ∧ (s.dbg.isOpen = true → exec .debugLock s = .next (done (closeDebug s 1) mb [])))
  ∧ (∀ (s : State) (x : Nat), let t := closeDebug s x
      t.dbg.isOpen = false ∧ t.dbg.expires = none ∧ t.dbg.session = false ∧ ∀ m, t.mb m = s.mb m)
  ∧ (∀ s : State, (s.dbg.expires = none ∨ s.dbg.isOpen = false → exec .debugUnlockExpire s = .next s)
      ∧ (∀ e, s.dbg.expires = some e → s.dbg.isOpen = true → exec .debugUnlockExpire s = .next (closeDebug (s.atTime e) 0)))
  ∧ (∀ (s : State) (w : Fin 8) (addr space : Nat) (v : Option Word),
      (debugOpen s = false ∨ awake s = false → exec (.debugAccess w addr space v) s = .next (s.emit .dbgErr))
      ∧ (debugOpen s = true → awake s = true →
          let d := weirDomain w.val
          ∃ u, u.dbg.session = true ∧ u = { s with dbg := u.dbg }
            ∧ (domDisabled s d = false → domUp (raiseVote u d Client.debug) d = true →
                exec (.debugAccess w addr space v) s = .next (debugRun (raiseVote u d Client.debug) w.val addr space v))
            ∧ (domDisabled s d = false → domUp (raiseVote u d Client.debug) d = false → ∃ t, exec (.debugAccess w addr space v) s = .next t
                ∧ (t.dom d).held = ((raiseVote u d Client.debug).dom d).held ++ [.debug w.val addr space v])
            ∧ (domDisabled s d = true → LogRoom s → ∃ t x, exec (.debugAccess w addr space v) s = .next t
                ∧ Records { u with regs := t.regs, out := t.out } t x ∧ x.code = Ev.islandAbsent ∧ x.cs = Cs.islandAbsent ∧ x.addr = addr
                ∧ t.reg 0x10014 = s.reg 0x10014 + 1 ∧ t.out = (if v.isSome then s.out else .dbgData 0xFFFFFFFF#32 :: s.out))))

/-- TWIN_STATUS, TWIN_FORM, TWIN_FORM_TIMEOUT, TWIN_DISSOLVE, TWIN_ROLE_SET and TWIN_HELLO_RECEIVE (R477-R482). -/
def Obligations.TwinCommands : Prop :=
  (∀ (s : State) (mb : Nat) (c : Cmd), Executing s 0x0A00 mb c → ∃ t, exec .twinStatus s = .next t
      ∧ RanDone s t mb c (bytesOfWords ((List.range 16).map fun i => twinWord s (4 * i))))
  ∧ (∀ (s : State) (mb : Nat) (c : Cmd), Executing s 0x0A01 mb c →
      (s.img.pair.rank = 0 → ∃ t, exec .twinForm s = .next t ∧ Rejects s t mb c Rej.notPermitted)
      ∧ (s.img.pair.rank ≠ 0 → s.twin.st = .formed → ∃ t, exec .twinForm s = .next t ∧ RanDone s t mb c [])
      ∧ (s.img.pair.rank ≠ 0 → s.twin.st ≠ .formed → ∃ u, u.twin = { s.twin with formMb := some mb } ∧ (u.mb mb).st = .waiting
          ∧ u = { s with twin := u.twin, her := u.her }
          ∧ ((u.link 4).st ≠ .outOfService → exec .twinForm s = .next (sendHello u))
          ∧ ((u.link 4).st = .outOfService → (imgLink u 4).absent = false → exec .twinForm s = .next (sendHello (linkStart u 4)))))
  ∧ (∀ s : State, (s.twin.formMb = none ∨ (s.link 4).st = .up → exec .twinFormTimeout s = .next s)
      ∧ (∀ mb, s.twin.formMb = some mb → (s.link 4).st ≠ .up → LogRoom s → ∃ u, exec .twinFormTimeout s = .next (ran u mb Cs.linkDown [])
          ∧ Records { s with twin := { s.twin with formMb := none } } u { twinEv Ev.twinNoPartner with cs := Cs.linkDown }))
  ∧ (∀ (s : State) (mb : Nat) (c : Cmd), Executing s 0x0A02 mb c →
      (s.twin.st = .fenced → ∃ t, exec .twinDissolve s = .next t ∧ Refuses s t mb c 11)
      ∧ (s.twin.st = .formed → exec .twinDissolve s = .next (done (dissolveOwn (s.emit (.twinMsg 0x36 [3]))) mb []))
      ∧ (s.twin.st = .survivor ∨ s.twin.st = .disagree → exec .twinDissolve s = .next (done (dissolveOwn s) mb []))
      ∧ (s.twin.st = .single ∨ s.twin.st = .forming → ∃ t, exec .twinDissolve s = .next t ∧ RanDone s t mb c []))
  ∧ (∀ (s : State) (mb : Nat) (c : Cmd), Executing s 0x0A03 mb c →
      let new := mapLead s (field c.payload 0 16)
      let busy := s.twin.lead.any fun t => decide (t ∉ new) && (List.range 8).any fun h => decide ((s.sched h).st = .running ∧ (s.sched h).tenant = t)
      (s.twin.pendingLead ≠ none → ∃ t, exec .twinRoleSet s = .next t ∧ Refuses s t mb c 7)
      ∧ (s.twin.pendingLead = none → s.twin.st ≠ .formed → ∃ t, exec .twinRoleSet s = .next t ∧ Refuses s t mb c 8)
      ∧ (s.twin.pendingLead = none → s.twin.st = .formed → busy = true → ∃ t, exec .twinRoleSet s = .next t ∧ Refuses s t mb c 10)
      ∧ (s.twin.pendingLead = none → s.twin.st = .formed → busy = false → ∃ u, exec .twinRoleSet s = .next (takeMap u new) ∧ u.twin.roleAsked = true
          ∧ u = { s with twin := u.twin, out := .twinMsg 0x36 (0 :: allTenants.filter fun t => bit (field c.payload 0 16) t) :: s.out }))
  ∧ (∀ (s : State) (h : Hello),
      (twinOffers s = false ∨ (s.link 4).st ≠ .up → exec (.twinHelloReceive h) s = .next s)
      ∧ (twinOffers s = true → (s.link 4).st = .up →
          let u := sendHello s
          (∀ r, disagreement u h = some r → exec (.twinHelloReceive h) s = .next (disagree u r))
          ∧ (disagreement u h = none → leadAtForm u h = [] → ∃ v, exec (.twinHelloReceive h) s = .next (formed v) ∧ v.twin.lead = []
              ∧ v.twin.partner = h.uid ∧ v.twin.partnerEpoch = h.epoch ∧ v = { u with twin := v.twin })
          ∧ (disagreement u h = none → leadAtForm u h ≠ [] → ∃ t, exec (.twinHelloReceive h) s = .next t ∧ t.twin.st = .forming
              ∧ t.twin.lead = leadAtForm u h ∧ t.twin.partner = h.uid ∧ t.twin.formSeq = some t.twin.mirrorSeq)))

/-- The twin mirror, check, resync, role and time rows (R482-R486). -/
def Obligations.TwinMirrorKeepsPace : Prop :=
  (∀ (s : State) (seq : Nat) (recs : List MirrorRec),
      (paired s = true → s.twin.silence = false → ∃ t, exec (.twinMirrorReceive seq recs) s = .next t ∧ t.twin.appliedSeq = seq
          ∧ t = { recs.foldl applyRec s with twin := { (recs.foldl applyRec s).twin with appliedSeq := seq }, out := .twinMsg 0x33 [seq] :: (recs.foldl applyRec s).out })
      ∧ (paired s = false ∨ s.twin.silence = true → exec (.twinMirrorReceive seq recs) s = .next s))
  ∧ (∀ (s : State) (seq : Nat), (paired s = false → exec (.twinMirrorAckReceive seq) s = .next s)
      ∧ (paired s = true →
          let u := runHolds (s.modTwin fun w => { w with ackedSeq := seq }) seq
          (u.twin.formSeq = none → exec (.twinMirrorAckReceive seq) s = .next (handOver u))
          ∧ (∀ n, u.twin.formSeq = some n → n ≤ seq → u.twin.st = .forming → exec (.twinMirrorAckReceive seq) s = .next (formed u))
          ∧ (∀ n, u.twin.formSeq = some n → n ≤ seq → u.twin.st ≠ .forming → exec (.twinMirrorAckReceive seq) s = .next (handedOver u))))
  ∧ (∀ s : State, (s.twin.st = .formed → s.twin.silence = false → exec .twinCheckSend s
          = .next { s with out := .twinMsg 0x34 (s.twin.mirrorSeq :: s.twin.lead.flatMap fun t => [t, (mirrorFigure s t).toNat]) :: s.out })
      ∧ (s.twin.st ≠ .formed ∨ s.twin.silence = true → exec .twinCheckSend s = .next s))
  ∧ (∀ (s : State) (seq : Nat) (crcs : List (Tenant × Word)),
      (s.twin.st = .formed → ∃ t, exec (.twinCheckReceive seq crcs) s = .next t ∧ t = { s with twin := { s.twin with unsync := t.twin.unsync } }
          ∧ ∀ n, n ∈ t.twin.unsync ↔ (n ∈ s.twin.unsync ∨ ∃ c ∈ crcs, c.1.val = n ∧ n ∉ s.twin.lead ∧ (seq ≠ s.twin.appliedSeq ∨ mirrorFigure s n ≠ c.2)))
      ∧ (s.twin.st ≠ .formed → exec (.twinCheckReceive seq crcs) s = .next s))
  ∧ (∀ (s : State) (x : Tenant) (recs : List MirrorRec), (s.twin.st ≠ .formed ∨ x.val ∈ s.twin.lead → exec (.twinResyncReceive x recs) s = .next s)
      ∧ (s.twin.st = .formed → x.val ∉ s.twin.lead → ∃ t u : State,
          let v := (recs.filter fun r => decide (recTenant s r = x.val)).foldl applyRec (wipeMirror s x.val)
          exec (.twinResyncReceive x recs) s = .next t ∧ t = u.raise { twinEv Ev.twinResync with tenant := x.val }
          ∧ (∀ n, n ∈ u.twin.unsync ↔ n ∈ v.twin.unsync ∧ n ≠ x.val) ∧ u.reg 0x50004C = v.reg 0x50004C + 1
          ∧ u = { v with twin := { v.twin with unsync := u.twin.unsync }, regs := u.regs }))
  ∧ (∀ (s : State) (m : RoleMsg), (s.twin.st ≠ .formed → exec (.twinRoleReceive m) s = .next s)
      ∧ (s.twin.st = .formed →
          exec (.twinRoleReceive .relinquish) s = .next (takeover s (notLed s) false 0)
          ∧ exec (.twinRoleReceive .dissolve) s = .next (dissolveOwn s)
          ∧ (s.twin.roleAsked = true → exec (.twinRoleReceive .ack) s = .next (done (s.modTwin fun w => { w with roleAsked := false }) 0 []))
          ∧ (s.twin.roleAsked = false → s.twin.pendingLead = none → exec (.twinRoleReceive .ack) s = .next s)
          ∧ ∀ l, exec (.twinRoleReceive (.map l)) s
            = .next (takeMap (s.emit (.twinMsg 0x36 [2])) (allTenants.filter fun t => decide (t ∈ l) == decide (s.img.pair.rank = 2)))))
  ∧ (∀ (s : State) (o : DWord), (s.twin.st ≠ .formed ∨ s.img.pair.rank ≠ 1 → exec (.twinTimeReceive o) s = .next s)
      ∧ (s.twin.st = .formed → s.img.pair.rank = 1 → LogRoom s →
          let k := signed 64 (o - s.twin.timeOffset).toNat
          (k.natAbs ≤ 1000 → exec (.twinTimeReceive o) s = .next { s with twin := { s.twin with skew := k, skewFlag := s.twin.skewFlag && decide (100 ≤ k.natAbs) } })
          ∧ (1000 < k.natAbs → ∃ t, exec (.twinTimeReceive o) s = .next t ∧ t.twin = { s.twin with skew := k, skewFlag := true }
              ∧ (s.twin.skewFlag = true → t = { s with twin := t.twin }) ∧ (s.twin.skewFlag = false → Records { s with twin := t.twin } t (twinEv Ev.twinTimeSkew)))))

/-- TWIN_HEARTBEAT_SEND, TWIN_HB_WRITE, TWIN_SILENCE, TWIN_HB_READ, TWIN_HB_DECIDE and TWIN_GUARD_EXPIRE (R486-R492). -/
def Obligations.TwinHeartbeatsDecide : Prop :=
  (∀ s : State, (s.twin.st ≠ .formed ∨ s.twin.silence = true → exec .twinHeartbeatSend s = .next s ∧ exec .twinSilence s = .next s)
      ∧ (s.twin.st = .formed → s.twin.silence = false →
          exec .twinHeartbeatSend s = .next { s with out := .twinMsg 0x31 [s.twin.hbSeq + 1] :: s.out, twin := { s.twin with hbSeq := s.twin.hbSeq + 1 } }
          ∧ exec .twinSilence s = .next { s with twin := { s.twin with
              silence := true, silenceAt := s.now, partnerCell := none, cellReadOk := false, cellMoved := false } }))
  ∧ (∀ (s : State) (ok : Bool), (s.twin.st ≠ .formed → exec (.twinHbWrite ok) s = .next s)
      ∧ (s.twin.st = .formed →
          let c := ownCell s
          let u := s.modTwin fun w => { w with hbCount := w.hbCount + 1 }
          (weirAllows u c.target 0 c.space c.addr false true = true → ok = true → exec (.twinHbWrite ok) s
              = .next { u with out := .heartbeat c.target c.space c.addr (some (s.twin.hbCount + 1).toNat) :: s.out, twin := { u.twin with hbFailed := false } })
          ∧ (weirAllows u c.target 0 c.space c.addr false true = true → ok = false → exec (.twinHbWrite ok) s
              = .next (hbFail (u.emit (.heartbeat c.target c.space c.addr (some (s.twin.hbCount + 1).toNat)))))
          ∧ (weirAllows u c.target 0 c.space c.addr false true = false → exec (.twinHbWrite ok) s = .next (hbFail (hbWeir u c true).2))))
  ∧ (∀ s : State, LogRoom s → (hbFail s).reg 0x500050 = s.reg 0x500050 + 1 ∧ (hbFail s).twin = { s.twin with hbFailed := true }
      ∧ (s.twin.hbFailed = true → hbFail s = { s with regs := (hbFail s).regs })
      ∧ (s.twin.hbFailed = false → Records { s with regs := (hbFail s).regs, twin := (hbFail s).twin } (hbFail s) (twinEv Ev.twinHbFail)))
  ∧ (∀ (s : State) (v : Option Word), (s.twin.st ≠ .formed ∨ s.twin.silence = false → exec (.twinHbRead v) s = .next s ∧ exec .twinHbDecide s = .next s)
      ∧ (∀ x, s.twin.st = .formed → s.twin.silence = true → weirAllows s (partnerCell s).target 0 (partnerCell s).space (partnerCell s).addr true false = true →
          exec (.twinHbRead (some x)) s = .next { s with
            out := .heartbeat (partnerCell s).target (partnerCell s).space (partnerCell s).addr none :: s.out
            twin := { s.twin with hbFailed := false, cellReadOk := true, partnerCell := some x
                                  cellMoved := s.twin.cellMoved || (s.twin.partnerCell.any fun y => decide (y ≠ x)) } }))
  ∧ (∀ s : State, s.twin.st = .formed → s.twin.silence = true →
      let u := if s.twin.cellMoved then s else s.atTime (s.twin.silenceAt + hbLimit s)
      (s.twin.cellMoved = false → s.twin.cellReadOk = true →
        exec .twinHbDecide s = .next (takeover (survive u) (notLed u) true (holdTime u)))
      ∧ (s.twin.cellMoved = true ∨ s.twin.cellReadOk = false →
          (s.img.pair.rank = 2 → exec .twinHbDecide s = .next (survive (u.modTwin fun w => { w with guard := true })))
          ∧ (s.img.pair.rank ≠ 2 → exec .twinHbDecide s = .next (fence u))))
  ∧ (∀ s : State, (s.twin.guard = false → exec .twinGuardExpire s = .next s)
      ∧ (s.twin.guard = true → ∃ u, u = { s with twin := { s.twin with guard := false } }
          ∧ exec .twinGuardExpire s = .next (takeover u (notLed s) true (holdTime s))))

/-- The spare commands, the wear rows, PLL_FAULT and MRAM_VERIFY_FAIL (chapter 20). -/
def Obligations.SpareCommandsAndWear : Prop :=
  (∀ (s : State) (mb : Nat) (c : Cmd), Executing s 0x0B00 mb c → ∃ t, exec .spareStatus s = .next t
      ∧ RanDone s t mb c (bytesOfWords ((List.range 8).map (fun i => sprWord s (4 * i)) ++ (List.range 8).map (boundWord s))))
  ∧ (∀ (s : State) (mb : Nat) (c : Cmd), Executing s 0x0B01 mb c → ∃ t, exec .spareBoundsSet s = .next t
      ∧ RanDone { s with spares := { s.spares with bounds := (List.range 8).map fun i => w32 (wordAt c.payload (4 * i)), heldUnits := [] } } t mb c [])
  ∧ (∀ (s : State) (mb : Nat) (c : Cmd), Executing s 0x0B02 mb c →
      let kind := bits (wordAt c.payload 0) 7 0
      let i := wordAt c.payload 0 / 256
      let act := wordAt c.payload 4
      (act = 1 → kind = 1 →
        (panServes s i = false → ∃ t, exec .spareRetireNow s = .next t ∧ Refuses s t mb c 2)
        ∧ (panServes s i = true → bedSpare s (i / 17) = none → ∃ t, exec .spareRetireNow s = .next t ∧ Refuses s t mb c 1)
        ∧ (panServes s i = true → bedSpare s (i / 17) ≠ none → exec .spareRetireNow s
            = .next (overrideDone (retirePan s i 2 (Tbl.get (fun _ => 0) s.mram.wearPan i) (panRetire s)) mb 1 i)))
      ∧ (act = 1 → kind = 4 →
        (i ∈ s.mram.mramRetired → ∃ t, exec .spareRetireNow s = .next t ∧ Refuses s t mb c 2)
        ∧ (i ∉ s.mram.mramRetired → mramLeft s = 0 → ∃ t, exec .spareRetireNow s = .next t ∧ Refuses s t mb c 1)
        ∧ (i ∉ s.mram.mramRetired → 0 < mramLeft s → exec .spareRetireNow s
            = .next (overrideDone (retireBlock s i 2 (Tbl.get (fun _ => 0) s.mram.mramWrites i) (mramLimit s)) mb 4 i)))
      ∧ (∀ on : Bool, act = (if on then 2 else 3) → LogRoom s →
          ∃ t u, exec (if on then .spareForbid else .spareAllow) s = .next t ∧ RanDone u t mb c []
            ∧ (on = true → unitKey kind i ∈ u.spares.forbid) ∧ (on = false → unitKey kind i ∉ u.spares.forbid)
            ∧ (∀ x, x ≠ unitKey kind i → (x ∈ u.spares.forbid ↔ x ∈ s.spares.forbid))
            ∧ Records { s with spares := { s.spares with forbid := u.spares.forbid, heldUnits := u.spares.heldUnits } } u
                { code := Ev.spareOverride, src := srcSalt, data := spareData kind 2 i 0 0 0 }))
  ∧ (∀ (s : State) (mb : Nat) (c : Cmd), Executing s 0x0B03 mb c → ∃ t, exec .wearGet s = .next t
      ∧ RanDone { s with fresh := s.fresh + 1 } t mb c (wearBytes s (bits (wordAt c.payload 0) 7 0) (wordAt c.payload 0 / 256)))
  ∧ (∀ (s : State) (is ps : List Nat) (bs : List (Nat × Nat)), s.tide.active = true → exec (.wearMeasure is ps bs) s = .next s)
  ∧ (∀ (s : State) (p f : Nat), s.tide.active = false → p < 4096 → min 1023 f < mramLimit s → ∃ t, exec (.wearMeasure [] [] [(p, f)]) s = .next t
      ∧ Tbl.get (fun _ => 0) t.mram.mramWrites p = min 1023 f ∧ t.mram.mramRetired = s.mram.mramRetired
      ∧ t.mram.wearAge = s.mram.wearAge + ageHour s.mon.temp ∧ t = { s with mram := t.mram, spares := t.spares })
  ∧ (∀ s : State, ∃ t, exec .wearDailyHistory s = .next t
      ∧ t.mram.wearHistory = (((List.range 18).map (Tbl.get (fun _ => 0xFFFF) s.spares.dayLow)) :: s.mram.wearHistory).take 9132
      ∧ (∀ d, Tbl.get (fun _ => 0xFFFF) t.spares.dayLow d = 0xFFFF)
      ∧ t = { s with mram := { s.mram with wearHistory := t.mram.wearHistory }, spares := { s.spares with dayLow := t.spares.dayLow } })
  ∧ (∀ (s : State) (n : LaneId) (h v : Nat), ((s.lane n.val).st ≠ .active ∨ s.tide.active = true → exec (.eyeWearScan n h v) s = .next s)
      ∧ ((s.lane n.val).st = .active → s.tide.active = false → (eyeHMin s ≤ h ∧ eyeVMin s ≤ v) ∨ n.val ∉ s.spares.laneLow →
          ∃ t, exec (.eyeWearScan n h v) s = .next t ∧ (n.val ∈ t.spares.laneLow ↔ (h < eyeHMin s ∨ v < eyeVMin s))
            ∧ t = { s with spares := t.spares })
      ∧ ((s.lane n.val).st = .active → s.tide.active = false → h < eyeHMin s ∨ v < eyeVMin s → n.val ∈ s.spares.laneLow →
          ∃ u, exec (.eyeWearScan n h v) s = .next (planned u 2 n.val (srcLane n.val) (if h < eyeHMin s then h else v) (if h < eyeHMin s then eyeHMin s else eyeVMin s)
              (decide (s.mram.lanePlan < planLanes s)) (swapReady s (laneLink n.val)) (decide (Tbl.get (fun _ => 0) s.spares.laneEye n.val = h % 256 + v % 4096 * 256))
              fun x => retireLane (x.modMram fun m => { m with lanePlan := m.lanePlan + 1 }) n.val 1)
            ∧ u = { s with spares := u.spares }))
  ∧ (∀ (s : State) (fb ok : Bool), (pllSwitched s fb = false → ok = true → exec (.pllFault fb ok) s = .next (switchPll s fb 0))
      ∧ (pllSwitched s fb = true ∨ ok = false → LogRoom s → ∃ u, exec (.pllFault fb ok) s = .next (enterDevice u 2) ∧ u.cont.pllLost = true
          ∧ Records { s with cont := { s.cont with pllLost := true } } u { code := Ev.pllLost, src := srcPll fb, enters := 2, data := spareData 5 0 (b2n fb) 0 0 0 }))
  ∧ (∀ (s : State) (fb : Bool) (a : Nat), pllSwitched (switchPll s fb a) fb = true ∧ pllSwitched (switchPll s fb a) (!fb) = pllSwitched s (!fb))
  ∧ (∀ (s : State) (b : Fin 4096), (mramLeft s = 0 → exec (.mramVerifyFail b) s = .next s)
      ∧ (0 < mramLeft s → ∃ t, exec (.mramVerifyFail b) s = .next t ∧ t.mram.mramRetired = b.val :: s.mram.mramRetired
          ∧ Tbl.get (fun _ => 0) t.mram.mramWrites b.val = 0))

/-- MASTER_CYCLE_START, BUS_CYCLE_END, REGION_BUS_TIMEOUT, TARGET_RETRY and RETRY_DELAY_EXPIRE (R299-R321). -/
def Obligations.PortCyclesRun : Prop :=
  (∀ (s : State) (p : PortId), (s.port p.val).st = .inService → (s.port p.val).rackReset = false → (s.port p.val).watched = [] →
      (s.port p.val).held = none → cycleOpen (s.port p.val) = false → domUp s (12 + p.val) = true → s.tide.active = false →
      (nextStop (s.port p.val) = none → exec (.masterCycleStart p) s = .next s)
      ∧ (∀ st, nextStop (s.port p.val) = some st →
          (hasBus s p.val = true → exec (.masterCycleStart p) s = .next (startStop s p.val st))
          ∧ (hasBus s p.val = false → (s.port p.val).requesting = true → exec (.masterCycleStart p) s = .next s)
          ∧ (hasBus s p.val = false → (s.port p.val).requesting = false → ∃ t, exec (.masterCycleStart p) s = .next t
              ∧ t.port p.val = { s.port p.val with requesting := true } ∧ (∀ q, q ≠ p.val → t.port q = s.port q)
              ∧ t.out = .portLine p.val 0 (arbCtl s p.val % 4) true :: s.out ∧ t = { s with ports := t.ports, out := t.out })))
  ∧ (∀ (s : State) (p : PortId), running s p.val = none →
      (∀ e, exec (.busCycleEnd p e) s = .next s) ∧ exec (.regionBusTimeout p) s = .next s ∧ exec (.targetRetry p) s = .next s)
  ∧ (∀ (s : State) (p : PortId) (o : OpenAcc), running s p.val = some o →
      (∀ d sm b, (o.acc.kind = .write ∨ d.length = o.cur.2) → exec (.busCycleEnd p (.ack d sm b)) s = .next (afterCycle (ackCycle s p.val o d sm b) p.val))
      ∧ (∀ d sm b, o.acc.kind ≠ .write → d.length ≠ o.cur.2 → exec (.busCycleEnd p (.ack d sm b)) s = .next s)
      ∧ (exec (.busCycleEnd p .berr) s = .next (afterCycle (failOpen s p.val Cs.farError 0x28 o (some (endEv Ev.farError p.val))) p.val))
      ∧ (exec (.regionBusTimeout p) s
          = .next (afterCycle (failOpen (s.emit (.strobesOff p.val)) p.val Cs.farTimeout 0x2C o (some (endEv Ev.farTimeout p.val))) p.val))
      ∧ (portKind s p.val = 3 → (roleLine (portTable s p.val) 0x85).isSome = true → ∃ u x, exec (.targetRetry p) s = .next (boundary u p.val)
          ∧ x ∈ (u.port p.val).opens ∧ x.acc = o.acc ∧ x.isOpen = false ∧ x.delaying = true ∧ x.retries = o.retries + 1
          ∧ u.reg (paReg p.val 0x30) = s.reg (paReg p.val 0x30) + 1 ∧ cycleOpen (u.port p.val) = false
          ∧ u = { s with ports := u.ports, regs := u.regs, out := u.out })
      ∧ (portKind s p.val ≠ 3 → exec (.targetRetry p) s = .next s))
  ∧ (∀ (s : State) (p : PortId), ((s.port p.val).opens.find? fun o => o.delaying) = none → exec (.retryDelayExpire p) s = .next s)
  ∧ (∀ (s : State) (p : PortId) (o : OpenAcc), ((s.port p.val).opens.find? fun o => o.delaying) = some o →
      let lim := clampTo 1 255 ((s.reg (paReg p.val 0x14)).toNat % 256)
      (o.retries < lim → ∃ t, exec (.retryDelayExpire p) s = .next t
          ∧ (t.port p.val).opens = modFirst (fun x => x.delaying) (fun x => { x with delaying := false }) (s.port p.val).opens ∧ t = { s with ports := t.ports })
      ∧ (lim ≤ o.retries → ∃ u, exec (.retryDelayExpire p) s
            = .next (afterCycle (failAccGot u o.acc Cs.farTimeout o.cur.1 o.cur.2 o.got (some (endEv Ev.farRetryLimit p.val))) p.val)
          ∧ (u.port p.val).opens = dropFirst (fun x => x.delaying) (s.port p.val).opens ∧ u.reg (paReg p.val 0x2C) = s.reg (paReg p.val 0x2C) + 1
          ∧ u = { s with ports := u.ports, regs := u.regs }))

/-- BUS_GRANTED, BUS_RELEASE_REQUEST, OWN_LIMIT_EXPIRE, ARBITER_REQUEST, RACK_ARB_TIMEOUT, SYS_BUS_TIMER_EXPIRE, SYSRESET_PULSE, SYSRESET_PULSE_END, RACK_RESET, RACK_RESET_END and BPRN_PASS (R310-R312, R322). -/
def Obligations.PortsShareTheRackBus : Prop :=
  (∀ (s : State) (p : PortId), ((s.port p.val).requesting = false → exec (.busGranted p) s = .next s)
      ∧ ((s.port p.val).requesting = true → ∃ t, exec (.busGranted p) s = .next t ∧ (∀ q, q ≠ p.val → t.port q = s.port q)
          ∧ t = { s with ports := t.ports, out := t.out }
          ∧ ((s.port p.val).st = .contained → t.port p.val = { s.port p.val with requesting := false })
          ∧ ((s.port p.val).st ≠ .contained → t.port p.val = { s.port p.val with requesting := false, owned := true, ownedAt := s.now, releaseAsked := false })))
  ∧ (∀ (s : State) (p : PortId) (b : Bool), ((s.port p.val).owned = false ∨ mustRelease s p.val b = false → exec (.busReleaseRequest p b) s = .next s)
      ∧ ((s.port p.val).owned = true → mustRelease s p.val b = true → ∃ u, exec (.busReleaseRequest p b) s = .next (boundary u p.val)
          ∧ u.port p.val = { s.port p.val with releaseAsked := true } ∧ (∀ q, q ≠ p.val → u.port q = s.port q) ∧ u = { s with ports := u.ports }))
  ∧ (∀ (s : State) (p : PortId), ((s.port p.val).owned = false → exec (.ownLimitExpire p) s = .next s)
      ∧ ((s.port p.val).owned = true → ∃ u, exec (.ownLimitExpire p) s = .next (boundary u p.val) ∧ (u.port p.val).releaseAsked = true
          ∧ u.now = max s.now ((s.port p.val).ownedAt + ownLimit s p.val) ∧ u = { s with now := u.now, ports := u.ports }))
  ∧ (∀ (s : State) (p : PortId) (l : Fin 4), ((s.port p.val).st ≠ .inService ∨ arbServes s p.val l.val = false → exec (.arbiterRequest p l) s = .next s)
      ∧ ((s.port p.val).st = .inService → arbServes s p.val l.val = true → ∃ t, exec (.arbiterRequest p l) s = .next t
          ∧ t.port p.val = { s.port p.val with grant := some l.val } ∧ t.out = .portLine p.val 2 l.val true :: s.out ∧ t = { s with ports := t.ports, out := t.out }))
  ∧ (∀ (s : State) (p : PortId), ((s.port p.val).grant = none → exec (.rackArbTimeout p) s = .next s)
      ∧ (∀ l, (s.port p.val).grant = some l → LogRoom s → ∃ t, exec (.rackArbTimeout p) s = .next t ∧ (t.port p.val).grant = none
          ∧ t.out = .portLine p.val 2 l false :: s.out
          ∧ Records { s with ports := t.ports, out := t.out } t { code := Ev.rackArbTimeout, src := srcPort p.val, data := leBytes 1 l }))
  ∧ (∀ (s : State) (p : PortId),
      let on := isSysctl s p.val = true ∧ bit (arbCtl s p.val) 6 = true ∧ (s.port p.val).st = .inService
      let u := (s.emit (.portLine p.val 4 0 true)).emit (.portLine p.val 4 0 false)
      (¬on → exec (.sysBusTimerExpire p) s = .next s)
      ∧ (∀ o, on → running s p.val = some o → exec (.sysBusTimerExpire p) s = .next (timeoutOpen u p.val Ev.farTimeout))
      ∧ (on → running s p.val = none → exec (.sysBusTimerExpire p) s = .next (finishStop (abandonRack u p.val) p.val)))
  ∧ (∀ (s : State) (p : PortId),
      (isSysctl s p.val = true → (s.port p.val).st = .inService → ∃ t, exec (.sysresetPulse p) s = .next t
          ∧ t.port p.val = { s.port p.val with sysreset := true } ∧ t.out = .portLine p.val 5 0 true :: s.out ∧ t = { s with ports := t.ports, out := t.out })
      ∧ (isSysctl s p.val = false ∨ (s.port p.val).st ≠ .inService → exec (.sysresetPulse p) s = .next s)
      ∧ ((s.port p.val).sysreset = false → exec (.sysresetPulseEnd p) s = .next s)
      ∧ ((s.port p.val).sysreset = true → ∃ t, exec (.sysresetPulseEnd p) s = .next t ∧ t.port p.val = { s.port p.val with sysreset := false }
          ∧ t.out = .portLine p.val 5 0 false :: s.out ∧ t = { s with ports := t.ports, out := t.out }))
  ∧ (∀ (s : State) (p : PortId), ((s.port p.val).rackReset = true → exec (.rackReset p) s = .next s)
      ∧ ((s.port p.val).rackReset = false → ∃ u, u.port p.val = { s.port p.val with rackReset := true } ∧ u = { s with ports := u.ports }
          ∧ (monitorRuns s p.val = true → exec (.rackReset p) s = .next (rackResetSeen u p.val))
          ∧ (monitorRuns s p.val = false → exec (.rackReset p) s = .next u))
      ∧ ((s.port p.val).rackReset = false → exec (.rackResetEnd p) s = .next s)
      ∧ ((s.port p.val).rackReset = true → LogRoom s → ∃ t, exec (.rackResetEnd p) s = .next t ∧ t.port p.val = { s.port p.val with rackReset := false }
          ∧ (monitorRuns s p.val = true → Records { s with ports := t.ports } t { code := Ev.rackResetEnd, src := srcPort p.val })
          ∧ (monitorRuns s p.val = false → t = { s with ports := t.ports })))
  ∧ (∀ (s : State) (p : PortId), (portKind s p.val = 2 → (s.port p.val).st = .inService → (s.port p.val).requesting = false →
        exec (.bprnPass p) s = .next (s.emit (.portLine p.val 7 0 true)))
      ∧ (portKind s p.val ≠ 2 ∨ (s.port p.val).st ≠ .inService ∨ (s.port p.val).requesting = true → exec (.bprnPass p) s = .next s))

/-- STUCK_LINE, NO_GRANT, SYSFAIL_FILTER_EXPIRE, RACK_ACFAIL, PERSONALITY_FAULT and WATCHED_LINE_NEGATED (R311, R323, R336). -/
def Obligations.PortFaultsContain : Prop :=
  (∀ (s : State) (p : PortId) (l : Fin 49),
      (monitorRuns s p.val = true → isWatched s p.val l.val = true → cycleOpen (s.port p.val) = false → ∃ u, exec (.stuckLine p l) s = .next (enterPort u p.val 0)
          ∧ u.port p.val = { s.port p.val with watched := insertAsc l.val (s.port p.val).watched } ∧ u = { s with ports := u.ports })
      ∧ (monitorRuns s p.val = false ∨ isWatched s p.val l.val = false ∨ cycleOpen (s.port p.val) = true → exec (.stuckLine p l) s = .next s)
      ∧ (∃ t, exec (.watchedLineNegated p l) s = .next t ∧ l.val ∉ (t.port p.val).watched
          ∧ (∀ x, x ≠ l.val → (x ∈ (t.port p.val).watched ↔ x ∈ (s.port p.val).watched)) ∧ (∀ q, q ≠ p.val → t.port q = s.port q)
          ∧ (lineRole (portTable s p.val) l.val = sysfailRole s p.val → (t.port p.val).sysfail = false)
          ∧ (portKind s p.val = 1 → lineRole (portTable s p.val) l.val = 0x27 → (t.port p.val).acfail = false) ∧ t = { s with ports := t.ports }))
  ∧ (∀ (s : State) (p : PortId), ((s.port p.val).requesting = true → ((s.port p.val).st = .inService ∨ (s.port p.val).st = .stopping) →
        exec (.noGrant p) s = .next (enterPort s p.val 1))
      ∧ ((s.port p.val).requesting = false ∨ ¬((s.port p.val).st = .inService ∨ (s.port p.val).st = .stopping) → exec (.noGrant p) s = .next s))
  ∧ (∀ (s : State) (p : PortId),
      (monitorRuns s p.val = true → portKind s p.val ≠ 2 → (s.port p.val).sysfail = false → ∃ u, u.port p.val = { s.port p.val with sysfail := true }
          ∧ u = { s with ports := u.ports }
          ∧ ((s.reg (paReg p.val 0x10)).getLsbD 0 = true → exec (.sysfailFilterExpire p) s = .next (u.raise { code := Ev.rackSysfail, src := srcPort p.val }))
          ∧ ((s.reg (paReg p.val 0x10)).getLsbD 0 = false → exec (.sysfailFilterExpire p) s = .next (enterPort u p.val 2)))
      ∧ (monitorRuns s p.val = false ∨ portKind s p.val = 2 ∨ (s.port p.val).sysfail = true → exec (.sysfailFilterExpire p) s = .next s))
  ∧ (∀ (s : State) (p : PortId),
      (portKind s p.val = 1 → monitorRuns s p.val = true → (s.port p.val).acfail = false → LogRoom s → ∃ t, exec (.rackAcfail p) s = .next t
          ∧ t.port p.val = { s.port p.val with acfail := true } ∧ Records { s with ports := t.ports } t { code := Ev.rackAcfail, src := srcPort p.val })
      ∧ (portKind s p.val ≠ 1 ∨ monitorRuns s p.val = false ∨ (s.port p.val).acfail = true → exec (.rackAcfail p) s = .next s))
  ∧ (∀ (s : State) (p : PortId) (f : Bool) (l : Fin 49),
      (monitorRuns s p.val = true → (f = true → hasBus s p.val = true) → exec (.personalityFault p f l) s
          = .next (enterPort (s.setReg (paReg p.val 0x1008) (w32 ((if f then 3 else 1) + l.val * 256))) p.val 3))
      ∧ (monitorRuns s p.val = false ∨ (f = true ∧ hasBus s p.val = false) → exec (.personalityFault p f l) s = .next s))

/-- RACK_IRQ_ASSERT, RACK_IACK_RETRY, RIRQ_PENDING_CLEAR, IACKIN_PASS, IRQI_RAISE, IRQI_DROP and IRQI_ACKNOWLEDGE (R313-R317). -/
def Obligations.RackInterrupts : Prop :=
  (∀ (s : State) (p : PortId) (l : Fin 8) (e : IackEnd),
      (irqEligible s p.val l.val = false → exec (.rackIrqAssert p l e) s = .next s ∧ exec (.rackIackRetry p l e) s = .next s)
      ∧ (irqEligible s p.val l.val = true →
          (l.val ∉ (s.port p.val).irqRetry → exec (.rackIackRetry p l e) s = .next s)
          ∧ (l.val ∈ (s.port p.val).irqRetry → exec (.rackIrqAssert p l e) s = .next s)
          ∧ ∀ row, (row = Instr.rackIrqAssert p l e ∧ l.val ∉ (s.port p.val).irqRetry) ∨ (row = .rackIackRetry p l e ∧ l.val ∈ (s.port p.val).irqRetry) →
            (portKind s p.val ≠ 1 → exec row s = .next (irqReport s p.val l.val (w32 l.val)))
            ∧ (portKind s p.val = 1 → ∃ u, u.port p.val = { s.port p.val with irqRetry := (s.port p.val).irqRetry.filter fun n => decide (n ≠ l.val) }
                ∧ u.out = .iackCycle p.val l.val :: s.out ∧ u = { s with ports := u.ports, out := u.out }
                ∧ (∀ v, e = .id v → exec row s = .next (irqReport u p.val l.val (w32 (v.toNat % 2 ^ (8 * 2 ^ min 2 (routeIack u p.val l.val))))))
                ∧ (e = .berr → exec row s = .next (iackFail u p.val l.val Cs.farError))
                ∧ (e = .timeout → exec row s = .next (iackFail u p.val l.val Cs.farTimeout)))))
  ∧ (∀ (s : State) (fn : Fn) (p : PortId) (l : Fin 8) (v : Word),
      let k := irqhReg p.val l.val 2
      (fn.val = 0 → ∃ t, exec (.rirqPendingClear fn p l v) s = .next t ∧ t.reg k = clearBits (s.reg k) (v &&& 3#32)
          ∧ (∀ j, j ≠ k → t.reg j = s.reg j) ∧ t = { s with regs := t.regs })
      ∧ (2 ≤ fn.val → routeTenant s p.val l.val = tenantOf fn.val → (s.reg k).getLsbD 1 = false → ∃ t, exec (.rirqPendingClear fn p l v) s = .next t
          ∧ t.reg k = clearBits (s.reg k) (v &&& 1#32) ∧ (∀ j, j ≠ k → t.reg j = s.reg j) ∧ t = { s with regs := t.regs })
      ∧ (fn.val ≠ 0 → fn.val < 2 ∨ routeTenant s p.val l.val ≠ tenantOf fn.val ∨ (s.reg k).getLsbD 1 = true → exec (.rirqPendingClear fn p l v) s = .next s))
  ∧ (∀ (s : State) (p : PortId) (l : Fin 8),
      (portKind s p.val = 1 → (s.port p.val).st = .inService → irqiOn s p.val l.val = false → exec (.iackinPass p l) s = .next (s.emit (.portLine p.val 3 l.val true)))
      ∧ (portKind s p.val ≠ 1 ∨ (s.port p.val).st ≠ .inService ∨ irqiOn s p.val l.val = true → exec (.iackinPass p l) s = .next s))
  ∧ (∀ (s : State) (p : PortId),
      let l := (s.reg (paReg p.val 0x180)).toNat % 8
      ((s.port p.val).st = .inService → s.reg (paReg p.val 0x18C) = 0 → (s.port p.val).rackReset = false → (portKind s p.val ≠ 1 ∨ l ≠ 0) →
        exec (.irqiRaise p) s = .next ((s.setReg (paReg p.val 0x18C) 1#32).emit (.portLine p.val 6 l true)))
      ∧ ((s.port p.val).st ≠ .inService ∨ s.reg (paReg p.val 0x18C) ≠ 0 ∨ (s.port p.val).rackReset = true → exec (.irqiRaise p) s = .next s)
      ∧ (portKind s p.val ≠ 1 → s.reg (paReg p.val 0x18C) ≠ 0 → exec (.irqiDrop p) s = .next ((s.setReg (paReg p.val 0x18C) 0).emit (.portLine p.val 6 l false)))
      ∧ (portKind s p.val = 1 ∨ s.reg (paReg p.val 0x18C) = 0 → exec (.irqiDrop p) s = .next s))
  ∧ (∀ (s : State) (p : PortId) (l : Fin 8) (w : Fin 3),
      (irqiOn s p.val l.val = false ∨ (s.port p.val).st ≠ .inService → exec (.irqiAcknowledge p l w) s = .next s)
      ∧ (irqiOn s p.val l.val = true → (s.port p.val).st = .inService → ∃ u, u.reg (paReg p.val 0x18C) = 0
          ∧ u.reg (paReg p.val 0x190) = s.reg (paReg p.val 0x190) + 1 ∧ (∀ k, k ≠ paReg p.val 0x18C → k ≠ paReg p.val 0x190 → u.reg k = s.reg k)
          ∧ u.out = .portLine p.val 6 l.val false :: .iackId p.val (w32 ((s.reg (paReg p.val 0x184)).toNat % 2 ^ (8 * 2 ^ min 2 w.val))) :: s.out
          ∧ u = { s with regs := u.regs, out := u.out }
          ∧ exec (.irqiAcknowledge p l w) s = .next (if 8 ≤ bits (s.reg (paReg p.val 0x180)).toNat 15 8 then
              sendMsix u 0 (bits (s.reg (paReg p.val 0x180)).toNat 15 8) else u)))

/-- HARVEST_CYCLE_START, HARVEST_POINT_RETURN, HARVEST_DEADLINE, FLOOD_SELECTOR_READ, FLOOD_SELECTOR_DONE, FLOOD_OUTPUT_READ_DONE, FLOOD_LEDGER_TIMEOUT and HAR_ALLOW_WRITE (chapter 15). -/
def Obligations.HarvestEngineRuns : Prop :=
  (∀ (s : State) (h : Fin 8), ((s.sched h.val).st ≠ .running → exec (.harvestCycleStart h) s = .next s ∧ exec (.floodSelectorRead h) s = .next s)
      ∧ ((s.sched h.val).st = .running →
          let t := nextStart (s.sched h.val)
          (schedHeld s h.val = true ∨ (s.sched h.val).cycle.isSome = true → exec (.harvestCycleStart h) s = .next (missStart (s.atTime t) h.val t))
          ∧ (schedHeld s h.val = false → (s.sched h.val).cycle = none → exec (.harvestCycleStart h) s = .next (takeStart (s.atTime t) h.val t))))
  ∧ (∀ (s : State) (h t : Nat), (s.sched h).missRun = true →
      let u := missStart s h t
      (u.sched h).missed = (s.sched h).missed + 1 ∧ (u.sched h).startedAt = t ∧ (u.sched h).missIrq = true ∧ (∀ g, g ≠ h → u.sched g = s.sched g) ∧ u.log = s.log)
  ∧ (∀ (s : State) (k : Fin 6),
      let b := Tbl.get (fun _ => none) s.har.back k.val
      (b = none → exec (.harvestPointReturn k) s = .next (engineRuns (floodRetry s k.val)))
      ∧ (∀ h f i r, b = some (h, f, i, r) → ∃ u, Tbl.get (fun _ => none) u.har.back k.val = none ∧ k.val ∉ u.har.busy ∧ u = { s with har := u.har }
          ∧ (((s.sched h).cycle.any fun c => decide ((k.val, f, i) ∈ c.issued)) = true → exec (.harvestPointReturn k) s = .next (engineRuns (pointBack u h k.val f i r)))
          ∧ (((s.sched h).cycle.any fun c => decide ((k.val, f, i) ∈ c.issued)) = false → exec (.harvestPointReturn k) s = .next (engineRuns u))))
  ∧ (∀ (s : State) (h : Fin 8), ((s.sched h.val).cycle = none → exec (.harvestDeadline h) s = .next s)
      ∧ (∀ c, (s.sched h.val).cycle = some c → c.overrun = true → exec (.harvestDeadline h) s = .next s)
      ∧ (∀ c, (s.sched h.val).cycle = some c → c.overrun = false → (∀ k, k < 6 → floodHeld s k = none) → ∃ u v w : State, exec (.harvestDeadline h) s = .next (engineRuns w)
          ∧ (u.sched h.val).cycle = some { c with todo := [], overrun := true } ∧ u.now = max s.now (c.start + us (s.sched h.val).period)
          ∧ (∀ g, g ≠ h.val → u.sched g = s.sched g) ∧ u = { s with now := u.now, har := u.har }
          ∧ v = c.todo.foldl (fun x t => pointFails x h.val t.2.1 t.2.2 Ev.pointFail Cs.farTimeout) u
          ∧ w = (v.incReg (0x300040 + 0x100 * h.val)).raise
              { code := Ev.harvestOverrun, src := src 16 0, tenant := (v.sched h.val).tenant, cs := Cs.farTimeout, data := bytesOfWords [h.val, c.todo.length] }))
  ∧ (∀ (s : State) (h : Fin 8), (s.sched h.val).st = .running →
      ((s.sched h.val).hasFlood = false ∨ schedHeld s h.val = true → exec (.floodSelectorRead h) s = .next s)
      ∧ ((s.sched h.val).hasFlood = true → schedHeld s h.val = false → (s.sched h.val).flood = none → ∃ u, exec (.floodSelectorRead h) s = .next (floodAsk u h.val)
          ∧ (u.sched h.val).flood = some { stage := 0, half := 0, seq := 0, bytes := [], base := 0, cs := 0 }
          ∧ u.now = max s.now (nextStart (s.sched h.val) - us (s.sched h.val).lead) ∧ (∀ g, g ≠ h.val → u.sched g = s.sched g)
          ∧ u = { s with now := u.now, har := u.har }))
  ∧ (∀ (s : State) (h : Fin 8) (tag : Nat) (f : FloodRead), (s.sched h.val).flood = some f → tagOf (s.fn (fnOf (s.sched h.val).tenant)) (.selector h.val) = some tag →
      (∀ d, d.length = 8 → ∃ u x, exec (.floodSelectorDone h (.ok d)) s = .next (floodAsk u h.val) ∧ (u.sched h.val).flood = some x
          ∧ x.stage = 5 ∧ x.half = leNat d % 2 ∧ x.seq = leNat d / 2 ∧ x.bytes = f.bytes)
      ∧ (∀ res, res ∈ [HostRes.ur, .ca, .poison] → ∃ t x, exec (.floodSelectorDone h res) s = .next t ∧ (t.sched h.val).flood = some x
          ∧ x.stage = 4 ∧ x.cs = hostCs (hostEnd res)))
  ∧ (∀ (s : State) (h : Fin 8) (tag : Nat) (f : FloodRead) (d : List Byte), (s.sched h.val).flood = some f →
      tagOf (s.fn (fnOf (s.sched h.val).tenant)) (.half h.val) = some tag →
      let left := (floodSpan s h.val).2 - f.base - f.bytes.length
      d.length = mrrsPiece s (s.sched h.val).tenant ((s.sched h.val).outBase + f.half * (s.sched h.val).outSize + f.base + f.bytes.length) left →
      ∃ u x, exec (.floodOutputReadDone h (.ok d)) s = .next (floodAsk u h.val) ∧ (u.sched h.val).flood = some x ∧ x.bytes = f.bytes ++ d
        ∧ x.stage = (if d.length < left then 5 else 3))
  ∧ (∀ (s : State) (k : Fin 6), (floodHeld s k.val = none → exec (.floodLedgerTimeout k) s = .next s)
      ∧ (∀ h i lim, floodHeld s k.val = some (h, i, lim) → ∃ u, exec (.floodLedgerTimeout k) s = .next (engineRuns (pointFails u h true i Ev.pointFail Cs.ledgerFull))
          ∧ floodHeld u k.val = none ∧ (∀ j, j ≠ k.val → floodHeld u j = floodHeld s j) ∧ u.now = max s.now lim ∧ u = { s with now := u.now, har := u.har }))
  ∧ (∀ (s : State) (i : Fin 6) (v : Word), ∃ u, exec (.harAllowWrite i v) s = .next (recheckBudgets u) ∧ u = { s with regs := u.regs }
      ∧ (i.val < 2 → u.reg (0x300800 + 4 * i.val) = w32 (clampTo 1 1000 v.toNat))
      ∧ (2 ≤ i.val → u.reg (0x300810 + 4 * (i.val - 2)) = w32 (clampTo 100 1000000 v.toNat)))

/-- RECEIVER_DETECT, LANE_NO_PEER, LANE_BIT_LOCK, LANE_BLOCK_LOCK, TRAIN_BLOCK_RECEIVED, CAPS_RECEIVED, BRINGUP_STATE_TIMEOUT, STIR_INSERT, STIR_RECEIVED, DENSITY_WINDOW, EQ_ADAPT_STEP and EQ_VERIFY_PERIOD (chapter 16). -/
def Obligations.LanesComeUp : Prop :=
  (∀ (s : State) (k : LinkId) (f : BitVec 5), ((s.link k.val).lst ≠ .detect → exec (.receiverDetect k f) s = .next s ∧ exec (.laneNoPeer k) s = .next s)
      ∧ ((s.link k.val).lst = .detect → domUp s (linkDomain k.val) = true → f = 0#5 → ∃ t, exec (.receiverDetect k f) s = .next t
          ∧ (∀ p, p < 5 → (s.lane (laneNo k.val p)).st = .detect → (t.lane (laneNo k.val p)).detects = 0 ∧ (t.lane (laneNo k.val p)).peer = false)
          ∧ t = { s with lanes := t.lanes })
      ∧ ((s.link k.val).lst = .detect → domUp s (linkDomain k.val) = true →
          (∀ p, p < 5 → (s.lane (laneNo k.val p)).st = .detect ∧ (s.lane (laneNo k.val p)).detects = 1) → f ≠ 0#5 →
          ∃ t, exec (.receiverDetect k f) s = .next t ∧ (t.link k.val).lst = .train ∧ (t.link k.val).detectAt = s.now
            ∧ (∀ p, p < 5 → (t.lane (laneNo k.val p)).st = if f.getLsbD p then .train else .off) ∧ t = { s with lanes := t.lanes, links := t.links, out := t.out })
      ∧ ((s.link k.val).lst = .detect → (s.link k.val).noPeerLogged = true → exec (.laneNoPeer k) s = .next s)
      ∧ ((s.link k.val).lst = .detect → (s.link k.val).noPeerLogged = false → LogRoom s → ∃ t, exec (.laneNoPeer k) s = .next t
          ∧ (t.link k.val).noPeerLogged = true ∧ t.now = max s.now ((s.link k.val).detectAt + ms 100)
          ∧ Records { s with now := t.now, links := t.links } t (linkEv Ev.laneNoPeer k.val)))
  ∧ (∀ (s : State) (n : LaneId) (c : Fin 31),
      ((s.lane n.val).st = .train → bringingUp (s.link (laneLink n.val)) = true → ∃ t, exec (.laneBitLock n c) s = .next t
          ∧ t.lane n.val = { s.lane n.val with st := .bitLock, code := c.val, initial := c.val, dirty := true } ∧ (∀ m, m ≠ n.val → t.lane m = s.lane m)
          ∧ t = { s with lanes := t.lanes })
      ∧ ((s.lane n.val).st ≠ .train → exec (.laneBitLock n c) s = .next s)
      ∧ ((s.lane n.val).st ≠ .bitLock → exec (.laneBlockLock n) s = .next s)
      ∧ ((s.lane n.val).st = .bitLock → bringingUp (s.link (laneLink n.val)) = true → (s.lane n.val).peerLocked = false → ∃ t, exec (.laneBlockLock n) s = .next t
          ∧ t.lane n.val = { s.lane n.val with st := .blockLock } ∧ (∀ m, m ≠ n.val → t.lane m = s.lane m) ∧ t = { s with lanes := t.lanes, out := t.out })
      ∧ ((s.lane n.val).st = .bitLock → bringingUp (s.link (laneLink n.val)) = true → (s.lane n.val).peerLocked = true → ∃ u, exec (.laneBlockLock n) s = .next (toCaps u n.val)
          ∧ (u.lane n.val).st = .blockLock))
  ∧ (∀ (s : State) (n : LaneId) (ph : Fin 5) (l i : Bool),
      ((s.lane n.val).st ∈ [LaneSt.train, .bitLock, .caps] → ∃ t, exec (.trainBlockReceived n ph l i) s = .next t
          ∧ t.lane n.val = { s.lane n.val with peerPhys := ph.val, inverted := i, peerLocked := (s.lane n.val).peerLocked || l }
          ∧ (∀ m, m ≠ n.val → t.lane m = s.lane m) ∧ t = { s with lanes := t.lanes })
      ∧ ((s.lane n.val).st = .active ∨ (s.lane n.val).st = .spare →
          (i = (s.lane n.val).inverted → exec (.trainBlockReceived n ph l i) s = .next s)
          ∧ (i ≠ (s.lane n.val).inverted → exec (.trainBlockReceived n ph l i) s = .next (laneLossEff s n.val .polarity))))
  ∧ (∀ (s : State) (k : LinkId) (caps : List (Fin 5 × CapsBlock)),
      let lanes := lanesIn s k.val fun st => decide (st = .caps)
      let all := lanes.all fun p => (capsOf caps p).any fun c => c.ack
      ((s.link k.val).lst ≠ .caps → exec (.capsReceived k caps) s = .next s)
      ∧ (∀ c, (s.link k.val).lst = .caps → lanes.head?.bind (capsOf caps) = some c →
          (all = true → caps = (s.link k.val).capsSeen → exec (.capsReceived k caps) s = .next (capsAgree s k.val caps c))
          ∧ (all = false ∨ caps ≠ (s.link k.val).capsSeen → ∃ t, exec (.capsReceived k caps) s = .next t ∧ (t.link k.val).capsSeen = caps
              ∧ t.out = .laneCaps k.val 0 true :: s.out ∧ t = { s with links := t.links, out := t.out })))
  ∧ (∀ (s : State) (k : LinkId) (p : Fin 5),
      ((s.link k.val).lst ≠ .train → (s.link k.val).lst ≠ .caps → exec (.bringupStateTimeout k p) s = .next s)
      ∧ ((s.link k.val).lst = .train ∨ (s.link k.val).lst = .caps → 0 < (s.link k.val).rate →
          exec (.bringupStateTimeout k p) s = .next (toDetect (strikeRate s k.val) k.val))
      ∧ (∀ q, (s.link k.val).lst = .train ∨ (s.link k.val).lst = .caps → (s.link k.val).rate = 0 → (s.lane (laneNo k.val p.val)).st = .bitLock ∨ (s.lane (laneNo k.val p.val)).st = .blockLock →
          q < 5 → q ≠ p.val → (s.lane (laneNo k.val q)).st = .train → ∃ t, exec (.bringupStateTimeout k p) s = .next t
            ∧ t.lane (laneNo k.val p.val) = { s.lane (laneNo k.val p.val) with st := .off } ∧ (∀ m, m ≠ laneNo k.val p.val → t.lane m = s.lane m) ∧ t = { s with lanes := t.lanes }))
  ∧ (∀ (s : State) (k : LinkId), exec (.stirInsert k) s = .next (if (s.link k.val).lst = .active ∧ (s.link k.val).eiIdle = false then s.emit (.laneStir k.val) else s))
  ∧ (∀ (s : State) (n : LaneId) (v : DWord), ((s.lane n.val).st ≠ .active → (s.lane n.val).st ≠ .spare → exec (.stirReceived n v) s = .next s)
      ∧ ((s.lane n.val).st = .active ∨ (s.lane n.val).st = .spare → blockCrcOk v.toNat = true → v.toNat % 256 = 0x4B →
          popcount (bits v.toNat 55 24 ^^^ 0x5A0FF0A5) = 0 → exec (.stirReceived n v) s = .next s)
      ∧ ((s.lane n.val).st = .active ∨ (s.lane n.val).st = .spare → v.toNat % 256 ≠ 0x4B → exec (.stirReceived n v) s = .next (s.incReg (lanReg n.val 0xC))))
  ∧ (∀ (s : State) (n : LaneId) (w : Fin 1025) (up : Bool),
      (receiving (s.lane n.val) = false → exec (.densityWindow n w) s = .next s ∧ exec (.eqAdaptStep n up) s = .next s ∧ exec (.eqVerifyPeriod n) s = .next s)
      ∧ (receiving (s.lane n.val) = true → ∃ t1 t2 t3, exec (.densityWindow n w) s = .next t1 ∧ exec (.eqAdaptStep n up) s = .next t2 ∧ exec (.eqVerifyPeriod n) s = .next t3
          ∧ (w.val < densMin s (laneLink n.val) → (t1.lane n.val).frozen = true ∧ (t1.lane n.val).okWindows = 0 ∧ (t1.lane n.val).density = w.val
              ∧ ((s.lane n.val).frozen = false → t1.reg (lanReg n.val 0x18) = s.reg (lanReg n.val 0x18) + 1))
          ∧ (densMin s (laneLink n.val) ≤ w.val → (s.lane n.val).frozen = false → (t1.lane n.val).frozen = false)
          ∧ ((s.lane n.val).frozen = true → t2 = s)
          ∧ ((s.lane n.val).frozen = false → t2.lane n.val = { s.lane n.val with code := if up then min 30 ((s.lane n.val).code + 1) else (s.lane n.val).code - 1 })
          ∧ ((s.lane n.val).dirty = false → (s.lane n.val).frozen = false → (t3.lane n.val).verified = (s.lane n.val).code)
          ∧ ((s.lane n.val).dirty = true ∨ (s.lane n.val).frozen = true → (t3.lane n.val).verified = (s.lane n.val).verified)
          ∧ (∀ m, m ≠ n.val → t1.lane m = s.lane m ∧ t2.lane m = s.lane m ∧ t3.lane m = s.lane m)))

/-- LANE_LOSS, SWAP_RECEIVED, SWAP_ACK_RECEIVED, SWAP_SWITCH, SWAP_ACK_TIMEOUT, LINK_NARROW_DONE, LANE_RESTORED, LANE_FAILED, EI_REQUEST, EI_ENTER_RECEIVED, EI_EXIT, EI_VERIFY_END, FAR_LOOP_ON and FAR_LOOP_OFF (chapter 16). -/
def Obligations.LanesAreSwappedAndIdled : Prop :=
  (∀ (s : State) (n : LaneId) (c : LaneLossCause),
      let up := (s.link (laneLink n.val)).lst = .active ∧ (s.link (laneLink n.val)).eiIdle = false ∧ ((s.lane n.val).st = .active ∨ (s.lane n.val).st = .spare)
      (¬up → exec (.laneLoss n c) s = .next s)
      ∧ (up → c ≠ .headers → exec (.laneLoss n c) s = .next (laneLost s n.val))
      ∧ (up → c = .headers → exec (.laneLoss n c) s = .next (laneLost (s.addReg (lanReg n.val 0xC) 32) n.val)))
  ∧ (∀ (s : State) (k : LinkId) (m : Fin 4) (c : BitVec 16),
      ((s.link k.val).lst ≠ .active ∨ (s.link k.val).map.length ≤ m.val → exec (.swapReceived k m c) s = .next s)
      ∧ ((s.link k.val).lst = .active → m.val < (s.link k.val).map.length → (s.link k.val).swap = none → (s.link k.val).spare ≠ 7 →
          ∃ t f, exec (.swapReceived k m c) s = .next t ∧ (t.link k.val).swap = some (m.val, f, true) ∧ t.out.head? = some (.laneCtl k.val 2 m.val f))
      ∧ (∀ f a, (s.link k.val).lst = .active → m.val < (s.link k.val).map.length → (s.link k.val).swap = some (m.val, f, a) →
          ∃ t, exec (.swapReceived k m c) s = .next t ∧ (t.link k.val).swap = some (m.val, earlierCount f c.toNat, true) ∧ t = { s with links := t.links })
      ∧ (∀ m' f a, (s.link k.val).lst = .active → m.val < (s.link k.val).map.length → (s.link k.val).swap = some (m', f, a) → m' ≠ m.val →
          exec (.swapReceived k m c) s = .next (startNarrow s k.val)))
  ∧ (∀ (s : State) (k : LinkId) (c : BitVec 16),
      ((s.link k.val).swap = none → exec (.swapAckReceived k c) s = .next s ∧ exec (.swapAckTimeout k) s = .next s ∧ exec (.swapSwitch k) s = .next s)
      ∧ (∀ m f, (s.link k.val).swap = some (m, f, false) → exec (.swapAckTimeout k) s = .next (startNarrow s k.val) ∧ exec (.swapSwitch k) s = .next s
          ∧ ∃ t, exec (.swapAckReceived k c) s = .next t ∧ (t.link k.val).swap = some (m, c.toNat, true) ∧ (∀ j, j ≠ k.val → t.link j = s.link j) ∧ t = { s with links := t.links })
      ∧ (∀ m f, (s.link k.val).swap = some (m, f, true) → exec (.swapAckReceived k c) s = .next s ∧ exec (.swapAckTimeout k) s = .next s
          ∧ ∃ t, exec (.swapSwitch k) s = .next t ∧ (t.link k.val).swap = none ∧ (t.link k.val).spare = 7
            ∧ (t.link k.val).map = setNth (s.link k.val).map m (s.link k.val).spare
            ∧ (t.lane (laneNo k.val (s.link k.val).spare)).st = .active ∧ (t.lane (laneNo k.val (s.link k.val).spare)).logical = m))
  ∧ (∀ (s : State) (k : LinkId) (u : BitVec 5), ((s.link k.val).narrowing = false → exec (.linkNarrowDone k u) s = .next s)
      ∧ ((s.link k.val).narrowing = true → u = 0#5 → (s.link k.val).st ≠ .held → linkServes s k.val = true → exec (.linkNarrowDone k u) s = .next (toDetect s k.val))
      ∧ (let ok := (lanesIn s k.val fun st => decide (st = .train ∨ st = .bitLock ∨ st = .blockLock ∨ st = .caps)).filter fun p => u.getLsbD p
         let v := setActive s k.val (widthFor (if (s.link k.val).width = 3 then 4 else (s.link k.val).width)).2 ok
         (s.link k.val).narrowing = true → ok ≠ [] → exec (.linkNarrowDone k u) s
           = .next (lanesUp (v.raise { linkEv Ev.linkNarrow k.val with data := leBytes 1 (s.link k.val).width ++ leBytes 1 (v.link k.val).width }) k.val)))
  ∧ (∀ (s : State) (n : LaneId), ((s.lane n.val).st ≠ .recover → exec (.laneRestored n) s = .next s ∧ exec (.laneFailed n) s = .next s)
      ∧ ((s.lane n.val).st = .recover → LogRoom s → ∃ t, exec (.laneFailed n) s = .next t ∧ (t.lane n.val).st = .failed ∧ (∀ m, m ≠ n.val → t.lane m = s.lane m)
          ∧ Records { s with lanes := t.lanes } t (laneEv Ev.laneFailed n.val))
      ∧ ((s.lane n.val).st = .recover → (s.link (laneLink n.val)).lst = .active → (s.link (laneLink n.val)).spare = 7 →
          (recentLosses s (s.lane n.val)).length < 3 → LogRoom s → ∃ t, exec (.laneRestored n) s = .next t ∧ (t.lane n.val).st = .spare
            ∧ (t.link (laneLink n.val)).spare = lanePhys n.val ∧ Records { s with lanes := t.lanes, links := t.links } t (laneEv Ev.laneRestored n.val)))
  ∧ (∀ (s : State) (k : LinkId),
      let l := s.link k.val
      (l.lst = .active → l.st = .up → bit l.offer 5 = true → s.reg (uliReg k.val 0x4C) ≠ 0 → l.eiIdle = false → l.eiAsked = false → linkQuiet l = true →
        ∃ t, exec (.eiRequest k) s = .next t ∧ t.link k.val = { l with eiAsked := true } ∧ t.out = .laneCtl k.val 3 0 0 :: s.out ∧ t = { s with links := t.links, out := t.out })
      ∧ (l.lst ≠ .active ∨ l.eiIdle = true → exec (.eiRequest k) s = .next s ∧ exec (.eiEnterReceived k) s = .next s)
      ∧ (l.lst = .active → l.eiIdle = false → ∃ t, exec (.eiEnterReceived k) s = .next t
          ∧ t.link k.val = { l with lst := .ei, eiIdle := true, eiAsked := false, idleFrom := s.now }
          ∧ (∀ p, p < 5 → receiving (s.lane (laneNo k.val p)) = true → (t.lane (laneNo k.val p)).st = .ei)
          ∧ (∀ p, p < 5 → receiving (s.lane (laneNo k.val p)) = false → t.lane (laneNo k.val p) = s.lane (laneNo k.val p))
          ∧ t = { s with links := t.links, lanes := t.lanes, out := t.out }))
  ∧ (∀ (s : State) (k : LinkId) (b : BitVec 5), ((s.link k.val).eiIdle = false → exec (.eiExit k b) s = .next s)
      ∧ ((s.link k.val).eiIdle = true → (∀ p, p < 5 → (s.lane (laneNo k.val p)).st = .ei → b.getLsbD p = false) →
          ∃ u, exec (.eiExit k b) s = .next (startNarrow u k.val) ∧ (u.link k.val).lst = .active ∧ (u.link k.val).eiIdle = false)
      ∧ (let long := decide ((s.link k.val).idleFrom + ms 10 < s.now)
         let ps := lanesIn s k.val fun st => decide (st = .ei)
         (s.link k.val).eiIdle = true → (∃ p ∈ ps, b.getLsbD p = true) →
          ∃ u, exec (.eiExit k b) s = .next (lanesLost u k.val (ps.filter fun p => !b.getLsbD p)) ∧ (u.link k.val).lst = .active ∧ (u.link k.val).eiIdle = false
            ∧ ((∀ p ∈ ps, b.getLsbD p = true) → exec (.eiExit k b) s = .next u)
            ∧ (∀ p ∈ ps, (u.lane (laneNo k.val p)).st = (if p = (s.link k.val).spare then .spare else .active)
                ∧ (u.lane (laneNo k.val p)).verifying = (long && b.getLsbD p)
                ∧ (u.lane (laneNo k.val p)).code = if long then (s.lane (laneNo k.val p)).verified else (s.lane (laneNo k.val p)).code))
      ∧ ((s.link k.val).lst = .active → ∃ u, exec (.eiVerifyEnd k b) s
            = .next (lanesLost u k.val ((List.range 5).filter fun p => (s.lane (laneNo k.val p)).verifying && !b.getLsbD p))
          ∧ ((∀ p, p < 5 → (s.lane (laneNo k.val p)).verifying = true → b.getLsbD p = true) → exec (.eiVerifyEnd k b) s = .next u)
          ∧ (∀ p, p < 5 → u.lane (laneNo k.val p) = if (s.lane (laneNo k.val p)).verifying then { s.lane (laneNo k.val p) with verifying := false, frozen := false } else s.lane (laneNo k.val p))
          ∧ u = { s with lanes := u.lanes })
      ∧ ((s.link k.val).lst ≠ .active → exec (.eiVerifyEnd k b) s = .next s)
      ∧ ((s.link k.val).lst = .active → (∀ p, p < 5 → (s.lane (laneNo k.val p)).verifying = false) → exec (.eiVerifyEnd k b) s = .next s))
  ∧ (∀ (s : State) (k : LinkId),
      ((s.link k.val).st = .outOfService → (s.link k.val).loopMode = 0 → (s.reg (linkReg k.val 8)).getLsbD 4 = true → ∃ t, exec (.farLoopOn k) s = .next t
          ∧ (t.link k.val).lst = .loop ∧ (t.link k.val).farLoop = true ∧ (∀ p, p < 5 → (s.lane (laneNo k.val p)).st = .off → (t.lane (laneNo k.val p)).st = .loop)
          ∧ t = { s with links := t.links, lanes := t.lanes })
      ∧ ((s.link k.val).st ≠ .outOfService ∨ (s.link k.val).loopMode ≠ 0 → exec (.farLoopOn k) s = .next s)
      ∧ ((s.link k.val).farLoop = false → exec (.farLoopOff k) s = .next s)
      ∧ ((s.link k.val).farLoop = true → ∃ t, exec (.farLoopOff k) s = .next t ∧ (t.link k.val).lst = .off ∧ (t.link k.val).farLoop = false
          ∧ (∀ p, p < 5 → (s.lane (laneNo k.val p)).st = .loop → (t.lane (laneNo k.val p)).st = .off) ∧ t = { s with links := t.links, lanes := t.lanes }))

/-- The Ulilum rows (chapter 17). -/
def Obligations.UlilumSessionsAndMessages : Prop :=
  (∀ (s : State) (k : LinkId) (g : List RxFlit), (linkServes s k.val = true → (s.link k.val).lst = .active → exec (.flitGroupReceive k g) s = .next (g.foldl (rxSlot k.val) s))
      ∧ (linkServes s k.val = false ∨ (s.link k.val).lst ≠ .active → exec (.flitGroupReceive k g) s = .next s))
  ∧ (∀ (s : State) (k : LinkId) (f : InitFlit),
      (linkServes s k.val = false ∨ (s.link k.val).lst ≠ .active → exec (.sessionInitReceive k f) s = .next s)
      ∧ (linkServes s k.val = true → (s.link k.val).lst = .active →
          (initAllowed k.val f = false → exec (.sessionInitReceive k f) s = .next (initRefused s k.val))
          ∧ (initAllowed k.val f = true → ∃ u, u = { s with cont := { s.cont with linkVersion := s.cont.linkVersion.filter fun j => decide (j ≠ k.val) } }
              ∧ ((s.link k.val).st = .held → f.resume = true → f.session = (s.link k.val).session → f.lastAgreed = (s.link k.val).session →
                  exec (.sessionInitReceive k f) s = .next (resumeSession u k.val))
              ∧ ((s.link k.val).st = .held → f.resume = false ∨ f.session ≠ (s.link k.val).session ∨ f.lastAgreed ≠ (s.link k.val).session →
                  exec (.sessionInitReceive k f) s = .next (loseSession u k.val 0))
              ∧ ((s.link k.val).st = .up → f.session = (s.link k.val).peerSession → exec (.sessionInitReceive k f) s = .next u)
              ∧ ((s.link k.val).st = .init → ∃ v, (v.link k.val) = { s.link k.val with gotInit := some f, peerVersion := f.version, peerRole := f.role }
                  ∧ (∀ j, j ≠ k.val → v.link j = s.link j) ∧ v = { u with links := v.links }
                  ∧ (f.initAck = true → exec (.sessionInitReceive k f) s = .next (openSession v k.val f))
                  ∧ (f.initAck = false → exec (.sessionInitReceive k f) s = .next (v.emit (.uliInit k.val (s.link k.val).ownSession true false)))))))
  ∧ (∀ (s : State) (k : LinkId),
      ((s.link k.val).st ≠ .up ∨ (s.link k.val).lst ≠ .active ∨ nextTx (s.link k.val) = none → exec (.uliMessageSend k) s = .next s)
      ∧ (∀ i m, (s.link k.val).st = .up → (s.link k.val).lst = .active → nextTx (s.link k.val) = some i → (s.link k.val).txQ[i]? = some m →
          (∀ a, m.req = some a → exec (.uliMessageSend k) s = .next (sendRequest s k.val i m a))
          ∧ (m.req = none → exec (.uliMessageSend k) s = .next (enterStream (s.modLink k.val fun l => { l with txQ := l.txQ.eraseIdx i }) k.val m.cls
              (unitsOf (m.bytes.length - 16)) m.bytes))))
  ∧ (∀ (s : State) (k : LinkId),
      (takeRx s k.val (fun t => decide (t = 0x10)) = none → exec (.uliCplReceive k) s = .next s)
      ∧ (takeRx s k.val (fun t => decide (t = 0x11)) = none → exec (.uliSettleReceive k) s = .next s)
      ∧ (takeRx s k.val (fun t => decide (t = 0x20)) = none → exec (.uliNotifyReceive k) s = .next s)
      ∧ (takeRx s k.val (fun t => decide (1 ≤ t ∧ t ≤ 3)) = none → exec (.uliPeerRequest k) s = .next s)
      ∧ (takeRx s k.val (fun t => decide (t = 0x21)) = none → exec (.uliCloseReceive k) s = .next s)
      ∧ (∀ m u, takeRx s k.val (fun t => decide (t = 0x10)) = some (m, u) →
          (reqOf u k.val m.tag = none → exec (.uliCplReceive k) s = .next (strayAnswer u k.val m.tag))
          ∧ (∀ r, reqOf u k.val m.tag = some r → r.acc.kind ≠ .write → m.status = 0 → m.data.length = r.len → exec (.uliCplReceive k) s
              = .next (endReq u k.val r { cs := statusCs 0, addr := r.acc.addr + r.off, data := m.data.map some, beat := m.beat })))
      ∧ (∀ m u, takeRx s k.val (fun t => decide (t = 0x11)) = some (m, u) →
          (reqOf u k.val m.tag = none → exec (.uliSettleReceive k) s = .next (strayAnswer u k.val m.tag))
          ∧ (∀ r, reqOf u k.val m.tag = some r → r.acc.kind = .write → m.status ≤ 5 → exec (.uliSettleReceive k) s
              = .next (endReq u k.val r { cs := statusCs m.status, addr := m.addr, data := [], beat := m.beat })))
      ∧ (∀ m u, takeRx s k.val (fun t => decide (t = 0x20)) = some (m, u) → bit (u.reg (uliReg k.val 0x54)).toNat 0 = false →
          ∃ t, exec (.uliNotifyReceive k) s = .next t ∧ t.reg (uliReg k.val 0x58) = w32 m.addr ∧ t.reg (uliReg k.val 0x5C) = u.reg (uliReg k.val 0x5C) + 1
            ∧ (∀ r, r ≠ uliReg k.val 0x58 → r ≠ uliReg k.val 0x5C → t.reg r = u.reg r) ∧ t = { u with regs := t.regs })
      ∧ (∀ m u, takeRx s k.val (fun t => decide (1 ≤ t ∧ t ≤ 3)) = some (m, u) → ∃ t, exec (.uliPeerRequest k) s = .next t
          ∧ t.reg (uliReg k.val 0x60) = u.reg (uliReg k.val 0x60) + 1
          ∧ (t.link k.val).txQ = (u.link k.val).txQ ++ [{ cls := 2, bytes := messageHeader 0x10 0 1 0 m.tag 3 0 0, req := none, off := 0 }]
          ∧ (∀ j, j ≠ k.val → t.link j = u.link j) ∧ t = { u with regs := t.regs, links := t.links })
      ∧ (∀ m u, takeRx s k.val (fun t => decide (t = 0x21)) = some (m, u) → exec (.uliCloseReceive k) s = .next (loseSession u k.val 0)))
  ∧ (∀ (s : State) (k : LinkId) (tag : Nat), (reqOf s k.val tag = none → exec (.uliReqTimeoutExpire k tag) s = .next s)
      ∧ (∀ r, reqOf s k.val tag = some r → ∃ u, exec (.uliReqTimeoutExpire k tag) s
            = .next (endReq u k.val r { cs := Cs.farTimeout, addr := r.acc.addr + r.off, data := [], beat := 0 })
          ∧ tag ∈ (u.link k.val).quar ∧ u.now = max s.now r.deadline ∧ u = { s with now := u.now, links := u.links })
      ∧ (∃ t, exec (.uliQuarantineExpire k tag) s = .next t ∧ tag ∉ (t.link k.val).quar ∧ (∀ x, x ≠ tag → (x ∈ (t.link k.val).quar ↔ x ∈ (s.link k.val).quar))
          ∧ (∀ j, j ≠ k.val → t.link j = s.link j) ∧ t = { s with links := t.links }))
  ∧ (∀ (s : State) (k : LinkId),
      ((s.link k.val).st ≠ .up → exec (.replayTimerExpire k) s = .next s ∧ exec (.ackOwedTimer k) s = .next s ∧ exec (.keepaliveTimer k) s = .next s
        ∧ exec (.sessionSilence k) s = .next s)
      ∧ ((s.link k.val).st = .up → (s.link k.val).eiIdle = false →
          (0 < (s.link k.val).unacked → (s.link k.val).replays < 4 → ∃ t, exec (.replayTimerExpire k) s = .next t
              ∧ (t.link k.val).replays = (s.link k.val).replays + 1 ∧ (∀ j, j ≠ k.val → t.link j = s.link j)
              ∧ t.out = .uliReplay k.val (((s.link k.val).txNext + 4096 - (s.link k.val).unacked % 4096) % 4096) (s.link k.val).unacked :: s.out)
          ∧ (0 < (s.link k.val).unacked → 4 ≤ (s.link k.val).replays → ∃ u, exec (.replayTimerExpire k) s = .next (startNarrow u k.val)
              ∧ (u.link k.val).replays = 0 ∧ u = { s with links := u.links, log := u.log, regs := u.regs })
          ∧ ((s.link k.val).ackOwed = true → exec (.ackOwedTimer k) s = .next (nullGroup s k.val false))
          ∧ exec (.keepaliveTimer k) s = .next (nullGroup s k.val false)
          ∧ exec (.sessionSilence k) s = .next (loseSession s k.val 0))
      ∧ ((s.link k.val).st = .held → exec (.uliHoldExpire k) s = .next (loseSession (s.atTime (s.link k.val).holdUntil) k.val 0))
      ∧ ((s.link k.val).st ≠ .held → exec (.uliHoldExpire k) s = .next s))

/-- TAL_FAIL_REARM and TAL_ACK_WRITE (R377), for the VF `fn` of tenant `n`, both by the row and by the register's address; and the tenant status words of a VF (R181, R270). -/
def Obligations.TenantsReadTheirOwnStatus : Prop :=
  (∀ (s : State) (fn : Fn) (n : Tenant) (v : Word), 2 ≤ fn.val → tenantOf fn.val = n.val →
    (privOf s n.val = false →
      (∀ off, off ∈ [0x20, 0x24, 0x28, 0x2C, 0x30] →
          regWord s fn.val (0x8300 + off) = 0 ∧ regWord s 0 (0x1C1000 + 0x40 * n.val + off) = 0
          ∧ writeWord s fn.val (0x8300 + off) v = s ∧ writeWord s 0 (0x1C1000 + 0x40 * n.val + off) v = s)
      ∧ exec (.talFailRearm fn n v) s = .next s ∧ exec (.talFailRearm 0 n v) s = .next s)
    ∧ (∃ t, exec (.talAckWrite 0 n v) s = .next t ∧ exec (.talAckWrite fn n v) s = .next t
        ∧ (∀ m, m ≠ n.val → t.tally m = s.tally m)
        ∧ writeWord s 0 (0x1C1000 + 0x40 * n.val + 8) v = t ∧ writeWord s fn.val (0x8308) v = t))
  ∧ (∀ (s : State) (fn : Fn), 2 ≤ fn.val →
    (bit (regWord s fn.val 0x8000) 0 = true ↔ s.tenantCause (tenantOf fn.val) ≠ 0)
    ∧ bits (regWord s fn.val 0x8000) 15 8 = bits (regWord s 0 (0x500 + 4 * tenantOf fn.val)) 7 0
    ∧ (∀ j n : Fin 32, bit (regWord s fn.val (0x8100 + 4 * j.val)) n.val = true ↔
        ∃ q ∈ queuesOf s (tenantOf fn.val), (s.q q).dbIdx = 32 * j.val + n.val ∧ ((s.q q).st = .halted ∨ (s.q q).st = .disabled)))

/-- What a weir answers (R466); the default actions are R467's. -/
def Obligations.WeirsDecide : Prop :=
  (∀ (s : State) (w r space addr : Nat), space < 64 →
    (rgnMatch s w r space addr = true ↔
      (rgnWord s w r 1).testBit 0 = true
      ∧ (w < 6 → ∀ i, i < 6 → (rgnWord s w r 1).testBit (16 + i) = true → space.testBit i = (rgnWord s w r 1).testBit (8 + i))
      ∧ rgnBase s w r ≤ addr ∧ addr < rgnBase s w r + 2 ^ bits (rgnWord s w r 1) 29 24))
  ∧ (∀ (s : State) (w t space addr : Nat) (rd wr : Bool),
      (∀ r, r < 64 → rgnMatch s w r space addr = true → (∀ q, q < r → rgnMatch s w q space addr = false) →
        (weirAllows s w t space addr rd wr = true ↔ (rd = true → rgnRead s w r t = true) ∧ (wr = true → rgnWrite s w r t = true)))
      ∧ ((∀ r, r < 64 → rgnMatch s w r space addr = false) →
          (weirDefault s w = 0 → weirAllows s w t space addr rd wr = false)
          ∧ (weirDefault s w = 1 → weirAllows s w t space addr rd wr = !wr)
          ∧ (weirDefault s w = 2 → weirAllows s w t space addr rd wr = true)))

/-- The invariant of `LifeCycleOnlyGoesForward` at reset. -/
def Obligations.ResetHasALegalLifeCycle : Prop := LegalLifeCycle State.reset ∧ lcyState State.reset = 0 ∧ State.reset.pending = []

/-- Fuses are one-way, over all 290 commands and over the tick, and stay a thermometer code (R134, R136). -/
def Obligations.LifeCycleOnlyGoesForward : Prop :=
  (∀ (c : Instr) (s : State), ∃ t, exec c s = .next t
      ∧ (∀ i, s.mram.fuses.getLsbD i = true → t.mram.fuses.getLsbD i = true)
      ∧ lcyState s ≤ lcyState t
      ∧ (c ≠ .ownerKeyInstall → c ≠ .lcyAdvance → c ≠ .lcyReturn → t.mram.fuses = s.mram.fuses)
      ∧ t.pending = s.pending)
  ∧ (∀ s : State, s.pending = [] → ∃ t, step s = .next t ∧ t.mram.fuses = s.mram.fuses ∧ t.pending = [])
  ∧ (∀ s t : State, LegalLifeCycle s → step s = .next t → LegalLifeCycle t)

/-- The written log survives every step (R519, with the ring of R515 and the first-of-kind slots of R517). -/
def Obligations.NothingErasesTheLog : Prop :=
  (∀ s t : State, s.log.seq + 600 < 2 ^ 48 → step s = .next t → LogKept s t)
  ∧ (∀ s : State, s.log.seq + 600 < 2 ^ 48 → ∀ c ∈ [Instr.lcyReturn, .imageCommit, .imageConfirm, .deviceReset], ∃ t, exec c s = .next t ∧ LogKept s t)
end

