-- ==== Sys2Proof/Laws/Table.lean ====
section
/-! SUPPORT. The laws of sparse tables: what a write, a clear and the empty table read as, and that every operation keeps the canonical form. -/

namespace Sys2Proof.Machine

@[simp] theorem Tbl.get_empty {α : Type} (d : Nat → α) (k : Nat) : Tbl.get d ⟨[]⟩ k = d k := rfl

theorem Tbl.lookup_dropKey {α : Type} (r : List (Nat × α)) (k j : Nat) :
    Tbl.lookup (Tbl.dropKey r k) j = if j = k then none else Tbl.lookup r j := by
  induction r with
  | nil => simp [Tbl.dropKey, Tbl.lookup]
  | cons e r ih =>
    obtain ⟨i, v⟩ := e
    by_cases h : i = k <;> by_cases h' : i = j <;> simp_all [Tbl.dropKey, Tbl.lookup]

theorem Tbl.lookup_putKey {α : Type} (r : List (Nat × α)) (k j : Nat) (v : α) :
    Tbl.lookup (Tbl.putKey r k v) j = if j = k then some v else Tbl.lookup r j := by
  induction r with
  | nil => simp [Tbl.putKey, Tbl.lookup, eq_comm]
  | cons e r ih =>
    obtain ⟨i, w⟩ := e
    simp only [Tbl.putKey]
    rcases lt_trichotomy k i with h | h | h
    · simp [h, Tbl.lookup, eq_comm]
    · subst h
      by_cases h' : k = j
      · simp [Tbl.lookup, h']
      · simp [Tbl.lookup, h', Ne.symm h']
    · have h1 : ¬ k < i := by omega
      have h2 : ¬ k = i := by omega
      simp only [h1, h2, if_false, Tbl.lookup]
      by_cases h' : i = j
      · have : j ≠ k := by omega
        simp [h', this]
      · simp [h', ih]

/-- A key reads as what was last written to it; every other key reads as before. -/
theorem Tbl.get_set {α : Type} [DecidableEq α] (d : Nat → α) (t : Tbl α) (k j : Nat) (v : α) :
    Tbl.get d (Tbl.set d t k v) j = if j = k then v else Tbl.get d t j := by
  unfold Tbl.set
  by_cases hv : v = d k <;> by_cases h : j = k <;>
    simp [Tbl.get, hv, h, Tbl.lookup_putKey, Tbl.lookup_dropKey]

@[simp] theorem Tbl.get_set_same {α : Type} [DecidableEq α] (d : Nat → α) (t : Tbl α) (k : Nat) (v : α) :
    Tbl.get d (Tbl.set d t k v) k = v := by simp [Tbl.get_set]

theorem Tbl.get_set_other {α : Type} [DecidableEq α] (d : Nat → α) (t : Tbl α) (k j : Nat) (v : α) (h : j ≠ k) :
    Tbl.get d (Tbl.set d t k v) j = Tbl.get d t j := by simp [Tbl.get_set, h]

/-- A cleared key reads as its default, every other key as before. -/
theorem Tbl.get_clear {α : Type} (d : Nat → α) (p : Nat → Bool) (t : Tbl α) (k : Nat) :
    Tbl.get d (Tbl.clear p t) k = if p k then d k else Tbl.get d t k := by
  unfold Tbl.get Tbl.clear
  obtain ⟨rows⟩ := t
  induction rows with
  | nil => simp [Tbl.lookup]
  | cons e r ih =>
    obtain ⟨i, v⟩ := e
    by_cases hi : p i <;> by_cases hk : i = k <;> simp_all [Tbl.lookup]

/-! ## The canonical form -/

/-- The keys of a rising list all lie above `b`. -/
theorem Tbl.rising_cons {α : Type} (k : Nat) (v : α) (r : List (Nat × α)) :
    Tbl.rising ((k, v) :: r) = true ↔ (∀ e ∈ r, k < e.1) ∧ Tbl.rising r = true := by
  induction r generalizing k v with
  | nil => simp [Tbl.rising]
  | cons e r ih =>
    obtain ⟨i, w⟩ := e
    simp only [Tbl.rising, Bool.and_eq_true, decide_eq_true_eq, List.mem_cons, forall_eq_or_imp]
    constructor
    · rintro ⟨h, h'⟩
      refine ⟨⟨h, fun e he => ?_⟩, h'⟩
      exact lt_trans h ((ih i w).1 h' |>.1 e he)
    · rintro ⟨⟨h, _⟩, h'⟩
      exact ⟨h, h'⟩

theorem Tbl.mem_dropKey {α : Type} (r : List (Nat × α)) (k : Nat) (e : Nat × α) :
    e ∈ Tbl.dropKey r k ↔ e ∈ r ∧ e.1 ≠ k := by
  induction r with
  | nil => simp [Tbl.dropKey]
  | cons f r ih =>
    obtain ⟨i, v⟩ := f
    by_cases h : i = k
    · simp only [Tbl.dropKey, h, if_true, ih, List.mem_cons]
      constructor
      · rintro ⟨a, b⟩; exact ⟨.inr a, b⟩
      · rintro ⟨rfl | a, b⟩
        · exact absurd rfl b
        · exact ⟨a, b⟩
    · simp only [Tbl.dropKey, h, if_false, List.mem_cons, ih]
      constructor
      · rintro (rfl | ⟨a, b⟩)
        · exact ⟨.inl rfl, h⟩
        · exact ⟨.inr a, b⟩
      · rintro ⟨rfl | a, b⟩
        · exact .inl rfl
        · exact .inr ⟨a, b⟩

theorem Tbl.rising_dropKey {α : Type} (r : List (Nat × α)) (k : Nat) (h : Tbl.rising r = true) :
    Tbl.rising (Tbl.dropKey r k) = true := by
  induction r with
  | nil => exact h
  | cons e r ih =>
    obtain ⟨i, v⟩ := e
    rw [Tbl.rising_cons] at h
    by_cases hi : i = k
    · simpa [Tbl.dropKey, hi] using ih h.2
    · simp only [Tbl.dropKey, hi, if_false, Tbl.rising_cons]
      exact ⟨fun e he => h.1 e ((Tbl.mem_dropKey r k e).1 he).1, ih h.2⟩

theorem Tbl.mem_putKey {α : Type} (r : List (Nat × α)) (k : Nat) (v : α) (e : Nat × α) (h : e ∈ Tbl.putKey r k v) :
    e = (k, v) ∨ e ∈ r := by
  induction r with
  | nil => simpa [Tbl.putKey] using h
  | cons f r ih =>
    obtain ⟨i, w⟩ := f
    simp only [Tbl.putKey] at h
    split at h
    · simpa using h
    · split at h
      · rcases List.mem_cons.1 h with h | h
        · exact .inl h
        · exact .inr (List.mem_cons_of_mem _ h)
      · rcases List.mem_cons.1 h with h | h
        · exact .inr (by simp [h])
        · rcases ih h with h | h
          · exact .inl h
          · exact .inr (List.mem_cons_of_mem _ h)

theorem Tbl.rising_putKey {α : Type} (r : List (Nat × α)) (k : Nat) (v : α) (h : Tbl.rising r = true) :
    Tbl.rising (Tbl.putKey r k v) = true := by
  induction r with
  | nil => rfl
  | cons e r ih =>
    obtain ⟨i, w⟩ := e
    have h' := (Tbl.rising_cons i w r).1 h
    simp only [Tbl.putKey]
    split
    · next hk =>
      rw [Tbl.rising_cons]
      refine ⟨fun e he => ?_, h⟩
      rcases List.mem_cons.1 he with rfl | he
      · exact hk
      · exact lt_trans hk (h'.1 e he)
    · split
      · next hk => rw [Tbl.rising_cons]; exact ⟨hk ▸ h'.1, h'.2⟩
      · next h1 h2 =>
        rw [Tbl.rising_cons]
        refine ⟨fun e he => ?_, ih h'.2⟩
        rcases Tbl.mem_putKey r k v e he with rfl | he
        · show i < k; omega
        · exact h'.1 e he

/-- A write keeps the canonical form. -/
theorem Tbl.wf_set {α : Type} [DecidableEq α] (d : Nat → α) (t : Tbl α) (k : Nat) (v : α) (h : Tbl.wf d t = true) :
    Tbl.wf d (Tbl.set d t k v) = true := by
  simp only [Tbl.wf, Bool.and_eq_true, List.all_eq_true, decide_eq_true_eq] at h ⊢
  unfold Tbl.set
  split
  · exact ⟨Tbl.rising_dropKey _ _ h.1, fun e he => h.2 e ((Tbl.mem_dropKey _ _ e).1 he).1⟩
  · next hv =>
    refine ⟨Tbl.rising_putKey _ _ _ (Tbl.rising_dropKey _ _ h.1), fun e he => ?_⟩
    rcases Tbl.mem_putKey _ _ _ e he with rfl | he
    · exact hv
    · exact h.2 e ((Tbl.mem_dropKey _ _ e).1 he).1

/-- A clear keeps the canonical form. -/
theorem Tbl.wf_clear {α : Type} [DecidableEq α] (d : Nat → α) (p : Nat → Bool) (t : Tbl α) (h : Tbl.wf d t = true) :
    Tbl.wf d (Tbl.clear p t) = true := by
  simp only [Tbl.wf, Bool.and_eq_true, List.all_eq_true, decide_eq_true_eq] at h ⊢
  obtain ⟨rows⟩ := t
  simp only [Tbl.clear]
  refine ⟨?_, fun e he => h.2 e (List.mem_filter.1 he).1⟩
  have hr := h.1
  clear h
  induction rows with
  | nil => rfl
  | cons e r ih =>
    obtain ⟨i, v⟩ := e
    rw [Tbl.rising_cons] at hr
    by_cases hp : p i
    · simpa [hp] using ih hr.2
    · simp only [hp, List.filter_cons, Bool.not_false, if_true, Tbl.rising_cons]
      exact ⟨fun e he => hr.1 e (List.mem_filter.1 he).1, ih hr.2⟩

@[simp] theorem Tbl.wf_empty {α : Type} [DecidableEq α] (d : Nat → α) : Tbl.wf d (⟨[]⟩ : Tbl α) = true := rfl

end Sys2Proof.Machine
end

