-- ==== Sys2Proof/Laws/State.lean ====
section
/-! SUPPORT. What each update of the state leaves and what it reads as: one lemma per update, each of its equations one field or one reader, true by `rfl`. A later proof cites these and unfolds no record update. -/

namespace Sys2Proof.Machine

@[simp] theorem State.setPort_frame (s : State) (k : Nat) (v : Port) :
    (s.setPort k v).pending = s.pending ∧ (s.setPort k v).now = s.now ∧ (s.setPort k v).fresh = s.fresh ∧
    (s.setPort k v).out = s.out ∧ (s.setPort k v).regs = s.regs ∧ (s.setPort k v).latch = s.latch ∧
    (s.setPort k v).pins = s.pins ∧ (s.setPort k v).mon = s.mon ∧ (s.setPort k v).boot = s.boot ∧
    (s.setPort k v).mram = s.mram ∧ (s.setPort k v).img = s.img ∧ (s.setPort k v).her = s.her ∧ (s.setPort k v).ep = s.ep ∧
    (s.setPort k v).cont = s.cont ∧ (s.setPort k v).win = s.win ∧ (s.setPort k v).reads = s.reads ∧
    (s.setPort k v).liq = s.liq ∧ (s.setPort k v).tal = s.tal ∧ (s.setPort k v).pwr = s.pwr ∧
    (s.setPort k v).tide = s.tide ∧ (s.setPort k v).weirs = s.weirs ∧ (s.setPort k v).qs = s.qs ∧
    (s.setPort k v).profs = s.profs ∧ (s.setPort k v).har = s.har ∧ (s.setPort k v).lanes = s.lanes ∧
    (s.setPort k v).links = s.links ∧ (s.setPort k v).twin = s.twin ∧ (s.setPort k v).spares = s.spares ∧
    (s.setPort k v).dbg = s.dbg ∧ (s.setPort k v).log = s.log ∧ (∀ j : Nat, (s.setPort k v).prof j = s.prof j) ∧
    (∀ j : Nat, (s.setPort k v).lane j = s.lane j) ∧ (∀ j : Nat, (s.setPort k v).link j = s.link j) ∧
    (∀ j : Nat, (s.setPort k v).mb j = s.mb j) ∧ (∀ j : Nat, (s.setPort k v).fn j = s.fn j) ∧
    (∀ j : Nat, (s.setPort k v).dom j = s.dom j) ∧ (∀ j : Nat, (s.setPort k v).tally j = s.tally j) ∧
    (∀ j : Nat, (s.setPort k v).q j = s.q j) ∧ (∀ j : Nat, (s.setPort k v).slot j = s.slot j) ∧
    (∀ j : Nat, (s.setPort k v).pan j = s.pan j) ∧ (∀ j : Nat, (s.setPort k v).bed j = s.bed j) ∧
    (∀ j : Nat, (s.setPort k v).sched j = s.sched j) ∧ (∀ j : Nat, (s.setPort k v).ptSt j = s.ptSt j) ∧
    (∀ j : Nat, (s.setPort k v).key j = s.key j) ∧ (∀ j : Nat, (s.setPort k v).reg j = s.reg j) ∧
    (∀ i j : Nat, (s.setPort k v).latched i j = s.latched i j) ∧ (s.setPort k v).devContained = s.devContained ∧
    (∀ j : Nat, (s.setPort k v).tenantCause j = s.tenantCause j) ∧
    (∀ j : Nat, (s.setPort k v).tenantStopped j = s.tenantStopped j) ∧
    (∀ j : Nat, (s.setPort k v).portCause j = s.portCause j) ∧ (∀ j : Nat, (s.setPort k v).linkCause j = s.linkCause j) ∧
    (∀ j : Nat, (s.setPort k v).followed j = s.followed j) ∧ (s.setPort k v).served = s.served :=
  ⟨rfl, rfl, rfl, rfl, rfl, rfl, rfl, rfl, rfl, rfl, rfl, rfl, rfl, rfl, rfl, rfl, rfl, rfl, rfl, rfl, rfl, rfl, rfl,
  rfl, rfl, rfl, rfl, rfl, rfl, rfl, fun _ => rfl, fun _ => rfl, fun _ => rfl, fun _ => rfl, fun _ => rfl, fun _ => rfl,
  fun _ => rfl, fun _ => rfl, fun _ => rfl, fun _ => rfl, fun _ => rfl, fun _ => rfl, fun _ => rfl, fun _ => rfl,
  fun _ => rfl, fun _ _ => rfl, rfl, fun _ => rfl, fun _ => rfl, fun _ => rfl, fun _ => rfl, fun _ => rfl, rfl⟩

theorem State.setPort_port (s : State) (k j : Nat) (v : Port) : (s.setPort k v).port j = if j = k then v else s.port j := Tbl.get_set _ _ _ _ _

@[simp] theorem State.setPort_port_same (s : State) (k : Nat) (v : Port) : (s.setPort k v).port k = v := Tbl.get_set_same _ _ _ _

@[simp] theorem State.modPort_frame (s : State) (k : Nat) (f : Port → Port) :
    (s.modPort k f).pending = s.pending ∧ (s.modPort k f).now = s.now ∧ (s.modPort k f).fresh = s.fresh ∧
    (s.modPort k f).out = s.out ∧ (s.modPort k f).regs = s.regs ∧ (s.modPort k f).latch = s.latch ∧
    (s.modPort k f).pins = s.pins ∧ (s.modPort k f).mon = s.mon ∧ (s.modPort k f).boot = s.boot ∧
    (s.modPort k f).mram = s.mram ∧ (s.modPort k f).img = s.img ∧ (s.modPort k f).her = s.her ∧ (s.modPort k f).ep = s.ep ∧
    (s.modPort k f).cont = s.cont ∧ (s.modPort k f).win = s.win ∧ (s.modPort k f).reads = s.reads ∧
    (s.modPort k f).liq = s.liq ∧ (s.modPort k f).tal = s.tal ∧ (s.modPort k f).pwr = s.pwr ∧
    (s.modPort k f).tide = s.tide ∧ (s.modPort k f).weirs = s.weirs ∧ (s.modPort k f).qs = s.qs ∧
    (s.modPort k f).profs = s.profs ∧ (s.modPort k f).har = s.har ∧ (s.modPort k f).lanes = s.lanes ∧
    (s.modPort k f).links = s.links ∧ (s.modPort k f).twin = s.twin ∧ (s.modPort k f).spares = s.spares ∧
    (s.modPort k f).dbg = s.dbg ∧ (s.modPort k f).log = s.log ∧ (∀ j : Nat, (s.modPort k f).prof j = s.prof j) ∧
    (∀ j : Nat, (s.modPort k f).lane j = s.lane j) ∧ (∀ j : Nat, (s.modPort k f).link j = s.link j) ∧
    (∀ j : Nat, (s.modPort k f).mb j = s.mb j) ∧ (∀ j : Nat, (s.modPort k f).fn j = s.fn j) ∧
    (∀ j : Nat, (s.modPort k f).dom j = s.dom j) ∧ (∀ j : Nat, (s.modPort k f).tally j = s.tally j) ∧
    (∀ j : Nat, (s.modPort k f).q j = s.q j) ∧ (∀ j : Nat, (s.modPort k f).slot j = s.slot j) ∧
    (∀ j : Nat, (s.modPort k f).pan j = s.pan j) ∧ (∀ j : Nat, (s.modPort k f).bed j = s.bed j) ∧
    (∀ j : Nat, (s.modPort k f).sched j = s.sched j) ∧ (∀ j : Nat, (s.modPort k f).ptSt j = s.ptSt j) ∧
    (∀ j : Nat, (s.modPort k f).key j = s.key j) ∧ (∀ j : Nat, (s.modPort k f).reg j = s.reg j) ∧
    (∀ i j : Nat, (s.modPort k f).latched i j = s.latched i j) ∧ (s.modPort k f).devContained = s.devContained ∧
    (∀ j : Nat, (s.modPort k f).tenantCause j = s.tenantCause j) ∧
    (∀ j : Nat, (s.modPort k f).tenantStopped j = s.tenantStopped j) ∧
    (∀ j : Nat, (s.modPort k f).portCause j = s.portCause j) ∧ (∀ j : Nat, (s.modPort k f).linkCause j = s.linkCause j) ∧
    (∀ j : Nat, (s.modPort k f).followed j = s.followed j) ∧ (s.modPort k f).served = s.served :=
  ⟨rfl, rfl, rfl, rfl, rfl, rfl, rfl, rfl, rfl, rfl, rfl, rfl, rfl, rfl, rfl, rfl, rfl, rfl, rfl, rfl, rfl, rfl, rfl,
  rfl, rfl, rfl, rfl, rfl, rfl, rfl, fun _ => rfl, fun _ => rfl, fun _ => rfl, fun _ => rfl, fun _ => rfl, fun _ => rfl,
  fun _ => rfl, fun _ => rfl, fun _ => rfl, fun _ => rfl, fun _ => rfl, fun _ => rfl, fun _ => rfl, fun _ => rfl,
  fun _ => rfl, fun _ _ => rfl, rfl, fun _ => rfl, fun _ => rfl, fun _ => rfl, fun _ => rfl, fun _ => rfl, rfl⟩

theorem State.modPort_port (s : State) (k j : Nat) (f : Port → Port) :
    (s.modPort k f).port j = if j = k then f (s.port k) else s.port j := Tbl.get_set _ _ _ _ _

@[simp] theorem State.modPort_port_same (s : State) (k : Nat) (f : Port → Port) : (s.modPort k f).port k = f (s.port k) := Tbl.get_set_same _ _ _ _

@[simp] theorem State.setProf_frame (s : State) (k : Nat) (v : Prof) :
    (s.setProf k v).pending = s.pending ∧ (s.setProf k v).now = s.now ∧ (s.setProf k v).fresh = s.fresh ∧
    (s.setProf k v).out = s.out ∧ (s.setProf k v).regs = s.regs ∧ (s.setProf k v).latch = s.latch ∧
    (s.setProf k v).pins = s.pins ∧ (s.setProf k v).mon = s.mon ∧ (s.setProf k v).boot = s.boot ∧
    (s.setProf k v).mram = s.mram ∧ (s.setProf k v).img = s.img ∧ (s.setProf k v).her = s.her ∧ (s.setProf k v).ep = s.ep ∧
    (s.setProf k v).cont = s.cont ∧ (s.setProf k v).win = s.win ∧ (s.setProf k v).reads = s.reads ∧
    (s.setProf k v).liq = s.liq ∧ (s.setProf k v).tal = s.tal ∧ (s.setProf k v).pwr = s.pwr ∧
    (s.setProf k v).tide = s.tide ∧ (s.setProf k v).weirs = s.weirs ∧ (s.setProf k v).qs = s.qs ∧
    (s.setProf k v).ports = s.ports ∧ (s.setProf k v).har = s.har ∧ (s.setProf k v).lanes = s.lanes ∧
    (s.setProf k v).links = s.links ∧ (s.setProf k v).twin = s.twin ∧ (s.setProf k v).spares = s.spares ∧
    (s.setProf k v).dbg = s.dbg ∧ (s.setProf k v).log = s.log ∧ (∀ j : Nat, (s.setProf k v).port j = s.port j) ∧
    (∀ j : Nat, (s.setProf k v).lane j = s.lane j) ∧ (∀ j : Nat, (s.setProf k v).link j = s.link j) ∧
    (∀ j : Nat, (s.setProf k v).mb j = s.mb j) ∧ (∀ j : Nat, (s.setProf k v).fn j = s.fn j) ∧
    (∀ j : Nat, (s.setProf k v).dom j = s.dom j) ∧ (∀ j : Nat, (s.setProf k v).tally j = s.tally j) ∧
    (∀ j : Nat, (s.setProf k v).q j = s.q j) ∧ (∀ j : Nat, (s.setProf k v).slot j = s.slot j) ∧
    (∀ j : Nat, (s.setProf k v).pan j = s.pan j) ∧ (∀ j : Nat, (s.setProf k v).bed j = s.bed j) ∧
    (∀ j : Nat, (s.setProf k v).sched j = s.sched j) ∧ (∀ j : Nat, (s.setProf k v).ptSt j = s.ptSt j) ∧
    (∀ j : Nat, (s.setProf k v).key j = s.key j) ∧ (∀ j : Nat, (s.setProf k v).reg j = s.reg j) ∧
    (∀ i j : Nat, (s.setProf k v).latched i j = s.latched i j) ∧ (s.setProf k v).devContained = s.devContained ∧
    (∀ j : Nat, (s.setProf k v).tenantCause j = s.tenantCause j) ∧
    (∀ j : Nat, (s.setProf k v).tenantStopped j = s.tenantStopped j) ∧
    (∀ j : Nat, (s.setProf k v).portCause j = s.portCause j) ∧ (∀ j : Nat, (s.setProf k v).linkCause j = s.linkCause j) ∧
    (∀ j : Nat, (s.setProf k v).followed j = s.followed j) ∧ (s.setProf k v).served = s.served :=
  ⟨rfl, rfl, rfl, rfl, rfl, rfl, rfl, rfl, rfl, rfl, rfl, rfl, rfl, rfl, rfl, rfl, rfl, rfl, rfl, rfl, rfl, rfl, rfl,
  rfl, rfl, rfl, rfl, rfl, rfl, rfl, fun _ => rfl, fun _ => rfl, fun _ => rfl, fun _ => rfl, fun _ => rfl, fun _ => rfl,
  fun _ => rfl, fun _ => rfl, fun _ => rfl, fun _ => rfl, fun _ => rfl, fun _ => rfl, fun _ => rfl, fun _ => rfl,
  fun _ => rfl, fun _ _ => rfl, rfl, fun _ => rfl, fun _ => rfl, fun _ => rfl, fun _ => rfl, fun _ => rfl, rfl⟩

theorem State.setProf_prof (s : State) (k j : Nat) (v : Prof) : (s.setProf k v).prof j = if j = k then v else s.prof j := Tbl.get_set _ _ _ _ _

@[simp] theorem State.setProf_prof_same (s : State) (k : Nat) (v : Prof) : (s.setProf k v).prof k = v := Tbl.get_set_same _ _ _ _

@[simp] theorem State.modProf_frame (s : State) (k : Nat) (f : Prof → Prof) :
    (s.modProf k f).pending = s.pending ∧ (s.modProf k f).now = s.now ∧ (s.modProf k f).fresh = s.fresh ∧
    (s.modProf k f).out = s.out ∧ (s.modProf k f).regs = s.regs ∧ (s.modProf k f).latch = s.latch ∧
    (s.modProf k f).pins = s.pins ∧ (s.modProf k f).mon = s.mon ∧ (s.modProf k f).boot = s.boot ∧
    (s.modProf k f).mram = s.mram ∧ (s.modProf k f).img = s.img ∧ (s.modProf k f).her = s.her ∧ (s.modProf k f).ep = s.ep ∧
    (s.modProf k f).cont = s.cont ∧ (s.modProf k f).win = s.win ∧ (s.modProf k f).reads = s.reads ∧
    (s.modProf k f).liq = s.liq ∧ (s.modProf k f).tal = s.tal ∧ (s.modProf k f).pwr = s.pwr ∧
    (s.modProf k f).tide = s.tide ∧ (s.modProf k f).weirs = s.weirs ∧ (s.modProf k f).qs = s.qs ∧
    (s.modProf k f).ports = s.ports ∧ (s.modProf k f).har = s.har ∧ (s.modProf k f).lanes = s.lanes ∧
    (s.modProf k f).links = s.links ∧ (s.modProf k f).twin = s.twin ∧ (s.modProf k f).spares = s.spares ∧
    (s.modProf k f).dbg = s.dbg ∧ (s.modProf k f).log = s.log ∧ (∀ j : Nat, (s.modProf k f).port j = s.port j) ∧
    (∀ j : Nat, (s.modProf k f).lane j = s.lane j) ∧ (∀ j : Nat, (s.modProf k f).link j = s.link j) ∧
    (∀ j : Nat, (s.modProf k f).mb j = s.mb j) ∧ (∀ j : Nat, (s.modProf k f).fn j = s.fn j) ∧
    (∀ j : Nat, (s.modProf k f).dom j = s.dom j) ∧ (∀ j : Nat, (s.modProf k f).tally j = s.tally j) ∧
    (∀ j : Nat, (s.modProf k f).q j = s.q j) ∧ (∀ j : Nat, (s.modProf k f).slot j = s.slot j) ∧
    (∀ j : Nat, (s.modProf k f).pan j = s.pan j) ∧ (∀ j : Nat, (s.modProf k f).bed j = s.bed j) ∧
    (∀ j : Nat, (s.modProf k f).sched j = s.sched j) ∧ (∀ j : Nat, (s.modProf k f).ptSt j = s.ptSt j) ∧
    (∀ j : Nat, (s.modProf k f).key j = s.key j) ∧ (∀ j : Nat, (s.modProf k f).reg j = s.reg j) ∧
    (∀ i j : Nat, (s.modProf k f).latched i j = s.latched i j) ∧ (s.modProf k f).devContained = s.devContained ∧
    (∀ j : Nat, (s.modProf k f).tenantCause j = s.tenantCause j) ∧
    (∀ j : Nat, (s.modProf k f).tenantStopped j = s.tenantStopped j) ∧
    (∀ j : Nat, (s.modProf k f).portCause j = s.portCause j) ∧ (∀ j : Nat, (s.modProf k f).linkCause j = s.linkCause j) ∧
    (∀ j : Nat, (s.modProf k f).followed j = s.followed j) ∧ (s.modProf k f).served = s.served :=
  ⟨rfl, rfl, rfl, rfl, rfl, rfl, rfl, rfl, rfl, rfl, rfl, rfl, rfl, rfl, rfl, rfl, rfl, rfl, rfl, rfl, rfl, rfl, rfl,
  rfl, rfl, rfl, rfl, rfl, rfl, rfl, fun _ => rfl, fun _ => rfl, fun _ => rfl, fun _ => rfl, fun _ => rfl, fun _ => rfl,
  fun _ => rfl, fun _ => rfl, fun _ => rfl, fun _ => rfl, fun _ => rfl, fun _ => rfl, fun _ => rfl, fun _ => rfl,
  fun _ => rfl, fun _ _ => rfl, rfl, fun _ => rfl, fun _ => rfl, fun _ => rfl, fun _ => rfl, fun _ => rfl, rfl⟩

theorem State.modProf_prof (s : State) (k j : Nat) (f : Prof → Prof) :
    (s.modProf k f).prof j = if j = k then f (s.prof k) else s.prof j := Tbl.get_set _ _ _ _ _

@[simp] theorem State.modProf_prof_same (s : State) (k : Nat) (f : Prof → Prof) : (s.modProf k f).prof k = f (s.prof k) := Tbl.get_set_same _ _ _ _

@[simp] theorem State.setLane_frame (s : State) (k : Nat) (v : Lane) :
    (s.setLane k v).pending = s.pending ∧ (s.setLane k v).now = s.now ∧ (s.setLane k v).fresh = s.fresh ∧
    (s.setLane k v).out = s.out ∧ (s.setLane k v).regs = s.regs ∧ (s.setLane k v).latch = s.latch ∧
    (s.setLane k v).pins = s.pins ∧ (s.setLane k v).mon = s.mon ∧ (s.setLane k v).boot = s.boot ∧
    (s.setLane k v).mram = s.mram ∧ (s.setLane k v).img = s.img ∧ (s.setLane k v).her = s.her ∧ (s.setLane k v).ep = s.ep ∧
    (s.setLane k v).cont = s.cont ∧ (s.setLane k v).win = s.win ∧ (s.setLane k v).reads = s.reads ∧
    (s.setLane k v).liq = s.liq ∧ (s.setLane k v).tal = s.tal ∧ (s.setLane k v).pwr = s.pwr ∧
    (s.setLane k v).tide = s.tide ∧ (s.setLane k v).weirs = s.weirs ∧ (s.setLane k v).qs = s.qs ∧
    (s.setLane k v).ports = s.ports ∧ (s.setLane k v).profs = s.profs ∧ (s.setLane k v).har = s.har ∧
    (s.setLane k v).links = s.links ∧ (s.setLane k v).twin = s.twin ∧ (s.setLane k v).spares = s.spares ∧
    (s.setLane k v).dbg = s.dbg ∧ (s.setLane k v).log = s.log ∧ (∀ j : Nat, (s.setLane k v).port j = s.port j) ∧
    (∀ j : Nat, (s.setLane k v).prof j = s.prof j) ∧ (∀ j : Nat, (s.setLane k v).link j = s.link j) ∧
    (∀ j : Nat, (s.setLane k v).mb j = s.mb j) ∧ (∀ j : Nat, (s.setLane k v).fn j = s.fn j) ∧
    (∀ j : Nat, (s.setLane k v).dom j = s.dom j) ∧ (∀ j : Nat, (s.setLane k v).tally j = s.tally j) ∧
    (∀ j : Nat, (s.setLane k v).q j = s.q j) ∧ (∀ j : Nat, (s.setLane k v).slot j = s.slot j) ∧
    (∀ j : Nat, (s.setLane k v).pan j = s.pan j) ∧ (∀ j : Nat, (s.setLane k v).bed j = s.bed j) ∧
    (∀ j : Nat, (s.setLane k v).sched j = s.sched j) ∧ (∀ j : Nat, (s.setLane k v).ptSt j = s.ptSt j) ∧
    (∀ j : Nat, (s.setLane k v).key j = s.key j) ∧ (∀ j : Nat, (s.setLane k v).reg j = s.reg j) ∧
    (∀ i j : Nat, (s.setLane k v).latched i j = s.latched i j) ∧ (s.setLane k v).devContained = s.devContained ∧
    (∀ j : Nat, (s.setLane k v).tenantCause j = s.tenantCause j) ∧
    (∀ j : Nat, (s.setLane k v).tenantStopped j = s.tenantStopped j) ∧
    (∀ j : Nat, (s.setLane k v).portCause j = s.portCause j) ∧ (∀ j : Nat, (s.setLane k v).linkCause j = s.linkCause j) ∧
    (∀ j : Nat, (s.setLane k v).followed j = s.followed j) ∧ (s.setLane k v).served = s.served :=
  ⟨rfl, rfl, rfl, rfl, rfl, rfl, rfl, rfl, rfl, rfl, rfl, rfl, rfl, rfl, rfl, rfl, rfl, rfl, rfl, rfl, rfl, rfl, rfl,
  rfl, rfl, rfl, rfl, rfl, rfl, rfl, fun _ => rfl, fun _ => rfl, fun _ => rfl, fun _ => rfl, fun _ => rfl, fun _ => rfl,
  fun _ => rfl, fun _ => rfl, fun _ => rfl, fun _ => rfl, fun _ => rfl, fun _ => rfl, fun _ => rfl, fun _ => rfl,
  fun _ => rfl, fun _ _ => rfl, rfl, fun _ => rfl, fun _ => rfl, fun _ => rfl, fun _ => rfl, fun _ => rfl, rfl⟩

theorem State.setLane_lane (s : State) (k j : Nat) (v : Lane) : (s.setLane k v).lane j = if j = k then v else s.lane j := Tbl.get_set _ _ _ _ _

@[simp] theorem State.setLane_lane_same (s : State) (k : Nat) (v : Lane) : (s.setLane k v).lane k = v := Tbl.get_set_same _ _ _ _

@[simp] theorem State.modLane_frame (s : State) (k : Nat) (f : Lane → Lane) :
    (s.modLane k f).pending = s.pending ∧ (s.modLane k f).now = s.now ∧ (s.modLane k f).fresh = s.fresh ∧
    (s.modLane k f).out = s.out ∧ (s.modLane k f).regs = s.regs ∧ (s.modLane k f).latch = s.latch ∧
    (s.modLane k f).pins = s.pins ∧ (s.modLane k f).mon = s.mon ∧ (s.modLane k f).boot = s.boot ∧
    (s.modLane k f).mram = s.mram ∧ (s.modLane k f).img = s.img ∧ (s.modLane k f).her = s.her ∧ (s.modLane k f).ep = s.ep ∧
    (s.modLane k f).cont = s.cont ∧ (s.modLane k f).win = s.win ∧ (s.modLane k f).reads = s.reads ∧
    (s.modLane k f).liq = s.liq ∧ (s.modLane k f).tal = s.tal ∧ (s.modLane k f).pwr = s.pwr ∧
    (s.modLane k f).tide = s.tide ∧ (s.modLane k f).weirs = s.weirs ∧ (s.modLane k f).qs = s.qs ∧
    (s.modLane k f).ports = s.ports ∧ (s.modLane k f).profs = s.profs ∧ (s.modLane k f).har = s.har ∧
    (s.modLane k f).links = s.links ∧ (s.modLane k f).twin = s.twin ∧ (s.modLane k f).spares = s.spares ∧
    (s.modLane k f).dbg = s.dbg ∧ (s.modLane k f).log = s.log ∧ (∀ j : Nat, (s.modLane k f).port j = s.port j) ∧
    (∀ j : Nat, (s.modLane k f).prof j = s.prof j) ∧ (∀ j : Nat, (s.modLane k f).link j = s.link j) ∧
    (∀ j : Nat, (s.modLane k f).mb j = s.mb j) ∧ (∀ j : Nat, (s.modLane k f).fn j = s.fn j) ∧
    (∀ j : Nat, (s.modLane k f).dom j = s.dom j) ∧ (∀ j : Nat, (s.modLane k f).tally j = s.tally j) ∧
    (∀ j : Nat, (s.modLane k f).q j = s.q j) ∧ (∀ j : Nat, (s.modLane k f).slot j = s.slot j) ∧
    (∀ j : Nat, (s.modLane k f).pan j = s.pan j) ∧ (∀ j : Nat, (s.modLane k f).bed j = s.bed j) ∧
    (∀ j : Nat, (s.modLane k f).sched j = s.sched j) ∧ (∀ j : Nat, (s.modLane k f).ptSt j = s.ptSt j) ∧
    (∀ j : Nat, (s.modLane k f).key j = s.key j) ∧ (∀ j : Nat, (s.modLane k f).reg j = s.reg j) ∧
    (∀ i j : Nat, (s.modLane k f).latched i j = s.latched i j) ∧ (s.modLane k f).devContained = s.devContained ∧
    (∀ j : Nat, (s.modLane k f).tenantCause j = s.tenantCause j) ∧
    (∀ j : Nat, (s.modLane k f).tenantStopped j = s.tenantStopped j) ∧
    (∀ j : Nat, (s.modLane k f).portCause j = s.portCause j) ∧ (∀ j : Nat, (s.modLane k f).linkCause j = s.linkCause j) ∧
    (∀ j : Nat, (s.modLane k f).followed j = s.followed j) ∧ (s.modLane k f).served = s.served :=
  ⟨rfl, rfl, rfl, rfl, rfl, rfl, rfl, rfl, rfl, rfl, rfl, rfl, rfl, rfl, rfl, rfl, rfl, rfl, rfl, rfl, rfl, rfl, rfl,
  rfl, rfl, rfl, rfl, rfl, rfl, rfl, fun _ => rfl, fun _ => rfl, fun _ => rfl, fun _ => rfl, fun _ => rfl, fun _ => rfl,
  fun _ => rfl, fun _ => rfl, fun _ => rfl, fun _ => rfl, fun _ => rfl, fun _ => rfl, fun _ => rfl, fun _ => rfl,
  fun _ => rfl, fun _ _ => rfl, rfl, fun _ => rfl, fun _ => rfl, fun _ => rfl, fun _ => rfl, fun _ => rfl, rfl⟩

theorem State.modLane_lane (s : State) (k j : Nat) (f : Lane → Lane) :
    (s.modLane k f).lane j = if j = k then f (s.lane k) else s.lane j := Tbl.get_set _ _ _ _ _

@[simp] theorem State.modLane_lane_same (s : State) (k : Nat) (f : Lane → Lane) : (s.modLane k f).lane k = f (s.lane k) := Tbl.get_set_same _ _ _ _

@[simp] theorem State.setLink_frame (s : State) (k : Nat) (v : Link) :
    (s.setLink k v).pending = s.pending ∧ (s.setLink k v).now = s.now ∧ (s.setLink k v).fresh = s.fresh ∧
    (s.setLink k v).out = s.out ∧ (s.setLink k v).regs = s.regs ∧ (s.setLink k v).latch = s.latch ∧
    (s.setLink k v).pins = s.pins ∧ (s.setLink k v).mon = s.mon ∧ (s.setLink k v).boot = s.boot ∧
    (s.setLink k v).mram = s.mram ∧ (s.setLink k v).img = s.img ∧ (s.setLink k v).her = s.her ∧ (s.setLink k v).ep = s.ep ∧
    (s.setLink k v).cont = s.cont ∧ (s.setLink k v).win = s.win ∧ (s.setLink k v).reads = s.reads ∧
    (s.setLink k v).liq = s.liq ∧ (s.setLink k v).tal = s.tal ∧ (s.setLink k v).pwr = s.pwr ∧
    (s.setLink k v).tide = s.tide ∧ (s.setLink k v).weirs = s.weirs ∧ (s.setLink k v).qs = s.qs ∧
    (s.setLink k v).ports = s.ports ∧ (s.setLink k v).profs = s.profs ∧ (s.setLink k v).har = s.har ∧
    (s.setLink k v).lanes = s.lanes ∧ (s.setLink k v).twin = s.twin ∧ (s.setLink k v).spares = s.spares ∧
    (s.setLink k v).dbg = s.dbg ∧ (s.setLink k v).log = s.log ∧ (∀ j : Nat, (s.setLink k v).port j = s.port j) ∧
    (∀ j : Nat, (s.setLink k v).prof j = s.prof j) ∧ (∀ j : Nat, (s.setLink k v).lane j = s.lane j) ∧
    (∀ j : Nat, (s.setLink k v).mb j = s.mb j) ∧ (∀ j : Nat, (s.setLink k v).fn j = s.fn j) ∧
    (∀ j : Nat, (s.setLink k v).dom j = s.dom j) ∧ (∀ j : Nat, (s.setLink k v).tally j = s.tally j) ∧
    (∀ j : Nat, (s.setLink k v).q j = s.q j) ∧ (∀ j : Nat, (s.setLink k v).slot j = s.slot j) ∧
    (∀ j : Nat, (s.setLink k v).pan j = s.pan j) ∧ (∀ j : Nat, (s.setLink k v).bed j = s.bed j) ∧
    (∀ j : Nat, (s.setLink k v).sched j = s.sched j) ∧ (∀ j : Nat, (s.setLink k v).ptSt j = s.ptSt j) ∧
    (∀ j : Nat, (s.setLink k v).key j = s.key j) ∧ (∀ j : Nat, (s.setLink k v).reg j = s.reg j) ∧
    (∀ i j : Nat, (s.setLink k v).latched i j = s.latched i j) ∧ (s.setLink k v).devContained = s.devContained ∧
    (∀ j : Nat, (s.setLink k v).tenantCause j = s.tenantCause j) ∧
    (∀ j : Nat, (s.setLink k v).tenantStopped j = s.tenantStopped j) ∧
    (∀ j : Nat, (s.setLink k v).portCause j = s.portCause j) ∧ (∀ j : Nat, (s.setLink k v).linkCause j = s.linkCause j) ∧
    (∀ j : Nat, (s.setLink k v).followed j = s.followed j) ∧ (s.setLink k v).served = s.served :=
  ⟨rfl, rfl, rfl, rfl, rfl, rfl, rfl, rfl, rfl, rfl, rfl, rfl, rfl, rfl, rfl, rfl, rfl, rfl, rfl, rfl, rfl, rfl, rfl,
  rfl, rfl, rfl, rfl, rfl, rfl, rfl, fun _ => rfl, fun _ => rfl, fun _ => rfl, fun _ => rfl, fun _ => rfl, fun _ => rfl,
  fun _ => rfl, fun _ => rfl, fun _ => rfl, fun _ => rfl, fun _ => rfl, fun _ => rfl, fun _ => rfl, fun _ => rfl,
  fun _ => rfl, fun _ _ => rfl, rfl, fun _ => rfl, fun _ => rfl, fun _ => rfl, fun _ => rfl, fun _ => rfl, rfl⟩

theorem State.setLink_link (s : State) (k j : Nat) (v : Link) : (s.setLink k v).link j = if j = k then v else s.link j := Tbl.get_set _ _ _ _ _

@[simp] theorem State.setLink_link_same (s : State) (k : Nat) (v : Link) : (s.setLink k v).link k = v := Tbl.get_set_same _ _ _ _

@[simp] theorem State.modLink_frame (s : State) (k : Nat) (f : Link → Link) :
    (s.modLink k f).pending = s.pending ∧ (s.modLink k f).now = s.now ∧ (s.modLink k f).fresh = s.fresh ∧
    (s.modLink k f).out = s.out ∧ (s.modLink k f).regs = s.regs ∧ (s.modLink k f).latch = s.latch ∧
    (s.modLink k f).pins = s.pins ∧ (s.modLink k f).mon = s.mon ∧ (s.modLink k f).boot = s.boot ∧
    (s.modLink k f).mram = s.mram ∧ (s.modLink k f).img = s.img ∧ (s.modLink k f).her = s.her ∧ (s.modLink k f).ep = s.ep ∧
    (s.modLink k f).cont = s.cont ∧ (s.modLink k f).win = s.win ∧ (s.modLink k f).reads = s.reads ∧
    (s.modLink k f).liq = s.liq ∧ (s.modLink k f).tal = s.tal ∧ (s.modLink k f).pwr = s.pwr ∧
    (s.modLink k f).tide = s.tide ∧ (s.modLink k f).weirs = s.weirs ∧ (s.modLink k f).qs = s.qs ∧
    (s.modLink k f).ports = s.ports ∧ (s.modLink k f).profs = s.profs ∧ (s.modLink k f).har = s.har ∧
    (s.modLink k f).lanes = s.lanes ∧ (s.modLink k f).twin = s.twin ∧ (s.modLink k f).spares = s.spares ∧
    (s.modLink k f).dbg = s.dbg ∧ (s.modLink k f).log = s.log ∧ (∀ j : Nat, (s.modLink k f).port j = s.port j) ∧
    (∀ j : Nat, (s.modLink k f).prof j = s.prof j) ∧ (∀ j : Nat, (s.modLink k f).lane j = s.lane j) ∧
    (∀ j : Nat, (s.modLink k f).mb j = s.mb j) ∧ (∀ j : Nat, (s.modLink k f).fn j = s.fn j) ∧
    (∀ j : Nat, (s.modLink k f).dom j = s.dom j) ∧ (∀ j : Nat, (s.modLink k f).tally j = s.tally j) ∧
    (∀ j : Nat, (s.modLink k f).q j = s.q j) ∧ (∀ j : Nat, (s.modLink k f).slot j = s.slot j) ∧
    (∀ j : Nat, (s.modLink k f).pan j = s.pan j) ∧ (∀ j : Nat, (s.modLink k f).bed j = s.bed j) ∧
    (∀ j : Nat, (s.modLink k f).sched j = s.sched j) ∧ (∀ j : Nat, (s.modLink k f).ptSt j = s.ptSt j) ∧
    (∀ j : Nat, (s.modLink k f).key j = s.key j) ∧ (∀ j : Nat, (s.modLink k f).reg j = s.reg j) ∧
    (∀ i j : Nat, (s.modLink k f).latched i j = s.latched i j) ∧ (s.modLink k f).devContained = s.devContained ∧
    (∀ j : Nat, (s.modLink k f).tenantCause j = s.tenantCause j) ∧
    (∀ j : Nat, (s.modLink k f).tenantStopped j = s.tenantStopped j) ∧
    (∀ j : Nat, (s.modLink k f).portCause j = s.portCause j) ∧ (∀ j : Nat, (s.modLink k f).linkCause j = s.linkCause j) ∧
    (∀ j : Nat, (s.modLink k f).followed j = s.followed j) ∧ (s.modLink k f).served = s.served :=
  ⟨rfl, rfl, rfl, rfl, rfl, rfl, rfl, rfl, rfl, rfl, rfl, rfl, rfl, rfl, rfl, rfl, rfl, rfl, rfl, rfl, rfl, rfl, rfl,
  rfl, rfl, rfl, rfl, rfl, rfl, rfl, fun _ => rfl, fun _ => rfl, fun _ => rfl, fun _ => rfl, fun _ => rfl, fun _ => rfl,
  fun _ => rfl, fun _ => rfl, fun _ => rfl, fun _ => rfl, fun _ => rfl, fun _ => rfl, fun _ => rfl, fun _ => rfl,
  fun _ => rfl, fun _ _ => rfl, rfl, fun _ => rfl, fun _ => rfl, fun _ => rfl, fun _ => rfl, fun _ => rfl, rfl⟩

theorem State.modLink_link (s : State) (k j : Nat) (f : Link → Link) :
    (s.modLink k f).link j = if j = k then f (s.link k) else s.link j := Tbl.get_set _ _ _ _ _

@[simp] theorem State.modLink_link_same (s : State) (k : Nat) (f : Link → Link) : (s.modLink k f).link k = f (s.link k) := Tbl.get_set_same _ _ _ _

@[simp] theorem State.setMb_frame (s : State) (k : Nat) (v : Mailbox) :
    (s.setMb k v).pending = s.pending ∧ (s.setMb k v).now = s.now ∧ (s.setMb k v).fresh = s.fresh ∧
    (s.setMb k v).out = s.out ∧ (s.setMb k v).regs = s.regs ∧ (s.setMb k v).latch = s.latch ∧ (s.setMb k v).pins = s.pins ∧
    (s.setMb k v).mon = s.mon ∧ (s.setMb k v).boot = s.boot ∧ (s.setMb k v).mram = s.mram ∧ (s.setMb k v).img = s.img ∧
    (s.setMb k v).ep = s.ep ∧ (s.setMb k v).cont = s.cont ∧ (s.setMb k v).win = s.win ∧ (s.setMb k v).reads = s.reads ∧
    (s.setMb k v).liq = s.liq ∧ (s.setMb k v).tal = s.tal ∧ (s.setMb k v).pwr = s.pwr ∧ (s.setMb k v).tide = s.tide ∧
    (s.setMb k v).weirs = s.weirs ∧ (s.setMb k v).qs = s.qs ∧ (s.setMb k v).ports = s.ports ∧
    (s.setMb k v).profs = s.profs ∧ (s.setMb k v).har = s.har ∧ (s.setMb k v).lanes = s.lanes ∧
    (s.setMb k v).links = s.links ∧ (s.setMb k v).twin = s.twin ∧ (s.setMb k v).spares = s.spares ∧
    (s.setMb k v).dbg = s.dbg ∧ (s.setMb k v).log = s.log ∧ (∀ j : Nat, (s.setMb k v).port j = s.port j) ∧
    (∀ j : Nat, (s.setMb k v).prof j = s.prof j) ∧ (∀ j : Nat, (s.setMb k v).lane j = s.lane j) ∧
    (∀ j : Nat, (s.setMb k v).link j = s.link j) ∧ (∀ j : Nat, (s.setMb k v).fn j = s.fn j) ∧
    (∀ j : Nat, (s.setMb k v).dom j = s.dom j) ∧ (∀ j : Nat, (s.setMb k v).tally j = s.tally j) ∧
    (∀ j : Nat, (s.setMb k v).q j = s.q j) ∧ (∀ j : Nat, (s.setMb k v).slot j = s.slot j) ∧
    (∀ j : Nat, (s.setMb k v).pan j = s.pan j) ∧ (∀ j : Nat, (s.setMb k v).bed j = s.bed j) ∧
    (∀ j : Nat, (s.setMb k v).sched j = s.sched j) ∧ (∀ j : Nat, (s.setMb k v).ptSt j = s.ptSt j) ∧
    (∀ j : Nat, (s.setMb k v).key j = s.key j) ∧ (∀ j : Nat, (s.setMb k v).reg j = s.reg j) ∧
    (∀ i j : Nat, (s.setMb k v).latched i j = s.latched i j) ∧ (s.setMb k v).devContained = s.devContained ∧
    (∀ j : Nat, (s.setMb k v).tenantCause j = s.tenantCause j) ∧
    (∀ j : Nat, (s.setMb k v).tenantStopped j = s.tenantStopped j) ∧
    (∀ j : Nat, (s.setMb k v).portCause j = s.portCause j) ∧ (∀ j : Nat, (s.setMb k v).linkCause j = s.linkCause j) ∧
    (∀ j : Nat, (s.setMb k v).followed j = s.followed j) ∧ (s.setMb k v).served = s.served ∧
    (s.setMb k v).her.queue = s.her.queue ∧ (s.setMb k v).her.exec = s.her.exec ∧
    (s.setMb k v).her.fwSession = s.her.fwSession ∧ (s.setMb k v).her.cfgSession = s.her.cfgSession ∧
    (s.setMb k v).her.lastKind = s.her.lastKind :=
  ⟨rfl, rfl, rfl, rfl, rfl, rfl, rfl, rfl, rfl, rfl, rfl, rfl, rfl, rfl, rfl, rfl, rfl, rfl, rfl, rfl, rfl, rfl, rfl,
  rfl, rfl, rfl, rfl, rfl, rfl, rfl, fun _ => rfl, fun _ => rfl, fun _ => rfl, fun _ => rfl, fun _ => rfl, fun _ => rfl,
  fun _ => rfl, fun _ => rfl, fun _ => rfl, fun _ => rfl, fun _ => rfl, fun _ => rfl, fun _ => rfl, fun _ => rfl,
  fun _ => rfl, fun _ _ => rfl, rfl, fun _ => rfl, fun _ => rfl, fun _ => rfl, fun _ => rfl, fun _ => rfl, rfl, rfl, rfl,
  rfl, rfl, rfl⟩

theorem State.setMb_mb (s : State) (k j : Nat) (v : Mailbox) : (s.setMb k v).mb j = if j = k then v else s.mb j := Tbl.get_set _ _ _ _ _

@[simp] theorem State.setMb_mb_same (s : State) (k : Nat) (v : Mailbox) : (s.setMb k v).mb k = v := Tbl.get_set_same _ _ _ _

@[simp] theorem State.modMb_frame (s : State) (k : Nat) (f : Mailbox → Mailbox) :
    (s.modMb k f).pending = s.pending ∧ (s.modMb k f).now = s.now ∧ (s.modMb k f).fresh = s.fresh ∧
    (s.modMb k f).out = s.out ∧ (s.modMb k f).regs = s.regs ∧ (s.modMb k f).latch = s.latch ∧ (s.modMb k f).pins = s.pins ∧
    (s.modMb k f).mon = s.mon ∧ (s.modMb k f).boot = s.boot ∧ (s.modMb k f).mram = s.mram ∧ (s.modMb k f).img = s.img ∧
    (s.modMb k f).ep = s.ep ∧ (s.modMb k f).cont = s.cont ∧ (s.modMb k f).win = s.win ∧ (s.modMb k f).reads = s.reads ∧
    (s.modMb k f).liq = s.liq ∧ (s.modMb k f).tal = s.tal ∧ (s.modMb k f).pwr = s.pwr ∧ (s.modMb k f).tide = s.tide ∧
    (s.modMb k f).weirs = s.weirs ∧ (s.modMb k f).qs = s.qs ∧ (s.modMb k f).ports = s.ports ∧
    (s.modMb k f).profs = s.profs ∧ (s.modMb k f).har = s.har ∧ (s.modMb k f).lanes = s.lanes ∧
    (s.modMb k f).links = s.links ∧ (s.modMb k f).twin = s.twin ∧ (s.modMb k f).spares = s.spares ∧
    (s.modMb k f).dbg = s.dbg ∧ (s.modMb k f).log = s.log ∧ (∀ j : Nat, (s.modMb k f).port j = s.port j) ∧
    (∀ j : Nat, (s.modMb k f).prof j = s.prof j) ∧ (∀ j : Nat, (s.modMb k f).lane j = s.lane j) ∧
    (∀ j : Nat, (s.modMb k f).link j = s.link j) ∧ (∀ j : Nat, (s.modMb k f).fn j = s.fn j) ∧
    (∀ j : Nat, (s.modMb k f).dom j = s.dom j) ∧ (∀ j : Nat, (s.modMb k f).tally j = s.tally j) ∧
    (∀ j : Nat, (s.modMb k f).q j = s.q j) ∧ (∀ j : Nat, (s.modMb k f).slot j = s.slot j) ∧
    (∀ j : Nat, (s.modMb k f).pan j = s.pan j) ∧ (∀ j : Nat, (s.modMb k f).bed j = s.bed j) ∧
    (∀ j : Nat, (s.modMb k f).sched j = s.sched j) ∧ (∀ j : Nat, (s.modMb k f).ptSt j = s.ptSt j) ∧
    (∀ j : Nat, (s.modMb k f).key j = s.key j) ∧ (∀ j : Nat, (s.modMb k f).reg j = s.reg j) ∧
    (∀ i j : Nat, (s.modMb k f).latched i j = s.latched i j) ∧ (s.modMb k f).devContained = s.devContained ∧
    (∀ j : Nat, (s.modMb k f).tenantCause j = s.tenantCause j) ∧
    (∀ j : Nat, (s.modMb k f).tenantStopped j = s.tenantStopped j) ∧
    (∀ j : Nat, (s.modMb k f).portCause j = s.portCause j) ∧ (∀ j : Nat, (s.modMb k f).linkCause j = s.linkCause j) ∧
    (∀ j : Nat, (s.modMb k f).followed j = s.followed j) ∧ (s.modMb k f).served = s.served ∧
    (s.modMb k f).her.queue = s.her.queue ∧ (s.modMb k f).her.exec = s.her.exec ∧
    (s.modMb k f).her.fwSession = s.her.fwSession ∧ (s.modMb k f).her.cfgSession = s.her.cfgSession ∧
    (s.modMb k f).her.lastKind = s.her.lastKind :=
  ⟨rfl, rfl, rfl, rfl, rfl, rfl, rfl, rfl, rfl, rfl, rfl, rfl, rfl, rfl, rfl, rfl, rfl, rfl, rfl, rfl, rfl, rfl, rfl,
  rfl, rfl, rfl, rfl, rfl, rfl, rfl, fun _ => rfl, fun _ => rfl, fun _ => rfl, fun _ => rfl, fun _ => rfl, fun _ => rfl,
  fun _ => rfl, fun _ => rfl, fun _ => rfl, fun _ => rfl, fun _ => rfl, fun _ => rfl, fun _ => rfl, fun _ => rfl,
  fun _ => rfl, fun _ _ => rfl, rfl, fun _ => rfl, fun _ => rfl, fun _ => rfl, fun _ => rfl, fun _ => rfl, rfl, rfl, rfl,
  rfl, rfl, rfl⟩

theorem State.modMb_mb (s : State) (k j : Nat) (f : Mailbox → Mailbox) :
    (s.modMb k f).mb j = if j = k then f (s.mb k) else s.mb j := Tbl.get_set _ _ _ _ _

@[simp] theorem State.modMb_mb_same (s : State) (k : Nat) (f : Mailbox → Mailbox) : (s.modMb k f).mb k = f (s.mb k) := Tbl.get_set_same _ _ _ _

@[simp] theorem State.setFn_frame (s : State) (k : Nat) (v : FnState) :
    (s.setFn k v).pending = s.pending ∧ (s.setFn k v).now = s.now ∧ (s.setFn k v).fresh = s.fresh ∧
    (s.setFn k v).out = s.out ∧ (s.setFn k v).regs = s.regs ∧ (s.setFn k v).latch = s.latch ∧ (s.setFn k v).pins = s.pins ∧
    (s.setFn k v).mon = s.mon ∧ (s.setFn k v).boot = s.boot ∧ (s.setFn k v).mram = s.mram ∧ (s.setFn k v).img = s.img ∧
    (s.setFn k v).her = s.her ∧ (s.setFn k v).cont = s.cont ∧ (s.setFn k v).win = s.win ∧ (s.setFn k v).reads = s.reads ∧
    (s.setFn k v).liq = s.liq ∧ (s.setFn k v).tal = s.tal ∧ (s.setFn k v).pwr = s.pwr ∧ (s.setFn k v).tide = s.tide ∧
    (s.setFn k v).weirs = s.weirs ∧ (s.setFn k v).qs = s.qs ∧ (s.setFn k v).ports = s.ports ∧
    (s.setFn k v).profs = s.profs ∧ (s.setFn k v).har = s.har ∧ (s.setFn k v).lanes = s.lanes ∧
    (s.setFn k v).links = s.links ∧ (s.setFn k v).twin = s.twin ∧ (s.setFn k v).spares = s.spares ∧
    (s.setFn k v).dbg = s.dbg ∧ (s.setFn k v).log = s.log ∧ (∀ j : Nat, (s.setFn k v).port j = s.port j) ∧
    (∀ j : Nat, (s.setFn k v).prof j = s.prof j) ∧ (∀ j : Nat, (s.setFn k v).lane j = s.lane j) ∧
    (∀ j : Nat, (s.setFn k v).link j = s.link j) ∧ (∀ j : Nat, (s.setFn k v).mb j = s.mb j) ∧
    (∀ j : Nat, (s.setFn k v).dom j = s.dom j) ∧ (∀ j : Nat, (s.setFn k v).tally j = s.tally j) ∧
    (∀ j : Nat, (s.setFn k v).q j = s.q j) ∧ (∀ j : Nat, (s.setFn k v).slot j = s.slot j) ∧
    (∀ j : Nat, (s.setFn k v).pan j = s.pan j) ∧ (∀ j : Nat, (s.setFn k v).bed j = s.bed j) ∧
    (∀ j : Nat, (s.setFn k v).sched j = s.sched j) ∧ (∀ j : Nat, (s.setFn k v).ptSt j = s.ptSt j) ∧
    (∀ j : Nat, (s.setFn k v).key j = s.key j) ∧ (∀ j : Nat, (s.setFn k v).reg j = s.reg j) ∧
    (∀ i j : Nat, (s.setFn k v).latched i j = s.latched i j) ∧ (s.setFn k v).devContained = s.devContained ∧
    (∀ j : Nat, (s.setFn k v).tenantCause j = s.tenantCause j) ∧
    (∀ j : Nat, (s.setFn k v).tenantStopped j = s.tenantStopped j) ∧
    (∀ j : Nat, (s.setFn k v).portCause j = s.portCause j) ∧ (∀ j : Nat, (s.setFn k v).linkCause j = s.linkCause j) ∧
    (∀ j : Nat, (s.setFn k v).followed j = s.followed j) ∧ (s.setFn k v).served = s.served ∧
    (s.setFn k v).ep.link = s.ep.link ∧ (s.setFn k v).ep.bar2Log2 = s.ep.bar2Log2 ∧ (s.setFn k v).ep.ari = s.ep.ari ∧
    (s.setFn k v).ep.numVfs = s.ep.numVfs ∧ (s.setFn k v).ep.vfEnable = s.ep.vfEnable ∧
    (s.setFn k v).ep.keptVfs = s.ep.keptVfs ∧ (s.setFn k v).ep.ltrLast = s.ep.ltrLast ∧
    (s.setFn k v).ep.ltrAt = s.ep.ltrAt ∧ (s.setFn k v).ep.ptmOffset = s.ep.ptmOffset ∧
    (s.setFn k v).ep.ptmHist = s.ep.ptmHist ∧ (s.setFn k v).ep.ptmStatus = s.ep.ptmStatus ∧
    (s.setFn k v).ep.ptmRate = s.ep.ptmRate ∧ (s.setFn k v).ep.vfBars = s.ep.vfBars :=
  ⟨rfl, rfl, rfl, rfl, rfl, rfl, rfl, rfl, rfl, rfl, rfl, rfl, rfl, rfl, rfl, rfl, rfl, rfl, rfl, rfl, rfl, rfl, rfl,
  rfl, rfl, rfl, rfl, rfl, rfl, rfl, fun _ => rfl, fun _ => rfl, fun _ => rfl, fun _ => rfl, fun _ => rfl, fun _ => rfl,
  fun _ => rfl, fun _ => rfl, fun _ => rfl, fun _ => rfl, fun _ => rfl, fun _ => rfl, fun _ => rfl, fun _ => rfl,
  fun _ => rfl, fun _ _ => rfl, rfl, fun _ => rfl, fun _ => rfl, fun _ => rfl, fun _ => rfl, fun _ => rfl, rfl, rfl, rfl,
  rfl, rfl, rfl, rfl, rfl, rfl, rfl, rfl, rfl, rfl, rfl⟩

theorem State.setFn_fn (s : State) (k j : Nat) (v : FnState) : (s.setFn k v).fn j = if j = k then v else s.fn j := Tbl.get_set _ _ _ _ _

@[simp] theorem State.setFn_fn_same (s : State) (k : Nat) (v : FnState) : (s.setFn k v).fn k = v := Tbl.get_set_same _ _ _ _

@[simp] theorem State.modFn_frame (s : State) (k : Nat) (f : FnState → FnState) :
    (s.modFn k f).pending = s.pending ∧ (s.modFn k f).now = s.now ∧ (s.modFn k f).fresh = s.fresh ∧
    (s.modFn k f).out = s.out ∧ (s.modFn k f).regs = s.regs ∧ (s.modFn k f).latch = s.latch ∧ (s.modFn k f).pins = s.pins ∧
    (s.modFn k f).mon = s.mon ∧ (s.modFn k f).boot = s.boot ∧ (s.modFn k f).mram = s.mram ∧ (s.modFn k f).img = s.img ∧
    (s.modFn k f).her = s.her ∧ (s.modFn k f).cont = s.cont ∧ (s.modFn k f).win = s.win ∧ (s.modFn k f).reads = s.reads ∧
    (s.modFn k f).liq = s.liq ∧ (s.modFn k f).tal = s.tal ∧ (s.modFn k f).pwr = s.pwr ∧ (s.modFn k f).tide = s.tide ∧
    (s.modFn k f).weirs = s.weirs ∧ (s.modFn k f).qs = s.qs ∧ (s.modFn k f).ports = s.ports ∧
    (s.modFn k f).profs = s.profs ∧ (s.modFn k f).har = s.har ∧ (s.modFn k f).lanes = s.lanes ∧
    (s.modFn k f).links = s.links ∧ (s.modFn k f).twin = s.twin ∧ (s.modFn k f).spares = s.spares ∧
    (s.modFn k f).dbg = s.dbg ∧ (s.modFn k f).log = s.log ∧ (∀ j : Nat, (s.modFn k f).port j = s.port j) ∧
    (∀ j : Nat, (s.modFn k f).prof j = s.prof j) ∧ (∀ j : Nat, (s.modFn k f).lane j = s.lane j) ∧
    (∀ j : Nat, (s.modFn k f).link j = s.link j) ∧ (∀ j : Nat, (s.modFn k f).mb j = s.mb j) ∧
    (∀ j : Nat, (s.modFn k f).dom j = s.dom j) ∧ (∀ j : Nat, (s.modFn k f).tally j = s.tally j) ∧
    (∀ j : Nat, (s.modFn k f).q j = s.q j) ∧ (∀ j : Nat, (s.modFn k f).slot j = s.slot j) ∧
    (∀ j : Nat, (s.modFn k f).pan j = s.pan j) ∧ (∀ j : Nat, (s.modFn k f).bed j = s.bed j) ∧
    (∀ j : Nat, (s.modFn k f).sched j = s.sched j) ∧ (∀ j : Nat, (s.modFn k f).ptSt j = s.ptSt j) ∧
    (∀ j : Nat, (s.modFn k f).key j = s.key j) ∧ (∀ j : Nat, (s.modFn k f).reg j = s.reg j) ∧
    (∀ i j : Nat, (s.modFn k f).latched i j = s.latched i j) ∧ (s.modFn k f).devContained = s.devContained ∧
    (∀ j : Nat, (s.modFn k f).tenantCause j = s.tenantCause j) ∧
    (∀ j : Nat, (s.modFn k f).tenantStopped j = s.tenantStopped j) ∧
    (∀ j : Nat, (s.modFn k f).portCause j = s.portCause j) ∧ (∀ j : Nat, (s.modFn k f).linkCause j = s.linkCause j) ∧
    (∀ j : Nat, (s.modFn k f).followed j = s.followed j) ∧ (s.modFn k f).served = s.served ∧
    (s.modFn k f).ep.link = s.ep.link ∧ (s.modFn k f).ep.bar2Log2 = s.ep.bar2Log2 ∧ (s.modFn k f).ep.ari = s.ep.ari ∧
    (s.modFn k f).ep.numVfs = s.ep.numVfs ∧ (s.modFn k f).ep.vfEnable = s.ep.vfEnable ∧
    (s.modFn k f).ep.keptVfs = s.ep.keptVfs ∧ (s.modFn k f).ep.ltrLast = s.ep.ltrLast ∧
    (s.modFn k f).ep.ltrAt = s.ep.ltrAt ∧ (s.modFn k f).ep.ptmOffset = s.ep.ptmOffset ∧
    (s.modFn k f).ep.ptmHist = s.ep.ptmHist ∧ (s.modFn k f).ep.ptmStatus = s.ep.ptmStatus ∧
    (s.modFn k f).ep.ptmRate = s.ep.ptmRate ∧ (s.modFn k f).ep.vfBars = s.ep.vfBars :=
  ⟨rfl, rfl, rfl, rfl, rfl, rfl, rfl, rfl, rfl, rfl, rfl, rfl, rfl, rfl, rfl, rfl, rfl, rfl, rfl, rfl, rfl, rfl, rfl,
  rfl, rfl, rfl, rfl, rfl, rfl, rfl, fun _ => rfl, fun _ => rfl, fun _ => rfl, fun _ => rfl, fun _ => rfl, fun _ => rfl,
  fun _ => rfl, fun _ => rfl, fun _ => rfl, fun _ => rfl, fun _ => rfl, fun _ => rfl, fun _ => rfl, fun _ => rfl,
  fun _ => rfl, fun _ _ => rfl, rfl, fun _ => rfl, fun _ => rfl, fun _ => rfl, fun _ => rfl, fun _ => rfl, rfl, rfl, rfl,
  rfl, rfl, rfl, rfl, rfl, rfl, rfl, rfl, rfl, rfl, rfl⟩

theorem State.modFn_fn (s : State) (k j : Nat) (f : FnState → FnState) :
    (s.modFn k f).fn j = if j = k then f (s.fn k) else s.fn j := Tbl.get_set _ _ _ _ _

@[simp] theorem State.modFn_fn_same (s : State) (k : Nat) (f : FnState → FnState) : (s.modFn k f).fn k = f (s.fn k) := Tbl.get_set_same _ _ _ _

@[simp] theorem State.setDom_frame (s : State) (k : Nat) (v : Dom) :
    (s.setDom k v).pending = s.pending ∧ (s.setDom k v).now = s.now ∧ (s.setDom k v).fresh = s.fresh ∧
    (s.setDom k v).out = s.out ∧ (s.setDom k v).regs = s.regs ∧ (s.setDom k v).latch = s.latch ∧
    (s.setDom k v).pins = s.pins ∧ (s.setDom k v).mon = s.mon ∧ (s.setDom k v).boot = s.boot ∧
    (s.setDom k v).mram = s.mram ∧ (s.setDom k v).img = s.img ∧ (s.setDom k v).her = s.her ∧ (s.setDom k v).ep = s.ep ∧
    (s.setDom k v).cont = s.cont ∧ (s.setDom k v).win = s.win ∧ (s.setDom k v).reads = s.reads ∧
    (s.setDom k v).liq = s.liq ∧ (s.setDom k v).tal = s.tal ∧ (s.setDom k v).tide = s.tide ∧
    (s.setDom k v).weirs = s.weirs ∧ (s.setDom k v).qs = s.qs ∧ (s.setDom k v).ports = s.ports ∧
    (s.setDom k v).profs = s.profs ∧ (s.setDom k v).har = s.har ∧ (s.setDom k v).lanes = s.lanes ∧
    (s.setDom k v).links = s.links ∧ (s.setDom k v).twin = s.twin ∧ (s.setDom k v).spares = s.spares ∧
    (s.setDom k v).dbg = s.dbg ∧ (s.setDom k v).log = s.log ∧ (∀ j : Nat, (s.setDom k v).port j = s.port j) ∧
    (∀ j : Nat, (s.setDom k v).prof j = s.prof j) ∧ (∀ j : Nat, (s.setDom k v).lane j = s.lane j) ∧
    (∀ j : Nat, (s.setDom k v).link j = s.link j) ∧ (∀ j : Nat, (s.setDom k v).mb j = s.mb j) ∧
    (∀ j : Nat, (s.setDom k v).fn j = s.fn j) ∧ (∀ j : Nat, (s.setDom k v).tally j = s.tally j) ∧
    (∀ j : Nat, (s.setDom k v).q j = s.q j) ∧ (∀ j : Nat, (s.setDom k v).slot j = s.slot j) ∧
    (∀ j : Nat, (s.setDom k v).pan j = s.pan j) ∧ (∀ j : Nat, (s.setDom k v).bed j = s.bed j) ∧
    (∀ j : Nat, (s.setDom k v).sched j = s.sched j) ∧ (∀ j : Nat, (s.setDom k v).ptSt j = s.ptSt j) ∧
    (∀ j : Nat, (s.setDom k v).key j = s.key j) ∧ (∀ j : Nat, (s.setDom k v).reg j = s.reg j) ∧
    (∀ i j : Nat, (s.setDom k v).latched i j = s.latched i j) ∧ (s.setDom k v).devContained = s.devContained ∧
    (∀ j : Nat, (s.setDom k v).tenantCause j = s.tenantCause j) ∧
    (∀ j : Nat, (s.setDom k v).tenantStopped j = s.tenantStopped j) ∧
    (∀ j : Nat, (s.setDom k v).portCause j = s.portCause j) ∧ (∀ j : Nat, (s.setDom k v).linkCause j = s.linkCause j) ∧
    (∀ j : Nat, (s.setDom k v).followed j = s.followed j) ∧ (s.setDom k v).served = s.served ∧
    (s.setDom k v).pwr.ramp = s.pwr.ramp ∧ (s.setDom k v).pwr.absent = s.pwr.absent :=
  ⟨rfl, rfl, rfl, rfl, rfl, rfl, rfl, rfl, rfl, rfl, rfl, rfl, rfl, rfl, rfl, rfl, rfl, rfl, rfl, rfl, rfl, rfl, rfl,
  rfl, rfl, rfl, rfl, rfl, rfl, rfl, fun _ => rfl, fun _ => rfl, fun _ => rfl, fun _ => rfl, fun _ => rfl, fun _ => rfl,
  fun _ => rfl, fun _ => rfl, fun _ => rfl, fun _ => rfl, fun _ => rfl, fun _ => rfl, fun _ => rfl, fun _ => rfl,
  fun _ => rfl, fun _ _ => rfl, rfl, fun _ => rfl, fun _ => rfl, fun _ => rfl, fun _ => rfl, fun _ => rfl, rfl, rfl, rfl⟩

theorem State.setDom_dom (s : State) (k j : Nat) (v : Dom) : (s.setDom k v).dom j = if j = k then v else s.dom j := Tbl.get_set _ _ _ _ _

@[simp] theorem State.setDom_dom_same (s : State) (k : Nat) (v : Dom) : (s.setDom k v).dom k = v := Tbl.get_set_same _ _ _ _

@[simp] theorem State.modDom_frame (s : State) (k : Nat) (f : Dom → Dom) :
    (s.modDom k f).pending = s.pending ∧ (s.modDom k f).now = s.now ∧ (s.modDom k f).fresh = s.fresh ∧
    (s.modDom k f).out = s.out ∧ (s.modDom k f).regs = s.regs ∧ (s.modDom k f).latch = s.latch ∧
    (s.modDom k f).pins = s.pins ∧ (s.modDom k f).mon = s.mon ∧ (s.modDom k f).boot = s.boot ∧
    (s.modDom k f).mram = s.mram ∧ (s.modDom k f).img = s.img ∧ (s.modDom k f).her = s.her ∧ (s.modDom k f).ep = s.ep ∧
    (s.modDom k f).cont = s.cont ∧ (s.modDom k f).win = s.win ∧ (s.modDom k f).reads = s.reads ∧
    (s.modDom k f).liq = s.liq ∧ (s.modDom k f).tal = s.tal ∧ (s.modDom k f).tide = s.tide ∧
    (s.modDom k f).weirs = s.weirs ∧ (s.modDom k f).qs = s.qs ∧ (s.modDom k f).ports = s.ports ∧
    (s.modDom k f).profs = s.profs ∧ (s.modDom k f).har = s.har ∧ (s.modDom k f).lanes = s.lanes ∧
    (s.modDom k f).links = s.links ∧ (s.modDom k f).twin = s.twin ∧ (s.modDom k f).spares = s.spares ∧
    (s.modDom k f).dbg = s.dbg ∧ (s.modDom k f).log = s.log ∧ (∀ j : Nat, (s.modDom k f).port j = s.port j) ∧
    (∀ j : Nat, (s.modDom k f).prof j = s.prof j) ∧ (∀ j : Nat, (s.modDom k f).lane j = s.lane j) ∧
    (∀ j : Nat, (s.modDom k f).link j = s.link j) ∧ (∀ j : Nat, (s.modDom k f).mb j = s.mb j) ∧
    (∀ j : Nat, (s.modDom k f).fn j = s.fn j) ∧ (∀ j : Nat, (s.modDom k f).tally j = s.tally j) ∧
    (∀ j : Nat, (s.modDom k f).q j = s.q j) ∧ (∀ j : Nat, (s.modDom k f).slot j = s.slot j) ∧
    (∀ j : Nat, (s.modDom k f).pan j = s.pan j) ∧ (∀ j : Nat, (s.modDom k f).bed j = s.bed j) ∧
    (∀ j : Nat, (s.modDom k f).sched j = s.sched j) ∧ (∀ j : Nat, (s.modDom k f).ptSt j = s.ptSt j) ∧
    (∀ j : Nat, (s.modDom k f).key j = s.key j) ∧ (∀ j : Nat, (s.modDom k f).reg j = s.reg j) ∧
    (∀ i j : Nat, (s.modDom k f).latched i j = s.latched i j) ∧ (s.modDom k f).devContained = s.devContained ∧
    (∀ j : Nat, (s.modDom k f).tenantCause j = s.tenantCause j) ∧
    (∀ j : Nat, (s.modDom k f).tenantStopped j = s.tenantStopped j) ∧
    (∀ j : Nat, (s.modDom k f).portCause j = s.portCause j) ∧ (∀ j : Nat, (s.modDom k f).linkCause j = s.linkCause j) ∧
    (∀ j : Nat, (s.modDom k f).followed j = s.followed j) ∧ (s.modDom k f).served = s.served ∧
    (s.modDom k f).pwr.ramp = s.pwr.ramp ∧ (s.modDom k f).pwr.absent = s.pwr.absent :=
  ⟨rfl, rfl, rfl, rfl, rfl, rfl, rfl, rfl, rfl, rfl, rfl, rfl, rfl, rfl, rfl, rfl, rfl, rfl, rfl, rfl, rfl, rfl, rfl,
  rfl, rfl, rfl, rfl, rfl, rfl, rfl, fun _ => rfl, fun _ => rfl, fun _ => rfl, fun _ => rfl, fun _ => rfl, fun _ => rfl,
  fun _ => rfl, fun _ => rfl, fun _ => rfl, fun _ => rfl, fun _ => rfl, fun _ => rfl, fun _ => rfl, fun _ => rfl,
  fun _ => rfl, fun _ _ => rfl, rfl, fun _ => rfl, fun _ => rfl, fun _ => rfl, fun _ => rfl, fun _ => rfl, rfl, rfl, rfl⟩

theorem State.modDom_dom (s : State) (k j : Nat) (f : Dom → Dom) :
    (s.modDom k f).dom j = if j = k then f (s.dom k) else s.dom j := Tbl.get_set _ _ _ _ _

@[simp] theorem State.modDom_dom_same (s : State) (k : Nat) (f : Dom → Dom) : (s.modDom k f).dom k = f (s.dom k) := Tbl.get_set_same _ _ _ _

@[simp] theorem State.setTally_frame (s : State) (k : Nat) (v : TallyT) :
    (s.setTally k v).pending = s.pending ∧ (s.setTally k v).now = s.now ∧ (s.setTally k v).fresh = s.fresh ∧
    (s.setTally k v).out = s.out ∧ (s.setTally k v).regs = s.regs ∧ (s.setTally k v).latch = s.latch ∧
    (s.setTally k v).pins = s.pins ∧ (s.setTally k v).mon = s.mon ∧ (s.setTally k v).boot = s.boot ∧
    (s.setTally k v).mram = s.mram ∧ (s.setTally k v).img = s.img ∧ (s.setTally k v).her = s.her ∧
    (s.setTally k v).ep = s.ep ∧ (s.setTally k v).cont = s.cont ∧ (s.setTally k v).win = s.win ∧
    (s.setTally k v).reads = s.reads ∧ (s.setTally k v).liq = s.liq ∧ (s.setTally k v).pwr = s.pwr ∧
    (s.setTally k v).tide = s.tide ∧ (s.setTally k v).weirs = s.weirs ∧ (s.setTally k v).qs = s.qs ∧
    (s.setTally k v).ports = s.ports ∧ (s.setTally k v).profs = s.profs ∧ (s.setTally k v).har = s.har ∧
    (s.setTally k v).lanes = s.lanes ∧ (s.setTally k v).links = s.links ∧ (s.setTally k v).twin = s.twin ∧
    (s.setTally k v).spares = s.spares ∧ (s.setTally k v).dbg = s.dbg ∧ (s.setTally k v).log = s.log ∧
    (∀ j : Nat, (s.setTally k v).port j = s.port j) ∧ (∀ j : Nat, (s.setTally k v).prof j = s.prof j) ∧
    (∀ j : Nat, (s.setTally k v).lane j = s.lane j) ∧ (∀ j : Nat, (s.setTally k v).link j = s.link j) ∧
    (∀ j : Nat, (s.setTally k v).mb j = s.mb j) ∧ (∀ j : Nat, (s.setTally k v).fn j = s.fn j) ∧
    (∀ j : Nat, (s.setTally k v).dom j = s.dom j) ∧ (∀ j : Nat, (s.setTally k v).q j = s.q j) ∧
    (∀ j : Nat, (s.setTally k v).slot j = s.slot j) ∧ (∀ j : Nat, (s.setTally k v).pan j = s.pan j) ∧
    (∀ j : Nat, (s.setTally k v).bed j = s.bed j) ∧ (∀ j : Nat, (s.setTally k v).sched j = s.sched j) ∧
    (∀ j : Nat, (s.setTally k v).ptSt j = s.ptSt j) ∧ (∀ j : Nat, (s.setTally k v).key j = s.key j) ∧
    (∀ j : Nat, (s.setTally k v).reg j = s.reg j) ∧ (∀ i j : Nat, (s.setTally k v).latched i j = s.latched i j) ∧
    (s.setTally k v).devContained = s.devContained ∧ (∀ j : Nat, (s.setTally k v).tenantCause j = s.tenantCause j) ∧
    (∀ j : Nat, (s.setTally k v).tenantStopped j = s.tenantStopped j) ∧
    (∀ j : Nat, (s.setTally k v).portCause j = s.portCause j) ∧ (∀ j : Nat, (s.setTally k v).linkCause j = s.linkCause j) ∧
    (∀ j : Nat, (s.setTally k v).followed j = s.followed j) ∧ (s.setTally k v).served = s.served ∧
    (s.setTally k v).tal.fences = s.tal.fences ∧ (s.setTally k v).tal.nextFence = s.tal.nextFence ∧
    (s.setTally k v).tal.priv = s.tal.priv :=
  ⟨rfl, rfl, rfl, rfl, rfl, rfl, rfl, rfl, rfl, rfl, rfl, rfl, rfl, rfl, rfl, rfl, rfl, rfl, rfl, rfl, rfl, rfl, rfl,
  rfl, rfl, rfl, rfl, rfl, rfl, rfl, fun _ => rfl, fun _ => rfl, fun _ => rfl, fun _ => rfl, fun _ => rfl, fun _ => rfl,
  fun _ => rfl, fun _ => rfl, fun _ => rfl, fun _ => rfl, fun _ => rfl, fun _ => rfl, fun _ => rfl, fun _ => rfl,
  fun _ => rfl, fun _ _ => rfl, rfl, fun _ => rfl, fun _ => rfl, fun _ => rfl, fun _ => rfl, fun _ => rfl, rfl, rfl, rfl,
  rfl⟩

theorem State.setTally_tally (s : State) (k j : Nat) (v : TallyT) : (s.setTally k v).tally j = if j = k then v else s.tally j := Tbl.get_set _ _ _ _ _

@[simp] theorem State.setTally_tally_same (s : State) (k : Nat) (v : TallyT) : (s.setTally k v).tally k = v := Tbl.get_set_same _ _ _ _

@[simp] theorem State.modTally_frame (s : State) (k : Nat) (f : TallyT → TallyT) :
    (s.modTally k f).pending = s.pending ∧ (s.modTally k f).now = s.now ∧ (s.modTally k f).fresh = s.fresh ∧
    (s.modTally k f).out = s.out ∧ (s.modTally k f).regs = s.regs ∧ (s.modTally k f).latch = s.latch ∧
    (s.modTally k f).pins = s.pins ∧ (s.modTally k f).mon = s.mon ∧ (s.modTally k f).boot = s.boot ∧
    (s.modTally k f).mram = s.mram ∧ (s.modTally k f).img = s.img ∧ (s.modTally k f).her = s.her ∧
    (s.modTally k f).ep = s.ep ∧ (s.modTally k f).cont = s.cont ∧ (s.modTally k f).win = s.win ∧
    (s.modTally k f).reads = s.reads ∧ (s.modTally k f).liq = s.liq ∧ (s.modTally k f).pwr = s.pwr ∧
    (s.modTally k f).tide = s.tide ∧ (s.modTally k f).weirs = s.weirs ∧ (s.modTally k f).qs = s.qs ∧
    (s.modTally k f).ports = s.ports ∧ (s.modTally k f).profs = s.profs ∧ (s.modTally k f).har = s.har ∧
    (s.modTally k f).lanes = s.lanes ∧ (s.modTally k f).links = s.links ∧ (s.modTally k f).twin = s.twin ∧
    (s.modTally k f).spares = s.spares ∧ (s.modTally k f).dbg = s.dbg ∧ (s.modTally k f).log = s.log ∧
    (∀ j : Nat, (s.modTally k f).port j = s.port j) ∧ (∀ j : Nat, (s.modTally k f).prof j = s.prof j) ∧
    (∀ j : Nat, (s.modTally k f).lane j = s.lane j) ∧ (∀ j : Nat, (s.modTally k f).link j = s.link j) ∧
    (∀ j : Nat, (s.modTally k f).mb j = s.mb j) ∧ (∀ j : Nat, (s.modTally k f).fn j = s.fn j) ∧
    (∀ j : Nat, (s.modTally k f).dom j = s.dom j) ∧ (∀ j : Nat, (s.modTally k f).q j = s.q j) ∧
    (∀ j : Nat, (s.modTally k f).slot j = s.slot j) ∧ (∀ j : Nat, (s.modTally k f).pan j = s.pan j) ∧
    (∀ j : Nat, (s.modTally k f).bed j = s.bed j) ∧ (∀ j : Nat, (s.modTally k f).sched j = s.sched j) ∧
    (∀ j : Nat, (s.modTally k f).ptSt j = s.ptSt j) ∧ (∀ j : Nat, (s.modTally k f).key j = s.key j) ∧
    (∀ j : Nat, (s.modTally k f).reg j = s.reg j) ∧ (∀ i j : Nat, (s.modTally k f).latched i j = s.latched i j) ∧
    (s.modTally k f).devContained = s.devContained ∧ (∀ j : Nat, (s.modTally k f).tenantCause j = s.tenantCause j) ∧
    (∀ j : Nat, (s.modTally k f).tenantStopped j = s.tenantStopped j) ∧
    (∀ j : Nat, (s.modTally k f).portCause j = s.portCause j) ∧ (∀ j : Nat, (s.modTally k f).linkCause j = s.linkCause j) ∧
    (∀ j : Nat, (s.modTally k f).followed j = s.followed j) ∧ (s.modTally k f).served = s.served ∧
    (s.modTally k f).tal.fences = s.tal.fences ∧ (s.modTally k f).tal.nextFence = s.tal.nextFence ∧
    (s.modTally k f).tal.priv = s.tal.priv :=
  ⟨rfl, rfl, rfl, rfl, rfl, rfl, rfl, rfl, rfl, rfl, rfl, rfl, rfl, rfl, rfl, rfl, rfl, rfl, rfl, rfl, rfl, rfl, rfl,
  rfl, rfl, rfl, rfl, rfl, rfl, rfl, fun _ => rfl, fun _ => rfl, fun _ => rfl, fun _ => rfl, fun _ => rfl, fun _ => rfl,
  fun _ => rfl, fun _ => rfl, fun _ => rfl, fun _ => rfl, fun _ => rfl, fun _ => rfl, fun _ => rfl, fun _ => rfl,
  fun _ => rfl, fun _ _ => rfl, rfl, fun _ => rfl, fun _ => rfl, fun _ => rfl, fun _ => rfl, fun _ => rfl, rfl, rfl, rfl,
  rfl⟩

theorem State.modTally_tally (s : State) (k j : Nat) (f : TallyT → TallyT) :
    (s.modTally k f).tally j = if j = k then f (s.tally k) else s.tally j := Tbl.get_set _ _ _ _ _

@[simp] theorem State.modTally_tally_same (s : State) (k : Nat) (f : TallyT → TallyT) : (s.modTally k f).tally k = f (s.tally k) := Tbl.get_set_same _ _ _ _

@[simp] theorem State.setQ_frame (s : State) (k : Nat) (v : QCtx) :
    (s.setQ k v).pending = s.pending ∧ (s.setQ k v).now = s.now ∧ (s.setQ k v).fresh = s.fresh ∧ (s.setQ k v).out = s.out ∧
    (s.setQ k v).regs = s.regs ∧ (s.setQ k v).latch = s.latch ∧ (s.setQ k v).pins = s.pins ∧ (s.setQ k v).mon = s.mon ∧
    (s.setQ k v).boot = s.boot ∧ (s.setQ k v).mram = s.mram ∧ (s.setQ k v).img = s.img ∧ (s.setQ k v).her = s.her ∧
    (s.setQ k v).ep = s.ep ∧ (s.setQ k v).cont = s.cont ∧ (s.setQ k v).win = s.win ∧ (s.setQ k v).reads = s.reads ∧
    (s.setQ k v).liq = s.liq ∧ (s.setQ k v).tal = s.tal ∧ (s.setQ k v).pwr = s.pwr ∧ (s.setQ k v).tide = s.tide ∧
    (s.setQ k v).weirs = s.weirs ∧ (s.setQ k v).ports = s.ports ∧ (s.setQ k v).profs = s.profs ∧ (s.setQ k v).har = s.har ∧
    (s.setQ k v).lanes = s.lanes ∧ (s.setQ k v).links = s.links ∧ (s.setQ k v).twin = s.twin ∧
    (s.setQ k v).spares = s.spares ∧ (s.setQ k v).dbg = s.dbg ∧ (s.setQ k v).log = s.log ∧
    (∀ j : Nat, (s.setQ k v).port j = s.port j) ∧ (∀ j : Nat, (s.setQ k v).prof j = s.prof j) ∧
    (∀ j : Nat, (s.setQ k v).lane j = s.lane j) ∧ (∀ j : Nat, (s.setQ k v).link j = s.link j) ∧
    (∀ j : Nat, (s.setQ k v).mb j = s.mb j) ∧ (∀ j : Nat, (s.setQ k v).fn j = s.fn j) ∧
    (∀ j : Nat, (s.setQ k v).dom j = s.dom j) ∧ (∀ j : Nat, (s.setQ k v).tally j = s.tally j) ∧
    (∀ j : Nat, (s.setQ k v).slot j = s.slot j) ∧ (∀ j : Nat, (s.setQ k v).pan j = s.pan j) ∧
    (∀ j : Nat, (s.setQ k v).bed j = s.bed j) ∧ (∀ j : Nat, (s.setQ k v).sched j = s.sched j) ∧
    (∀ j : Nat, (s.setQ k v).ptSt j = s.ptSt j) ∧ (∀ j : Nat, (s.setQ k v).key j = s.key j) ∧
    (∀ j : Nat, (s.setQ k v).reg j = s.reg j) ∧ (∀ i j : Nat, (s.setQ k v).latched i j = s.latched i j) ∧
    (s.setQ k v).devContained = s.devContained ∧ (∀ j : Nat, (s.setQ k v).tenantCause j = s.tenantCause j) ∧
    (∀ j : Nat, (s.setQ k v).tenantStopped j = s.tenantStopped j) ∧ (∀ j : Nat, (s.setQ k v).portCause j = s.portCause j) ∧
    (∀ j : Nat, (s.setQ k v).linkCause j = s.linkCause j) ∧ (∀ j : Nat, (s.setQ k v).followed j = s.followed j) ∧
    (s.setQ k v).served = s.served ∧ (s.setQ k v).qs.slots = s.qs.slots ∧ (s.setQ k v).qs.pans = s.qs.pans ∧
    (s.setQ k v).qs.beds = s.qs.beds ∧ (s.setQ k v).qs.orderNext = s.qs.orderNext ∧ (s.setQ k v).qs.xrakes = s.qs.xrakes :=
  ⟨rfl, rfl, rfl, rfl, rfl, rfl, rfl, rfl, rfl, rfl, rfl, rfl, rfl, rfl, rfl, rfl, rfl, rfl, rfl, rfl, rfl, rfl, rfl,
  rfl, rfl, rfl, rfl, rfl, rfl, rfl, fun _ => rfl, fun _ => rfl, fun _ => rfl, fun _ => rfl, fun _ => rfl, fun _ => rfl,
  fun _ => rfl, fun _ => rfl, fun _ => rfl, fun _ => rfl, fun _ => rfl, fun _ => rfl, fun _ => rfl, fun _ => rfl,
  fun _ => rfl, fun _ _ => rfl, rfl, fun _ => rfl, fun _ => rfl, fun _ => rfl, fun _ => rfl, fun _ => rfl, rfl, rfl, rfl,
  rfl, rfl, rfl⟩

theorem State.setQ_q (s : State) (k j : Nat) (v : QCtx) : (s.setQ k v).q j = if j = k then v else s.q j := Tbl.get_set _ _ _ _ _

@[simp] theorem State.setQ_q_same (s : State) (k : Nat) (v : QCtx) : (s.setQ k v).q k = v := Tbl.get_set_same _ _ _ _

@[simp] theorem State.modQ_frame (s : State) (k : Nat) (f : QCtx → QCtx) :
    (s.modQ k f).pending = s.pending ∧ (s.modQ k f).now = s.now ∧ (s.modQ k f).fresh = s.fresh ∧ (s.modQ k f).out = s.out ∧
    (s.modQ k f).regs = s.regs ∧ (s.modQ k f).latch = s.latch ∧ (s.modQ k f).pins = s.pins ∧ (s.modQ k f).mon = s.mon ∧
    (s.modQ k f).boot = s.boot ∧ (s.modQ k f).mram = s.mram ∧ (s.modQ k f).img = s.img ∧ (s.modQ k f).her = s.her ∧
    (s.modQ k f).ep = s.ep ∧ (s.modQ k f).cont = s.cont ∧ (s.modQ k f).win = s.win ∧ (s.modQ k f).reads = s.reads ∧
    (s.modQ k f).liq = s.liq ∧ (s.modQ k f).tal = s.tal ∧ (s.modQ k f).pwr = s.pwr ∧ (s.modQ k f).tide = s.tide ∧
    (s.modQ k f).weirs = s.weirs ∧ (s.modQ k f).ports = s.ports ∧ (s.modQ k f).profs = s.profs ∧ (s.modQ k f).har = s.har ∧
    (s.modQ k f).lanes = s.lanes ∧ (s.modQ k f).links = s.links ∧ (s.modQ k f).twin = s.twin ∧
    (s.modQ k f).spares = s.spares ∧ (s.modQ k f).dbg = s.dbg ∧ (s.modQ k f).log = s.log ∧
    (∀ j : Nat, (s.modQ k f).port j = s.port j) ∧ (∀ j : Nat, (s.modQ k f).prof j = s.prof j) ∧
    (∀ j : Nat, (s.modQ k f).lane j = s.lane j) ∧ (∀ j : Nat, (s.modQ k f).link j = s.link j) ∧
    (∀ j : Nat, (s.modQ k f).mb j = s.mb j) ∧ (∀ j : Nat, (s.modQ k f).fn j = s.fn j) ∧
    (∀ j : Nat, (s.modQ k f).dom j = s.dom j) ∧ (∀ j : Nat, (s.modQ k f).tally j = s.tally j) ∧
    (∀ j : Nat, (s.modQ k f).slot j = s.slot j) ∧ (∀ j : Nat, (s.modQ k f).pan j = s.pan j) ∧
    (∀ j : Nat, (s.modQ k f).bed j = s.bed j) ∧ (∀ j : Nat, (s.modQ k f).sched j = s.sched j) ∧
    (∀ j : Nat, (s.modQ k f).ptSt j = s.ptSt j) ∧ (∀ j : Nat, (s.modQ k f).key j = s.key j) ∧
    (∀ j : Nat, (s.modQ k f).reg j = s.reg j) ∧ (∀ i j : Nat, (s.modQ k f).latched i j = s.latched i j) ∧
    (s.modQ k f).devContained = s.devContained ∧ (∀ j : Nat, (s.modQ k f).tenantCause j = s.tenantCause j) ∧
    (∀ j : Nat, (s.modQ k f).tenantStopped j = s.tenantStopped j) ∧ (∀ j : Nat, (s.modQ k f).portCause j = s.portCause j) ∧
    (∀ j : Nat, (s.modQ k f).linkCause j = s.linkCause j) ∧ (∀ j : Nat, (s.modQ k f).followed j = s.followed j) ∧
    (s.modQ k f).served = s.served ∧ (s.modQ k f).qs.slots = s.qs.slots ∧ (s.modQ k f).qs.pans = s.qs.pans ∧
    (s.modQ k f).qs.beds = s.qs.beds ∧ (s.modQ k f).qs.orderNext = s.qs.orderNext ∧ (s.modQ k f).qs.xrakes = s.qs.xrakes :=
  ⟨rfl, rfl, rfl, rfl, rfl, rfl, rfl, rfl, rfl, rfl, rfl, rfl, rfl, rfl, rfl, rfl, rfl, rfl, rfl, rfl, rfl, rfl, rfl,
  rfl, rfl, rfl, rfl, rfl, rfl, rfl, fun _ => rfl, fun _ => rfl, fun _ => rfl, fun _ => rfl, fun _ => rfl, fun _ => rfl,
  fun _ => rfl, fun _ => rfl, fun _ => rfl, fun _ => rfl, fun _ => rfl, fun _ => rfl, fun _ => rfl, fun _ => rfl,
  fun _ => rfl, fun _ _ => rfl, rfl, fun _ => rfl, fun _ => rfl, fun _ => rfl, fun _ => rfl, fun _ => rfl, rfl, rfl, rfl,
  rfl, rfl, rfl⟩

theorem State.modQ_q (s : State) (k j : Nat) (f : QCtx → QCtx) :
    (s.modQ k f).q j = if j = k then f (s.q k) else s.q j := Tbl.get_set _ _ _ _ _

@[simp] theorem State.modQ_q_same (s : State) (k : Nat) (f : QCtx → QCtx) : (s.modQ k f).q k = f (s.q k) := Tbl.get_set_same _ _ _ _

@[simp] theorem State.setSlot_frame (s : State) (k : Nat) (v : Slot) :
    (s.setSlot k v).pending = s.pending ∧ (s.setSlot k v).now = s.now ∧ (s.setSlot k v).fresh = s.fresh ∧
    (s.setSlot k v).out = s.out ∧ (s.setSlot k v).regs = s.regs ∧ (s.setSlot k v).latch = s.latch ∧
    (s.setSlot k v).pins = s.pins ∧ (s.setSlot k v).mon = s.mon ∧ (s.setSlot k v).boot = s.boot ∧
    (s.setSlot k v).mram = s.mram ∧ (s.setSlot k v).img = s.img ∧ (s.setSlot k v).her = s.her ∧ (s.setSlot k v).ep = s.ep ∧
    (s.setSlot k v).cont = s.cont ∧ (s.setSlot k v).win = s.win ∧ (s.setSlot k v).reads = s.reads ∧
    (s.setSlot k v).liq = s.liq ∧ (s.setSlot k v).tal = s.tal ∧ (s.setSlot k v).pwr = s.pwr ∧
    (s.setSlot k v).tide = s.tide ∧ (s.setSlot k v).weirs = s.weirs ∧ (s.setSlot k v).ports = s.ports ∧
    (s.setSlot k v).profs = s.profs ∧ (s.setSlot k v).har = s.har ∧ (s.setSlot k v).lanes = s.lanes ∧
    (s.setSlot k v).links = s.links ∧ (s.setSlot k v).twin = s.twin ∧ (s.setSlot k v).spares = s.spares ∧
    (s.setSlot k v).dbg = s.dbg ∧ (s.setSlot k v).log = s.log ∧ (∀ j : Nat, (s.setSlot k v).port j = s.port j) ∧
    (∀ j : Nat, (s.setSlot k v).prof j = s.prof j) ∧ (∀ j : Nat, (s.setSlot k v).lane j = s.lane j) ∧
    (∀ j : Nat, (s.setSlot k v).link j = s.link j) ∧ (∀ j : Nat, (s.setSlot k v).mb j = s.mb j) ∧
    (∀ j : Nat, (s.setSlot k v).fn j = s.fn j) ∧ (∀ j : Nat, (s.setSlot k v).dom j = s.dom j) ∧
    (∀ j : Nat, (s.setSlot k v).tally j = s.tally j) ∧ (∀ j : Nat, (s.setSlot k v).q j = s.q j) ∧
    (∀ j : Nat, (s.setSlot k v).pan j = s.pan j) ∧ (∀ j : Nat, (s.setSlot k v).bed j = s.bed j) ∧
    (∀ j : Nat, (s.setSlot k v).sched j = s.sched j) ∧ (∀ j : Nat, (s.setSlot k v).ptSt j = s.ptSt j) ∧
    (∀ j : Nat, (s.setSlot k v).key j = s.key j) ∧ (∀ j : Nat, (s.setSlot k v).reg j = s.reg j) ∧
    (∀ i j : Nat, (s.setSlot k v).latched i j = s.latched i j) ∧ (s.setSlot k v).devContained = s.devContained ∧
    (∀ j : Nat, (s.setSlot k v).tenantCause j = s.tenantCause j) ∧
    (∀ j : Nat, (s.setSlot k v).tenantStopped j = s.tenantStopped j) ∧
    (∀ j : Nat, (s.setSlot k v).portCause j = s.portCause j) ∧ (∀ j : Nat, (s.setSlot k v).linkCause j = s.linkCause j) ∧
    (∀ j : Nat, (s.setSlot k v).followed j = s.followed j) ∧ (s.setSlot k v).served = s.served ∧
    (s.setSlot k v).qs.ctx = s.qs.ctx ∧ (s.setSlot k v).qs.pans = s.qs.pans ∧ (s.setSlot k v).qs.beds = s.qs.beds ∧
    (s.setSlot k v).qs.orderNext = s.qs.orderNext ∧ (s.setSlot k v).qs.xrakes = s.qs.xrakes :=
  ⟨rfl, rfl, rfl, rfl, rfl, rfl, rfl, rfl, rfl, rfl, rfl, rfl, rfl, rfl, rfl, rfl, rfl, rfl, rfl, rfl, rfl, rfl, rfl,
  rfl, rfl, rfl, rfl, rfl, rfl, rfl, fun _ => rfl, fun _ => rfl, fun _ => rfl, fun _ => rfl, fun _ => rfl, fun _ => rfl,
  fun _ => rfl, fun _ => rfl, fun _ => rfl, fun _ => rfl, fun _ => rfl, fun _ => rfl, fun _ => rfl, fun _ => rfl,
  fun _ => rfl, fun _ _ => rfl, rfl, fun _ => rfl, fun _ => rfl, fun _ => rfl, fun _ => rfl, fun _ => rfl, rfl, rfl, rfl,
  rfl, rfl, rfl⟩

theorem State.setSlot_slot (s : State) (k j : Nat) (v : Slot) : (s.setSlot k v).slot j = if j = k then v else s.slot j := Tbl.get_set _ _ _ _ _

@[simp] theorem State.setSlot_slot_same (s : State) (k : Nat) (v : Slot) : (s.setSlot k v).slot k = v := Tbl.get_set_same _ _ _ _

@[simp] theorem State.modSlot_frame (s : State) (k : Nat) (f : Slot → Slot) :
    (s.modSlot k f).pending = s.pending ∧ (s.modSlot k f).now = s.now ∧ (s.modSlot k f).fresh = s.fresh ∧
    (s.modSlot k f).out = s.out ∧ (s.modSlot k f).regs = s.regs ∧ (s.modSlot k f).latch = s.latch ∧
    (s.modSlot k f).pins = s.pins ∧ (s.modSlot k f).mon = s.mon ∧ (s.modSlot k f).boot = s.boot ∧
    (s.modSlot k f).mram = s.mram ∧ (s.modSlot k f).img = s.img ∧ (s.modSlot k f).her = s.her ∧ (s.modSlot k f).ep = s.ep ∧
    (s.modSlot k f).cont = s.cont ∧ (s.modSlot k f).win = s.win ∧ (s.modSlot k f).reads = s.reads ∧
    (s.modSlot k f).liq = s.liq ∧ (s.modSlot k f).tal = s.tal ∧ (s.modSlot k f).pwr = s.pwr ∧
    (s.modSlot k f).tide = s.tide ∧ (s.modSlot k f).weirs = s.weirs ∧ (s.modSlot k f).ports = s.ports ∧
    (s.modSlot k f).profs = s.profs ∧ (s.modSlot k f).har = s.har ∧ (s.modSlot k f).lanes = s.lanes ∧
    (s.modSlot k f).links = s.links ∧ (s.modSlot k f).twin = s.twin ∧ (s.modSlot k f).spares = s.spares ∧
    (s.modSlot k f).dbg = s.dbg ∧ (s.modSlot k f).log = s.log ∧ (∀ j : Nat, (s.modSlot k f).port j = s.port j) ∧
    (∀ j : Nat, (s.modSlot k f).prof j = s.prof j) ∧ (∀ j : Nat, (s.modSlot k f).lane j = s.lane j) ∧
    (∀ j : Nat, (s.modSlot k f).link j = s.link j) ∧ (∀ j : Nat, (s.modSlot k f).mb j = s.mb j) ∧
    (∀ j : Nat, (s.modSlot k f).fn j = s.fn j) ∧ (∀ j : Nat, (s.modSlot k f).dom j = s.dom j) ∧
    (∀ j : Nat, (s.modSlot k f).tally j = s.tally j) ∧ (∀ j : Nat, (s.modSlot k f).q j = s.q j) ∧
    (∀ j : Nat, (s.modSlot k f).pan j = s.pan j) ∧ (∀ j : Nat, (s.modSlot k f).bed j = s.bed j) ∧
    (∀ j : Nat, (s.modSlot k f).sched j = s.sched j) ∧ (∀ j : Nat, (s.modSlot k f).ptSt j = s.ptSt j) ∧
    (∀ j : Nat, (s.modSlot k f).key j = s.key j) ∧ (∀ j : Nat, (s.modSlot k f).reg j = s.reg j) ∧
    (∀ i j : Nat, (s.modSlot k f).latched i j = s.latched i j) ∧ (s.modSlot k f).devContained = s.devContained ∧
    (∀ j : Nat, (s.modSlot k f).tenantCause j = s.tenantCause j) ∧
    (∀ j : Nat, (s.modSlot k f).tenantStopped j = s.tenantStopped j) ∧
    (∀ j : Nat, (s.modSlot k f).portCause j = s.portCause j) ∧ (∀ j : Nat, (s.modSlot k f).linkCause j = s.linkCause j) ∧
    (∀ j : Nat, (s.modSlot k f).followed j = s.followed j) ∧ (s.modSlot k f).served = s.served ∧
    (s.modSlot k f).qs.ctx = s.qs.ctx ∧ (s.modSlot k f).qs.pans = s.qs.pans ∧ (s.modSlot k f).qs.beds = s.qs.beds ∧
    (s.modSlot k f).qs.orderNext = s.qs.orderNext ∧ (s.modSlot k f).qs.xrakes = s.qs.xrakes :=
  ⟨rfl, rfl, rfl, rfl, rfl, rfl, rfl, rfl, rfl, rfl, rfl, rfl, rfl, rfl, rfl, rfl, rfl, rfl, rfl, rfl, rfl, rfl, rfl,
  rfl, rfl, rfl, rfl, rfl, rfl, rfl, fun _ => rfl, fun _ => rfl, fun _ => rfl, fun _ => rfl, fun _ => rfl, fun _ => rfl,
  fun _ => rfl, fun _ => rfl, fun _ => rfl, fun _ => rfl, fun _ => rfl, fun _ => rfl, fun _ => rfl, fun _ => rfl,
  fun _ => rfl, fun _ _ => rfl, rfl, fun _ => rfl, fun _ => rfl, fun _ => rfl, fun _ => rfl, fun _ => rfl, rfl, rfl, rfl,
  rfl, rfl, rfl⟩

theorem State.modSlot_slot (s : State) (k j : Nat) (f : Slot → Slot) :
    (s.modSlot k f).slot j = if j = k then f (s.slot k) else s.slot j := Tbl.get_set _ _ _ _ _

@[simp] theorem State.modSlot_slot_same (s : State) (k : Nat) (f : Slot → Slot) : (s.modSlot k f).slot k = f (s.slot k) := Tbl.get_set_same _ _ _ _

@[simp] theorem State.setPan_frame (s : State) (k : Nat) (v : Pan) :
    (s.setPan k v).pending = s.pending ∧ (s.setPan k v).now = s.now ∧ (s.setPan k v).fresh = s.fresh ∧
    (s.setPan k v).out = s.out ∧ (s.setPan k v).regs = s.regs ∧ (s.setPan k v).latch = s.latch ∧
    (s.setPan k v).pins = s.pins ∧ (s.setPan k v).mon = s.mon ∧ (s.setPan k v).boot = s.boot ∧
    (s.setPan k v).mram = s.mram ∧ (s.setPan k v).img = s.img ∧ (s.setPan k v).her = s.her ∧ (s.setPan k v).ep = s.ep ∧
    (s.setPan k v).cont = s.cont ∧ (s.setPan k v).win = s.win ∧ (s.setPan k v).reads = s.reads ∧
    (s.setPan k v).liq = s.liq ∧ (s.setPan k v).tal = s.tal ∧ (s.setPan k v).pwr = s.pwr ∧ (s.setPan k v).tide = s.tide ∧
    (s.setPan k v).weirs = s.weirs ∧ (s.setPan k v).ports = s.ports ∧ (s.setPan k v).profs = s.profs ∧
    (s.setPan k v).har = s.har ∧ (s.setPan k v).lanes = s.lanes ∧ (s.setPan k v).links = s.links ∧
    (s.setPan k v).twin = s.twin ∧ (s.setPan k v).spares = s.spares ∧ (s.setPan k v).dbg = s.dbg ∧
    (s.setPan k v).log = s.log ∧ (∀ j : Nat, (s.setPan k v).port j = s.port j) ∧
    (∀ j : Nat, (s.setPan k v).prof j = s.prof j) ∧ (∀ j : Nat, (s.setPan k v).lane j = s.lane j) ∧
    (∀ j : Nat, (s.setPan k v).link j = s.link j) ∧ (∀ j : Nat, (s.setPan k v).mb j = s.mb j) ∧
    (∀ j : Nat, (s.setPan k v).fn j = s.fn j) ∧ (∀ j : Nat, (s.setPan k v).dom j = s.dom j) ∧
    (∀ j : Nat, (s.setPan k v).tally j = s.tally j) ∧ (∀ j : Nat, (s.setPan k v).q j = s.q j) ∧
    (∀ j : Nat, (s.setPan k v).slot j = s.slot j) ∧ (∀ j : Nat, (s.setPan k v).bed j = s.bed j) ∧
    (∀ j : Nat, (s.setPan k v).sched j = s.sched j) ∧ (∀ j : Nat, (s.setPan k v).ptSt j = s.ptSt j) ∧
    (∀ j : Nat, (s.setPan k v).key j = s.key j) ∧ (∀ j : Nat, (s.setPan k v).reg j = s.reg j) ∧
    (∀ i j : Nat, (s.setPan k v).latched i j = s.latched i j) ∧ (s.setPan k v).devContained = s.devContained ∧
    (∀ j : Nat, (s.setPan k v).tenantCause j = s.tenantCause j) ∧
    (∀ j : Nat, (s.setPan k v).tenantStopped j = s.tenantStopped j) ∧
    (∀ j : Nat, (s.setPan k v).portCause j = s.portCause j) ∧ (∀ j : Nat, (s.setPan k v).linkCause j = s.linkCause j) ∧
    (∀ j : Nat, (s.setPan k v).followed j = s.followed j) ∧ (s.setPan k v).served = s.served ∧
    (s.setPan k v).qs.ctx = s.qs.ctx ∧ (s.setPan k v).qs.slots = s.qs.slots ∧ (s.setPan k v).qs.beds = s.qs.beds ∧
    (s.setPan k v).qs.orderNext = s.qs.orderNext ∧ (s.setPan k v).qs.xrakes = s.qs.xrakes :=
  ⟨rfl, rfl, rfl, rfl, rfl, rfl, rfl, rfl, rfl, rfl, rfl, rfl, rfl, rfl, rfl, rfl, rfl, rfl, rfl, rfl, rfl, rfl, rfl,
  rfl, rfl, rfl, rfl, rfl, rfl, rfl, fun _ => rfl, fun _ => rfl, fun _ => rfl, fun _ => rfl, fun _ => rfl, fun _ => rfl,
  fun _ => rfl, fun _ => rfl, fun _ => rfl, fun _ => rfl, fun _ => rfl, fun _ => rfl, fun _ => rfl, fun _ => rfl,
  fun _ => rfl, fun _ _ => rfl, rfl, fun _ => rfl, fun _ => rfl, fun _ => rfl, fun _ => rfl, fun _ => rfl, rfl, rfl, rfl,
  rfl, rfl, rfl⟩

theorem State.setPan_pan (s : State) (k j : Nat) (v : Pan) : (s.setPan k v).pan j = if j = k then v else s.pan j := Tbl.get_set _ _ _ _ _

@[simp] theorem State.setPan_pan_same (s : State) (k : Nat) (v : Pan) : (s.setPan k v).pan k = v := Tbl.get_set_same _ _ _ _

@[simp] theorem State.modPan_frame (s : State) (k : Nat) (f : Pan → Pan) :
    (s.modPan k f).pending = s.pending ∧ (s.modPan k f).now = s.now ∧ (s.modPan k f).fresh = s.fresh ∧
    (s.modPan k f).out = s.out ∧ (s.modPan k f).regs = s.regs ∧ (s.modPan k f).latch = s.latch ∧
    (s.modPan k f).pins = s.pins ∧ (s.modPan k f).mon = s.mon ∧ (s.modPan k f).boot = s.boot ∧
    (s.modPan k f).mram = s.mram ∧ (s.modPan k f).img = s.img ∧ (s.modPan k f).her = s.her ∧ (s.modPan k f).ep = s.ep ∧
    (s.modPan k f).cont = s.cont ∧ (s.modPan k f).win = s.win ∧ (s.modPan k f).reads = s.reads ∧
    (s.modPan k f).liq = s.liq ∧ (s.modPan k f).tal = s.tal ∧ (s.modPan k f).pwr = s.pwr ∧ (s.modPan k f).tide = s.tide ∧
    (s.modPan k f).weirs = s.weirs ∧ (s.modPan k f).ports = s.ports ∧ (s.modPan k f).profs = s.profs ∧
    (s.modPan k f).har = s.har ∧ (s.modPan k f).lanes = s.lanes ∧ (s.modPan k f).links = s.links ∧
    (s.modPan k f).twin = s.twin ∧ (s.modPan k f).spares = s.spares ∧ (s.modPan k f).dbg = s.dbg ∧
    (s.modPan k f).log = s.log ∧ (∀ j : Nat, (s.modPan k f).port j = s.port j) ∧
    (∀ j : Nat, (s.modPan k f).prof j = s.prof j) ∧ (∀ j : Nat, (s.modPan k f).lane j = s.lane j) ∧
    (∀ j : Nat, (s.modPan k f).link j = s.link j) ∧ (∀ j : Nat, (s.modPan k f).mb j = s.mb j) ∧
    (∀ j : Nat, (s.modPan k f).fn j = s.fn j) ∧ (∀ j : Nat, (s.modPan k f).dom j = s.dom j) ∧
    (∀ j : Nat, (s.modPan k f).tally j = s.tally j) ∧ (∀ j : Nat, (s.modPan k f).q j = s.q j) ∧
    (∀ j : Nat, (s.modPan k f).slot j = s.slot j) ∧ (∀ j : Nat, (s.modPan k f).bed j = s.bed j) ∧
    (∀ j : Nat, (s.modPan k f).sched j = s.sched j) ∧ (∀ j : Nat, (s.modPan k f).ptSt j = s.ptSt j) ∧
    (∀ j : Nat, (s.modPan k f).key j = s.key j) ∧ (∀ j : Nat, (s.modPan k f).reg j = s.reg j) ∧
    (∀ i j : Nat, (s.modPan k f).latched i j = s.latched i j) ∧ (s.modPan k f).devContained = s.devContained ∧
    (∀ j : Nat, (s.modPan k f).tenantCause j = s.tenantCause j) ∧
    (∀ j : Nat, (s.modPan k f).tenantStopped j = s.tenantStopped j) ∧
    (∀ j : Nat, (s.modPan k f).portCause j = s.portCause j) ∧ (∀ j : Nat, (s.modPan k f).linkCause j = s.linkCause j) ∧
    (∀ j : Nat, (s.modPan k f).followed j = s.followed j) ∧ (s.modPan k f).served = s.served ∧
    (s.modPan k f).qs.ctx = s.qs.ctx ∧ (s.modPan k f).qs.slots = s.qs.slots ∧ (s.modPan k f).qs.beds = s.qs.beds ∧
    (s.modPan k f).qs.orderNext = s.qs.orderNext ∧ (s.modPan k f).qs.xrakes = s.qs.xrakes :=
  ⟨rfl, rfl, rfl, rfl, rfl, rfl, rfl, rfl, rfl, rfl, rfl, rfl, rfl, rfl, rfl, rfl, rfl, rfl, rfl, rfl, rfl, rfl, rfl,
  rfl, rfl, rfl, rfl, rfl, rfl, rfl, fun _ => rfl, fun _ => rfl, fun _ => rfl, fun _ => rfl, fun _ => rfl, fun _ => rfl,
  fun _ => rfl, fun _ => rfl, fun _ => rfl, fun _ => rfl, fun _ => rfl, fun _ => rfl, fun _ => rfl, fun _ => rfl,
  fun _ => rfl, fun _ _ => rfl, rfl, fun _ => rfl, fun _ => rfl, fun _ => rfl, fun _ => rfl, fun _ => rfl, rfl, rfl, rfl,
  rfl, rfl, rfl⟩

theorem State.modPan_pan (s : State) (k j : Nat) (f : Pan → Pan) :
    (s.modPan k f).pan j = if j = k then f (s.pan k) else s.pan j := Tbl.get_set _ _ _ _ _

@[simp] theorem State.modPan_pan_same (s : State) (k : Nat) (f : Pan → Pan) : (s.modPan k f).pan k = f (s.pan k) := Tbl.get_set_same _ _ _ _

@[simp] theorem State.setBed_frame (s : State) (k : Nat) (v : Bed) :
    (s.setBed k v).pending = s.pending ∧ (s.setBed k v).now = s.now ∧ (s.setBed k v).fresh = s.fresh ∧
    (s.setBed k v).out = s.out ∧ (s.setBed k v).regs = s.regs ∧ (s.setBed k v).latch = s.latch ∧
    (s.setBed k v).pins = s.pins ∧ (s.setBed k v).mon = s.mon ∧ (s.setBed k v).boot = s.boot ∧
    (s.setBed k v).mram = s.mram ∧ (s.setBed k v).img = s.img ∧ (s.setBed k v).her = s.her ∧ (s.setBed k v).ep = s.ep ∧
    (s.setBed k v).cont = s.cont ∧ (s.setBed k v).win = s.win ∧ (s.setBed k v).reads = s.reads ∧
    (s.setBed k v).liq = s.liq ∧ (s.setBed k v).tal = s.tal ∧ (s.setBed k v).pwr = s.pwr ∧ (s.setBed k v).tide = s.tide ∧
    (s.setBed k v).weirs = s.weirs ∧ (s.setBed k v).ports = s.ports ∧ (s.setBed k v).profs = s.profs ∧
    (s.setBed k v).har = s.har ∧ (s.setBed k v).lanes = s.lanes ∧ (s.setBed k v).links = s.links ∧
    (s.setBed k v).twin = s.twin ∧ (s.setBed k v).spares = s.spares ∧ (s.setBed k v).dbg = s.dbg ∧
    (s.setBed k v).log = s.log ∧ (∀ j : Nat, (s.setBed k v).port j = s.port j) ∧
    (∀ j : Nat, (s.setBed k v).prof j = s.prof j) ∧ (∀ j : Nat, (s.setBed k v).lane j = s.lane j) ∧
    (∀ j : Nat, (s.setBed k v).link j = s.link j) ∧ (∀ j : Nat, (s.setBed k v).mb j = s.mb j) ∧
    (∀ j : Nat, (s.setBed k v).fn j = s.fn j) ∧ (∀ j : Nat, (s.setBed k v).dom j = s.dom j) ∧
    (∀ j : Nat, (s.setBed k v).tally j = s.tally j) ∧ (∀ j : Nat, (s.setBed k v).q j = s.q j) ∧
    (∀ j : Nat, (s.setBed k v).slot j = s.slot j) ∧ (∀ j : Nat, (s.setBed k v).pan j = s.pan j) ∧
    (∀ j : Nat, (s.setBed k v).sched j = s.sched j) ∧ (∀ j : Nat, (s.setBed k v).ptSt j = s.ptSt j) ∧
    (∀ j : Nat, (s.setBed k v).key j = s.key j) ∧ (∀ j : Nat, (s.setBed k v).reg j = s.reg j) ∧
    (∀ i j : Nat, (s.setBed k v).latched i j = s.latched i j) ∧ (s.setBed k v).devContained = s.devContained ∧
    (∀ j : Nat, (s.setBed k v).tenantCause j = s.tenantCause j) ∧
    (∀ j : Nat, (s.setBed k v).tenantStopped j = s.tenantStopped j) ∧
    (∀ j : Nat, (s.setBed k v).portCause j = s.portCause j) ∧ (∀ j : Nat, (s.setBed k v).linkCause j = s.linkCause j) ∧
    (∀ j : Nat, (s.setBed k v).followed j = s.followed j) ∧ (s.setBed k v).served = s.served ∧
    (s.setBed k v).qs.ctx = s.qs.ctx ∧ (s.setBed k v).qs.slots = s.qs.slots ∧ (s.setBed k v).qs.pans = s.qs.pans ∧
    (s.setBed k v).qs.orderNext = s.qs.orderNext ∧ (s.setBed k v).qs.xrakes = s.qs.xrakes :=
  ⟨rfl, rfl, rfl, rfl, rfl, rfl, rfl, rfl, rfl, rfl, rfl, rfl, rfl, rfl, rfl, rfl, rfl, rfl, rfl, rfl, rfl, rfl, rfl,
  rfl, rfl, rfl, rfl, rfl, rfl, rfl, fun _ => rfl, fun _ => rfl, fun _ => rfl, fun _ => rfl, fun _ => rfl, fun _ => rfl,
  fun _ => rfl, fun _ => rfl, fun _ => rfl, fun _ => rfl, fun _ => rfl, fun _ => rfl, fun _ => rfl, fun _ => rfl,
  fun _ => rfl, fun _ _ => rfl, rfl, fun _ => rfl, fun _ => rfl, fun _ => rfl, fun _ => rfl, fun _ => rfl, rfl, rfl, rfl,
  rfl, rfl, rfl⟩

theorem State.setBed_bed (s : State) (k j : Nat) (v : Bed) : (s.setBed k v).bed j = if j = k then v else s.bed j := Tbl.get_set _ _ _ _ _

@[simp] theorem State.setBed_bed_same (s : State) (k : Nat) (v : Bed) : (s.setBed k v).bed k = v := Tbl.get_set_same _ _ _ _

@[simp] theorem State.modBed_frame (s : State) (k : Nat) (f : Bed → Bed) :
    (s.modBed k f).pending = s.pending ∧ (s.modBed k f).now = s.now ∧ (s.modBed k f).fresh = s.fresh ∧
    (s.modBed k f).out = s.out ∧ (s.modBed k f).regs = s.regs ∧ (s.modBed k f).latch = s.latch ∧
    (s.modBed k f).pins = s.pins ∧ (s.modBed k f).mon = s.mon ∧ (s.modBed k f).boot = s.boot ∧
    (s.modBed k f).mram = s.mram ∧ (s.modBed k f).img = s.img ∧ (s.modBed k f).her = s.her ∧ (s.modBed k f).ep = s.ep ∧
    (s.modBed k f).cont = s.cont ∧ (s.modBed k f).win = s.win ∧ (s.modBed k f).reads = s.reads ∧
    (s.modBed k f).liq = s.liq ∧ (s.modBed k f).tal = s.tal ∧ (s.modBed k f).pwr = s.pwr ∧ (s.modBed k f).tide = s.tide ∧
    (s.modBed k f).weirs = s.weirs ∧ (s.modBed k f).ports = s.ports ∧ (s.modBed k f).profs = s.profs ∧
    (s.modBed k f).har = s.har ∧ (s.modBed k f).lanes = s.lanes ∧ (s.modBed k f).links = s.links ∧
    (s.modBed k f).twin = s.twin ∧ (s.modBed k f).spares = s.spares ∧ (s.modBed k f).dbg = s.dbg ∧
    (s.modBed k f).log = s.log ∧ (∀ j : Nat, (s.modBed k f).port j = s.port j) ∧
    (∀ j : Nat, (s.modBed k f).prof j = s.prof j) ∧ (∀ j : Nat, (s.modBed k f).lane j = s.lane j) ∧
    (∀ j : Nat, (s.modBed k f).link j = s.link j) ∧ (∀ j : Nat, (s.modBed k f).mb j = s.mb j) ∧
    (∀ j : Nat, (s.modBed k f).fn j = s.fn j) ∧ (∀ j : Nat, (s.modBed k f).dom j = s.dom j) ∧
    (∀ j : Nat, (s.modBed k f).tally j = s.tally j) ∧ (∀ j : Nat, (s.modBed k f).q j = s.q j) ∧
    (∀ j : Nat, (s.modBed k f).slot j = s.slot j) ∧ (∀ j : Nat, (s.modBed k f).pan j = s.pan j) ∧
    (∀ j : Nat, (s.modBed k f).sched j = s.sched j) ∧ (∀ j : Nat, (s.modBed k f).ptSt j = s.ptSt j) ∧
    (∀ j : Nat, (s.modBed k f).key j = s.key j) ∧ (∀ j : Nat, (s.modBed k f).reg j = s.reg j) ∧
    (∀ i j : Nat, (s.modBed k f).latched i j = s.latched i j) ∧ (s.modBed k f).devContained = s.devContained ∧
    (∀ j : Nat, (s.modBed k f).tenantCause j = s.tenantCause j) ∧
    (∀ j : Nat, (s.modBed k f).tenantStopped j = s.tenantStopped j) ∧
    (∀ j : Nat, (s.modBed k f).portCause j = s.portCause j) ∧ (∀ j : Nat, (s.modBed k f).linkCause j = s.linkCause j) ∧
    (∀ j : Nat, (s.modBed k f).followed j = s.followed j) ∧ (s.modBed k f).served = s.served ∧
    (s.modBed k f).qs.ctx = s.qs.ctx ∧ (s.modBed k f).qs.slots = s.qs.slots ∧ (s.modBed k f).qs.pans = s.qs.pans ∧
    (s.modBed k f).qs.orderNext = s.qs.orderNext ∧ (s.modBed k f).qs.xrakes = s.qs.xrakes :=
  ⟨rfl, rfl, rfl, rfl, rfl, rfl, rfl, rfl, rfl, rfl, rfl, rfl, rfl, rfl, rfl, rfl, rfl, rfl, rfl, rfl, rfl, rfl, rfl,
  rfl, rfl, rfl, rfl, rfl, rfl, rfl, fun _ => rfl, fun _ => rfl, fun _ => rfl, fun _ => rfl, fun _ => rfl, fun _ => rfl,
  fun _ => rfl, fun _ => rfl, fun _ => rfl, fun _ => rfl, fun _ => rfl, fun _ => rfl, fun _ => rfl, fun _ => rfl,
  fun _ => rfl, fun _ _ => rfl, rfl, fun _ => rfl, fun _ => rfl, fun _ => rfl, fun _ => rfl, fun _ => rfl, rfl, rfl, rfl,
  rfl, rfl, rfl⟩

theorem State.modBed_bed (s : State) (k j : Nat) (f : Bed → Bed) :
    (s.modBed k f).bed j = if j = k then f (s.bed k) else s.bed j := Tbl.get_set _ _ _ _ _

@[simp] theorem State.modBed_bed_same (s : State) (k : Nat) (f : Bed → Bed) : (s.modBed k f).bed k = f (s.bed k) := Tbl.get_set_same _ _ _ _

@[simp] theorem State.setSched_frame (s : State) (k : Nat) (v : Sched) :
    (s.setSched k v).pending = s.pending ∧ (s.setSched k v).now = s.now ∧ (s.setSched k v).fresh = s.fresh ∧
    (s.setSched k v).out = s.out ∧ (s.setSched k v).regs = s.regs ∧ (s.setSched k v).latch = s.latch ∧
    (s.setSched k v).pins = s.pins ∧ (s.setSched k v).mon = s.mon ∧ (s.setSched k v).boot = s.boot ∧
    (s.setSched k v).mram = s.mram ∧ (s.setSched k v).img = s.img ∧ (s.setSched k v).her = s.her ∧
    (s.setSched k v).ep = s.ep ∧ (s.setSched k v).cont = s.cont ∧ (s.setSched k v).win = s.win ∧
    (s.setSched k v).reads = s.reads ∧ (s.setSched k v).liq = s.liq ∧ (s.setSched k v).tal = s.tal ∧
    (s.setSched k v).pwr = s.pwr ∧ (s.setSched k v).tide = s.tide ∧ (s.setSched k v).weirs = s.weirs ∧
    (s.setSched k v).qs = s.qs ∧ (s.setSched k v).ports = s.ports ∧ (s.setSched k v).profs = s.profs ∧
    (s.setSched k v).lanes = s.lanes ∧ (s.setSched k v).links = s.links ∧ (s.setSched k v).twin = s.twin ∧
    (s.setSched k v).spares = s.spares ∧ (s.setSched k v).dbg = s.dbg ∧ (s.setSched k v).log = s.log ∧
    (∀ j : Nat, (s.setSched k v).port j = s.port j) ∧ (∀ j : Nat, (s.setSched k v).prof j = s.prof j) ∧
    (∀ j : Nat, (s.setSched k v).lane j = s.lane j) ∧ (∀ j : Nat, (s.setSched k v).link j = s.link j) ∧
    (∀ j : Nat, (s.setSched k v).mb j = s.mb j) ∧ (∀ j : Nat, (s.setSched k v).fn j = s.fn j) ∧
    (∀ j : Nat, (s.setSched k v).dom j = s.dom j) ∧ (∀ j : Nat, (s.setSched k v).tally j = s.tally j) ∧
    (∀ j : Nat, (s.setSched k v).q j = s.q j) ∧ (∀ j : Nat, (s.setSched k v).slot j = s.slot j) ∧
    (∀ j : Nat, (s.setSched k v).pan j = s.pan j) ∧ (∀ j : Nat, (s.setSched k v).bed j = s.bed j) ∧
    (∀ j : Nat, (s.setSched k v).ptSt j = s.ptSt j) ∧ (∀ j : Nat, (s.setSched k v).key j = s.key j) ∧
    (∀ j : Nat, (s.setSched k v).reg j = s.reg j) ∧ (∀ i j : Nat, (s.setSched k v).latched i j = s.latched i j) ∧
    (s.setSched k v).devContained = s.devContained ∧ (∀ j : Nat, (s.setSched k v).tenantCause j = s.tenantCause j) ∧
    (∀ j : Nat, (s.setSched k v).tenantStopped j = s.tenantStopped j) ∧
    (∀ j : Nat, (s.setSched k v).portCause j = s.portCause j) ∧ (∀ j : Nat, (s.setSched k v).linkCause j = s.linkCause j) ∧
    (∀ j : Nat, (s.setSched k v).followed j = s.followed j) ∧ (s.setSched k v).served = s.served ∧
    (s.setSched k v).har.pt = s.har.pt ∧ (s.setSched k v).har.loaded = s.har.loaded ∧
    (s.setSched k v).har.ptSt = s.har.ptSt ∧ (s.setSched k v).har.routes = s.har.routes ∧
    (s.setSched k v).har.back = s.har.back ∧ (s.setSched k v).har.floodWait = s.har.floodWait ∧
    (s.setSched k v).har.busy = s.har.busy :=
  ⟨rfl, rfl, rfl, rfl, rfl, rfl, rfl, rfl, rfl, rfl, rfl, rfl, rfl, rfl, rfl, rfl, rfl, rfl, rfl, rfl, rfl, rfl, rfl,
  rfl, rfl, rfl, rfl, rfl, rfl, rfl, fun _ => rfl, fun _ => rfl, fun _ => rfl, fun _ => rfl, fun _ => rfl, fun _ => rfl,
  fun _ => rfl, fun _ => rfl, fun _ => rfl, fun _ => rfl, fun _ => rfl, fun _ => rfl, fun _ => rfl, fun _ => rfl,
  fun _ => rfl, fun _ _ => rfl, rfl, fun _ => rfl, fun _ => rfl, fun _ => rfl, fun _ => rfl, fun _ => rfl, rfl, rfl, rfl,
  rfl, rfl, rfl, rfl, rfl⟩

theorem State.setSched_sched (s : State) (k j : Nat) (v : Sched) : (s.setSched k v).sched j = if j = k then v else s.sched j := Tbl.get_set _ _ _ _ _

@[simp] theorem State.setSched_sched_same (s : State) (k : Nat) (v : Sched) : (s.setSched k v).sched k = v := Tbl.get_set_same _ _ _ _

@[simp] theorem State.modSched_frame (s : State) (k : Nat) (f : Sched → Sched) :
    (s.modSched k f).pending = s.pending ∧ (s.modSched k f).now = s.now ∧ (s.modSched k f).fresh = s.fresh ∧
    (s.modSched k f).out = s.out ∧ (s.modSched k f).regs = s.regs ∧ (s.modSched k f).latch = s.latch ∧
    (s.modSched k f).pins = s.pins ∧ (s.modSched k f).mon = s.mon ∧ (s.modSched k f).boot = s.boot ∧
    (s.modSched k f).mram = s.mram ∧ (s.modSched k f).img = s.img ∧ (s.modSched k f).her = s.her ∧
    (s.modSched k f).ep = s.ep ∧ (s.modSched k f).cont = s.cont ∧ (s.modSched k f).win = s.win ∧
    (s.modSched k f).reads = s.reads ∧ (s.modSched k f).liq = s.liq ∧ (s.modSched k f).tal = s.tal ∧
    (s.modSched k f).pwr = s.pwr ∧ (s.modSched k f).tide = s.tide ∧ (s.modSched k f).weirs = s.weirs ∧
    (s.modSched k f).qs = s.qs ∧ (s.modSched k f).ports = s.ports ∧ (s.modSched k f).profs = s.profs ∧
    (s.modSched k f).lanes = s.lanes ∧ (s.modSched k f).links = s.links ∧ (s.modSched k f).twin = s.twin ∧
    (s.modSched k f).spares = s.spares ∧ (s.modSched k f).dbg = s.dbg ∧ (s.modSched k f).log = s.log ∧
    (∀ j : Nat, (s.modSched k f).port j = s.port j) ∧ (∀ j : Nat, (s.modSched k f).prof j = s.prof j) ∧
    (∀ j : Nat, (s.modSched k f).lane j = s.lane j) ∧ (∀ j : Nat, (s.modSched k f).link j = s.link j) ∧
    (∀ j : Nat, (s.modSched k f).mb j = s.mb j) ∧ (∀ j : Nat, (s.modSched k f).fn j = s.fn j) ∧
    (∀ j : Nat, (s.modSched k f).dom j = s.dom j) ∧ (∀ j : Nat, (s.modSched k f).tally j = s.tally j) ∧
    (∀ j : Nat, (s.modSched k f).q j = s.q j) ∧ (∀ j : Nat, (s.modSched k f).slot j = s.slot j) ∧
    (∀ j : Nat, (s.modSched k f).pan j = s.pan j) ∧ (∀ j : Nat, (s.modSched k f).bed j = s.bed j) ∧
    (∀ j : Nat, (s.modSched k f).ptSt j = s.ptSt j) ∧ (∀ j : Nat, (s.modSched k f).key j = s.key j) ∧
    (∀ j : Nat, (s.modSched k f).reg j = s.reg j) ∧ (∀ i j : Nat, (s.modSched k f).latched i j = s.latched i j) ∧
    (s.modSched k f).devContained = s.devContained ∧ (∀ j : Nat, (s.modSched k f).tenantCause j = s.tenantCause j) ∧
    (∀ j : Nat, (s.modSched k f).tenantStopped j = s.tenantStopped j) ∧
    (∀ j : Nat, (s.modSched k f).portCause j = s.portCause j) ∧ (∀ j : Nat, (s.modSched k f).linkCause j = s.linkCause j) ∧
    (∀ j : Nat, (s.modSched k f).followed j = s.followed j) ∧ (s.modSched k f).served = s.served ∧
    (s.modSched k f).har.pt = s.har.pt ∧ (s.modSched k f).har.loaded = s.har.loaded ∧
    (s.modSched k f).har.ptSt = s.har.ptSt ∧ (s.modSched k f).har.routes = s.har.routes ∧
    (s.modSched k f).har.back = s.har.back ∧ (s.modSched k f).har.floodWait = s.har.floodWait ∧
    (s.modSched k f).har.busy = s.har.busy :=
  ⟨rfl, rfl, rfl, rfl, rfl, rfl, rfl, rfl, rfl, rfl, rfl, rfl, rfl, rfl, rfl, rfl, rfl, rfl, rfl, rfl, rfl, rfl, rfl,
  rfl, rfl, rfl, rfl, rfl, rfl, rfl, fun _ => rfl, fun _ => rfl, fun _ => rfl, fun _ => rfl, fun _ => rfl, fun _ => rfl,
  fun _ => rfl, fun _ => rfl, fun _ => rfl, fun _ => rfl, fun _ => rfl, fun _ => rfl, fun _ => rfl, fun _ => rfl,
  fun _ => rfl, fun _ _ => rfl, rfl, fun _ => rfl, fun _ => rfl, fun _ => rfl, fun _ => rfl, fun _ => rfl, rfl, rfl, rfl,
  rfl, rfl, rfl, rfl, rfl⟩

theorem State.modSched_sched (s : State) (k j : Nat) (f : Sched → Sched) :
    (s.modSched k f).sched j = if j = k then f (s.sched k) else s.sched j := Tbl.get_set _ _ _ _ _

@[simp] theorem State.modSched_sched_same (s : State) (k : Nat) (f : Sched → Sched) : (s.modSched k f).sched k = f (s.sched k) := Tbl.get_set_same _ _ _ _

@[simp] theorem State.setPtSt_frame (s : State) (k : Nat) (v : PtState) :
    (s.setPtSt k v).pending = s.pending ∧ (s.setPtSt k v).now = s.now ∧ (s.setPtSt k v).fresh = s.fresh ∧
    (s.setPtSt k v).out = s.out ∧ (s.setPtSt k v).regs = s.regs ∧ (s.setPtSt k v).latch = s.latch ∧
    (s.setPtSt k v).pins = s.pins ∧ (s.setPtSt k v).mon = s.mon ∧ (s.setPtSt k v).boot = s.boot ∧
    (s.setPtSt k v).mram = s.mram ∧ (s.setPtSt k v).img = s.img ∧ (s.setPtSt k v).her = s.her ∧ (s.setPtSt k v).ep = s.ep ∧
    (s.setPtSt k v).cont = s.cont ∧ (s.setPtSt k v).win = s.win ∧ (s.setPtSt k v).reads = s.reads ∧
    (s.setPtSt k v).liq = s.liq ∧ (s.setPtSt k v).tal = s.tal ∧ (s.setPtSt k v).pwr = s.pwr ∧
    (s.setPtSt k v).tide = s.tide ∧ (s.setPtSt k v).weirs = s.weirs ∧ (s.setPtSt k v).qs = s.qs ∧
    (s.setPtSt k v).ports = s.ports ∧ (s.setPtSt k v).profs = s.profs ∧ (s.setPtSt k v).lanes = s.lanes ∧
    (s.setPtSt k v).links = s.links ∧ (s.setPtSt k v).twin = s.twin ∧ (s.setPtSt k v).spares = s.spares ∧
    (s.setPtSt k v).dbg = s.dbg ∧ (s.setPtSt k v).log = s.log ∧ (∀ j : Nat, (s.setPtSt k v).port j = s.port j) ∧
    (∀ j : Nat, (s.setPtSt k v).prof j = s.prof j) ∧ (∀ j : Nat, (s.setPtSt k v).lane j = s.lane j) ∧
    (∀ j : Nat, (s.setPtSt k v).link j = s.link j) ∧ (∀ j : Nat, (s.setPtSt k v).mb j = s.mb j) ∧
    (∀ j : Nat, (s.setPtSt k v).fn j = s.fn j) ∧ (∀ j : Nat, (s.setPtSt k v).dom j = s.dom j) ∧
    (∀ j : Nat, (s.setPtSt k v).tally j = s.tally j) ∧ (∀ j : Nat, (s.setPtSt k v).q j = s.q j) ∧
    (∀ j : Nat, (s.setPtSt k v).slot j = s.slot j) ∧ (∀ j : Nat, (s.setPtSt k v).pan j = s.pan j) ∧
    (∀ j : Nat, (s.setPtSt k v).bed j = s.bed j) ∧ (∀ j : Nat, (s.setPtSt k v).sched j = s.sched j) ∧
    (∀ j : Nat, (s.setPtSt k v).key j = s.key j) ∧ (∀ j : Nat, (s.setPtSt k v).reg j = s.reg j) ∧
    (∀ i j : Nat, (s.setPtSt k v).latched i j = s.latched i j) ∧ (s.setPtSt k v).devContained = s.devContained ∧
    (∀ j : Nat, (s.setPtSt k v).tenantCause j = s.tenantCause j) ∧
    (∀ j : Nat, (s.setPtSt k v).tenantStopped j = s.tenantStopped j) ∧
    (∀ j : Nat, (s.setPtSt k v).portCause j = s.portCause j) ∧ (∀ j : Nat, (s.setPtSt k v).linkCause j = s.linkCause j) ∧
    (∀ j : Nat, (s.setPtSt k v).followed j = s.followed j) ∧ (s.setPtSt k v).served = s.served ∧
    (s.setPtSt k v).har.sched = s.har.sched ∧ (s.setPtSt k v).har.pt = s.har.pt ∧
    (s.setPtSt k v).har.loaded = s.har.loaded ∧ (s.setPtSt k v).har.routes = s.har.routes ∧
    (s.setPtSt k v).har.back = s.har.back ∧ (s.setPtSt k v).har.floodWait = s.har.floodWait ∧
    (s.setPtSt k v).har.busy = s.har.busy :=
  ⟨rfl, rfl, rfl, rfl, rfl, rfl, rfl, rfl, rfl, rfl, rfl, rfl, rfl, rfl, rfl, rfl, rfl, rfl, rfl, rfl, rfl, rfl, rfl,
  rfl, rfl, rfl, rfl, rfl, rfl, rfl, fun _ => rfl, fun _ => rfl, fun _ => rfl, fun _ => rfl, fun _ => rfl, fun _ => rfl,
  fun _ => rfl, fun _ => rfl, fun _ => rfl, fun _ => rfl, fun _ => rfl, fun _ => rfl, fun _ => rfl, fun _ => rfl,
  fun _ => rfl, fun _ _ => rfl, rfl, fun _ => rfl, fun _ => rfl, fun _ => rfl, fun _ => rfl, fun _ => rfl, rfl, rfl, rfl,
  rfl, rfl, rfl, rfl, rfl⟩

theorem State.setPtSt_ptSt (s : State) (k j : Nat) (v : PtState) : (s.setPtSt k v).ptSt j = if j = k then v else s.ptSt j := Tbl.get_set _ _ _ _ _

@[simp] theorem State.setPtSt_ptSt_same (s : State) (k : Nat) (v : PtState) : (s.setPtSt k v).ptSt k = v := Tbl.get_set_same _ _ _ _

@[simp] theorem State.modPtSt_frame (s : State) (k : Nat) (f : PtState → PtState) :
    (s.modPtSt k f).pending = s.pending ∧ (s.modPtSt k f).now = s.now ∧ (s.modPtSt k f).fresh = s.fresh ∧
    (s.modPtSt k f).out = s.out ∧ (s.modPtSt k f).regs = s.regs ∧ (s.modPtSt k f).latch = s.latch ∧
    (s.modPtSt k f).pins = s.pins ∧ (s.modPtSt k f).mon = s.mon ∧ (s.modPtSt k f).boot = s.boot ∧
    (s.modPtSt k f).mram = s.mram ∧ (s.modPtSt k f).img = s.img ∧ (s.modPtSt k f).her = s.her ∧ (s.modPtSt k f).ep = s.ep ∧
    (s.modPtSt k f).cont = s.cont ∧ (s.modPtSt k f).win = s.win ∧ (s.modPtSt k f).reads = s.reads ∧
    (s.modPtSt k f).liq = s.liq ∧ (s.modPtSt k f).tal = s.tal ∧ (s.modPtSt k f).pwr = s.pwr ∧
    (s.modPtSt k f).tide = s.tide ∧ (s.modPtSt k f).weirs = s.weirs ∧ (s.modPtSt k f).qs = s.qs ∧
    (s.modPtSt k f).ports = s.ports ∧ (s.modPtSt k f).profs = s.profs ∧ (s.modPtSt k f).lanes = s.lanes ∧
    (s.modPtSt k f).links = s.links ∧ (s.modPtSt k f).twin = s.twin ∧ (s.modPtSt k f).spares = s.spares ∧
    (s.modPtSt k f).dbg = s.dbg ∧ (s.modPtSt k f).log = s.log ∧ (∀ j : Nat, (s.modPtSt k f).port j = s.port j) ∧
    (∀ j : Nat, (s.modPtSt k f).prof j = s.prof j) ∧ (∀ j : Nat, (s.modPtSt k f).lane j = s.lane j) ∧
    (∀ j : Nat, (s.modPtSt k f).link j = s.link j) ∧ (∀ j : Nat, (s.modPtSt k f).mb j = s.mb j) ∧
    (∀ j : Nat, (s.modPtSt k f).fn j = s.fn j) ∧ (∀ j : Nat, (s.modPtSt k f).dom j = s.dom j) ∧
    (∀ j : Nat, (s.modPtSt k f).tally j = s.tally j) ∧ (∀ j : Nat, (s.modPtSt k f).q j = s.q j) ∧
    (∀ j : Nat, (s.modPtSt k f).slot j = s.slot j) ∧ (∀ j : Nat, (s.modPtSt k f).pan j = s.pan j) ∧
    (∀ j : Nat, (s.modPtSt k f).bed j = s.bed j) ∧ (∀ j : Nat, (s.modPtSt k f).sched j = s.sched j) ∧
    (∀ j : Nat, (s.modPtSt k f).key j = s.key j) ∧ (∀ j : Nat, (s.modPtSt k f).reg j = s.reg j) ∧
    (∀ i j : Nat, (s.modPtSt k f).latched i j = s.latched i j) ∧ (s.modPtSt k f).devContained = s.devContained ∧
    (∀ j : Nat, (s.modPtSt k f).tenantCause j = s.tenantCause j) ∧
    (∀ j : Nat, (s.modPtSt k f).tenantStopped j = s.tenantStopped j) ∧
    (∀ j : Nat, (s.modPtSt k f).portCause j = s.portCause j) ∧ (∀ j : Nat, (s.modPtSt k f).linkCause j = s.linkCause j) ∧
    (∀ j : Nat, (s.modPtSt k f).followed j = s.followed j) ∧ (s.modPtSt k f).served = s.served ∧
    (s.modPtSt k f).har.sched = s.har.sched ∧ (s.modPtSt k f).har.pt = s.har.pt ∧
    (s.modPtSt k f).har.loaded = s.har.loaded ∧ (s.modPtSt k f).har.routes = s.har.routes ∧
    (s.modPtSt k f).har.back = s.har.back ∧ (s.modPtSt k f).har.floodWait = s.har.floodWait ∧
    (s.modPtSt k f).har.busy = s.har.busy :=
  ⟨rfl, rfl, rfl, rfl, rfl, rfl, rfl, rfl, rfl, rfl, rfl, rfl, rfl, rfl, rfl, rfl, rfl, rfl, rfl, rfl, rfl, rfl, rfl,
  rfl, rfl, rfl, rfl, rfl, rfl, rfl, fun _ => rfl, fun _ => rfl, fun _ => rfl, fun _ => rfl, fun _ => rfl, fun _ => rfl,
  fun _ => rfl, fun _ => rfl, fun _ => rfl, fun _ => rfl, fun _ => rfl, fun _ => rfl, fun _ => rfl, fun _ => rfl,
  fun _ => rfl, fun _ _ => rfl, rfl, fun _ => rfl, fun _ => rfl, fun _ => rfl, fun _ => rfl, fun _ => rfl, rfl, rfl, rfl,
  rfl, rfl, rfl, rfl, rfl⟩

theorem State.modPtSt_ptSt (s : State) (k j : Nat) (f : PtState → PtState) :
    (s.modPtSt k f).ptSt j = if j = k then f (s.ptSt k) else s.ptSt j := Tbl.get_set _ _ _ _ _

@[simp] theorem State.modPtSt_ptSt_same (s : State) (k : Nat) (f : PtState → PtState) : (s.modPtSt k f).ptSt k = f (s.ptSt k) := Tbl.get_set_same _ _ _ _

@[simp] theorem State.setKey_frame (s : State) (k : Nat) (v : KeySlot) :
    (s.setKey k v).pending = s.pending ∧ (s.setKey k v).now = s.now ∧ (s.setKey k v).fresh = s.fresh ∧
    (s.setKey k v).out = s.out ∧ (s.setKey k v).regs = s.regs ∧ (s.setKey k v).latch = s.latch ∧
    (s.setKey k v).pins = s.pins ∧ (s.setKey k v).mon = s.mon ∧ (s.setKey k v).boot = s.boot ∧ (s.setKey k v).img = s.img ∧
    (s.setKey k v).her = s.her ∧ (s.setKey k v).ep = s.ep ∧ (s.setKey k v).cont = s.cont ∧ (s.setKey k v).win = s.win ∧
    (s.setKey k v).reads = s.reads ∧ (s.setKey k v).liq = s.liq ∧ (s.setKey k v).tal = s.tal ∧ (s.setKey k v).pwr = s.pwr ∧
    (s.setKey k v).tide = s.tide ∧ (s.setKey k v).weirs = s.weirs ∧ (s.setKey k v).qs = s.qs ∧
    (s.setKey k v).ports = s.ports ∧ (s.setKey k v).profs = s.profs ∧ (s.setKey k v).har = s.har ∧
    (s.setKey k v).lanes = s.lanes ∧ (s.setKey k v).links = s.links ∧ (s.setKey k v).twin = s.twin ∧
    (s.setKey k v).spares = s.spares ∧ (s.setKey k v).dbg = s.dbg ∧ (s.setKey k v).log = s.log ∧
    (∀ j : Nat, (s.setKey k v).port j = s.port j) ∧ (∀ j : Nat, (s.setKey k v).prof j = s.prof j) ∧
    (∀ j : Nat, (s.setKey k v).lane j = s.lane j) ∧ (∀ j : Nat, (s.setKey k v).link j = s.link j) ∧
    (∀ j : Nat, (s.setKey k v).mb j = s.mb j) ∧ (∀ j : Nat, (s.setKey k v).fn j = s.fn j) ∧
    (∀ j : Nat, (s.setKey k v).dom j = s.dom j) ∧ (∀ j : Nat, (s.setKey k v).tally j = s.tally j) ∧
    (∀ j : Nat, (s.setKey k v).q j = s.q j) ∧ (∀ j : Nat, (s.setKey k v).slot j = s.slot j) ∧
    (∀ j : Nat, (s.setKey k v).pan j = s.pan j) ∧ (∀ j : Nat, (s.setKey k v).bed j = s.bed j) ∧
    (∀ j : Nat, (s.setKey k v).sched j = s.sched j) ∧ (∀ j : Nat, (s.setKey k v).ptSt j = s.ptSt j) ∧
    (∀ j : Nat, (s.setKey k v).reg j = s.reg j) ∧ (∀ i j : Nat, (s.setKey k v).latched i j = s.latched i j) ∧
    (s.setKey k v).devContained = s.devContained ∧ (∀ j : Nat, (s.setKey k v).tenantCause j = s.tenantCause j) ∧
    (∀ j : Nat, (s.setKey k v).tenantStopped j = s.tenantStopped j) ∧
    (∀ j : Nat, (s.setKey k v).portCause j = s.portCause j) ∧ (∀ j : Nat, (s.setKey k v).linkCause j = s.linkCause j) ∧
    (∀ j : Nat, (s.setKey k v).followed j = s.followed j) ∧ (s.setKey k v).served = s.served ∧
    (s.setKey k v).mram.fwA = s.mram.fwA ∧ (s.setKey k v).mram.fwB = s.mram.fwB ∧ (s.setKey k v).mram.cfgA = s.mram.cfgA ∧
    (s.setKey k v).mram.cfgB = s.mram.cfgB ∧ (s.setKey k v).mram.boot = s.mram.boot ∧
    (s.setKey k v).mram.minSec = s.mram.minSec ∧ (s.setKey k v).mram.fuses = s.mram.fuses ∧
    (s.setKey k v).mram.erasing = s.mram.erasing ∧ (s.setKey k v).mram.panState = s.mram.panState ∧
    (s.setKey k v).mram.panPos = s.mram.panPos ∧ (s.setKey k v).mram.panPlan = s.mram.panPlan ∧
    (s.setKey k v).mram.laneFailed = s.mram.laneFailed ∧ (s.setKey k v).mram.lanePlan = s.mram.lanePlan ∧
    (s.setKey k v).mram.mramRetired = s.mram.mramRetired ∧ (s.setKey k v).mram.rowsUsed = s.mram.rowsUsed ∧
    (s.setKey k v).mram.colsUsed = s.mram.colsUsed ∧ (s.setKey k v).mram.pllHc = s.mram.pllHc ∧
    (s.setKey k v).mram.pllFb = s.mram.pllFb ∧ (s.setKey k v).mram.islandFailed = s.mram.islandFailed ∧
    (s.setKey k v).mram.refs = s.mram.refs ∧ (s.setKey k v).mram.wearAge = s.mram.wearAge ∧
    (s.setKey k v).mram.wearHistory = s.mram.wearHistory ∧ (s.setKey k v).mram.wearIsl = s.mram.wearIsl ∧
    (s.setKey k v).mram.wearPan = s.mram.wearPan ∧ (s.setKey k v).mram.mramWrites = s.mram.mramWrites :=
  ⟨rfl, rfl, rfl, rfl, rfl, rfl, rfl, rfl, rfl, rfl, rfl, rfl, rfl, rfl, rfl, rfl, rfl, rfl, rfl, rfl, rfl, rfl, rfl,
  rfl, rfl, rfl, rfl, rfl, rfl, rfl, fun _ => rfl, fun _ => rfl, fun _ => rfl, fun _ => rfl, fun _ => rfl, fun _ => rfl,
  fun _ => rfl, fun _ => rfl, fun _ => rfl, fun _ => rfl, fun _ => rfl, fun _ => rfl, fun _ => rfl, fun _ => rfl,
  fun _ => rfl, fun _ _ => rfl, rfl, fun _ => rfl, fun _ => rfl, fun _ => rfl, fun _ => rfl, fun _ => rfl, rfl, rfl, rfl,
  rfl, rfl, rfl, rfl, rfl, rfl, rfl, rfl, rfl, rfl, rfl, rfl, rfl, rfl, rfl, rfl, rfl, rfl, rfl, rfl, rfl, rfl, rfl⟩

theorem State.setKey_key (s : State) (k j : Nat) (v : KeySlot) : (s.setKey k v).key j = if j = k then v else s.key j := Tbl.get_set _ _ _ _ _

@[simp] theorem State.setKey_key_same (s : State) (k : Nat) (v : KeySlot) : (s.setKey k v).key k = v := Tbl.get_set_same _ _ _ _

@[simp] theorem State.modKey_frame (s : State) (k : Nat) (f : KeySlot → KeySlot) :
    (s.modKey k f).pending = s.pending ∧ (s.modKey k f).now = s.now ∧ (s.modKey k f).fresh = s.fresh ∧
    (s.modKey k f).out = s.out ∧ (s.modKey k f).regs = s.regs ∧ (s.modKey k f).latch = s.latch ∧
    (s.modKey k f).pins = s.pins ∧ (s.modKey k f).mon = s.mon ∧ (s.modKey k f).boot = s.boot ∧ (s.modKey k f).img = s.img ∧
    (s.modKey k f).her = s.her ∧ (s.modKey k f).ep = s.ep ∧ (s.modKey k f).cont = s.cont ∧ (s.modKey k f).win = s.win ∧
    (s.modKey k f).reads = s.reads ∧ (s.modKey k f).liq = s.liq ∧ (s.modKey k f).tal = s.tal ∧ (s.modKey k f).pwr = s.pwr ∧
    (s.modKey k f).tide = s.tide ∧ (s.modKey k f).weirs = s.weirs ∧ (s.modKey k f).qs = s.qs ∧
    (s.modKey k f).ports = s.ports ∧ (s.modKey k f).profs = s.profs ∧ (s.modKey k f).har = s.har ∧
    (s.modKey k f).lanes = s.lanes ∧ (s.modKey k f).links = s.links ∧ (s.modKey k f).twin = s.twin ∧
    (s.modKey k f).spares = s.spares ∧ (s.modKey k f).dbg = s.dbg ∧ (s.modKey k f).log = s.log ∧
    (∀ j : Nat, (s.modKey k f).port j = s.port j) ∧ (∀ j : Nat, (s.modKey k f).prof j = s.prof j) ∧
    (∀ j : Nat, (s.modKey k f).lane j = s.lane j) ∧ (∀ j : Nat, (s.modKey k f).link j = s.link j) ∧
    (∀ j : Nat, (s.modKey k f).mb j = s.mb j) ∧ (∀ j : Nat, (s.modKey k f).fn j = s.fn j) ∧
    (∀ j : Nat, (s.modKey k f).dom j = s.dom j) ∧ (∀ j : Nat, (s.modKey k f).tally j = s.tally j) ∧
    (∀ j : Nat, (s.modKey k f).q j = s.q j) ∧ (∀ j : Nat, (s.modKey k f).slot j = s.slot j) ∧
    (∀ j : Nat, (s.modKey k f).pan j = s.pan j) ∧ (∀ j : Nat, (s.modKey k f).bed j = s.bed j) ∧
    (∀ j : Nat, (s.modKey k f).sched j = s.sched j) ∧ (∀ j : Nat, (s.modKey k f).ptSt j = s.ptSt j) ∧
    (∀ j : Nat, (s.modKey k f).reg j = s.reg j) ∧ (∀ i j : Nat, (s.modKey k f).latched i j = s.latched i j) ∧
    (s.modKey k f).devContained = s.devContained ∧ (∀ j : Nat, (s.modKey k f).tenantCause j = s.tenantCause j) ∧
    (∀ j : Nat, (s.modKey k f).tenantStopped j = s.tenantStopped j) ∧
    (∀ j : Nat, (s.modKey k f).portCause j = s.portCause j) ∧ (∀ j : Nat, (s.modKey k f).linkCause j = s.linkCause j) ∧
    (∀ j : Nat, (s.modKey k f).followed j = s.followed j) ∧ (s.modKey k f).served = s.served ∧
    (s.modKey k f).mram.fwA = s.mram.fwA ∧ (s.modKey k f).mram.fwB = s.mram.fwB ∧ (s.modKey k f).mram.cfgA = s.mram.cfgA ∧
    (s.modKey k f).mram.cfgB = s.mram.cfgB ∧ (s.modKey k f).mram.boot = s.mram.boot ∧
    (s.modKey k f).mram.minSec = s.mram.minSec ∧ (s.modKey k f).mram.fuses = s.mram.fuses ∧
    (s.modKey k f).mram.erasing = s.mram.erasing ∧ (s.modKey k f).mram.panState = s.mram.panState ∧
    (s.modKey k f).mram.panPos = s.mram.panPos ∧ (s.modKey k f).mram.panPlan = s.mram.panPlan ∧
    (s.modKey k f).mram.laneFailed = s.mram.laneFailed ∧ (s.modKey k f).mram.lanePlan = s.mram.lanePlan ∧
    (s.modKey k f).mram.mramRetired = s.mram.mramRetired ∧ (s.modKey k f).mram.rowsUsed = s.mram.rowsUsed ∧
    (s.modKey k f).mram.colsUsed = s.mram.colsUsed ∧ (s.modKey k f).mram.pllHc = s.mram.pllHc ∧
    (s.modKey k f).mram.pllFb = s.mram.pllFb ∧ (s.modKey k f).mram.islandFailed = s.mram.islandFailed ∧
    (s.modKey k f).mram.refs = s.mram.refs ∧ (s.modKey k f).mram.wearAge = s.mram.wearAge ∧
    (s.modKey k f).mram.wearHistory = s.mram.wearHistory ∧ (s.modKey k f).mram.wearIsl = s.mram.wearIsl ∧
    (s.modKey k f).mram.wearPan = s.mram.wearPan ∧ (s.modKey k f).mram.mramWrites = s.mram.mramWrites :=
  ⟨rfl, rfl, rfl, rfl, rfl, rfl, rfl, rfl, rfl, rfl, rfl, rfl, rfl, rfl, rfl, rfl, rfl, rfl, rfl, rfl, rfl, rfl, rfl,
  rfl, rfl, rfl, rfl, rfl, rfl, rfl, fun _ => rfl, fun _ => rfl, fun _ => rfl, fun _ => rfl, fun _ => rfl, fun _ => rfl,
  fun _ => rfl, fun _ => rfl, fun _ => rfl, fun _ => rfl, fun _ => rfl, fun _ => rfl, fun _ => rfl, fun _ => rfl,
  fun _ => rfl, fun _ _ => rfl, rfl, fun _ => rfl, fun _ => rfl, fun _ => rfl, fun _ => rfl, fun _ => rfl, rfl, rfl, rfl,
  rfl, rfl, rfl, rfl, rfl, rfl, rfl, rfl, rfl, rfl, rfl, rfl, rfl, rfl, rfl, rfl, rfl, rfl, rfl, rfl, rfl, rfl, rfl⟩

theorem State.modKey_key (s : State) (k j : Nat) (f : KeySlot → KeySlot) :
    (s.modKey k f).key j = if j = k then f (s.key k) else s.key j := Tbl.get_set _ _ _ _ _

@[simp] theorem State.modKey_key_same (s : State) (k : Nat) (f : KeySlot → KeySlot) : (s.modKey k f).key k = f (s.key k) := Tbl.get_set_same _ _ _ _

@[simp] theorem State.modPins_frame (s : State) (f : Pins → Pins) :
    (s.modPins f).pending = s.pending ∧ (s.modPins f).now = s.now ∧ (s.modPins f).fresh = s.fresh ∧
    (s.modPins f).out = s.out ∧ (s.modPins f).regs = s.regs ∧ (s.modPins f).latch = s.latch ∧ (s.modPins f).mon = s.mon ∧
    (s.modPins f).boot = s.boot ∧ (s.modPins f).mram = s.mram ∧ (s.modPins f).img = s.img ∧ (s.modPins f).her = s.her ∧
    (s.modPins f).ep = s.ep ∧ (s.modPins f).cont = s.cont ∧ (s.modPins f).win = s.win ∧ (s.modPins f).reads = s.reads ∧
    (s.modPins f).liq = s.liq ∧ (s.modPins f).tal = s.tal ∧ (s.modPins f).pwr = s.pwr ∧ (s.modPins f).tide = s.tide ∧
    (s.modPins f).weirs = s.weirs ∧ (s.modPins f).qs = s.qs ∧ (s.modPins f).ports = s.ports ∧
    (s.modPins f).profs = s.profs ∧ (s.modPins f).har = s.har ∧ (s.modPins f).lanes = s.lanes ∧
    (s.modPins f).links = s.links ∧ (s.modPins f).twin = s.twin ∧ (s.modPins f).spares = s.spares ∧
    (s.modPins f).dbg = s.dbg ∧ (s.modPins f).log = s.log ∧ (∀ j : Nat, (s.modPins f).port j = s.port j) ∧
    (∀ j : Nat, (s.modPins f).prof j = s.prof j) ∧ (∀ j : Nat, (s.modPins f).lane j = s.lane j) ∧
    (∀ j : Nat, (s.modPins f).link j = s.link j) ∧ (∀ j : Nat, (s.modPins f).mb j = s.mb j) ∧
    (∀ j : Nat, (s.modPins f).fn j = s.fn j) ∧ (∀ j : Nat, (s.modPins f).dom j = s.dom j) ∧
    (∀ j : Nat, (s.modPins f).tally j = s.tally j) ∧ (∀ j : Nat, (s.modPins f).q j = s.q j) ∧
    (∀ j : Nat, (s.modPins f).slot j = s.slot j) ∧ (∀ j : Nat, (s.modPins f).pan j = s.pan j) ∧
    (∀ j : Nat, (s.modPins f).bed j = s.bed j) ∧ (∀ j : Nat, (s.modPins f).sched j = s.sched j) ∧
    (∀ j : Nat, (s.modPins f).ptSt j = s.ptSt j) ∧ (∀ j : Nat, (s.modPins f).key j = s.key j) ∧
    (∀ j : Nat, (s.modPins f).reg j = s.reg j) ∧ (∀ i j : Nat, (s.modPins f).latched i j = s.latched i j) ∧
    (s.modPins f).devContained = s.devContained ∧ (∀ j : Nat, (s.modPins f).tenantCause j = s.tenantCause j) ∧
    (∀ j : Nat, (s.modPins f).tenantStopped j = s.tenantStopped j) ∧
    (∀ j : Nat, (s.modPins f).portCause j = s.portCause j) ∧ (∀ j : Nat, (s.modPins f).linkCause j = s.linkCause j) ∧
    (∀ j : Nat, (s.modPins f).followed j = s.followed j) ∧ (s.modPins f).served = s.served :=
  ⟨rfl, rfl, rfl, rfl, rfl, rfl, rfl, rfl, rfl, rfl, rfl, rfl, rfl, rfl, rfl, rfl, rfl, rfl, rfl, rfl, rfl, rfl, rfl,
  rfl, rfl, rfl, rfl, rfl, rfl, rfl, fun _ => rfl, fun _ => rfl, fun _ => rfl, fun _ => rfl, fun _ => rfl, fun _ => rfl,
  fun _ => rfl, fun _ => rfl, fun _ => rfl, fun _ => rfl, fun _ => rfl, fun _ => rfl, fun _ => rfl, fun _ => rfl,
  fun _ => rfl, fun _ => rfl, fun _ _ => rfl, rfl, fun _ => rfl, fun _ => rfl, fun _ => rfl, fun _ => rfl, fun _ => rfl,
  rfl⟩

@[simp] theorem State.modPins_pins (s : State) (f : Pins → Pins) : (s.modPins f).pins = f s.pins := rfl

@[simp] theorem State.modMon_frame (s : State) (f : Monitors → Monitors) :
    (s.modMon f).pending = s.pending ∧ (s.modMon f).now = s.now ∧ (s.modMon f).fresh = s.fresh ∧ (s.modMon f).out = s.out ∧
    (s.modMon f).regs = s.regs ∧ (s.modMon f).latch = s.latch ∧ (s.modMon f).pins = s.pins ∧ (s.modMon f).boot = s.boot ∧
    (s.modMon f).mram = s.mram ∧ (s.modMon f).img = s.img ∧ (s.modMon f).her = s.her ∧ (s.modMon f).ep = s.ep ∧
    (s.modMon f).cont = s.cont ∧ (s.modMon f).win = s.win ∧ (s.modMon f).reads = s.reads ∧ (s.modMon f).liq = s.liq ∧
    (s.modMon f).tal = s.tal ∧ (s.modMon f).pwr = s.pwr ∧ (s.modMon f).tide = s.tide ∧ (s.modMon f).weirs = s.weirs ∧
    (s.modMon f).qs = s.qs ∧ (s.modMon f).ports = s.ports ∧ (s.modMon f).profs = s.profs ∧ (s.modMon f).har = s.har ∧
    (s.modMon f).lanes = s.lanes ∧ (s.modMon f).links = s.links ∧ (s.modMon f).twin = s.twin ∧
    (s.modMon f).spares = s.spares ∧ (s.modMon f).dbg = s.dbg ∧ (s.modMon f).log = s.log ∧
    (∀ j : Nat, (s.modMon f).port j = s.port j) ∧ (∀ j : Nat, (s.modMon f).prof j = s.prof j) ∧
    (∀ j : Nat, (s.modMon f).lane j = s.lane j) ∧ (∀ j : Nat, (s.modMon f).link j = s.link j) ∧
    (∀ j : Nat, (s.modMon f).mb j = s.mb j) ∧ (∀ j : Nat, (s.modMon f).fn j = s.fn j) ∧
    (∀ j : Nat, (s.modMon f).dom j = s.dom j) ∧ (∀ j : Nat, (s.modMon f).tally j = s.tally j) ∧
    (∀ j : Nat, (s.modMon f).q j = s.q j) ∧ (∀ j : Nat, (s.modMon f).slot j = s.slot j) ∧
    (∀ j : Nat, (s.modMon f).pan j = s.pan j) ∧ (∀ j : Nat, (s.modMon f).bed j = s.bed j) ∧
    (∀ j : Nat, (s.modMon f).sched j = s.sched j) ∧ (∀ j : Nat, (s.modMon f).ptSt j = s.ptSt j) ∧
    (∀ j : Nat, (s.modMon f).key j = s.key j) ∧ (∀ j : Nat, (s.modMon f).reg j = s.reg j) ∧
    (∀ i j : Nat, (s.modMon f).latched i j = s.latched i j) ∧ (s.modMon f).devContained = s.devContained ∧
    (∀ j : Nat, (s.modMon f).tenantCause j = s.tenantCause j) ∧
    (∀ j : Nat, (s.modMon f).tenantStopped j = s.tenantStopped j) ∧ (∀ j : Nat, (s.modMon f).portCause j = s.portCause j) ∧
    (∀ j : Nat, (s.modMon f).linkCause j = s.linkCause j) ∧ (∀ j : Nat, (s.modMon f).followed j = s.followed j) ∧
    (s.modMon f).served = s.served :=
  ⟨rfl, rfl, rfl, rfl, rfl, rfl, rfl, rfl, rfl, rfl, rfl, rfl, rfl, rfl, rfl, rfl, rfl, rfl, rfl, rfl, rfl, rfl, rfl,
  rfl, rfl, rfl, rfl, rfl, rfl, rfl, fun _ => rfl, fun _ => rfl, fun _ => rfl, fun _ => rfl, fun _ => rfl, fun _ => rfl,
  fun _ => rfl, fun _ => rfl, fun _ => rfl, fun _ => rfl, fun _ => rfl, fun _ => rfl, fun _ => rfl, fun _ => rfl,
  fun _ => rfl, fun _ => rfl, fun _ _ => rfl, rfl, fun _ => rfl, fun _ => rfl, fun _ => rfl, fun _ => rfl, fun _ => rfl,
  rfl⟩

@[simp] theorem State.modMon_mon (s : State) (f : Monitors → Monitors) : (s.modMon f).mon = f s.mon := rfl

@[simp] theorem State.modBoot_frame (s : State) (f : Boot → Boot) :
    (s.modBoot f).pending = s.pending ∧ (s.modBoot f).now = s.now ∧ (s.modBoot f).fresh = s.fresh ∧
    (s.modBoot f).out = s.out ∧ (s.modBoot f).regs = s.regs ∧ (s.modBoot f).latch = s.latch ∧ (s.modBoot f).pins = s.pins ∧
    (s.modBoot f).mon = s.mon ∧ (s.modBoot f).mram = s.mram ∧ (s.modBoot f).img = s.img ∧ (s.modBoot f).her = s.her ∧
    (s.modBoot f).ep = s.ep ∧ (s.modBoot f).cont = s.cont ∧ (s.modBoot f).win = s.win ∧ (s.modBoot f).reads = s.reads ∧
    (s.modBoot f).liq = s.liq ∧ (s.modBoot f).tal = s.tal ∧ (s.modBoot f).pwr = s.pwr ∧ (s.modBoot f).tide = s.tide ∧
    (s.modBoot f).weirs = s.weirs ∧ (s.modBoot f).qs = s.qs ∧ (s.modBoot f).ports = s.ports ∧
    (s.modBoot f).profs = s.profs ∧ (s.modBoot f).har = s.har ∧ (s.modBoot f).lanes = s.lanes ∧
    (s.modBoot f).links = s.links ∧ (s.modBoot f).twin = s.twin ∧ (s.modBoot f).spares = s.spares ∧
    (s.modBoot f).dbg = s.dbg ∧ (s.modBoot f).log = s.log ∧ (∀ j : Nat, (s.modBoot f).port j = s.port j) ∧
    (∀ j : Nat, (s.modBoot f).prof j = s.prof j) ∧ (∀ j : Nat, (s.modBoot f).lane j = s.lane j) ∧
    (∀ j : Nat, (s.modBoot f).link j = s.link j) ∧ (∀ j : Nat, (s.modBoot f).mb j = s.mb j) ∧
    (∀ j : Nat, (s.modBoot f).fn j = s.fn j) ∧ (∀ j : Nat, (s.modBoot f).dom j = s.dom j) ∧
    (∀ j : Nat, (s.modBoot f).tally j = s.tally j) ∧ (∀ j : Nat, (s.modBoot f).q j = s.q j) ∧
    (∀ j : Nat, (s.modBoot f).slot j = s.slot j) ∧ (∀ j : Nat, (s.modBoot f).pan j = s.pan j) ∧
    (∀ j : Nat, (s.modBoot f).bed j = s.bed j) ∧ (∀ j : Nat, (s.modBoot f).sched j = s.sched j) ∧
    (∀ j : Nat, (s.modBoot f).ptSt j = s.ptSt j) ∧ (∀ j : Nat, (s.modBoot f).key j = s.key j) ∧
    (∀ j : Nat, (s.modBoot f).reg j = s.reg j) ∧ (∀ i j : Nat, (s.modBoot f).latched i j = s.latched i j) ∧
    (s.modBoot f).devContained = s.devContained ∧ (∀ j : Nat, (s.modBoot f).tenantCause j = s.tenantCause j) ∧
    (∀ j : Nat, (s.modBoot f).tenantStopped j = s.tenantStopped j) ∧
    (∀ j : Nat, (s.modBoot f).portCause j = s.portCause j) ∧ (∀ j : Nat, (s.modBoot f).linkCause j = s.linkCause j) ∧
    (∀ j : Nat, (s.modBoot f).followed j = s.followed j) :=
  ⟨rfl, rfl, rfl, rfl, rfl, rfl, rfl, rfl, rfl, rfl, rfl, rfl, rfl, rfl, rfl, rfl, rfl, rfl, rfl, rfl, rfl, rfl, rfl,
  rfl, rfl, rfl, rfl, rfl, rfl, rfl, fun _ => rfl, fun _ => rfl, fun _ => rfl, fun _ => rfl, fun _ => rfl, fun _ => rfl,
  fun _ => rfl, fun _ => rfl, fun _ => rfl, fun _ => rfl, fun _ => rfl, fun _ => rfl, fun _ => rfl, fun _ => rfl,
  fun _ => rfl, fun _ => rfl, fun _ _ => rfl, rfl, fun _ => rfl, fun _ => rfl, fun _ => rfl, fun _ => rfl, fun _ => rfl⟩

@[simp] theorem State.modBoot_boot (s : State) (f : Boot → Boot) : (s.modBoot f).boot = f s.boot := rfl

@[simp] theorem State.modMram_frame (s : State) (f : Mram → Mram) :
    (s.modMram f).pending = s.pending ∧ (s.modMram f).now = s.now ∧ (s.modMram f).fresh = s.fresh ∧
    (s.modMram f).out = s.out ∧ (s.modMram f).regs = s.regs ∧ (s.modMram f).latch = s.latch ∧ (s.modMram f).pins = s.pins ∧
    (s.modMram f).mon = s.mon ∧ (s.modMram f).boot = s.boot ∧ (s.modMram f).img = s.img ∧ (s.modMram f).her = s.her ∧
    (s.modMram f).ep = s.ep ∧ (s.modMram f).cont = s.cont ∧ (s.modMram f).win = s.win ∧ (s.modMram f).reads = s.reads ∧
    (s.modMram f).liq = s.liq ∧ (s.modMram f).tal = s.tal ∧ (s.modMram f).pwr = s.pwr ∧ (s.modMram f).tide = s.tide ∧
    (s.modMram f).weirs = s.weirs ∧ (s.modMram f).qs = s.qs ∧ (s.modMram f).ports = s.ports ∧
    (s.modMram f).profs = s.profs ∧ (s.modMram f).har = s.har ∧ (s.modMram f).lanes = s.lanes ∧
    (s.modMram f).links = s.links ∧ (s.modMram f).twin = s.twin ∧ (s.modMram f).spares = s.spares ∧
    (s.modMram f).dbg = s.dbg ∧ (s.modMram f).log = s.log ∧ (∀ j : Nat, (s.modMram f).port j = s.port j) ∧
    (∀ j : Nat, (s.modMram f).prof j = s.prof j) ∧ (∀ j : Nat, (s.modMram f).lane j = s.lane j) ∧
    (∀ j : Nat, (s.modMram f).link j = s.link j) ∧ (∀ j : Nat, (s.modMram f).mb j = s.mb j) ∧
    (∀ j : Nat, (s.modMram f).fn j = s.fn j) ∧ (∀ j : Nat, (s.modMram f).dom j = s.dom j) ∧
    (∀ j : Nat, (s.modMram f).tally j = s.tally j) ∧ (∀ j : Nat, (s.modMram f).q j = s.q j) ∧
    (∀ j : Nat, (s.modMram f).slot j = s.slot j) ∧ (∀ j : Nat, (s.modMram f).pan j = s.pan j) ∧
    (∀ j : Nat, (s.modMram f).bed j = s.bed j) ∧ (∀ j : Nat, (s.modMram f).sched j = s.sched j) ∧
    (∀ j : Nat, (s.modMram f).ptSt j = s.ptSt j) ∧ (∀ j : Nat, (s.modMram f).reg j = s.reg j) ∧
    (∀ i j : Nat, (s.modMram f).latched i j = s.latched i j) ∧ (s.modMram f).devContained = s.devContained ∧
    (∀ j : Nat, (s.modMram f).tenantCause j = s.tenantCause j) ∧
    (∀ j : Nat, (s.modMram f).tenantStopped j = s.tenantStopped j) ∧
    (∀ j : Nat, (s.modMram f).portCause j = s.portCause j) ∧ (∀ j : Nat, (s.modMram f).linkCause j = s.linkCause j) ∧
    (∀ j : Nat, (s.modMram f).followed j = s.followed j) ∧ (s.modMram f).served = s.served :=
  ⟨rfl, rfl, rfl, rfl, rfl, rfl, rfl, rfl, rfl, rfl, rfl, rfl, rfl, rfl, rfl, rfl, rfl, rfl, rfl, rfl, rfl, rfl, rfl,
  rfl, rfl, rfl, rfl, rfl, rfl, rfl, fun _ => rfl, fun _ => rfl, fun _ => rfl, fun _ => rfl, fun _ => rfl, fun _ => rfl,
  fun _ => rfl, fun _ => rfl, fun _ => rfl, fun _ => rfl, fun _ => rfl, fun _ => rfl, fun _ => rfl, fun _ => rfl,
  fun _ => rfl, fun _ _ => rfl, rfl, fun _ => rfl, fun _ => rfl, fun _ => rfl, fun _ => rfl, fun _ => rfl, rfl⟩

@[simp] theorem State.modMram_mram (s : State) (f : Mram → Mram) : (s.modMram f).mram = f s.mram := rfl

@[simp] theorem State.modHer_frame (s : State) (f : Herdin → Herdin) :
    (s.modHer f).pending = s.pending ∧ (s.modHer f).now = s.now ∧ (s.modHer f).fresh = s.fresh ∧ (s.modHer f).out = s.out ∧
    (s.modHer f).regs = s.regs ∧ (s.modHer f).latch = s.latch ∧ (s.modHer f).pins = s.pins ∧ (s.modHer f).mon = s.mon ∧
    (s.modHer f).boot = s.boot ∧ (s.modHer f).mram = s.mram ∧ (s.modHer f).img = s.img ∧ (s.modHer f).ep = s.ep ∧
    (s.modHer f).cont = s.cont ∧ (s.modHer f).win = s.win ∧ (s.modHer f).reads = s.reads ∧ (s.modHer f).liq = s.liq ∧
    (s.modHer f).tal = s.tal ∧ (s.modHer f).pwr = s.pwr ∧ (s.modHer f).tide = s.tide ∧ (s.modHer f).weirs = s.weirs ∧
    (s.modHer f).qs = s.qs ∧ (s.modHer f).ports = s.ports ∧ (s.modHer f).profs = s.profs ∧ (s.modHer f).har = s.har ∧
    (s.modHer f).lanes = s.lanes ∧ (s.modHer f).links = s.links ∧ (s.modHer f).twin = s.twin ∧
    (s.modHer f).spares = s.spares ∧ (s.modHer f).dbg = s.dbg ∧ (s.modHer f).log = s.log ∧
    (∀ j : Nat, (s.modHer f).port j = s.port j) ∧ (∀ j : Nat, (s.modHer f).prof j = s.prof j) ∧
    (∀ j : Nat, (s.modHer f).lane j = s.lane j) ∧ (∀ j : Nat, (s.modHer f).link j = s.link j) ∧
    (∀ j : Nat, (s.modHer f).fn j = s.fn j) ∧ (∀ j : Nat, (s.modHer f).dom j = s.dom j) ∧
    (∀ j : Nat, (s.modHer f).tally j = s.tally j) ∧ (∀ j : Nat, (s.modHer f).q j = s.q j) ∧
    (∀ j : Nat, (s.modHer f).slot j = s.slot j) ∧ (∀ j : Nat, (s.modHer f).pan j = s.pan j) ∧
    (∀ j : Nat, (s.modHer f).bed j = s.bed j) ∧ (∀ j : Nat, (s.modHer f).sched j = s.sched j) ∧
    (∀ j : Nat, (s.modHer f).ptSt j = s.ptSt j) ∧ (∀ j : Nat, (s.modHer f).key j = s.key j) ∧
    (∀ j : Nat, (s.modHer f).reg j = s.reg j) ∧ (∀ i j : Nat, (s.modHer f).latched i j = s.latched i j) ∧
    (s.modHer f).devContained = s.devContained ∧ (∀ j : Nat, (s.modHer f).tenantCause j = s.tenantCause j) ∧
    (∀ j : Nat, (s.modHer f).tenantStopped j = s.tenantStopped j) ∧ (∀ j : Nat, (s.modHer f).portCause j = s.portCause j) ∧
    (∀ j : Nat, (s.modHer f).linkCause j = s.linkCause j) ∧ (∀ j : Nat, (s.modHer f).followed j = s.followed j) ∧
    (s.modHer f).served = s.served :=
  ⟨rfl, rfl, rfl, rfl, rfl, rfl, rfl, rfl, rfl, rfl, rfl, rfl, rfl, rfl, rfl, rfl, rfl, rfl, rfl, rfl, rfl, rfl, rfl,
  rfl, rfl, rfl, rfl, rfl, rfl, rfl, fun _ => rfl, fun _ => rfl, fun _ => rfl, fun _ => rfl, fun _ => rfl, fun _ => rfl,
  fun _ => rfl, fun _ => rfl, fun _ => rfl, fun _ => rfl, fun _ => rfl, fun _ => rfl, fun _ => rfl, fun _ => rfl,
  fun _ => rfl, fun _ _ => rfl, rfl, fun _ => rfl, fun _ => rfl, fun _ => rfl, fun _ => rfl, fun _ => rfl, rfl⟩

@[simp] theorem State.modHer_her (s : State) (f : Herdin → Herdin) : (s.modHer f).her = f s.her := rfl

@[simp] theorem State.modEp_frame (s : State) (f : Endpoint → Endpoint) :
    (s.modEp f).pending = s.pending ∧ (s.modEp f).now = s.now ∧ (s.modEp f).fresh = s.fresh ∧ (s.modEp f).out = s.out ∧
    (s.modEp f).regs = s.regs ∧ (s.modEp f).latch = s.latch ∧ (s.modEp f).pins = s.pins ∧ (s.modEp f).mon = s.mon ∧
    (s.modEp f).boot = s.boot ∧ (s.modEp f).mram = s.mram ∧ (s.modEp f).img = s.img ∧ (s.modEp f).her = s.her ∧
    (s.modEp f).cont = s.cont ∧ (s.modEp f).win = s.win ∧ (s.modEp f).reads = s.reads ∧ (s.modEp f).liq = s.liq ∧
    (s.modEp f).tal = s.tal ∧ (s.modEp f).pwr = s.pwr ∧ (s.modEp f).tide = s.tide ∧ (s.modEp f).weirs = s.weirs ∧
    (s.modEp f).qs = s.qs ∧ (s.modEp f).ports = s.ports ∧ (s.modEp f).profs = s.profs ∧ (s.modEp f).har = s.har ∧
    (s.modEp f).lanes = s.lanes ∧ (s.modEp f).links = s.links ∧ (s.modEp f).twin = s.twin ∧ (s.modEp f).spares = s.spares ∧
    (s.modEp f).dbg = s.dbg ∧ (s.modEp f).log = s.log ∧ (∀ j : Nat, (s.modEp f).port j = s.port j) ∧
    (∀ j : Nat, (s.modEp f).prof j = s.prof j) ∧ (∀ j : Nat, (s.modEp f).lane j = s.lane j) ∧
    (∀ j : Nat, (s.modEp f).link j = s.link j) ∧ (∀ j : Nat, (s.modEp f).mb j = s.mb j) ∧
    (∀ j : Nat, (s.modEp f).dom j = s.dom j) ∧ (∀ j : Nat, (s.modEp f).tally j = s.tally j) ∧
    (∀ j : Nat, (s.modEp f).q j = s.q j) ∧ (∀ j : Nat, (s.modEp f).slot j = s.slot j) ∧
    (∀ j : Nat, (s.modEp f).pan j = s.pan j) ∧ (∀ j : Nat, (s.modEp f).bed j = s.bed j) ∧
    (∀ j : Nat, (s.modEp f).sched j = s.sched j) ∧ (∀ j : Nat, (s.modEp f).ptSt j = s.ptSt j) ∧
    (∀ j : Nat, (s.modEp f).key j = s.key j) ∧ (∀ j : Nat, (s.modEp f).reg j = s.reg j) ∧
    (∀ i j : Nat, (s.modEp f).latched i j = s.latched i j) ∧ (s.modEp f).devContained = s.devContained ∧
    (∀ j : Nat, (s.modEp f).tenantCause j = s.tenantCause j) ∧
    (∀ j : Nat, (s.modEp f).tenantStopped j = s.tenantStopped j) ∧ (∀ j : Nat, (s.modEp f).portCause j = s.portCause j) ∧
    (∀ j : Nat, (s.modEp f).linkCause j = s.linkCause j) ∧ (∀ j : Nat, (s.modEp f).followed j = s.followed j) ∧
    (s.modEp f).served = s.served :=
  ⟨rfl, rfl, rfl, rfl, rfl, rfl, rfl, rfl, rfl, rfl, rfl, rfl, rfl, rfl, rfl, rfl, rfl, rfl, rfl, rfl, rfl, rfl, rfl,
  rfl, rfl, rfl, rfl, rfl, rfl, rfl, fun _ => rfl, fun _ => rfl, fun _ => rfl, fun _ => rfl, fun _ => rfl, fun _ => rfl,
  fun _ => rfl, fun _ => rfl, fun _ => rfl, fun _ => rfl, fun _ => rfl, fun _ => rfl, fun _ => rfl, fun _ => rfl,
  fun _ => rfl, fun _ _ => rfl, rfl, fun _ => rfl, fun _ => rfl, fun _ => rfl, fun _ => rfl, fun _ => rfl, rfl⟩

@[simp] theorem State.modEp_ep (s : State) (f : Endpoint → Endpoint) : (s.modEp f).ep = f s.ep := rfl

@[simp] theorem State.modCont_frame (s : State) (f : Contain → Contain) :
    (s.modCont f).pending = s.pending ∧ (s.modCont f).now = s.now ∧ (s.modCont f).fresh = s.fresh ∧
    (s.modCont f).out = s.out ∧ (s.modCont f).regs = s.regs ∧ (s.modCont f).latch = s.latch ∧ (s.modCont f).pins = s.pins ∧
    (s.modCont f).mon = s.mon ∧ (s.modCont f).boot = s.boot ∧ (s.modCont f).mram = s.mram ∧ (s.modCont f).img = s.img ∧
    (s.modCont f).her = s.her ∧ (s.modCont f).ep = s.ep ∧ (s.modCont f).win = s.win ∧ (s.modCont f).reads = s.reads ∧
    (s.modCont f).liq = s.liq ∧ (s.modCont f).tal = s.tal ∧ (s.modCont f).pwr = s.pwr ∧ (s.modCont f).tide = s.tide ∧
    (s.modCont f).weirs = s.weirs ∧ (s.modCont f).qs = s.qs ∧ (s.modCont f).ports = s.ports ∧
    (s.modCont f).profs = s.profs ∧ (s.modCont f).har = s.har ∧ (s.modCont f).lanes = s.lanes ∧
    (s.modCont f).links = s.links ∧ (s.modCont f).twin = s.twin ∧ (s.modCont f).spares = s.spares ∧
    (s.modCont f).dbg = s.dbg ∧ (s.modCont f).log = s.log ∧ (∀ j : Nat, (s.modCont f).port j = s.port j) ∧
    (∀ j : Nat, (s.modCont f).prof j = s.prof j) ∧ (∀ j : Nat, (s.modCont f).lane j = s.lane j) ∧
    (∀ j : Nat, (s.modCont f).link j = s.link j) ∧ (∀ j : Nat, (s.modCont f).mb j = s.mb j) ∧
    (∀ j : Nat, (s.modCont f).fn j = s.fn j) ∧ (∀ j : Nat, (s.modCont f).dom j = s.dom j) ∧
    (∀ j : Nat, (s.modCont f).tally j = s.tally j) ∧ (∀ j : Nat, (s.modCont f).q j = s.q j) ∧
    (∀ j : Nat, (s.modCont f).slot j = s.slot j) ∧ (∀ j : Nat, (s.modCont f).pan j = s.pan j) ∧
    (∀ j : Nat, (s.modCont f).bed j = s.bed j) ∧ (∀ j : Nat, (s.modCont f).sched j = s.sched j) ∧
    (∀ j : Nat, (s.modCont f).ptSt j = s.ptSt j) ∧ (∀ j : Nat, (s.modCont f).key j = s.key j) ∧
    (∀ j : Nat, (s.modCont f).reg j = s.reg j) ∧ (∀ i j : Nat, (s.modCont f).latched i j = s.latched i j) ∧
    (∀ j : Nat, (s.modCont f).followed j = s.followed j) ∧ (s.modCont f).served = s.served :=
  ⟨rfl, rfl, rfl, rfl, rfl, rfl, rfl, rfl, rfl, rfl, rfl, rfl, rfl, rfl, rfl, rfl, rfl, rfl, rfl, rfl, rfl, rfl, rfl,
  rfl, rfl, rfl, rfl, rfl, rfl, rfl, fun _ => rfl, fun _ => rfl, fun _ => rfl, fun _ => rfl, fun _ => rfl, fun _ => rfl,
  fun _ => rfl, fun _ => rfl, fun _ => rfl, fun _ => rfl, fun _ => rfl, fun _ => rfl, fun _ => rfl, fun _ => rfl,
  fun _ => rfl, fun _ => rfl, fun _ _ => rfl, fun _ => rfl, rfl⟩

@[simp] theorem State.modCont_cont (s : State) (f : Contain → Contain) : (s.modCont f).cont = f s.cont := rfl

@[simp] theorem State.modWin_frame (s : State) (f : Windows → Windows) :
    (s.modWin f).pending = s.pending ∧ (s.modWin f).now = s.now ∧ (s.modWin f).fresh = s.fresh ∧ (s.modWin f).out = s.out ∧
    (s.modWin f).regs = s.regs ∧ (s.modWin f).latch = s.latch ∧ (s.modWin f).pins = s.pins ∧ (s.modWin f).mon = s.mon ∧
    (s.modWin f).boot = s.boot ∧ (s.modWin f).mram = s.mram ∧ (s.modWin f).img = s.img ∧ (s.modWin f).her = s.her ∧
    (s.modWin f).ep = s.ep ∧ (s.modWin f).cont = s.cont ∧ (s.modWin f).reads = s.reads ∧ (s.modWin f).liq = s.liq ∧
    (s.modWin f).tal = s.tal ∧ (s.modWin f).pwr = s.pwr ∧ (s.modWin f).tide = s.tide ∧ (s.modWin f).weirs = s.weirs ∧
    (s.modWin f).qs = s.qs ∧ (s.modWin f).ports = s.ports ∧ (s.modWin f).profs = s.profs ∧ (s.modWin f).har = s.har ∧
    (s.modWin f).lanes = s.lanes ∧ (s.modWin f).links = s.links ∧ (s.modWin f).twin = s.twin ∧
    (s.modWin f).spares = s.spares ∧ (s.modWin f).dbg = s.dbg ∧ (s.modWin f).log = s.log ∧
    (∀ j : Nat, (s.modWin f).port j = s.port j) ∧ (∀ j : Nat, (s.modWin f).prof j = s.prof j) ∧
    (∀ j : Nat, (s.modWin f).lane j = s.lane j) ∧ (∀ j : Nat, (s.modWin f).link j = s.link j) ∧
    (∀ j : Nat, (s.modWin f).mb j = s.mb j) ∧ (∀ j : Nat, (s.modWin f).fn j = s.fn j) ∧
    (∀ j : Nat, (s.modWin f).dom j = s.dom j) ∧ (∀ j : Nat, (s.modWin f).tally j = s.tally j) ∧
    (∀ j : Nat, (s.modWin f).q j = s.q j) ∧ (∀ j : Nat, (s.modWin f).slot j = s.slot j) ∧
    (∀ j : Nat, (s.modWin f).pan j = s.pan j) ∧ (∀ j : Nat, (s.modWin f).bed j = s.bed j) ∧
    (∀ j : Nat, (s.modWin f).sched j = s.sched j) ∧ (∀ j : Nat, (s.modWin f).ptSt j = s.ptSt j) ∧
    (∀ j : Nat, (s.modWin f).key j = s.key j) ∧ (∀ j : Nat, (s.modWin f).reg j = s.reg j) ∧
    (∀ i j : Nat, (s.modWin f).latched i j = s.latched i j) ∧ (s.modWin f).devContained = s.devContained ∧
    (∀ j : Nat, (s.modWin f).tenantCause j = s.tenantCause j) ∧
    (∀ j : Nat, (s.modWin f).tenantStopped j = s.tenantStopped j) ∧ (∀ j : Nat, (s.modWin f).portCause j = s.portCause j) ∧
    (∀ j : Nat, (s.modWin f).linkCause j = s.linkCause j) ∧ (∀ j : Nat, (s.modWin f).followed j = s.followed j) ∧
    (s.modWin f).served = s.served :=
  ⟨rfl, rfl, rfl, rfl, rfl, rfl, rfl, rfl, rfl, rfl, rfl, rfl, rfl, rfl, rfl, rfl, rfl, rfl, rfl, rfl, rfl, rfl, rfl,
  rfl, rfl, rfl, rfl, rfl, rfl, rfl, fun _ => rfl, fun _ => rfl, fun _ => rfl, fun _ => rfl, fun _ => rfl, fun _ => rfl,
  fun _ => rfl, fun _ => rfl, fun _ => rfl, fun _ => rfl, fun _ => rfl, fun _ => rfl, fun _ => rfl, fun _ => rfl,
  fun _ => rfl, fun _ => rfl, fun _ _ => rfl, rfl, fun _ => rfl, fun _ => rfl, fun _ => rfl, fun _ => rfl, fun _ => rfl,
  rfl⟩

@[simp] theorem State.modWin_win (s : State) (f : Windows → Windows) : (s.modWin f).win = f s.win := rfl

@[simp] theorem State.modLiq_frame (s : State) (f : Liquor → Liquor) :
    (s.modLiq f).pending = s.pending ∧ (s.modLiq f).now = s.now ∧ (s.modLiq f).fresh = s.fresh ∧ (s.modLiq f).out = s.out ∧
    (s.modLiq f).regs = s.regs ∧ (s.modLiq f).latch = s.latch ∧ (s.modLiq f).pins = s.pins ∧ (s.modLiq f).mon = s.mon ∧
    (s.modLiq f).boot = s.boot ∧ (s.modLiq f).mram = s.mram ∧ (s.modLiq f).img = s.img ∧ (s.modLiq f).her = s.her ∧
    (s.modLiq f).ep = s.ep ∧ (s.modLiq f).cont = s.cont ∧ (s.modLiq f).win = s.win ∧ (s.modLiq f).reads = s.reads ∧
    (s.modLiq f).tal = s.tal ∧ (s.modLiq f).pwr = s.pwr ∧ (s.modLiq f).tide = s.tide ∧ (s.modLiq f).weirs = s.weirs ∧
    (s.modLiq f).qs = s.qs ∧ (s.modLiq f).ports = s.ports ∧ (s.modLiq f).profs = s.profs ∧ (s.modLiq f).har = s.har ∧
    (s.modLiq f).lanes = s.lanes ∧ (s.modLiq f).links = s.links ∧ (s.modLiq f).twin = s.twin ∧
    (s.modLiq f).spares = s.spares ∧ (s.modLiq f).dbg = s.dbg ∧ (s.modLiq f).log = s.log ∧
    (∀ j : Nat, (s.modLiq f).port j = s.port j) ∧ (∀ j : Nat, (s.modLiq f).prof j = s.prof j) ∧
    (∀ j : Nat, (s.modLiq f).lane j = s.lane j) ∧ (∀ j : Nat, (s.modLiq f).link j = s.link j) ∧
    (∀ j : Nat, (s.modLiq f).mb j = s.mb j) ∧ (∀ j : Nat, (s.modLiq f).fn j = s.fn j) ∧
    (∀ j : Nat, (s.modLiq f).dom j = s.dom j) ∧ (∀ j : Nat, (s.modLiq f).tally j = s.tally j) ∧
    (∀ j : Nat, (s.modLiq f).q j = s.q j) ∧ (∀ j : Nat, (s.modLiq f).slot j = s.slot j) ∧
    (∀ j : Nat, (s.modLiq f).pan j = s.pan j) ∧ (∀ j : Nat, (s.modLiq f).bed j = s.bed j) ∧
    (∀ j : Nat, (s.modLiq f).sched j = s.sched j) ∧ (∀ j : Nat, (s.modLiq f).ptSt j = s.ptSt j) ∧
    (∀ j : Nat, (s.modLiq f).key j = s.key j) ∧ (∀ j : Nat, (s.modLiq f).reg j = s.reg j) ∧
    (∀ i j : Nat, (s.modLiq f).latched i j = s.latched i j) ∧ (s.modLiq f).devContained = s.devContained ∧
    (∀ j : Nat, (s.modLiq f).tenantCause j = s.tenantCause j) ∧
    (∀ j : Nat, (s.modLiq f).tenantStopped j = s.tenantStopped j) ∧ (∀ j : Nat, (s.modLiq f).portCause j = s.portCause j) ∧
    (∀ j : Nat, (s.modLiq f).linkCause j = s.linkCause j) ∧ (∀ j : Nat, (s.modLiq f).followed j = s.followed j) ∧
    (s.modLiq f).served = s.served :=
  ⟨rfl, rfl, rfl, rfl, rfl, rfl, rfl, rfl, rfl, rfl, rfl, rfl, rfl, rfl, rfl, rfl, rfl, rfl, rfl, rfl, rfl, rfl, rfl,
  rfl, rfl, rfl, rfl, rfl, rfl, rfl, fun _ => rfl, fun _ => rfl, fun _ => rfl, fun _ => rfl, fun _ => rfl, fun _ => rfl,
  fun _ => rfl, fun _ => rfl, fun _ => rfl, fun _ => rfl, fun _ => rfl, fun _ => rfl, fun _ => rfl, fun _ => rfl,
  fun _ => rfl, fun _ => rfl, fun _ _ => rfl, rfl, fun _ => rfl, fun _ => rfl, fun _ => rfl, fun _ => rfl, fun _ => rfl,
  rfl⟩

@[simp] theorem State.modLiq_liq (s : State) (f : Liquor → Liquor) : (s.modLiq f).liq = f s.liq := rfl

@[simp] theorem State.modTal_frame (s : State) (f : Tally → Tally) :
    (s.modTal f).pending = s.pending ∧ (s.modTal f).now = s.now ∧ (s.modTal f).fresh = s.fresh ∧ (s.modTal f).out = s.out ∧
    (s.modTal f).regs = s.regs ∧ (s.modTal f).latch = s.latch ∧ (s.modTal f).pins = s.pins ∧ (s.modTal f).mon = s.mon ∧
    (s.modTal f).boot = s.boot ∧ (s.modTal f).mram = s.mram ∧ (s.modTal f).img = s.img ∧ (s.modTal f).her = s.her ∧
    (s.modTal f).ep = s.ep ∧ (s.modTal f).cont = s.cont ∧ (s.modTal f).win = s.win ∧ (s.modTal f).reads = s.reads ∧
    (s.modTal f).liq = s.liq ∧ (s.modTal f).pwr = s.pwr ∧ (s.modTal f).tide = s.tide ∧ (s.modTal f).weirs = s.weirs ∧
    (s.modTal f).qs = s.qs ∧ (s.modTal f).ports = s.ports ∧ (s.modTal f).profs = s.profs ∧ (s.modTal f).har = s.har ∧
    (s.modTal f).lanes = s.lanes ∧ (s.modTal f).links = s.links ∧ (s.modTal f).twin = s.twin ∧
    (s.modTal f).spares = s.spares ∧ (s.modTal f).dbg = s.dbg ∧ (s.modTal f).log = s.log ∧
    (∀ j : Nat, (s.modTal f).port j = s.port j) ∧ (∀ j : Nat, (s.modTal f).prof j = s.prof j) ∧
    (∀ j : Nat, (s.modTal f).lane j = s.lane j) ∧ (∀ j : Nat, (s.modTal f).link j = s.link j) ∧
    (∀ j : Nat, (s.modTal f).mb j = s.mb j) ∧ (∀ j : Nat, (s.modTal f).fn j = s.fn j) ∧
    (∀ j : Nat, (s.modTal f).dom j = s.dom j) ∧ (∀ j : Nat, (s.modTal f).q j = s.q j) ∧
    (∀ j : Nat, (s.modTal f).slot j = s.slot j) ∧ (∀ j : Nat, (s.modTal f).pan j = s.pan j) ∧
    (∀ j : Nat, (s.modTal f).bed j = s.bed j) ∧ (∀ j : Nat, (s.modTal f).sched j = s.sched j) ∧
    (∀ j : Nat, (s.modTal f).ptSt j = s.ptSt j) ∧ (∀ j : Nat, (s.modTal f).key j = s.key j) ∧
    (∀ j : Nat, (s.modTal f).reg j = s.reg j) ∧ (∀ i j : Nat, (s.modTal f).latched i j = s.latched i j) ∧
    (s.modTal f).devContained = s.devContained ∧ (∀ j : Nat, (s.modTal f).tenantCause j = s.tenantCause j) ∧
    (∀ j : Nat, (s.modTal f).tenantStopped j = s.tenantStopped j) ∧ (∀ j : Nat, (s.modTal f).portCause j = s.portCause j) ∧
    (∀ j : Nat, (s.modTal f).linkCause j = s.linkCause j) ∧ (∀ j : Nat, (s.modTal f).followed j = s.followed j) ∧
    (s.modTal f).served = s.served :=
  ⟨rfl, rfl, rfl, rfl, rfl, rfl, rfl, rfl, rfl, rfl, rfl, rfl, rfl, rfl, rfl, rfl, rfl, rfl, rfl, rfl, rfl, rfl, rfl,
  rfl, rfl, rfl, rfl, rfl, rfl, rfl, fun _ => rfl, fun _ => rfl, fun _ => rfl, fun _ => rfl, fun _ => rfl, fun _ => rfl,
  fun _ => rfl, fun _ => rfl, fun _ => rfl, fun _ => rfl, fun _ => rfl, fun _ => rfl, fun _ => rfl, fun _ => rfl,
  fun _ => rfl, fun _ _ => rfl, rfl, fun _ => rfl, fun _ => rfl, fun _ => rfl, fun _ => rfl, fun _ => rfl, rfl⟩

@[simp] theorem State.modTal_tal (s : State) (f : Tally → Tally) : (s.modTal f).tal = f s.tal := rfl

@[simp] theorem State.modPwr_frame (s : State) (f : Power → Power) :
    (s.modPwr f).pending = s.pending ∧ (s.modPwr f).now = s.now ∧ (s.modPwr f).fresh = s.fresh ∧ (s.modPwr f).out = s.out ∧
    (s.modPwr f).regs = s.regs ∧ (s.modPwr f).latch = s.latch ∧ (s.modPwr f).pins = s.pins ∧ (s.modPwr f).mon = s.mon ∧
    (s.modPwr f).boot = s.boot ∧ (s.modPwr f).mram = s.mram ∧ (s.modPwr f).img = s.img ∧ (s.modPwr f).her = s.her ∧
    (s.modPwr f).ep = s.ep ∧ (s.modPwr f).cont = s.cont ∧ (s.modPwr f).win = s.win ∧ (s.modPwr f).reads = s.reads ∧
    (s.modPwr f).liq = s.liq ∧ (s.modPwr f).tal = s.tal ∧ (s.modPwr f).tide = s.tide ∧ (s.modPwr f).weirs = s.weirs ∧
    (s.modPwr f).qs = s.qs ∧ (s.modPwr f).ports = s.ports ∧ (s.modPwr f).profs = s.profs ∧ (s.modPwr f).har = s.har ∧
    (s.modPwr f).lanes = s.lanes ∧ (s.modPwr f).links = s.links ∧ (s.modPwr f).twin = s.twin ∧
    (s.modPwr f).spares = s.spares ∧ (s.modPwr f).dbg = s.dbg ∧ (s.modPwr f).log = s.log ∧
    (∀ j : Nat, (s.modPwr f).port j = s.port j) ∧ (∀ j : Nat, (s.modPwr f).prof j = s.prof j) ∧
    (∀ j : Nat, (s.modPwr f).lane j = s.lane j) ∧ (∀ j : Nat, (s.modPwr f).link j = s.link j) ∧
    (∀ j : Nat, (s.modPwr f).mb j = s.mb j) ∧ (∀ j : Nat, (s.modPwr f).fn j = s.fn j) ∧
    (∀ j : Nat, (s.modPwr f).tally j = s.tally j) ∧ (∀ j : Nat, (s.modPwr f).q j = s.q j) ∧
    (∀ j : Nat, (s.modPwr f).slot j = s.slot j) ∧ (∀ j : Nat, (s.modPwr f).pan j = s.pan j) ∧
    (∀ j : Nat, (s.modPwr f).bed j = s.bed j) ∧ (∀ j : Nat, (s.modPwr f).sched j = s.sched j) ∧
    (∀ j : Nat, (s.modPwr f).ptSt j = s.ptSt j) ∧ (∀ j : Nat, (s.modPwr f).key j = s.key j) ∧
    (∀ j : Nat, (s.modPwr f).reg j = s.reg j) ∧ (∀ i j : Nat, (s.modPwr f).latched i j = s.latched i j) ∧
    (s.modPwr f).devContained = s.devContained ∧ (∀ j : Nat, (s.modPwr f).tenantCause j = s.tenantCause j) ∧
    (∀ j : Nat, (s.modPwr f).tenantStopped j = s.tenantStopped j) ∧ (∀ j : Nat, (s.modPwr f).portCause j = s.portCause j) ∧
    (∀ j : Nat, (s.modPwr f).linkCause j = s.linkCause j) ∧ (∀ j : Nat, (s.modPwr f).followed j = s.followed j) ∧
    (s.modPwr f).served = s.served :=
  ⟨rfl, rfl, rfl, rfl, rfl, rfl, rfl, rfl, rfl, rfl, rfl, rfl, rfl, rfl, rfl, rfl, rfl, rfl, rfl, rfl, rfl, rfl, rfl,
  rfl, rfl, rfl, rfl, rfl, rfl, rfl, fun _ => rfl, fun _ => rfl, fun _ => rfl, fun _ => rfl, fun _ => rfl, fun _ => rfl,
  fun _ => rfl, fun _ => rfl, fun _ => rfl, fun _ => rfl, fun _ => rfl, fun _ => rfl, fun _ => rfl, fun _ => rfl,
  fun _ => rfl, fun _ _ => rfl, rfl, fun _ => rfl, fun _ => rfl, fun _ => rfl, fun _ => rfl, fun _ => rfl, rfl⟩

@[simp] theorem State.modPwr_pwr (s : State) (f : Power → Power) : (s.modPwr f).pwr = f s.pwr := rfl

@[simp] theorem State.modTide_frame (s : State) (f : Tide → Tide) :
    (s.modTide f).pending = s.pending ∧ (s.modTide f).now = s.now ∧ (s.modTide f).fresh = s.fresh ∧
    (s.modTide f).out = s.out ∧ (s.modTide f).regs = s.regs ∧ (s.modTide f).latch = s.latch ∧ (s.modTide f).pins = s.pins ∧
    (s.modTide f).mon = s.mon ∧ (s.modTide f).boot = s.boot ∧ (s.modTide f).mram = s.mram ∧ (s.modTide f).img = s.img ∧
    (s.modTide f).her = s.her ∧ (s.modTide f).ep = s.ep ∧ (s.modTide f).cont = s.cont ∧ (s.modTide f).win = s.win ∧
    (s.modTide f).reads = s.reads ∧ (s.modTide f).liq = s.liq ∧ (s.modTide f).tal = s.tal ∧ (s.modTide f).pwr = s.pwr ∧
    (s.modTide f).weirs = s.weirs ∧ (s.modTide f).qs = s.qs ∧ (s.modTide f).ports = s.ports ∧
    (s.modTide f).profs = s.profs ∧ (s.modTide f).har = s.har ∧ (s.modTide f).lanes = s.lanes ∧
    (s.modTide f).links = s.links ∧ (s.modTide f).twin = s.twin ∧ (s.modTide f).spares = s.spares ∧
    (s.modTide f).dbg = s.dbg ∧ (s.modTide f).log = s.log ∧ (∀ j : Nat, (s.modTide f).port j = s.port j) ∧
    (∀ j : Nat, (s.modTide f).prof j = s.prof j) ∧ (∀ j : Nat, (s.modTide f).lane j = s.lane j) ∧
    (∀ j : Nat, (s.modTide f).link j = s.link j) ∧ (∀ j : Nat, (s.modTide f).mb j = s.mb j) ∧
    (∀ j : Nat, (s.modTide f).fn j = s.fn j) ∧ (∀ j : Nat, (s.modTide f).dom j = s.dom j) ∧
    (∀ j : Nat, (s.modTide f).tally j = s.tally j) ∧ (∀ j : Nat, (s.modTide f).q j = s.q j) ∧
    (∀ j : Nat, (s.modTide f).slot j = s.slot j) ∧ (∀ j : Nat, (s.modTide f).pan j = s.pan j) ∧
    (∀ j : Nat, (s.modTide f).bed j = s.bed j) ∧ (∀ j : Nat, (s.modTide f).sched j = s.sched j) ∧
    (∀ j : Nat, (s.modTide f).ptSt j = s.ptSt j) ∧ (∀ j : Nat, (s.modTide f).key j = s.key j) ∧
    (∀ j : Nat, (s.modTide f).reg j = s.reg j) ∧ (∀ i j : Nat, (s.modTide f).latched i j = s.latched i j) ∧
    (s.modTide f).devContained = s.devContained ∧ (∀ j : Nat, (s.modTide f).tenantCause j = s.tenantCause j) ∧
    (∀ j : Nat, (s.modTide f).tenantStopped j = s.tenantStopped j) ∧
    (∀ j : Nat, (s.modTide f).portCause j = s.portCause j) ∧ (∀ j : Nat, (s.modTide f).linkCause j = s.linkCause j) ∧
    (∀ j : Nat, (s.modTide f).followed j = s.followed j) ∧ (s.modTide f).served = s.served :=
  ⟨rfl, rfl, rfl, rfl, rfl, rfl, rfl, rfl, rfl, rfl, rfl, rfl, rfl, rfl, rfl, rfl, rfl, rfl, rfl, rfl, rfl, rfl, rfl,
  rfl, rfl, rfl, rfl, rfl, rfl, rfl, fun _ => rfl, fun _ => rfl, fun _ => rfl, fun _ => rfl, fun _ => rfl, fun _ => rfl,
  fun _ => rfl, fun _ => rfl, fun _ => rfl, fun _ => rfl, fun _ => rfl, fun _ => rfl, fun _ => rfl, fun _ => rfl,
  fun _ => rfl, fun _ => rfl, fun _ _ => rfl, rfl, fun _ => rfl, fun _ => rfl, fun _ => rfl, fun _ => rfl, fun _ => rfl,
  rfl⟩

@[simp] theorem State.modTide_tide (s : State) (f : Tide → Tide) : (s.modTide f).tide = f s.tide := rfl

@[simp] theorem State.modWeirs_frame (s : State) (f : Weirs → Weirs) :
    (s.modWeirs f).pending = s.pending ∧ (s.modWeirs f).now = s.now ∧ (s.modWeirs f).fresh = s.fresh ∧
    (s.modWeirs f).out = s.out ∧ (s.modWeirs f).regs = s.regs ∧ (s.modWeirs f).latch = s.latch ∧
    (s.modWeirs f).pins = s.pins ∧ (s.modWeirs f).mon = s.mon ∧ (s.modWeirs f).boot = s.boot ∧
    (s.modWeirs f).mram = s.mram ∧ (s.modWeirs f).img = s.img ∧ (s.modWeirs f).her = s.her ∧ (s.modWeirs f).ep = s.ep ∧
    (s.modWeirs f).cont = s.cont ∧ (s.modWeirs f).win = s.win ∧ (s.modWeirs f).reads = s.reads ∧
    (s.modWeirs f).liq = s.liq ∧ (s.modWeirs f).tal = s.tal ∧ (s.modWeirs f).pwr = s.pwr ∧ (s.modWeirs f).tide = s.tide ∧
    (s.modWeirs f).qs = s.qs ∧ (s.modWeirs f).ports = s.ports ∧ (s.modWeirs f).profs = s.profs ∧
    (s.modWeirs f).har = s.har ∧ (s.modWeirs f).lanes = s.lanes ∧ (s.modWeirs f).links = s.links ∧
    (s.modWeirs f).twin = s.twin ∧ (s.modWeirs f).spares = s.spares ∧ (s.modWeirs f).dbg = s.dbg ∧
    (s.modWeirs f).log = s.log ∧ (∀ j : Nat, (s.modWeirs f).port j = s.port j) ∧
    (∀ j : Nat, (s.modWeirs f).prof j = s.prof j) ∧ (∀ j : Nat, (s.modWeirs f).lane j = s.lane j) ∧
    (∀ j : Nat, (s.modWeirs f).link j = s.link j) ∧ (∀ j : Nat, (s.modWeirs f).mb j = s.mb j) ∧
    (∀ j : Nat, (s.modWeirs f).fn j = s.fn j) ∧ (∀ j : Nat, (s.modWeirs f).dom j = s.dom j) ∧
    (∀ j : Nat, (s.modWeirs f).tally j = s.tally j) ∧ (∀ j : Nat, (s.modWeirs f).q j = s.q j) ∧
    (∀ j : Nat, (s.modWeirs f).slot j = s.slot j) ∧ (∀ j : Nat, (s.modWeirs f).pan j = s.pan j) ∧
    (∀ j : Nat, (s.modWeirs f).bed j = s.bed j) ∧ (∀ j : Nat, (s.modWeirs f).sched j = s.sched j) ∧
    (∀ j : Nat, (s.modWeirs f).ptSt j = s.ptSt j) ∧ (∀ j : Nat, (s.modWeirs f).key j = s.key j) ∧
    (∀ j : Nat, (s.modWeirs f).reg j = s.reg j) ∧ (∀ i j : Nat, (s.modWeirs f).latched i j = s.latched i j) ∧
    (s.modWeirs f).devContained = s.devContained ∧ (∀ j : Nat, (s.modWeirs f).tenantCause j = s.tenantCause j) ∧
    (∀ j : Nat, (s.modWeirs f).tenantStopped j = s.tenantStopped j) ∧
    (∀ j : Nat, (s.modWeirs f).portCause j = s.portCause j) ∧ (∀ j : Nat, (s.modWeirs f).linkCause j = s.linkCause j) ∧
    (∀ j : Nat, (s.modWeirs f).followed j = s.followed j) ∧ (s.modWeirs f).served = s.served :=
  ⟨rfl, rfl, rfl, rfl, rfl, rfl, rfl, rfl, rfl, rfl, rfl, rfl, rfl, rfl, rfl, rfl, rfl, rfl, rfl, rfl, rfl, rfl, rfl,
  rfl, rfl, rfl, rfl, rfl, rfl, rfl, fun _ => rfl, fun _ => rfl, fun _ => rfl, fun _ => rfl, fun _ => rfl, fun _ => rfl,
  fun _ => rfl, fun _ => rfl, fun _ => rfl, fun _ => rfl, fun _ => rfl, fun _ => rfl, fun _ => rfl, fun _ => rfl,
  fun _ => rfl, fun _ => rfl, fun _ _ => rfl, rfl, fun _ => rfl, fun _ => rfl, fun _ => rfl, fun _ => rfl, fun _ => rfl,
  rfl⟩

@[simp] theorem State.modWeirs_weirs (s : State) (f : Weirs → Weirs) : (s.modWeirs f).weirs = f s.weirs := rfl

@[simp] theorem State.modQs_frame (s : State) (f : Queues → Queues) :
    (s.modQs f).pending = s.pending ∧ (s.modQs f).now = s.now ∧ (s.modQs f).fresh = s.fresh ∧ (s.modQs f).out = s.out ∧
    (s.modQs f).regs = s.regs ∧ (s.modQs f).latch = s.latch ∧ (s.modQs f).pins = s.pins ∧ (s.modQs f).mon = s.mon ∧
    (s.modQs f).boot = s.boot ∧ (s.modQs f).mram = s.mram ∧ (s.modQs f).img = s.img ∧ (s.modQs f).her = s.her ∧
    (s.modQs f).ep = s.ep ∧ (s.modQs f).cont = s.cont ∧ (s.modQs f).win = s.win ∧ (s.modQs f).reads = s.reads ∧
    (s.modQs f).liq = s.liq ∧ (s.modQs f).tal = s.tal ∧ (s.modQs f).pwr = s.pwr ∧ (s.modQs f).tide = s.tide ∧
    (s.modQs f).weirs = s.weirs ∧ (s.modQs f).ports = s.ports ∧ (s.modQs f).profs = s.profs ∧ (s.modQs f).har = s.har ∧
    (s.modQs f).lanes = s.lanes ∧ (s.modQs f).links = s.links ∧ (s.modQs f).twin = s.twin ∧ (s.modQs f).spares = s.spares ∧
    (s.modQs f).dbg = s.dbg ∧ (s.modQs f).log = s.log ∧ (∀ j : Nat, (s.modQs f).port j = s.port j) ∧
    (∀ j : Nat, (s.modQs f).prof j = s.prof j) ∧ (∀ j : Nat, (s.modQs f).lane j = s.lane j) ∧
    (∀ j : Nat, (s.modQs f).link j = s.link j) ∧ (∀ j : Nat, (s.modQs f).mb j = s.mb j) ∧
    (∀ j : Nat, (s.modQs f).fn j = s.fn j) ∧ (∀ j : Nat, (s.modQs f).dom j = s.dom j) ∧
    (∀ j : Nat, (s.modQs f).tally j = s.tally j) ∧ (∀ j : Nat, (s.modQs f).sched j = s.sched j) ∧
    (∀ j : Nat, (s.modQs f).ptSt j = s.ptSt j) ∧ (∀ j : Nat, (s.modQs f).key j = s.key j) ∧
    (∀ j : Nat, (s.modQs f).reg j = s.reg j) ∧ (∀ i j : Nat, (s.modQs f).latched i j = s.latched i j) ∧
    (s.modQs f).devContained = s.devContained ∧ (∀ j : Nat, (s.modQs f).tenantCause j = s.tenantCause j) ∧
    (∀ j : Nat, (s.modQs f).tenantStopped j = s.tenantStopped j) ∧ (∀ j : Nat, (s.modQs f).portCause j = s.portCause j) ∧
    (∀ j : Nat, (s.modQs f).linkCause j = s.linkCause j) ∧ (∀ j : Nat, (s.modQs f).followed j = s.followed j) ∧
    (s.modQs f).served = s.served :=
  ⟨rfl, rfl, rfl, rfl, rfl, rfl, rfl, rfl, rfl, rfl, rfl, rfl, rfl, rfl, rfl, rfl, rfl, rfl, rfl, rfl, rfl, rfl, rfl,
  rfl, rfl, rfl, rfl, rfl, rfl, rfl, fun _ => rfl, fun _ => rfl, fun _ => rfl, fun _ => rfl, fun _ => rfl, fun _ => rfl,
  fun _ => rfl, fun _ => rfl, fun _ => rfl, fun _ => rfl, fun _ => rfl, fun _ => rfl, fun _ _ => rfl, rfl, fun _ => rfl,
  fun _ => rfl, fun _ => rfl, fun _ => rfl, fun _ => rfl, rfl⟩

@[simp] theorem State.modQs_qs (s : State) (f : Queues → Queues) : (s.modQs f).qs = f s.qs := rfl

@[simp] theorem State.modHar_frame (s : State) (f : Harvest → Harvest) :
    (s.modHar f).pending = s.pending ∧ (s.modHar f).now = s.now ∧ (s.modHar f).fresh = s.fresh ∧ (s.modHar f).out = s.out ∧
    (s.modHar f).regs = s.regs ∧ (s.modHar f).latch = s.latch ∧ (s.modHar f).pins = s.pins ∧ (s.modHar f).mon = s.mon ∧
    (s.modHar f).boot = s.boot ∧ (s.modHar f).mram = s.mram ∧ (s.modHar f).img = s.img ∧ (s.modHar f).her = s.her ∧
    (s.modHar f).ep = s.ep ∧ (s.modHar f).cont = s.cont ∧ (s.modHar f).win = s.win ∧ (s.modHar f).reads = s.reads ∧
    (s.modHar f).liq = s.liq ∧ (s.modHar f).tal = s.tal ∧ (s.modHar f).pwr = s.pwr ∧ (s.modHar f).tide = s.tide ∧
    (s.modHar f).weirs = s.weirs ∧ (s.modHar f).qs = s.qs ∧ (s.modHar f).ports = s.ports ∧ (s.modHar f).profs = s.profs ∧
    (s.modHar f).lanes = s.lanes ∧ (s.modHar f).links = s.links ∧ (s.modHar f).twin = s.twin ∧
    (s.modHar f).spares = s.spares ∧ (s.modHar f).dbg = s.dbg ∧ (s.modHar f).log = s.log ∧
    (∀ j : Nat, (s.modHar f).port j = s.port j) ∧ (∀ j : Nat, (s.modHar f).prof j = s.prof j) ∧
    (∀ j : Nat, (s.modHar f).lane j = s.lane j) ∧ (∀ j : Nat, (s.modHar f).link j = s.link j) ∧
    (∀ j : Nat, (s.modHar f).mb j = s.mb j) ∧ (∀ j : Nat, (s.modHar f).fn j = s.fn j) ∧
    (∀ j : Nat, (s.modHar f).dom j = s.dom j) ∧ (∀ j : Nat, (s.modHar f).tally j = s.tally j) ∧
    (∀ j : Nat, (s.modHar f).q j = s.q j) ∧ (∀ j : Nat, (s.modHar f).slot j = s.slot j) ∧
    (∀ j : Nat, (s.modHar f).pan j = s.pan j) ∧ (∀ j : Nat, (s.modHar f).bed j = s.bed j) ∧
    (∀ j : Nat, (s.modHar f).key j = s.key j) ∧ (∀ j : Nat, (s.modHar f).reg j = s.reg j) ∧
    (∀ i j : Nat, (s.modHar f).latched i j = s.latched i j) ∧ (s.modHar f).devContained = s.devContained ∧
    (∀ j : Nat, (s.modHar f).tenantCause j = s.tenantCause j) ∧
    (∀ j : Nat, (s.modHar f).tenantStopped j = s.tenantStopped j) ∧ (∀ j : Nat, (s.modHar f).portCause j = s.portCause j) ∧
    (∀ j : Nat, (s.modHar f).linkCause j = s.linkCause j) ∧ (∀ j : Nat, (s.modHar f).followed j = s.followed j) ∧
    (s.modHar f).served = s.served :=
  ⟨rfl, rfl, rfl, rfl, rfl, rfl, rfl, rfl, rfl, rfl, rfl, rfl, rfl, rfl, rfl, rfl, rfl, rfl, rfl, rfl, rfl, rfl, rfl,
  rfl, rfl, rfl, rfl, rfl, rfl, rfl, fun _ => rfl, fun _ => rfl, fun _ => rfl, fun _ => rfl, fun _ => rfl, fun _ => rfl,
  fun _ => rfl, fun _ => rfl, fun _ => rfl, fun _ => rfl, fun _ => rfl, fun _ => rfl, fun _ => rfl, fun _ => rfl,
  fun _ _ => rfl, rfl, fun _ => rfl, fun _ => rfl, fun _ => rfl, fun _ => rfl, fun _ => rfl, rfl⟩

@[simp] theorem State.modHar_har (s : State) (f : Harvest → Harvest) : (s.modHar f).har = f s.har := rfl

@[simp] theorem State.modTwin_frame (s : State) (f : Twin → Twin) :
    (s.modTwin f).pending = s.pending ∧ (s.modTwin f).now = s.now ∧ (s.modTwin f).fresh = s.fresh ∧
    (s.modTwin f).out = s.out ∧ (s.modTwin f).regs = s.regs ∧ (s.modTwin f).latch = s.latch ∧ (s.modTwin f).pins = s.pins ∧
    (s.modTwin f).mon = s.mon ∧ (s.modTwin f).boot = s.boot ∧ (s.modTwin f).mram = s.mram ∧ (s.modTwin f).img = s.img ∧
    (s.modTwin f).her = s.her ∧ (s.modTwin f).ep = s.ep ∧ (s.modTwin f).cont = s.cont ∧ (s.modTwin f).win = s.win ∧
    (s.modTwin f).reads = s.reads ∧ (s.modTwin f).liq = s.liq ∧ (s.modTwin f).tal = s.tal ∧ (s.modTwin f).pwr = s.pwr ∧
    (s.modTwin f).tide = s.tide ∧ (s.modTwin f).weirs = s.weirs ∧ (s.modTwin f).qs = s.qs ∧ (s.modTwin f).ports = s.ports ∧
    (s.modTwin f).profs = s.profs ∧ (s.modTwin f).har = s.har ∧ (s.modTwin f).lanes = s.lanes ∧
    (s.modTwin f).links = s.links ∧ (s.modTwin f).spares = s.spares ∧ (s.modTwin f).dbg = s.dbg ∧
    (s.modTwin f).log = s.log ∧ (∀ j : Nat, (s.modTwin f).port j = s.port j) ∧
    (∀ j : Nat, (s.modTwin f).prof j = s.prof j) ∧ (∀ j : Nat, (s.modTwin f).lane j = s.lane j) ∧
    (∀ j : Nat, (s.modTwin f).link j = s.link j) ∧ (∀ j : Nat, (s.modTwin f).mb j = s.mb j) ∧
    (∀ j : Nat, (s.modTwin f).fn j = s.fn j) ∧ (∀ j : Nat, (s.modTwin f).dom j = s.dom j) ∧
    (∀ j : Nat, (s.modTwin f).tally j = s.tally j) ∧ (∀ j : Nat, (s.modTwin f).q j = s.q j) ∧
    (∀ j : Nat, (s.modTwin f).slot j = s.slot j) ∧ (∀ j : Nat, (s.modTwin f).pan j = s.pan j) ∧
    (∀ j : Nat, (s.modTwin f).bed j = s.bed j) ∧ (∀ j : Nat, (s.modTwin f).sched j = s.sched j) ∧
    (∀ j : Nat, (s.modTwin f).ptSt j = s.ptSt j) ∧ (∀ j : Nat, (s.modTwin f).key j = s.key j) ∧
    (∀ j : Nat, (s.modTwin f).reg j = s.reg j) ∧ (∀ i j : Nat, (s.modTwin f).latched i j = s.latched i j) ∧
    (s.modTwin f).devContained = s.devContained ∧ (∀ j : Nat, (s.modTwin f).tenantCause j = s.tenantCause j) ∧
    (∀ j : Nat, (s.modTwin f).tenantStopped j = s.tenantStopped j) ∧
    (∀ j : Nat, (s.modTwin f).portCause j = s.portCause j) ∧ (∀ j : Nat, (s.modTwin f).linkCause j = s.linkCause j) ∧
    (s.modTwin f).served = s.served :=
  ⟨rfl, rfl, rfl, rfl, rfl, rfl, rfl, rfl, rfl, rfl, rfl, rfl, rfl, rfl, rfl, rfl, rfl, rfl, rfl, rfl, rfl, rfl, rfl,
  rfl, rfl, rfl, rfl, rfl, rfl, rfl, fun _ => rfl, fun _ => rfl, fun _ => rfl, fun _ => rfl, fun _ => rfl, fun _ => rfl,
  fun _ => rfl, fun _ => rfl, fun _ => rfl, fun _ => rfl, fun _ => rfl, fun _ => rfl, fun _ => rfl, fun _ => rfl,
  fun _ => rfl, fun _ => rfl, fun _ _ => rfl, rfl, fun _ => rfl, fun _ => rfl, fun _ => rfl, fun _ => rfl, rfl⟩

@[simp] theorem State.modTwin_twin (s : State) (f : Twin → Twin) : (s.modTwin f).twin = f s.twin := rfl

@[simp] theorem State.modSpares_frame (s : State) (f : Spares → Spares) :
    (s.modSpares f).pending = s.pending ∧ (s.modSpares f).now = s.now ∧ (s.modSpares f).fresh = s.fresh ∧
    (s.modSpares f).out = s.out ∧ (s.modSpares f).regs = s.regs ∧ (s.modSpares f).latch = s.latch ∧
    (s.modSpares f).pins = s.pins ∧ (s.modSpares f).mon = s.mon ∧ (s.modSpares f).boot = s.boot ∧
    (s.modSpares f).mram = s.mram ∧ (s.modSpares f).img = s.img ∧ (s.modSpares f).her = s.her ∧ (s.modSpares f).ep = s.ep ∧
    (s.modSpares f).cont = s.cont ∧ (s.modSpares f).win = s.win ∧ (s.modSpares f).reads = s.reads ∧
    (s.modSpares f).liq = s.liq ∧ (s.modSpares f).tal = s.tal ∧ (s.modSpares f).pwr = s.pwr ∧
    (s.modSpares f).tide = s.tide ∧ (s.modSpares f).weirs = s.weirs ∧ (s.modSpares f).qs = s.qs ∧
    (s.modSpares f).ports = s.ports ∧ (s.modSpares f).profs = s.profs ∧ (s.modSpares f).har = s.har ∧
    (s.modSpares f).lanes = s.lanes ∧ (s.modSpares f).links = s.links ∧ (s.modSpares f).twin = s.twin ∧
    (s.modSpares f).dbg = s.dbg ∧ (s.modSpares f).log = s.log ∧ (∀ j : Nat, (s.modSpares f).port j = s.port j) ∧
    (∀ j : Nat, (s.modSpares f).prof j = s.prof j) ∧ (∀ j : Nat, (s.modSpares f).lane j = s.lane j) ∧
    (∀ j : Nat, (s.modSpares f).link j = s.link j) ∧ (∀ j : Nat, (s.modSpares f).mb j = s.mb j) ∧
    (∀ j : Nat, (s.modSpares f).fn j = s.fn j) ∧ (∀ j : Nat, (s.modSpares f).dom j = s.dom j) ∧
    (∀ j : Nat, (s.modSpares f).tally j = s.tally j) ∧ (∀ j : Nat, (s.modSpares f).q j = s.q j) ∧
    (∀ j : Nat, (s.modSpares f).slot j = s.slot j) ∧ (∀ j : Nat, (s.modSpares f).pan j = s.pan j) ∧
    (∀ j : Nat, (s.modSpares f).bed j = s.bed j) ∧ (∀ j : Nat, (s.modSpares f).sched j = s.sched j) ∧
    (∀ j : Nat, (s.modSpares f).ptSt j = s.ptSt j) ∧ (∀ j : Nat, (s.modSpares f).key j = s.key j) ∧
    (∀ j : Nat, (s.modSpares f).reg j = s.reg j) ∧ (∀ i j : Nat, (s.modSpares f).latched i j = s.latched i j) ∧
    (s.modSpares f).devContained = s.devContained ∧ (∀ j : Nat, (s.modSpares f).tenantCause j = s.tenantCause j) ∧
    (∀ j : Nat, (s.modSpares f).tenantStopped j = s.tenantStopped j) ∧
    (∀ j : Nat, (s.modSpares f).portCause j = s.portCause j) ∧ (∀ j : Nat, (s.modSpares f).linkCause j = s.linkCause j) ∧
    (∀ j : Nat, (s.modSpares f).followed j = s.followed j) ∧ (s.modSpares f).served = s.served :=
  ⟨rfl, rfl, rfl, rfl, rfl, rfl, rfl, rfl, rfl, rfl, rfl, rfl, rfl, rfl, rfl, rfl, rfl, rfl, rfl, rfl, rfl, rfl, rfl,
  rfl, rfl, rfl, rfl, rfl, rfl, rfl, fun _ => rfl, fun _ => rfl, fun _ => rfl, fun _ => rfl, fun _ => rfl, fun _ => rfl,
  fun _ => rfl, fun _ => rfl, fun _ => rfl, fun _ => rfl, fun _ => rfl, fun _ => rfl, fun _ => rfl, fun _ => rfl,
  fun _ => rfl, fun _ => rfl, fun _ _ => rfl, rfl, fun _ => rfl, fun _ => rfl, fun _ => rfl, fun _ => rfl, fun _ => rfl,
  rfl⟩

@[simp] theorem State.modSpares_spares (s : State) (f : Spares → Spares) : (s.modSpares f).spares = f s.spares := rfl

@[simp] theorem State.modDbg_frame (s : State) (f : Debug → Debug) :
    (s.modDbg f).pending = s.pending ∧ (s.modDbg f).now = s.now ∧ (s.modDbg f).fresh = s.fresh ∧ (s.modDbg f).out = s.out ∧
    (s.modDbg f).regs = s.regs ∧ (s.modDbg f).latch = s.latch ∧ (s.modDbg f).pins = s.pins ∧ (s.modDbg f).mon = s.mon ∧
    (s.modDbg f).boot = s.boot ∧ (s.modDbg f).mram = s.mram ∧ (s.modDbg f).img = s.img ∧ (s.modDbg f).her = s.her ∧
    (s.modDbg f).ep = s.ep ∧ (s.modDbg f).cont = s.cont ∧ (s.modDbg f).win = s.win ∧ (s.modDbg f).reads = s.reads ∧
    (s.modDbg f).liq = s.liq ∧ (s.modDbg f).tal = s.tal ∧ (s.modDbg f).pwr = s.pwr ∧ (s.modDbg f).tide = s.tide ∧
    (s.modDbg f).weirs = s.weirs ∧ (s.modDbg f).qs = s.qs ∧ (s.modDbg f).ports = s.ports ∧ (s.modDbg f).profs = s.profs ∧
    (s.modDbg f).har = s.har ∧ (s.modDbg f).lanes = s.lanes ∧ (s.modDbg f).links = s.links ∧ (s.modDbg f).twin = s.twin ∧
    (s.modDbg f).spares = s.spares ∧ (s.modDbg f).log = s.log ∧ (∀ j : Nat, (s.modDbg f).port j = s.port j) ∧
    (∀ j : Nat, (s.modDbg f).prof j = s.prof j) ∧ (∀ j : Nat, (s.modDbg f).lane j = s.lane j) ∧
    (∀ j : Nat, (s.modDbg f).link j = s.link j) ∧ (∀ j : Nat, (s.modDbg f).mb j = s.mb j) ∧
    (∀ j : Nat, (s.modDbg f).fn j = s.fn j) ∧ (∀ j : Nat, (s.modDbg f).dom j = s.dom j) ∧
    (∀ j : Nat, (s.modDbg f).tally j = s.tally j) ∧ (∀ j : Nat, (s.modDbg f).q j = s.q j) ∧
    (∀ j : Nat, (s.modDbg f).slot j = s.slot j) ∧ (∀ j : Nat, (s.modDbg f).pan j = s.pan j) ∧
    (∀ j : Nat, (s.modDbg f).bed j = s.bed j) ∧ (∀ j : Nat, (s.modDbg f).sched j = s.sched j) ∧
    (∀ j : Nat, (s.modDbg f).ptSt j = s.ptSt j) ∧ (∀ j : Nat, (s.modDbg f).key j = s.key j) ∧
    (∀ j : Nat, (s.modDbg f).reg j = s.reg j) ∧ (∀ i j : Nat, (s.modDbg f).latched i j = s.latched i j) ∧
    (s.modDbg f).devContained = s.devContained ∧ (∀ j : Nat, (s.modDbg f).tenantCause j = s.tenantCause j) ∧
    (∀ j : Nat, (s.modDbg f).tenantStopped j = s.tenantStopped j) ∧ (∀ j : Nat, (s.modDbg f).portCause j = s.portCause j) ∧
    (∀ j : Nat, (s.modDbg f).linkCause j = s.linkCause j) ∧ (∀ j : Nat, (s.modDbg f).followed j = s.followed j) ∧
    (s.modDbg f).served = s.served :=
  ⟨rfl, rfl, rfl, rfl, rfl, rfl, rfl, rfl, rfl, rfl, rfl, rfl, rfl, rfl, rfl, rfl, rfl, rfl, rfl, rfl, rfl, rfl, rfl,
  rfl, rfl, rfl, rfl, rfl, rfl, rfl, fun _ => rfl, fun _ => rfl, fun _ => rfl, fun _ => rfl, fun _ => rfl, fun _ => rfl,
  fun _ => rfl, fun _ => rfl, fun _ => rfl, fun _ => rfl, fun _ => rfl, fun _ => rfl, fun _ => rfl, fun _ => rfl,
  fun _ => rfl, fun _ => rfl, fun _ _ => rfl, rfl, fun _ => rfl, fun _ => rfl, fun _ => rfl, fun _ => rfl, fun _ => rfl,
  rfl⟩

@[simp] theorem State.modDbg_dbg (s : State) (f : Debug → Debug) : (s.modDbg f).dbg = f s.dbg := rfl

@[simp] theorem State.modLog_frame (s : State) (f : Log → Log) :
    (s.modLog f).pending = s.pending ∧ (s.modLog f).now = s.now ∧ (s.modLog f).fresh = s.fresh ∧ (s.modLog f).out = s.out ∧
    (s.modLog f).regs = s.regs ∧ (s.modLog f).latch = s.latch ∧ (s.modLog f).pins = s.pins ∧ (s.modLog f).mon = s.mon ∧
    (s.modLog f).boot = s.boot ∧ (s.modLog f).mram = s.mram ∧ (s.modLog f).img = s.img ∧ (s.modLog f).her = s.her ∧
    (s.modLog f).ep = s.ep ∧ (s.modLog f).cont = s.cont ∧ (s.modLog f).win = s.win ∧ (s.modLog f).reads = s.reads ∧
    (s.modLog f).liq = s.liq ∧ (s.modLog f).tal = s.tal ∧ (s.modLog f).pwr = s.pwr ∧ (s.modLog f).tide = s.tide ∧
    (s.modLog f).weirs = s.weirs ∧ (s.modLog f).qs = s.qs ∧ (s.modLog f).ports = s.ports ∧ (s.modLog f).profs = s.profs ∧
    (s.modLog f).har = s.har ∧ (s.modLog f).lanes = s.lanes ∧ (s.modLog f).links = s.links ∧ (s.modLog f).twin = s.twin ∧
    (s.modLog f).spares = s.spares ∧ (s.modLog f).dbg = s.dbg ∧ (∀ j : Nat, (s.modLog f).port j = s.port j) ∧
    (∀ j : Nat, (s.modLog f).prof j = s.prof j) ∧ (∀ j : Nat, (s.modLog f).lane j = s.lane j) ∧
    (∀ j : Nat, (s.modLog f).link j = s.link j) ∧ (∀ j : Nat, (s.modLog f).mb j = s.mb j) ∧
    (∀ j : Nat, (s.modLog f).fn j = s.fn j) ∧ (∀ j : Nat, (s.modLog f).dom j = s.dom j) ∧
    (∀ j : Nat, (s.modLog f).tally j = s.tally j) ∧ (∀ j : Nat, (s.modLog f).q j = s.q j) ∧
    (∀ j : Nat, (s.modLog f).slot j = s.slot j) ∧ (∀ j : Nat, (s.modLog f).pan j = s.pan j) ∧
    (∀ j : Nat, (s.modLog f).bed j = s.bed j) ∧ (∀ j : Nat, (s.modLog f).sched j = s.sched j) ∧
    (∀ j : Nat, (s.modLog f).ptSt j = s.ptSt j) ∧ (∀ j : Nat, (s.modLog f).key j = s.key j) ∧
    (∀ j : Nat, (s.modLog f).reg j = s.reg j) ∧ (∀ i j : Nat, (s.modLog f).latched i j = s.latched i j) ∧
    (s.modLog f).devContained = s.devContained ∧ (∀ j : Nat, (s.modLog f).tenantCause j = s.tenantCause j) ∧
    (∀ j : Nat, (s.modLog f).tenantStopped j = s.tenantStopped j) ∧ (∀ j : Nat, (s.modLog f).portCause j = s.portCause j) ∧
    (∀ j : Nat, (s.modLog f).linkCause j = s.linkCause j) ∧ (∀ j : Nat, (s.modLog f).followed j = s.followed j) ∧
    (s.modLog f).served = s.served :=
  ⟨rfl, rfl, rfl, rfl, rfl, rfl, rfl, rfl, rfl, rfl, rfl, rfl, rfl, rfl, rfl, rfl, rfl, rfl, rfl, rfl, rfl, rfl, rfl,
  rfl, rfl, rfl, rfl, rfl, rfl, rfl, fun _ => rfl, fun _ => rfl, fun _ => rfl, fun _ => rfl, fun _ => rfl, fun _ => rfl,
  fun _ => rfl, fun _ => rfl, fun _ => rfl, fun _ => rfl, fun _ => rfl, fun _ => rfl, fun _ => rfl, fun _ => rfl,
  fun _ => rfl, fun _ => rfl, fun _ _ => rfl, rfl, fun _ => rfl, fun _ => rfl, fun _ => rfl, fun _ => rfl, fun _ => rfl,
  rfl⟩

@[simp] theorem State.modLog_log (s : State) (f : Log → Log) : (s.modLog f).log = f s.log := rfl

@[simp] theorem State.modReads_frame (s : State) (f : List HeldRead → List HeldRead) :
    (s.modReads f).pending = s.pending ∧ (s.modReads f).now = s.now ∧ (s.modReads f).fresh = s.fresh ∧
    (s.modReads f).out = s.out ∧ (s.modReads f).regs = s.regs ∧ (s.modReads f).latch = s.latch ∧
    (s.modReads f).pins = s.pins ∧ (s.modReads f).mon = s.mon ∧ (s.modReads f).boot = s.boot ∧
    (s.modReads f).mram = s.mram ∧ (s.modReads f).img = s.img ∧ (s.modReads f).her = s.her ∧ (s.modReads f).ep = s.ep ∧
    (s.modReads f).cont = s.cont ∧ (s.modReads f).win = s.win ∧ (s.modReads f).liq = s.liq ∧ (s.modReads f).tal = s.tal ∧
    (s.modReads f).pwr = s.pwr ∧ (s.modReads f).tide = s.tide ∧ (s.modReads f).weirs = s.weirs ∧ (s.modReads f).qs = s.qs ∧
    (s.modReads f).ports = s.ports ∧ (s.modReads f).profs = s.profs ∧ (s.modReads f).har = s.har ∧
    (s.modReads f).lanes = s.lanes ∧ (s.modReads f).links = s.links ∧ (s.modReads f).twin = s.twin ∧
    (s.modReads f).spares = s.spares ∧ (s.modReads f).dbg = s.dbg ∧ (s.modReads f).log = s.log ∧
    (∀ j : Nat, (s.modReads f).port j = s.port j) ∧ (∀ j : Nat, (s.modReads f).prof j = s.prof j) ∧
    (∀ j : Nat, (s.modReads f).lane j = s.lane j) ∧ (∀ j : Nat, (s.modReads f).link j = s.link j) ∧
    (∀ j : Nat, (s.modReads f).mb j = s.mb j) ∧ (∀ j : Nat, (s.modReads f).fn j = s.fn j) ∧
    (∀ j : Nat, (s.modReads f).dom j = s.dom j) ∧ (∀ j : Nat, (s.modReads f).tally j = s.tally j) ∧
    (∀ j : Nat, (s.modReads f).q j = s.q j) ∧ (∀ j : Nat, (s.modReads f).slot j = s.slot j) ∧
    (∀ j : Nat, (s.modReads f).pan j = s.pan j) ∧ (∀ j : Nat, (s.modReads f).bed j = s.bed j) ∧
    (∀ j : Nat, (s.modReads f).sched j = s.sched j) ∧ (∀ j : Nat, (s.modReads f).ptSt j = s.ptSt j) ∧
    (∀ j : Nat, (s.modReads f).key j = s.key j) ∧ (∀ j : Nat, (s.modReads f).reg j = s.reg j) ∧
    (∀ i j : Nat, (s.modReads f).latched i j = s.latched i j) ∧ (s.modReads f).devContained = s.devContained ∧
    (∀ j : Nat, (s.modReads f).tenantCause j = s.tenantCause j) ∧
    (∀ j : Nat, (s.modReads f).tenantStopped j = s.tenantStopped j) ∧
    (∀ j : Nat, (s.modReads f).portCause j = s.portCause j) ∧ (∀ j : Nat, (s.modReads f).linkCause j = s.linkCause j) ∧
    (∀ j : Nat, (s.modReads f).followed j = s.followed j) ∧ (s.modReads f).served = s.served :=
  ⟨rfl, rfl, rfl, rfl, rfl, rfl, rfl, rfl, rfl, rfl, rfl, rfl, rfl, rfl, rfl, rfl, rfl, rfl, rfl, rfl, rfl, rfl, rfl,
  rfl, rfl, rfl, rfl, rfl, rfl, rfl, fun _ => rfl, fun _ => rfl, fun _ => rfl, fun _ => rfl, fun _ => rfl, fun _ => rfl,
  fun _ => rfl, fun _ => rfl, fun _ => rfl, fun _ => rfl, fun _ => rfl, fun _ => rfl, fun _ => rfl, fun _ => rfl,
  fun _ => rfl, fun _ => rfl, fun _ _ => rfl, rfl, fun _ => rfl, fun _ => rfl, fun _ => rfl, fun _ => rfl, fun _ => rfl,
  rfl⟩

@[simp] theorem State.modReads_reads (s : State) (f : List HeldRead → List HeldRead) : (s.modReads f).reads = f s.reads := rfl

@[simp] theorem State.setReg_frame (s : State) (k : Nat) (v : Word) :
    (s.setReg k v).pending = s.pending ∧ (s.setReg k v).now = s.now ∧ (s.setReg k v).fresh = s.fresh ∧
    (s.setReg k v).out = s.out ∧ (s.setReg k v).latch = s.latch ∧ (s.setReg k v).pins = s.pins ∧
    (s.setReg k v).mon = s.mon ∧ (s.setReg k v).boot = s.boot ∧ (s.setReg k v).mram = s.mram ∧ (s.setReg k v).img = s.img ∧
    (s.setReg k v).her = s.her ∧ (s.setReg k v).ep = s.ep ∧ (s.setReg k v).cont = s.cont ∧ (s.setReg k v).win = s.win ∧
    (s.setReg k v).reads = s.reads ∧ (s.setReg k v).liq = s.liq ∧ (s.setReg k v).tal = s.tal ∧ (s.setReg k v).pwr = s.pwr ∧
    (s.setReg k v).tide = s.tide ∧ (s.setReg k v).weirs = s.weirs ∧ (s.setReg k v).qs = s.qs ∧
    (s.setReg k v).ports = s.ports ∧ (s.setReg k v).profs = s.profs ∧ (s.setReg k v).har = s.har ∧
    (s.setReg k v).lanes = s.lanes ∧ (s.setReg k v).links = s.links ∧ (s.setReg k v).twin = s.twin ∧
    (s.setReg k v).spares = s.spares ∧ (s.setReg k v).dbg = s.dbg ∧ (s.setReg k v).log = s.log ∧
    (∀ j : Nat, (s.setReg k v).port j = s.port j) ∧ (∀ j : Nat, (s.setReg k v).prof j = s.prof j) ∧
    (∀ j : Nat, (s.setReg k v).lane j = s.lane j) ∧ (∀ j : Nat, (s.setReg k v).link j = s.link j) ∧
    (∀ j : Nat, (s.setReg k v).mb j = s.mb j) ∧ (∀ j : Nat, (s.setReg k v).fn j = s.fn j) ∧
    (∀ j : Nat, (s.setReg k v).dom j = s.dom j) ∧ (∀ j : Nat, (s.setReg k v).tally j = s.tally j) ∧
    (∀ j : Nat, (s.setReg k v).q j = s.q j) ∧ (∀ j : Nat, (s.setReg k v).slot j = s.slot j) ∧
    (∀ j : Nat, (s.setReg k v).pan j = s.pan j) ∧ (∀ j : Nat, (s.setReg k v).bed j = s.bed j) ∧
    (∀ j : Nat, (s.setReg k v).sched j = s.sched j) ∧ (∀ j : Nat, (s.setReg k v).ptSt j = s.ptSt j) ∧
    (∀ j : Nat, (s.setReg k v).key j = s.key j) ∧ (∀ i j : Nat, (s.setReg k v).latched i j = s.latched i j) ∧
    (s.setReg k v).devContained = s.devContained ∧ (∀ j : Nat, (s.setReg k v).tenantCause j = s.tenantCause j) ∧
    (∀ j : Nat, (s.setReg k v).tenantStopped j = s.tenantStopped j) ∧
    (∀ j : Nat, (s.setReg k v).portCause j = s.portCause j) ∧ (∀ j : Nat, (s.setReg k v).linkCause j = s.linkCause j) ∧
    (∀ j : Nat, (s.setReg k v).followed j = s.followed j) ∧ (s.setReg k v).served = s.served :=
  ⟨rfl, rfl, rfl, rfl, rfl, rfl, rfl, rfl, rfl, rfl, rfl, rfl, rfl, rfl, rfl, rfl, rfl, rfl, rfl, rfl, rfl, rfl, rfl,
  rfl, rfl, rfl, rfl, rfl, rfl, rfl, fun _ => rfl, fun _ => rfl, fun _ => rfl, fun _ => rfl, fun _ => rfl, fun _ => rfl,
  fun _ => rfl, fun _ => rfl, fun _ => rfl, fun _ => rfl, fun _ => rfl, fun _ => rfl, fun _ => rfl, fun _ => rfl,
  fun _ => rfl, fun _ _ => rfl, rfl, fun _ => rfl, fun _ => rfl, fun _ => rfl, fun _ => rfl, fun _ => rfl, rfl⟩

theorem State.setReg_reg (s : State) (k j : Nat) (v : Word) : (s.setReg k v).reg j = if j = k then v else s.reg j := Tbl.get_set _ _ _ _ _

@[simp] theorem State.setReg_reg_same (s : State) (k : Nat) (v : Word) : (s.setReg k v).reg k = v := Tbl.get_set_same _ _ _ _

@[simp] theorem State.addReg_frame (s : State) (k n : Nat) :
    (s.addReg k n).pending = s.pending ∧ (s.addReg k n).now = s.now ∧ (s.addReg k n).fresh = s.fresh ∧
    (s.addReg k n).out = s.out ∧ (s.addReg k n).latch = s.latch ∧ (s.addReg k n).pins = s.pins ∧
    (s.addReg k n).mon = s.mon ∧ (s.addReg k n).boot = s.boot ∧ (s.addReg k n).mram = s.mram ∧ (s.addReg k n).img = s.img ∧
    (s.addReg k n).her = s.her ∧ (s.addReg k n).ep = s.ep ∧ (s.addReg k n).cont = s.cont ∧ (s.addReg k n).win = s.win ∧
    (s.addReg k n).reads = s.reads ∧ (s.addReg k n).liq = s.liq ∧ (s.addReg k n).tal = s.tal ∧ (s.addReg k n).pwr = s.pwr ∧
    (s.addReg k n).tide = s.tide ∧ (s.addReg k n).weirs = s.weirs ∧ (s.addReg k n).qs = s.qs ∧
    (s.addReg k n).ports = s.ports ∧ (s.addReg k n).profs = s.profs ∧ (s.addReg k n).har = s.har ∧
    (s.addReg k n).lanes = s.lanes ∧ (s.addReg k n).links = s.links ∧ (s.addReg k n).twin = s.twin ∧
    (s.addReg k n).spares = s.spares ∧ (s.addReg k n).dbg = s.dbg ∧ (s.addReg k n).log = s.log ∧
    (∀ j : Nat, (s.addReg k n).port j = s.port j) ∧ (∀ j : Nat, (s.addReg k n).prof j = s.prof j) ∧
    (∀ j : Nat, (s.addReg k n).lane j = s.lane j) ∧ (∀ j : Nat, (s.addReg k n).link j = s.link j) ∧
    (∀ j : Nat, (s.addReg k n).mb j = s.mb j) ∧ (∀ j : Nat, (s.addReg k n).fn j = s.fn j) ∧
    (∀ j : Nat, (s.addReg k n).dom j = s.dom j) ∧ (∀ j : Nat, (s.addReg k n).tally j = s.tally j) ∧
    (∀ j : Nat, (s.addReg k n).q j = s.q j) ∧ (∀ j : Nat, (s.addReg k n).slot j = s.slot j) ∧
    (∀ j : Nat, (s.addReg k n).pan j = s.pan j) ∧ (∀ j : Nat, (s.addReg k n).bed j = s.bed j) ∧
    (∀ j : Nat, (s.addReg k n).sched j = s.sched j) ∧ (∀ j : Nat, (s.addReg k n).ptSt j = s.ptSt j) ∧
    (∀ j : Nat, (s.addReg k n).key j = s.key j) ∧ (∀ i j : Nat, (s.addReg k n).latched i j = s.latched i j) ∧
    (s.addReg k n).devContained = s.devContained ∧ (∀ j : Nat, (s.addReg k n).tenantCause j = s.tenantCause j) ∧
    (∀ j : Nat, (s.addReg k n).tenantStopped j = s.tenantStopped j) ∧
    (∀ j : Nat, (s.addReg k n).portCause j = s.portCause j) ∧ (∀ j : Nat, (s.addReg k n).linkCause j = s.linkCause j) ∧
    (∀ j : Nat, (s.addReg k n).followed j = s.followed j) ∧ (s.addReg k n).served = s.served :=
  ⟨rfl, rfl, rfl, rfl, rfl, rfl, rfl, rfl, rfl, rfl, rfl, rfl, rfl, rfl, rfl, rfl, rfl, rfl, rfl, rfl, rfl, rfl, rfl,
  rfl, rfl, rfl, rfl, rfl, rfl, rfl, fun _ => rfl, fun _ => rfl, fun _ => rfl, fun _ => rfl, fun _ => rfl, fun _ => rfl,
  fun _ => rfl, fun _ => rfl, fun _ => rfl, fun _ => rfl, fun _ => rfl, fun _ => rfl, fun _ => rfl, fun _ => rfl,
  fun _ => rfl, fun _ _ => rfl, rfl, fun _ => rfl, fun _ => rfl, fun _ => rfl, fun _ => rfl, fun _ => rfl, rfl⟩

theorem State.addReg_reg (s : State) (k j n : Nat) : (s.addReg k n).reg j = if j = k then s.reg k + w32 n else s.reg j := Tbl.get_set _ _ _ _ _

@[simp] theorem State.incReg_frame (s : State) (k : Nat) :
    (s.incReg k).pending = s.pending ∧ (s.incReg k).now = s.now ∧ (s.incReg k).fresh = s.fresh ∧ (s.incReg k).out = s.out ∧
    (s.incReg k).latch = s.latch ∧ (s.incReg k).pins = s.pins ∧ (s.incReg k).mon = s.mon ∧ (s.incReg k).boot = s.boot ∧
    (s.incReg k).mram = s.mram ∧ (s.incReg k).img = s.img ∧ (s.incReg k).her = s.her ∧ (s.incReg k).ep = s.ep ∧
    (s.incReg k).cont = s.cont ∧ (s.incReg k).win = s.win ∧ (s.incReg k).reads = s.reads ∧ (s.incReg k).liq = s.liq ∧
    (s.incReg k).tal = s.tal ∧ (s.incReg k).pwr = s.pwr ∧ (s.incReg k).tide = s.tide ∧ (s.incReg k).weirs = s.weirs ∧
    (s.incReg k).qs = s.qs ∧ (s.incReg k).ports = s.ports ∧ (s.incReg k).profs = s.profs ∧ (s.incReg k).har = s.har ∧
    (s.incReg k).lanes = s.lanes ∧ (s.incReg k).links = s.links ∧ (s.incReg k).twin = s.twin ∧
    (s.incReg k).spares = s.spares ∧ (s.incReg k).dbg = s.dbg ∧ (s.incReg k).log = s.log ∧
    (∀ j : Nat, (s.incReg k).port j = s.port j) ∧ (∀ j : Nat, (s.incReg k).prof j = s.prof j) ∧
    (∀ j : Nat, (s.incReg k).lane j = s.lane j) ∧ (∀ j : Nat, (s.incReg k).link j = s.link j) ∧
    (∀ j : Nat, (s.incReg k).mb j = s.mb j) ∧ (∀ j : Nat, (s.incReg k).fn j = s.fn j) ∧
    (∀ j : Nat, (s.incReg k).dom j = s.dom j) ∧ (∀ j : Nat, (s.incReg k).tally j = s.tally j) ∧
    (∀ j : Nat, (s.incReg k).q j = s.q j) ∧ (∀ j : Nat, (s.incReg k).slot j = s.slot j) ∧
    (∀ j : Nat, (s.incReg k).pan j = s.pan j) ∧ (∀ j : Nat, (s.incReg k).bed j = s.bed j) ∧
    (∀ j : Nat, (s.incReg k).sched j = s.sched j) ∧ (∀ j : Nat, (s.incReg k).ptSt j = s.ptSt j) ∧
    (∀ j : Nat, (s.incReg k).key j = s.key j) ∧ (∀ i j : Nat, (s.incReg k).latched i j = s.latched i j) ∧
    (s.incReg k).devContained = s.devContained ∧ (∀ j : Nat, (s.incReg k).tenantCause j = s.tenantCause j) ∧
    (∀ j : Nat, (s.incReg k).tenantStopped j = s.tenantStopped j) ∧ (∀ j : Nat, (s.incReg k).portCause j = s.portCause j) ∧
    (∀ j : Nat, (s.incReg k).linkCause j = s.linkCause j) ∧ (∀ j : Nat, (s.incReg k).followed j = s.followed j) ∧
    (s.incReg k).served = s.served :=
  ⟨rfl, rfl, rfl, rfl, rfl, rfl, rfl, rfl, rfl, rfl, rfl, rfl, rfl, rfl, rfl, rfl, rfl, rfl, rfl, rfl, rfl, rfl, rfl,
  rfl, rfl, rfl, rfl, rfl, rfl, rfl, fun _ => rfl, fun _ => rfl, fun _ => rfl, fun _ => rfl, fun _ => rfl, fun _ => rfl,
  fun _ => rfl, fun _ => rfl, fun _ => rfl, fun _ => rfl, fun _ => rfl, fun _ => rfl, fun _ => rfl, fun _ => rfl,
  fun _ => rfl, fun _ _ => rfl, rfl, fun _ => rfl, fun _ => rfl, fun _ => rfl, fun _ => rfl, fun _ => rfl, rfl⟩

theorem State.incReg_reg (s : State) (k j : Nat) : (s.incReg k).reg j = if j = k then s.reg k + 1#32 else s.reg j := Tbl.get_set _ _ _ _ _

@[simp] theorem State.emit_frame (s : State) (o : Output) :
    (s.emit o).pending = s.pending ∧ (s.emit o).now = s.now ∧ (s.emit o).fresh = s.fresh ∧ (s.emit o).regs = s.regs ∧
    (s.emit o).latch = s.latch ∧ (s.emit o).pins = s.pins ∧ (s.emit o).mon = s.mon ∧ (s.emit o).boot = s.boot ∧
    (s.emit o).mram = s.mram ∧ (s.emit o).img = s.img ∧ (s.emit o).her = s.her ∧ (s.emit o).ep = s.ep ∧
    (s.emit o).cont = s.cont ∧ (s.emit o).win = s.win ∧ (s.emit o).reads = s.reads ∧ (s.emit o).liq = s.liq ∧
    (s.emit o).tal = s.tal ∧ (s.emit o).pwr = s.pwr ∧ (s.emit o).tide = s.tide ∧ (s.emit o).weirs = s.weirs ∧
    (s.emit o).qs = s.qs ∧ (s.emit o).ports = s.ports ∧ (s.emit o).profs = s.profs ∧ (s.emit o).har = s.har ∧
    (s.emit o).lanes = s.lanes ∧ (s.emit o).links = s.links ∧ (s.emit o).twin = s.twin ∧ (s.emit o).spares = s.spares ∧
    (s.emit o).dbg = s.dbg ∧ (s.emit o).log = s.log ∧ (∀ j : Nat, (s.emit o).port j = s.port j) ∧
    (∀ j : Nat, (s.emit o).prof j = s.prof j) ∧ (∀ j : Nat, (s.emit o).lane j = s.lane j) ∧
    (∀ j : Nat, (s.emit o).link j = s.link j) ∧ (∀ j : Nat, (s.emit o).mb j = s.mb j) ∧
    (∀ j : Nat, (s.emit o).fn j = s.fn j) ∧ (∀ j : Nat, (s.emit o).dom j = s.dom j) ∧
    (∀ j : Nat, (s.emit o).tally j = s.tally j) ∧ (∀ j : Nat, (s.emit o).q j = s.q j) ∧
    (∀ j : Nat, (s.emit o).slot j = s.slot j) ∧ (∀ j : Nat, (s.emit o).pan j = s.pan j) ∧
    (∀ j : Nat, (s.emit o).bed j = s.bed j) ∧ (∀ j : Nat, (s.emit o).sched j = s.sched j) ∧
    (∀ j : Nat, (s.emit o).ptSt j = s.ptSt j) ∧ (∀ j : Nat, (s.emit o).key j = s.key j) ∧
    (∀ j : Nat, (s.emit o).reg j = s.reg j) ∧ (∀ i j : Nat, (s.emit o).latched i j = s.latched i j) ∧
    (s.emit o).devContained = s.devContained ∧ (∀ j : Nat, (s.emit o).tenantCause j = s.tenantCause j) ∧
    (∀ j : Nat, (s.emit o).tenantStopped j = s.tenantStopped j) ∧ (∀ j : Nat, (s.emit o).portCause j = s.portCause j) ∧
    (∀ j : Nat, (s.emit o).linkCause j = s.linkCause j) ∧ (∀ j : Nat, (s.emit o).followed j = s.followed j) ∧
    (s.emit o).served = s.served :=
  ⟨rfl, rfl, rfl, rfl, rfl, rfl, rfl, rfl, rfl, rfl, rfl, rfl, rfl, rfl, rfl, rfl, rfl, rfl, rfl, rfl, rfl, rfl, rfl,
  rfl, rfl, rfl, rfl, rfl, rfl, rfl, fun _ => rfl, fun _ => rfl, fun _ => rfl, fun _ => rfl, fun _ => rfl, fun _ => rfl,
  fun _ => rfl, fun _ => rfl, fun _ => rfl, fun _ => rfl, fun _ => rfl, fun _ => rfl, fun _ => rfl, fun _ => rfl,
  fun _ => rfl, fun _ => rfl, fun _ _ => rfl, rfl, fun _ => rfl, fun _ => rfl, fun _ => rfl, fun _ => rfl, fun _ => rfl,
  rfl⟩

@[simp] theorem State.emit_out (s : State) (o : Output) : (s.emit o).out = o :: s.out := rfl

@[simp] theorem State.setLatch_frame (s : State) (a b : Nat) (v : Option Word) :
    (s.setLatch a b v).pending = s.pending ∧ (s.setLatch a b v).now = s.now ∧ (s.setLatch a b v).fresh = s.fresh ∧
    (s.setLatch a b v).out = s.out ∧ (s.setLatch a b v).regs = s.regs ∧ (s.setLatch a b v).pins = s.pins ∧
    (s.setLatch a b v).mon = s.mon ∧ (s.setLatch a b v).boot = s.boot ∧ (s.setLatch a b v).mram = s.mram ∧
    (s.setLatch a b v).img = s.img ∧ (s.setLatch a b v).her = s.her ∧ (s.setLatch a b v).ep = s.ep ∧
    (s.setLatch a b v).cont = s.cont ∧ (s.setLatch a b v).win = s.win ∧ (s.setLatch a b v).reads = s.reads ∧
    (s.setLatch a b v).liq = s.liq ∧ (s.setLatch a b v).tal = s.tal ∧ (s.setLatch a b v).pwr = s.pwr ∧
    (s.setLatch a b v).tide = s.tide ∧ (s.setLatch a b v).weirs = s.weirs ∧ (s.setLatch a b v).qs = s.qs ∧
    (s.setLatch a b v).ports = s.ports ∧ (s.setLatch a b v).profs = s.profs ∧ (s.setLatch a b v).har = s.har ∧
    (s.setLatch a b v).lanes = s.lanes ∧ (s.setLatch a b v).links = s.links ∧ (s.setLatch a b v).twin = s.twin ∧
    (s.setLatch a b v).spares = s.spares ∧ (s.setLatch a b v).dbg = s.dbg ∧ (s.setLatch a b v).log = s.log ∧
    (∀ j : Nat, (s.setLatch a b v).port j = s.port j) ∧ (∀ j : Nat, (s.setLatch a b v).prof j = s.prof j) ∧
    (∀ j : Nat, (s.setLatch a b v).lane j = s.lane j) ∧ (∀ j : Nat, (s.setLatch a b v).link j = s.link j) ∧
    (∀ j : Nat, (s.setLatch a b v).mb j = s.mb j) ∧ (∀ j : Nat, (s.setLatch a b v).fn j = s.fn j) ∧
    (∀ j : Nat, (s.setLatch a b v).dom j = s.dom j) ∧ (∀ j : Nat, (s.setLatch a b v).tally j = s.tally j) ∧
    (∀ j : Nat, (s.setLatch a b v).q j = s.q j) ∧ (∀ j : Nat, (s.setLatch a b v).slot j = s.slot j) ∧
    (∀ j : Nat, (s.setLatch a b v).pan j = s.pan j) ∧ (∀ j : Nat, (s.setLatch a b v).bed j = s.bed j) ∧
    (∀ j : Nat, (s.setLatch a b v).sched j = s.sched j) ∧ (∀ j : Nat, (s.setLatch a b v).ptSt j = s.ptSt j) ∧
    (∀ j : Nat, (s.setLatch a b v).key j = s.key j) ∧ (∀ j : Nat, (s.setLatch a b v).reg j = s.reg j) ∧
    (s.setLatch a b v).devContained = s.devContained ∧ (∀ j : Nat, (s.setLatch a b v).tenantCause j = s.tenantCause j) ∧
    (∀ j : Nat, (s.setLatch a b v).tenantStopped j = s.tenantStopped j) ∧
    (∀ j : Nat, (s.setLatch a b v).portCause j = s.portCause j) ∧
    (∀ j : Nat, (s.setLatch a b v).linkCause j = s.linkCause j) ∧
    (∀ j : Nat, (s.setLatch a b v).followed j = s.followed j) ∧ (s.setLatch a b v).served = s.served :=
  ⟨rfl, rfl, rfl, rfl, rfl, rfl, rfl, rfl, rfl, rfl, rfl, rfl, rfl, rfl, rfl, rfl, rfl, rfl, rfl, rfl, rfl, rfl, rfl,
  rfl, rfl, rfl, rfl, rfl, rfl, rfl, fun _ => rfl, fun _ => rfl, fun _ => rfl, fun _ => rfl, fun _ => rfl, fun _ => rfl,
  fun _ => rfl, fun _ => rfl, fun _ => rfl, fun _ => rfl, fun _ => rfl, fun _ => rfl, fun _ => rfl, fun _ => rfl,
  fun _ => rfl, fun _ => rfl, rfl, fun _ => rfl, fun _ => rfl, fun _ => rfl, fun _ => rfl, fun _ => rfl, rfl⟩

@[simp] theorem State.atTime_frame (s : State) (t : Nat) :
    (s.atTime t).pending = s.pending ∧ (s.atTime t).fresh = s.fresh ∧ (s.atTime t).out = s.out ∧
    (s.atTime t).regs = s.regs ∧ (s.atTime t).latch = s.latch ∧ (s.atTime t).pins = s.pins ∧ (s.atTime t).mon = s.mon ∧
    (s.atTime t).boot = s.boot ∧ (s.atTime t).mram = s.mram ∧ (s.atTime t).img = s.img ∧ (s.atTime t).her = s.her ∧
    (s.atTime t).ep = s.ep ∧ (s.atTime t).cont = s.cont ∧ (s.atTime t).win = s.win ∧ (s.atTime t).reads = s.reads ∧
    (s.atTime t).liq = s.liq ∧ (s.atTime t).tal = s.tal ∧ (s.atTime t).pwr = s.pwr ∧ (s.atTime t).tide = s.tide ∧
    (s.atTime t).weirs = s.weirs ∧ (s.atTime t).qs = s.qs ∧ (s.atTime t).ports = s.ports ∧ (s.atTime t).profs = s.profs ∧
    (s.atTime t).har = s.har ∧ (s.atTime t).lanes = s.lanes ∧ (s.atTime t).links = s.links ∧ (s.atTime t).twin = s.twin ∧
    (s.atTime t).spares = s.spares ∧ (s.atTime t).dbg = s.dbg ∧ (s.atTime t).log = s.log ∧
    (∀ j : Nat, (s.atTime t).port j = s.port j) ∧ (∀ j : Nat, (s.atTime t).prof j = s.prof j) ∧
    (∀ j : Nat, (s.atTime t).lane j = s.lane j) ∧ (∀ j : Nat, (s.atTime t).link j = s.link j) ∧
    (∀ j : Nat, (s.atTime t).mb j = s.mb j) ∧ (∀ j : Nat, (s.atTime t).fn j = s.fn j) ∧
    (∀ j : Nat, (s.atTime t).dom j = s.dom j) ∧ (∀ j : Nat, (s.atTime t).tally j = s.tally j) ∧
    (∀ j : Nat, (s.atTime t).q j = s.q j) ∧ (∀ j : Nat, (s.atTime t).slot j = s.slot j) ∧
    (∀ j : Nat, (s.atTime t).pan j = s.pan j) ∧ (∀ j : Nat, (s.atTime t).bed j = s.bed j) ∧
    (∀ j : Nat, (s.atTime t).sched j = s.sched j) ∧ (∀ j : Nat, (s.atTime t).ptSt j = s.ptSt j) ∧
    (∀ j : Nat, (s.atTime t).key j = s.key j) ∧ (∀ j : Nat, (s.atTime t).reg j = s.reg j) ∧
    (∀ i j : Nat, (s.atTime t).latched i j = s.latched i j) ∧ (s.atTime t).devContained = s.devContained ∧
    (∀ j : Nat, (s.atTime t).tenantCause j = s.tenantCause j) ∧
    (∀ j : Nat, (s.atTime t).tenantStopped j = s.tenantStopped j) ∧ (∀ j : Nat, (s.atTime t).portCause j = s.portCause j) ∧
    (∀ j : Nat, (s.atTime t).linkCause j = s.linkCause j) ∧ (∀ j : Nat, (s.atTime t).followed j = s.followed j) ∧
    (s.atTime t).served = s.served :=
  ⟨rfl, rfl, rfl, rfl, rfl, rfl, rfl, rfl, rfl, rfl, rfl, rfl, rfl, rfl, rfl, rfl, rfl, rfl, rfl, rfl, rfl, rfl, rfl,
  rfl, rfl, rfl, rfl, rfl, rfl, rfl, fun _ => rfl, fun _ => rfl, fun _ => rfl, fun _ => rfl, fun _ => rfl, fun _ => rfl,
  fun _ => rfl, fun _ => rfl, fun _ => rfl, fun _ => rfl, fun _ => rfl, fun _ => rfl, fun _ => rfl, fun _ => rfl,
  fun _ => rfl, fun _ => rfl, fun _ _ => rfl, rfl, fun _ => rfl, fun _ => rfl, fun _ => rfl, fun _ => rfl, fun _ => rfl,
  rfl⟩

@[simp] theorem State.atTime_now (s : State) (t : Nat) : (s.atTime t).now = max s.now t := rfl

@[simp] theorem State.bump_frame (s : State) :
    (s.bump).pending = s.pending ∧ (s.bump).now = s.now ∧ (s.bump).out = s.out ∧ (s.bump).regs = s.regs ∧
    (s.bump).latch = s.latch ∧ (s.bump).pins = s.pins ∧ (s.bump).mon = s.mon ∧ (s.bump).boot = s.boot ∧
    (s.bump).mram = s.mram ∧ (s.bump).img = s.img ∧ (s.bump).her = s.her ∧ (s.bump).ep = s.ep ∧ (s.bump).cont = s.cont ∧
    (s.bump).win = s.win ∧ (s.bump).reads = s.reads ∧ (s.bump).liq = s.liq ∧ (s.bump).tal = s.tal ∧ (s.bump).pwr = s.pwr ∧
    (s.bump).tide = s.tide ∧ (s.bump).weirs = s.weirs ∧ (s.bump).qs = s.qs ∧ (s.bump).ports = s.ports ∧
    (s.bump).profs = s.profs ∧ (s.bump).har = s.har ∧ (s.bump).lanes = s.lanes ∧ (s.bump).links = s.links ∧
    (s.bump).twin = s.twin ∧ (s.bump).spares = s.spares ∧ (s.bump).dbg = s.dbg ∧ (s.bump).log = s.log ∧
    (∀ j : Nat, (s.bump).port j = s.port j) ∧ (∀ j : Nat, (s.bump).prof j = s.prof j) ∧
    (∀ j : Nat, (s.bump).lane j = s.lane j) ∧ (∀ j : Nat, (s.bump).link j = s.link j) ∧
    (∀ j : Nat, (s.bump).mb j = s.mb j) ∧ (∀ j : Nat, (s.bump).fn j = s.fn j) ∧ (∀ j : Nat, (s.bump).dom j = s.dom j) ∧
    (∀ j : Nat, (s.bump).tally j = s.tally j) ∧ (∀ j : Nat, (s.bump).q j = s.q j) ∧
    (∀ j : Nat, (s.bump).slot j = s.slot j) ∧ (∀ j : Nat, (s.bump).pan j = s.pan j) ∧
    (∀ j : Nat, (s.bump).bed j = s.bed j) ∧ (∀ j : Nat, (s.bump).sched j = s.sched j) ∧
    (∀ j : Nat, (s.bump).ptSt j = s.ptSt j) ∧ (∀ j : Nat, (s.bump).key j = s.key j) ∧
    (∀ j : Nat, (s.bump).reg j = s.reg j) ∧ (∀ i j : Nat, (s.bump).latched i j = s.latched i j) ∧
    (s.bump).devContained = s.devContained ∧ (∀ j : Nat, (s.bump).tenantCause j = s.tenantCause j) ∧
    (∀ j : Nat, (s.bump).tenantStopped j = s.tenantStopped j) ∧ (∀ j : Nat, (s.bump).portCause j = s.portCause j) ∧
    (∀ j : Nat, (s.bump).linkCause j = s.linkCause j) ∧ (∀ j : Nat, (s.bump).followed j = s.followed j) ∧
    (s.bump).served = s.served :=
  ⟨rfl, rfl, rfl, rfl, rfl, rfl, rfl, rfl, rfl, rfl, rfl, rfl, rfl, rfl, rfl, rfl, rfl, rfl, rfl, rfl, rfl, rfl, rfl,
  rfl, rfl, rfl, rfl, rfl, rfl, rfl, fun _ => rfl, fun _ => rfl, fun _ => rfl, fun _ => rfl, fun _ => rfl, fun _ => rfl,
  fun _ => rfl, fun _ => rfl, fun _ => rfl, fun _ => rfl, fun _ => rfl, fun _ => rfl, fun _ => rfl, fun _ => rfl,
  fun _ => rfl, fun _ => rfl, fun _ _ => rfl, rfl, fun _ => rfl, fun _ => rfl, fun _ => rfl, fun _ => rfl, fun _ => rfl,
  rfl⟩

@[simp] theorem State.bumpBy_frame (s : State) (n : Nat) :
    (s.bumpBy n).pending = s.pending ∧ (s.bumpBy n).now = s.now ∧ (s.bumpBy n).out = s.out ∧ (s.bumpBy n).regs = s.regs ∧
    (s.bumpBy n).latch = s.latch ∧ (s.bumpBy n).pins = s.pins ∧ (s.bumpBy n).mon = s.mon ∧ (s.bumpBy n).boot = s.boot ∧
    (s.bumpBy n).mram = s.mram ∧ (s.bumpBy n).img = s.img ∧ (s.bumpBy n).her = s.her ∧ (s.bumpBy n).ep = s.ep ∧
    (s.bumpBy n).cont = s.cont ∧ (s.bumpBy n).win = s.win ∧ (s.bumpBy n).reads = s.reads ∧ (s.bumpBy n).liq = s.liq ∧
    (s.bumpBy n).tal = s.tal ∧ (s.bumpBy n).pwr = s.pwr ∧ (s.bumpBy n).tide = s.tide ∧ (s.bumpBy n).weirs = s.weirs ∧
    (s.bumpBy n).qs = s.qs ∧ (s.bumpBy n).ports = s.ports ∧ (s.bumpBy n).profs = s.profs ∧ (s.bumpBy n).har = s.har ∧
    (s.bumpBy n).lanes = s.lanes ∧ (s.bumpBy n).links = s.links ∧ (s.bumpBy n).twin = s.twin ∧
    (s.bumpBy n).spares = s.spares ∧ (s.bumpBy n).dbg = s.dbg ∧ (s.bumpBy n).log = s.log ∧
    (∀ j : Nat, (s.bumpBy n).port j = s.port j) ∧ (∀ j : Nat, (s.bumpBy n).prof j = s.prof j) ∧
    (∀ j : Nat, (s.bumpBy n).lane j = s.lane j) ∧ (∀ j : Nat, (s.bumpBy n).link j = s.link j) ∧
    (∀ j : Nat, (s.bumpBy n).mb j = s.mb j) ∧ (∀ j : Nat, (s.bumpBy n).fn j = s.fn j) ∧
    (∀ j : Nat, (s.bumpBy n).dom j = s.dom j) ∧ (∀ j : Nat, (s.bumpBy n).tally j = s.tally j) ∧
    (∀ j : Nat, (s.bumpBy n).q j = s.q j) ∧ (∀ j : Nat, (s.bumpBy n).slot j = s.slot j) ∧
    (∀ j : Nat, (s.bumpBy n).pan j = s.pan j) ∧ (∀ j : Nat, (s.bumpBy n).bed j = s.bed j) ∧
    (∀ j : Nat, (s.bumpBy n).sched j = s.sched j) ∧ (∀ j : Nat, (s.bumpBy n).ptSt j = s.ptSt j) ∧
    (∀ j : Nat, (s.bumpBy n).key j = s.key j) ∧ (∀ j : Nat, (s.bumpBy n).reg j = s.reg j) ∧
    (∀ i j : Nat, (s.bumpBy n).latched i j = s.latched i j) ∧ (s.bumpBy n).devContained = s.devContained ∧
    (∀ j : Nat, (s.bumpBy n).tenantCause j = s.tenantCause j) ∧
    (∀ j : Nat, (s.bumpBy n).tenantStopped j = s.tenantStopped j) ∧ (∀ j : Nat, (s.bumpBy n).portCause j = s.portCause j) ∧
    (∀ j : Nat, (s.bumpBy n).linkCause j = s.linkCause j) ∧ (∀ j : Nat, (s.bumpBy n).followed j = s.followed j) ∧
    (s.bumpBy n).served = s.served :=
  ⟨rfl, rfl, rfl, rfl, rfl, rfl, rfl, rfl, rfl, rfl, rfl, rfl, rfl, rfl, rfl, rfl, rfl, rfl, rfl, rfl, rfl, rfl, rfl,
  rfl, rfl, rfl, rfl, rfl, rfl, rfl, fun _ => rfl, fun _ => rfl, fun _ => rfl, fun _ => rfl, fun _ => rfl, fun _ => rfl,
  fun _ => rfl, fun _ => rfl, fun _ => rfl, fun _ => rfl, fun _ => rfl, fun _ => rfl, fun _ => rfl, fun _ => rfl,
  fun _ => rfl, fun _ => rfl, fun _ _ => rfl, rfl, fun _ => rfl, fun _ => rfl, fun _ => rfl, fun _ => rfl, fun _ => rfl,
  rfl⟩

end Sys2Proof.Machine
end

