-- ==== Sys2Proof/Laws/Answer.lean ====
section
/-! SUPPORT. What the shared operations of a command's end do: messages, records, the response. A later proof cites these and unfolds none of the operations. -/

namespace Sys2Proof.Machine

/-- A message leaves the functions and the ports, and nothing else, changed, and what becomes of both depends on nothing else. -/
theorem deliverMsix_only (s : State) (h : Herdin) (r : Tbl Word) (fn e : Nat) :
    deliverMsix { s with her := h, regs := r } fn e
      = { s with her := h, regs := r, ep := (deliverMsix s fn e).ep, out := (deliverMsix s fn e).out } := by
  have e1 : State.fn { s with her := h, regs := r } = s.fn := rfl
  unfold deliverMsix
  simp only [e1]
  by_cases h1 : (s.fn fn).msixEnable = true
  · by_cases h2 : ((vec (s.fn fn) e).mask = true ∨ (s.fn fn).fnMask = true ∨ s.cont.dev = true ∨ (!(s.fn fn).busMaster) = true)
    · simp only [if_pos h1, if_pos h2]; rfl
    · simp only [if_pos h1, if_neg h2]; rfl
  · by_cases h3 : fn = 0 ∧ (s.fn fn).msiEnable = true
    · by_cases h4 : (bit (s.fn fn).msiMask.toNat (e % max 1 (s.fn fn).msiMsgs) = true ∨ s.cont.dev = true ∨ (!(s.fn fn).busMaster) = true)
      · simp only [if_neg h1, if_pos h3, if_pos h4]; rfl
      · simp only [if_neg h1, if_pos h3, if_neg h4]; rfl
    · simp only [if_neg h1, if_neg h3]

/-- The same for a message that D3hot may hold back. -/
theorem sendMsix_only (s : State) (h : Herdin) (r : Tbl Word) (fn e : Nat) :
    sendMsix { s with her := h, regs := r } fn e
      = { s with her := h, regs := r, ep := (sendMsix s fn e).ep, out := (sendMsix s fn e).out } := by
  have hd := deliverMsix_only s h r fn e
  unfold sendMsix
  by_cases h1 : fn = 0 ∧ e = 7 ∨ (s.fn fn).flr = true
  · have h1' : fn = 0 ∧ e = 7 ∨ (State.fn { s with her := h, regs := r } fn).flr = true := h1
    rw [if_pos h1, if_pos h1']
  · have h1' : ¬(fn = 0 ∧ e = 7 ∨ (State.fn { s with her := h, regs := r } fn).flr = true) := h1
    rw [if_neg h1, if_neg h1']
    by_cases h2 : (s.fn fn).d3hot = true
    · have h2' : (State.fn { s with her := h, regs := r } fn).d3hot = true := h2
      rw [if_pos h2, if_pos h2']
      rfl
    · have h2' : ¬(State.fn { s with her := h, regs := r } fn).d3hot = true := h2
      rw [if_neg h2, if_neg h2', hd]

/-- A record of a kind without a rate limit joins the queue of waiting records, and nothing else changes. -/
theorem raise_records (s : State) (e : Ev) (hr : LogRoom s) (hl : rateLimit e.code = 0) (hc : e.code ≠ Ev.contained ∨ e.key = 0) :
    Records s (s.raise e) e := by
  have h0 : ¬(e.code = Ev.contained ∧ e.key ≠ 0) := by
    rintro ⟨a, b⟩
    exact hc.elim (fun h => h a) b
  unfold State.raise
  rw [if_neg h0, if_pos hl]
  unfold enqueueRec
  rw [if_pos (show s.log.waiting.length < 256 from hr)]
  rfl

/-- The mailboxes' counters of commands and of rejections are apart. -/
theorem mbReg_apart (mb : Nat) : mbReg mb 0x200C ≠ mbReg mb 0x2010 := by
  unfold mbReg fnKey
  split
  · omega
  · split <;> omega

/-- The executing command. -/
theorem execCmd_some (s : State) (op mb : Nat) (c : Cmd) (h : Executing s op mb c) :
    s.her.exec = some mb ∧ (s.mb mb).cmd = some c ∧ c.opcode = op ∧ cmdHeld s mb = false := by
  unfold Executing execCmd at h
  split at h
  · cases h
  · rename_i m he
    split at h
    · rename_i d hd
      split at h
      · rename_i hc
        cases h
        exact ⟨he, hd, hc.1, by simpa using hc.2⟩
      · cases h
    · cases h

/-- The state with a response in place, before the message. -/
theorem respond_eq (s : State) (mb : Nat) (c : Cmd) (result cs reason detail : Nat) (payload : List Byte)
    (he : s.her.exec = some mb) (hc : (s.mb mb).cmd = some c) :
    ∃ h r, respond s mb result cs reason detail payload
        = (if bit c.flags 0 ∧ mb ≠ 65 then sendMsix { s with her := h, regs := r } (fnOf mb) 0 else { s with her := h, regs := r })
      ∧ h = { s.her with
          mb := s.her.mb.set mbInit mb { s.mb mb with rsp := rspBytes c result cs reason detail payload, st := .complete, cmd := none, seq := c.seq }
          exec := none }
      ∧ (∀ k, Tbl.get regReset r k = if k = mbReg mb 0x200C then s.reg k + 1
          else if k = mbReg mb 0x2010 then s.reg k + (if result = 2 then 1 else 0) else s.reg k) := by
  have hd := mbReg_apart mb
  unfold respond
  rw [hc]
  dsimp only
  by_cases h2 : result = 2
  · refine ⟨_, ((s.incReg (mbReg mb 0x200C)).incReg (mbReg mb 0x2010)).regs, ?_, rfl, ?_⟩
    · simp only [if_pos h2, State.modHer, State.modMb, State.setMb, he, if_true]
      rfl
    · intro k
      rw [if_pos h2]
      show State.reg ((s.incReg (mbReg mb 0x200C)).incReg (mbReg mb 0x2010)) k = _
      unfold State.incReg State.addReg
      rw [State.setReg_reg, State.setReg_reg, State.setReg_reg]
      by_cases k1 : k = mbReg mb 0x200C
      · subst k1; rw [if_neg hd, if_pos rfl, if_pos rfl]; rfl
      · by_cases k2 : k = mbReg mb 0x2010
        · subst k2; rw [if_pos rfl, if_neg k1, if_neg k1, if_pos rfl]; rfl
        · rw [if_neg k2, if_neg k1, if_neg k1, if_neg k2]
  · refine ⟨_, (s.incReg (mbReg mb 0x200C)).regs, ?_, rfl, ?_⟩
    · simp only [if_neg h2, State.modHer, State.modMb, State.setMb, he, if_true]
      rfl
    · intro k
      rw [if_neg h2]
      show State.reg (s.incReg (mbReg mb 0x200C)) k = _
      unfold State.incReg State.addReg
      rw [State.setReg_reg]
      by_cases k1 : k = mbReg mb 0x200C
      · subst k1; rw [if_pos rfl, if_pos rfl]; rfl
      · rw [if_neg k1, if_neg k1]
        split
        · exact (BitVec.add_zero _).symm
        · rfl

/-- A response does what `Answers` says, on the state that holds the command's effect. -/
theorem respond_answers (s : State) (mb : Nat) (c : Cmd) (result cs reason detail : Nat) (payload : List Byte)
    (he : s.her.exec = some mb) (hc : (s.mb mb).cmd = some c) :
    Answers s (respond s mb result cs reason detail payload) mb c result cs reason detail payload := by
  obtain ⟨h, r, e, eh, er⟩ := respond_eq s mb c result cs reason detail payload he hc
  have hd := mbReg_apart mb
  have key : ∃ ep out, respond s mb result cs reason detail payload = { s with her := h, regs := r, ep := ep, out := out }
      ∧ ep = (if bit c.flags 0 ∧ mb ≠ 65 then sendMsix s (fnOf mb) 0 else s).ep
      ∧ out = (if bit c.flags 0 ∧ mb ≠ 65 then sendMsix s (fnOf mb) 0 else s).out := by
    rw [e]
    by_cases g : bit c.flags 0 = true ∧ mb ≠ 65
    · rw [if_pos g, if_pos g, sendMsix_only]
      exact ⟨_, _, rfl, rfl, rfl⟩
    · rw [if_neg g, if_neg g]
      exact ⟨_, _, rfl, rfl, rfl⟩
  obtain ⟨ep, out, ek, e1, e2⟩ := key
  rw [ek]
  subst eh
  refine ⟨?_, ?_, rfl, ?_, ?_, ?_, e1, e2, rfl⟩
  · exact Tbl.get_set_same _ _ _ _
  · intro m hm
    exact Tbl.get_set_other _ _ _ _ _ hm
  · exact (er _).trans (if_pos rfl)
  · refine (er _).trans ?_
    rw [if_neg (Ne.symm hd), if_pos rfl]
  · intro k k1 k2
    refine (er k).trans ?_
    rw [if_neg k1, if_neg k2]

/-- The row of the executing command's opcode runs it. -/
theorem runCmd_executing {s : State} {op mb : Nat} {c : Cmd} (h : Executing s op mb c) (f : State → Nat → Cmd → State) :
    runCmd op s f = .next (f s mb c) := by
  unfold runCmd
  rw [show execCmd s op = some (mb, c) from h]

/-- The executing command's response, on a state `u` that holds its effect and the mailboxes as they were. -/
theorem executing_answers {s u : State} {op mb : Nat} {c : Cmd} (h : Executing s op mb c) (hu : u.her = s.her)
    (result cs reason detail : Nat) (payload : List Byte) :
    Answers u (respond u mb result cs reason detail payload) mb c result cs reason detail payload := by
  obtain ⟨a, b, -, -⟩ := execCmd_some _ _ _ _ h
  refine respond_answers u mb c result cs reason detail payload (by rw [hu]; exact a) ?_
  have e : u.mb mb = s.mb mb := by unfold State.mb; rw [hu]
  rw [e]
  exact b

end Sys2Proof.Machine
end

