-- ==== Sys2Proof/Laws/KeptBase.lean ====
section
/-! SUPPORT. What every operation keeps: the operations, the log, interrupts, the ledger, mailboxes, weirs and power. One lemma an operation says that it leaves the queue of waiting commands and the life-cycle fuses as they are (`State.core`); `transition` alone burns fuses. -/

namespace Sys2Proof.Machine

@[simp] theorem core_ite (c : Prop) [Decidable c] (a b : State) : (if c then a else b).core = if c then a.core else b.core := by split <;> rfl
@[simp] theorem foldl_core {α : Type} (f : State → α → State) (l : List α) (s : State) (h : ∀ u x, (f u x).core = u.core) : (l.foldl f s).core = s.core := by
  induction l generalizing s with
  | nil => rfl
  | cons x r ih => rw [List.foldl_cons, ih, h]
@[simp] theorem foldl_pair_core {α β : Type} (f : β × State → α → β × State) (l : List α) (s : β × State) (h : ∀ u x, (f u x).2.core = u.2.core) : (l.foldl f s).2.core = s.2.core := by
  induction l generalizing s with
  | nil => rfl
  | cons x r ih => rw [List.foldl_cons, ih, h]
@[simp] theorem core_pair_ite {β : Type} (c : Prop) [Decidable c] (a b : β × State) : (if c then a else b).2.core = if c then a.2.core else b.2.core := by split <;> rfl
@[simp] theorem core_fresh (s : State) (n : Nat) : State.core { s with fresh := n } = s.core := congrArg id (Eq.refl s.core)
@[simp] theorem core_now (s : State) (n : Nat) : State.core { s with now := n } = s.core := congrArg id (Eq.refl s.core)
@[simp] theorem core_regs_latch (s : State) (a b) : State.core { s with regs := a, latch := b } = s.core := congrArg id (Eq.refl s.core)
@[simp] theorem core_img (s : State) (a) : State.core { s with img := a } = s.core := congrArg id (Eq.refl s.core)
@[simp] theorem core_ports_boot (s : State) (a b) : State.core { s with ports := a, boot := b } = s.core := congrArg id (Eq.refl s.core)
@[simp] theorem core_dbg_boot (s : State) (a b) : State.core { s with dbg := a, boot := b } = s.core := congrArg id (Eq.refl s.core)
@[simp] theorem core_cont_mon (s : State) (a b) : State.core { s with cont := a, mon := b } = s.core := congrArg id (Eq.refl s.core)

/-! ## Ops.lean -/

@[simp] theorem State.setPort_core (s : State) (k : Nat) (v : Port) : (State.setPort s k v).core = s.core := by
  rfl

@[simp] theorem State.modPort_core (s : State) (k : Nat) (f : Port → Port) : (State.modPort s k f).core = s.core := by
  rfl

@[simp] theorem State.setProf_core (s : State) (k : Nat) (v : Prof) : (State.setProf s k v).core = s.core := by
  rfl

@[simp] theorem State.modProf_core (s : State) (k : Nat) (f : Prof → Prof) : (State.modProf s k f).core = s.core := by
  rfl

@[simp] theorem State.setLane_core (s : State) (k : Nat) (v : Lane) : (State.setLane s k v).core = s.core := by
  rfl

@[simp] theorem State.modLane_core (s : State) (k : Nat) (f : Lane → Lane) : (State.modLane s k f).core = s.core := by
  rfl

@[simp] theorem State.setLink_core (s : State) (k : Nat) (v : Link) : (State.setLink s k v).core = s.core := by
  rfl

@[simp] theorem State.modLink_core (s : State) (k : Nat) (f : Link → Link) : (State.modLink s k f).core = s.core := by
  rfl

@[simp] theorem State.setMb_core (s : State) (k : Nat) (v : Mailbox) : (State.setMb s k v).core = s.core := by
  rfl

@[simp] theorem State.modMb_core (s : State) (k : Nat) (f : Mailbox → Mailbox) : (State.modMb s k f).core = s.core := by
  rfl

@[simp] theorem State.setFn_core (s : State) (k : Nat) (v : FnState) : (State.setFn s k v).core = s.core := by
  rfl

@[simp] theorem State.modFn_core (s : State) (k : Nat) (f : FnState → FnState) : (State.modFn s k f).core = s.core := by
  rfl

@[simp] theorem State.setDom_core (s : State) (k : Nat) (v : Dom) : (State.setDom s k v).core = s.core := by
  rfl

@[simp] theorem State.modDom_core (s : State) (k : Nat) (f : Dom → Dom) : (State.modDom s k f).core = s.core := by
  rfl

@[simp] theorem State.setTally_core (s : State) (k : Nat) (v : TallyT) : (State.setTally s k v).core = s.core := by
  rfl

@[simp] theorem State.modTally_core (s : State) (k : Nat) (f : TallyT → TallyT) : (State.modTally s k f).core = s.core := by
  rfl

@[simp] theorem State.setQ_core (s : State) (k : Nat) (v : QCtx) : (State.setQ s k v).core = s.core := by
  rfl

@[simp] theorem State.modQ_core (s : State) (k : Nat) (f : QCtx → QCtx) : (State.modQ s k f).core = s.core := by
  rfl

@[simp] theorem State.setSlot_core (s : State) (k : Nat) (v : Slot) : (State.setSlot s k v).core = s.core := by
  rfl

@[simp] theorem State.modSlot_core (s : State) (k : Nat) (f : Slot → Slot) : (State.modSlot s k f).core = s.core := by
  rfl

@[simp] theorem State.setPan_core (s : State) (k : Nat) (v : Pan) : (State.setPan s k v).core = s.core := by
  rfl

@[simp] theorem State.modPan_core (s : State) (k : Nat) (f : Pan → Pan) : (State.modPan s k f).core = s.core := by
  rfl

@[simp] theorem State.setBed_core (s : State) (k : Nat) (v : Bed) : (State.setBed s k v).core = s.core := by
  rfl

@[simp] theorem State.modBed_core (s : State) (k : Nat) (f : Bed → Bed) : (State.modBed s k f).core = s.core := by
  rfl

@[simp] theorem State.setSched_core (s : State) (k : Nat) (v : Sched) : (State.setSched s k v).core = s.core := by
  rfl

@[simp] theorem State.modSched_core (s : State) (k : Nat) (f : Sched → Sched) : (State.modSched s k f).core = s.core := by
  rfl

@[simp] theorem State.setPtSt_core (s : State) (k : Nat) (v : PtState) : (State.setPtSt s k v).core = s.core := by
  rfl

@[simp] theorem State.modPtSt_core (s : State) (k : Nat) (f : PtState → PtState) : (State.modPtSt s k f).core = s.core := by
  rfl

@[simp] theorem State.setKey_core (s : State) (k : Nat) (v : KeySlot) : (State.setKey s k v).core = s.core := by
  rfl

@[simp] theorem State.modKey_core (s : State) (k : Nat) (f : KeySlot → KeySlot) : (State.modKey s k f).core = s.core := by
  rfl

@[simp] theorem State.modPins_core (s : State) (f : Pins → Pins) : (State.modPins s f).core = s.core := by
  rfl

@[simp] theorem State.modMon_core (s : State) (f : Monitors → Monitors) : (State.modMon s f).core = s.core := by
  rfl

@[simp] theorem State.modBoot_core (s : State) (f : Boot → Boot) : (State.modBoot s f).core = s.core := by
  rfl

@[simp] theorem State.modMram_core (s : State) (f : Mram → Mram) (h : (f s.mram).fuses = s.mram.fuses) :
    (State.modMram s f).core = s.core := by
  simp [State.core, State.modMram, h]

@[simp] theorem State.modHer_core (s : State) (f : Herdin → Herdin) : (State.modHer s f).core = s.core := rfl

@[simp] theorem State.modEp_core (s : State) (f : Endpoint → Endpoint) : (State.modEp s f).core = s.core := by
  rfl

@[simp] theorem State.modCont_core (s : State) (f : Contain → Contain) : (State.modCont s f).core = s.core := by
  rfl

@[simp] theorem State.modWin_core (s : State) (f : Windows → Windows) : (State.modWin s f).core = s.core := by
  rfl

@[simp] theorem State.modLiq_core (s : State) (f : Liquor → Liquor) : (State.modLiq s f).core = s.core := by
  rfl

@[simp] theorem State.modTal_core (s : State) (f : Tally → Tally) : (State.modTal s f).core = s.core := by
  rfl

@[simp] theorem State.modPwr_core (s : State) (f : Power → Power) : (State.modPwr s f).core = s.core := by
  rfl

@[simp] theorem State.modTide_core (s : State) (f : Tide → Tide) : (State.modTide s f).core = s.core := by
  rfl

@[simp] theorem State.modWeirs_core (s : State) (f : Weirs → Weirs) : (State.modWeirs s f).core = s.core := by
  rfl

@[simp] theorem State.modQs_core (s : State) (f : Queues → Queues) : (State.modQs s f).core = s.core := by
  rfl

@[simp] theorem State.modHar_core (s : State) (f : Harvest → Harvest) : (State.modHar s f).core = s.core := by
  rfl

@[simp] theorem State.modTwin_core (s : State) (f : Twin → Twin) : (State.modTwin s f).core = s.core := by
  rfl

@[simp] theorem State.modSpares_core (s : State) (f : Spares → Spares) : (State.modSpares s f).core = s.core := by
  rfl

@[simp] theorem State.modDbg_core (s : State) (f : Debug → Debug) : (State.modDbg s f).core = s.core := by
  rfl

@[simp] theorem State.modLog_core (s : State) (f : Log → Log) (hr : (f s.log).ring = s.log.ring) (hs : (f s.log).seq = s.log.seq) (hf : (f s.log).fok = s.log.fok) :
    (State.modLog s f).core = s.core := by
  simp [State.core, State.modLog, hr, hs, hf]

@[simp] theorem State.modReads_core (s : State) (f : List HeldRead → List HeldRead) : (State.modReads s f).core = s.core := by
  rfl

@[simp] theorem State.setReg_core (s : State) (k : Nat) (v : Word) : (State.setReg s k v).core = s.core := by
  rfl

@[simp] theorem State.addReg_core (s : State) (k n : Nat) : (State.addReg s k n).core = s.core := by
  rfl

@[simp] theorem State.incReg_core (s : State) (k : Nat) : (State.incReg s k).core = s.core := by
  rfl

@[simp] theorem State.emit_core (s : State) (o : Output) : (State.emit s o).core = s.core := by
  rfl

@[simp] theorem State.emits_core (s : State) (os : List Output) : (State.emits s os).core = s.core := by
  simp [State.emits]

@[simp] theorem State.atTime_core (s : State) (t : Nat) : (State.atTime s t).core = s.core := by
  rfl

@[simp] theorem State.bump_core (s : State) : (State.bump s).core = s.core := by
  rfl

@[simp] theorem State.bumpBy_core (s : State) (n : Nat) : (State.bumpBy s n).core = s.core := by
  rfl

@[simp] theorem State.setLatch_core (s : State) (fn off : Nat) (v : Option Word) : (State.setLatch s fn off v).core = s.core := by
  rfl

/-! ## Mirror.lean -/

@[simp] theorem twinSend_core (s : State) (mtype : Nat) (words : List Nat) : (twinSend s mtype words).core = s.core := by
  rfl

@[simp] theorem mirrorSend_core (s : State) (r : MirrorRec) : (mirrorSend s r).core = s.core := by
  rfl

@[simp] theorem mirrorNote_core (s : State) (t : Nat) (r : MirrorRec) : (mirrorNote s t r).core = s.core := by
  simp [mirrorNote]

@[simp] theorem mirrorHold_core (s : State) (t : Nat) (r : MirrorRec) (h : MirrorHold) (now : State → State) (hnow : ∀ (u : State), (now u).core = u.core) :
    (mirrorHold s t r h now).core = s.core := by
  unfold mirrorHold; (repeat' split) <;> simp_all

/-! ## Log.lean -/

@[simp] theorem enqueueRec_core (s : State) (r : EvRec) : (enqueueRec s r).core = s.core := by
  simp [enqueueRec]

@[simp] theorem raiseLimited_core (s : State) (e : Ev) (lim : Nat) : (raiseLimited s e lim).core = s.core := by
  simp [raiseLimited]

@[simp] theorem State.raise_core (s : State) (e : Ev) : (State.raise s e).core = s.core := by
  simp [State.raise]

/-! ## Irq.lean -/

@[simp] theorem setPend_core (s : State) (fn entry : Nat) (p : Bool) : (setPend s fn entry p).core = s.core := by
  rfl

@[simp] theorem setMsiPend_core (s : State) (n : Nat) (p : Bool) : (setMsiPend s n p).core = s.core := by
  rfl

@[simp] theorem deliverMsix_core (s : State) (fn entry : Nat) : (deliverMsix s fn entry).core = s.core := by
  simp [deliverMsix]

@[simp] theorem sendMsix_core (s : State) (fn entry : Nat) : (sendMsix s fn entry).core = s.core := by
  simp [sendMsix]

@[simp] theorem hostWrite_core (s : State) (tenant addr : Nat) (data : List Byte) : (hostWrite s tenant addr data).core = s.core := by
  simp [hostWrite]

@[simp] theorem releaseHeld_core (s : State) (o : Output) : (releaseHeld s o).core = s.core := by
  unfold releaseHeld; (repeat' split) <;> simp_all

@[simp] theorem releaseOuts_core (s : State) (fn : Nat) : (releaseOuts s fn).core = s.core := by
  simp [releaseOuts]

@[simp] theorem sendPending_core (s : State) (fn : Nat) : (sendPending s fn).core = s.core := by
  simp [sendPending]

@[simp] theorem raiseAlert_core (s : State) (i : Nat) : (raiseAlert s i).core = s.core := by
  rfl

/-! ## Liquor.lean -/

@[simp] theorem liqRetire_core (s : State) (t : Nat) : (liqRetire s t).core = s.core := by
  simp [liqRetire]

@[simp] theorem liqRetireAll_core (s : State) : (liqRetireAll s).core = s.core := by
  simp [liqRetireAll]

@[simp] theorem noteTag_core (s : State) (l : LiqLine) (here : Bool) : (noteTag s l here).core = s.core := by
  simp [noteTag]

@[simp] theorem dlogFate_core (s : State) (t target space line fate : Nat) : (dlogFate s t target space line fate).core = s.core := by
  unfold dlogFate; (repeat' split) <;> (try simp_all) <;> (repeat' split) <;> simp_all

@[simp] theorem dlogAdd_core (s : State) (e : DlogEntry) : (dlogAdd s e).core = s.core := by
  unfold dlogAdd; (repeat' split) <;> (try simp_all) <;> (repeat' split) <;> simp_all

@[simp] theorem liqRemove_core (s : State) (p : LiqLine → Bool) (q : LiqLine → LiqByte → Bool) (fate cnt : Nat) :
    (liqRemove s p q fate cnt).core = s.core := by
  simp [liqRemove]

@[simp] theorem liqConsume_core (s : State) (t target space : Nat) (addrs : List Nat) :
    (liqConsume s t target space addrs).core = s.core := by
  simp [liqConsume]

@[simp] theorem liqInvalidate_core (s : State) (target space lo len : Nat) : (liqInvalidate s target space lo len).core = s.core := by
  simp [liqInvalidate]

@[simp] theorem liqRetainLine_core (s : State) (t target space line pool reason cls : Nat) (bs : List (Nat × Byte)) :
    (liqRetainLine s t target space line pool reason cls bs).core = s.core := by
  simp [liqRetainLine]

@[simp] theorem liqRetain_core (s : State) (t target space pool reason cls : Nat) (stale : List (Nat × Nat)) (bs : List (Nat × Byte)) :
    (liqRetain s t target space pool reason cls stale bs).core = s.core := by
  simp [liqRetain]

@[simp] theorem evictFor_core (s : State) (n : Nat) (a0 : Nat) : (evictFor s n a0).core = s.core := by
  induction a0 generalizing s with
  | zero => rfl
  | succ m ih => unfold evictFor; (repeat' split) <;> simp_all

theorem reserveWide_core (s : State) (cls n : Nat) : ∀ z, reserveWide s cls n = some z → z.core = s.core := by
  intro z h
  unfold reserveWide at h
  dsimp only at h
  (repeat' split at h) <;> cases h <;> simp

@[simp] theorem liqExpireEff_core (s : State) (i : Nat) : (liqExpireEff s i).core = s.core := by
  unfold liqExpireEff; (repeat' split) <;> simp_all

/-! ## Tally.lean -/

@[simp] theorem issueTicket_core (s : State) (t target space addr len : Nat) (flood : Bool) :
    (issueTicket s t target space addr len flood).2.core = s.core := by
  simp [issueTicket]

@[simp] theorem keepFailure_core (s : State) (t : Nat) (k : Kept) : (keepFailure s t k).core = s.core := by
  rfl

@[simp] theorem latchFailure_core (s : State) (t : Nat) (k : Kept) : (latchFailure s t k).core = s.core := by
  simp [latchFailure]

@[simp] theorem raiseOpt_core (s : State) (ev : Option Ev) : (raiseOpt s ev).core = s.core := by
  unfold raiseOpt; (repeat' split) <;> simp_all

@[simp] theorem settle_core (s : State) (t ticket cs addr : Nat) (ev : Option Ev) : (settle s t ticket cs addr ev).core = s.core := by
  unfold settle; (repeat' split) <;> simp_all

@[simp] theorem settleContained_core (s : State) (t target space addr len : Nat) (ev : Option Ev) :
    (settleContained s t target space addr len ev).core = s.core := by
  simp [settleContained]

@[simp] theorem drainStaged_core (s : State) (t : Nat) (ev : Option Ev) : (drainStaged s t ev).2.core = s.core := by
  simp [drainStaged]

@[simp] theorem ackWrite_core (s : State) (t v : Nat) : (ackWrite s t v).core = s.core := by
  simp [ackWrite]

@[simp] theorem failRearm_core (s : State) (t v : Nat) : (failRearm s t v).core = s.core := by
  simp [failRearm]

@[simp] theorem noteTally_core (s : State) (t : Nat) : (noteTally s t).core = s.core := by
  simp [noteTally]

@[simp] theorem startFence_core (s : State) (t n : Nat) (clamped : Bool) (mb : Option Nat) (queue : Option (Nat × Nat)) :
    (startFence s t n clamped mb queue).core = s.core := by
  rfl

/-! ## MbCore.lean -/

@[simp] theorem respond_core (s : State) (mb result cs reason detail : Nat) (payload : List Byte) :
    (respond s mb result cs reason detail payload).core = s.core := by
  unfold respond; (repeat' split) <;> simp_all

@[simp] theorem ran_core (s : State) (mb cs : Nat) (payload : List Byte) : (ran s mb cs payload).core = s.core := by
  simp [ran]

@[simp] theorem done_core (s : State) (mb : Nat) (payload : List Byte) : (done s mb payload).core = s.core := by
  simp [done]

@[simp] theorem refuse_core (s : State) (mb reason detail : Nat) : (refuse s mb reason detail).core = s.core := by
  simp [refuse]

@[simp] theorem reject_core (s : State) (mb reason : Nat) : (reject s mb reason).core = s.core := by
  simp [reject]

@[simp] theorem cancelled_core (s : State) (mb : Nat) : (cancelled s mb).core = s.core := by
  simp [cancelled]

@[simp] theorem waitCmd_core (s : State) (mb : Nat) : (waitCmd s mb).core = s.core := by
  rfl

/-! ## Weir.lean -/

@[simp] theorem setRgn_core (s : State) (w r : Nat) (ws : List Nat) : (setRgn s w r ws).core = s.core := by
  simp [setRgn]

@[simp] theorem denyLatch_core (s : State) (w t space addr kind source : Nat) : (denyLatch s w t space addr kind source).core = s.core := by
  simp [denyLatch]

@[simp] theorem weirRegionSetEff_core (s : State) (mb : Nat) (c : Cmd) : (weirRegionSetEff s mb c).core = s.core := by
  simp [weirRegionSetEff]

@[simp] theorem lockRgn_core (s : State) (w r : Nat) : (lockRgn s w r).core = s.core := by
  rfl

@[simp] theorem weirRegionLockEff_core (s : State) (mb : Nat) (c : Cmd) : (weirRegionLockEff s mb c).core = s.core := by
  simp [weirRegionLockEff]

@[simp] theorem weirSkip_core (s : State) (w r why : Nat) (base : Nat) : (weirSkip s w r why base).core = s.core := by
  simp [weirSkip]

@[simp] theorem applyImgRegion_core (s : State) (g : ImgRegion) : (applyImgRegion s g).core = s.core := by
  simp [applyImgRegion]

@[simp] theorem lockImgRegion_core (s : State) (g : ImgRegion) : (lockImgRegion s g).core = s.core := by
  simp [lockImgRegion]

@[simp] theorem applyWeirs_core (s : State) (lockToo : Bool) : (applyWeirs s lockToo).core = s.core := by
  simp [applyWeirs]

/-! ## Power.lean -/

@[simp] theorem refreshDom_core (s : State) (d : Nat) : (refreshDom s d).core = s.core := by
  simp [refreshDom]

@[simp] theorem domLog_core (s : State) (d client reason : Nat) : (domLog s d client reason).core = s.core := by
  rfl

@[simp] theorem startWake_core (s : State) (d : Nat) : (startWake s d).core = s.core := by
  rfl

@[simp] theorem refuseDrain_core (s : State) (d client reason : Nat) : (refuseDrain s d client reason).core = s.core := by
  unfold refuseDrain; (repeat' split) <;> (try simp_all) <;> (repeat' split) <;> simp_all

@[simp] theorem arrive_core (s : State) (d client reason : Nat) : (arrive s d client reason).core = s.core := by
  unfold arrive; (repeat' split) <;> (try simp_all) <;> (repeat' split) <;> simp_all

@[simp] theorem raiseVote_core (s : State) (d client : Nat) : (raiseVote s d client).core = s.core := by
  simp [raiseVote]

@[simp] theorem raiseTemp_core (s : State) (d client : Nat) : (raiseTemp s d client).core = s.core := by
  simp [raiseTemp]

@[simp] theorem checkIdle_core (s : State) (d : Nat) : (checkIdle s d).core = s.core := by
  simp [checkIdle]

@[simp] theorem dropVote_core (s : State) (d client : Nat) : (dropVote s d client).core = s.core := by
  simp [dropVote]

@[simp] theorem dropTemp_core (s : State) (d client : Nat) : (dropTemp s d client).core = s.core := by
  simp [dropTemp]

@[simp] theorem dropVotes_core (s : State) (client : Nat) : (dropVotes s client).core = s.core := by
  simp [dropVotes]

@[simp] theorem softDown_core (s : State) (mb d : Nat) : (softDown s mb d).core = s.core := by
  unfold softDown; (repeat' split) <;> (try simp_all) <;> (repeat' split) <;> simp_all

@[simp] theorem startEntry_core (s : State) (d : Nat) : (startEntry s d).core = s.core := by
  rfl

@[simp] theorem domRelease_core (s : State) (d v : Nat) : (domRelease s d v).core = s.core := by
  simp [domRelease]

/-! ## Personality.lean -/

@[simp] theorem persInvalid_core (s : State) (p kind off : Nat) : (persInvalid s p kind off).core = s.core := by
  simp [persInvalid]

@[simp] theorem loadPers_core (s : State) (p : Nat) : (loadPers s p).2.core = s.core := by
  unfold loadPers; (repeat' split) <;> simp_all

/-! ## Profile.lean -/

@[simp] theorem adapt_core (s : State) (p r : Nat) : (adapt s p r).core = s.core := by
  simp [adapt]

@[simp] theorem takeRef_core (s : State) (p r : Nat) : (takeRef s p r).core = s.core := by
  simp [takeRef]

@[simp] theorem driftCheck_core (s : State) (p r : Nat) : (driftCheck s p r).core = s.core := by
  simp [driftCheck]

@[simp] theorem evalProfile_core (s : State) (p r : Nat) : (evalProfile s p r).core = s.core := by
  simp [evalProfile]

@[simp] theorem takeSample_core (s : State) (p r sample beat : Nat) : (takeSample s p r sample beat).core = s.core := by
  simp [takeSample]

@[simp] theorem bootProfiles_core (s : State) : (bootProfiles s).core = s.core := by
  unfold bootProfiles
  dsimp only
  rw [foldl_core]
  · rfl
  · intro u p; rw [foldl_core]; intro v r; rfl

@[simp] theorem clearProfile_core (s : State) (p r : Nat) (ref : Bool) : (clearProfile s p r ref).core = s.core := by
  simp [clearProfile]

/-! ## Access.lean -/

@[simp] theorem deliver_core (s : State) (a : Acc) (e : AccEnd) : (deliver s a e).core = s.core := by
  unfold deliver; (repeat' split) <;> simp_all

@[simp] theorem dropAccVote_core (s : State) (a : Acc) : (dropAccVote s a).core = s.core := by
  unfold dropAccVote; (repeat' split) <;> simp_all

@[simp] theorem accEnd_core (s : State) (a : Acc) (e : AccEnd) : (accEnd s a e).core = s.core := by
  simp [accEnd]

@[simp] theorem failAccGot_core (s : State) (a : Acc) (cs addr beat : Nat) (got : List (Option Byte)) (ev : Option Ev) :
    (failAccGot s a cs addr beat got ev).core = s.core := by
  simp [failAccGot]

@[simp] theorem failAcc_core (s : State) (a : Acc) (cs addr beat : Nat) (ev : Option Ev) : (failAcc s a cs addr beat ev).core = s.core := by
  simp [failAcc]

@[simp] theorem acceptAcc_core (s : State) (a : Acc) : (acceptAcc s a).core = s.core := by
  unfold acceptAcc; (repeat' split) <;> simp_all

@[simp] theorem weirAcc_core (s : State) (a : Acc) : (weirAcc s a).core = s.core := by
  simp [weirAcc]

@[simp] theorem sendAcc_core (s : State) (a : Acc) : (sendAcc s a).core = s.core := by
  simp [sendAcc]

end Sys2Proof.Machine
end

