-- ==== Sys2Proof/Laws/KeptAccess.lean ====
section
/-! SUPPORT. What every operation keeps: windows, reads, containment, the ports and their slaves, fences. One lemma an operation says that it leaves the queue of waiting commands and the life-cycle fuses as they are (`State.core`); `transition` alone burns fuses. -/

namespace Sys2Proof.Machine

/-! ## Windows.lean -/

@[simp] theorem applyShadows_core (s : State) (first last : Nat) : (applyShadows s first last).core = s.core := by
  simp [applyShadows]

@[simp] theorem commitStatus_core (s : State) (result w : Nat) : (commitStatus s result w).core = s.core := by
  rfl

@[simp] theorem endCommit_core (s : State) (first last result bad : Nat) : (endCommit s first last result bad).core = s.core := by
  simp [endCommit]

@[simp] theorem setShadow_core (s : State) (w i : Nat) (v : Word) : (setShadow s w i v).core = s.core := by
  rfl

@[simp] theorem shadowWrite_core (s : State) (w i : Nat) (v : Word) : (shadowWrite s w i v).core = s.core := by
  unfold shadowWrite; (repeat' split) <;> simp_all

@[simp] theorem winCommitWrite_core (s : State) (v : Nat) : (winCommitWrite s v).core = s.core := by
  unfold winCommitWrite; (repeat' split) <;> simp_all

@[simp] theorem winSetEff_core (s : State) (mb : Nat) (c : Cmd) : (winSetEff s mb c).core = s.core := by
  simp [winSetEff]

@[simp] theorem winClearEff_core (s : State) (mb : Nat) (c : Cmd) : (winClearEff s mb c).core = s.core := by
  simp [winClearEff]

@[simp] theorem clearWindowsOf_core (s : State) (t : Nat) : (clearWindowsOf s t).core = s.core := by
  simp [clearWindowsOf]

@[simp] theorem reachCheck_core (s : State) : (reachCheck s).core = s.core := by
  simp [reachCheck]

/-! ## Reads.lean -/

@[simp] theorem newUid_core (s : State) : (newUid s).2.core = s.core := by
  rfl

@[simp] theorem modRead_core (s : State) (u : Nat) (f : HeldRead → HeldRead) : (modRead s u f).core = s.core := by
  rfl

@[simp] theorem delRead_core (s : State) (u : Nat) : (delRead s u).core = s.core := by
  rfl

@[simp] theorem liqRestore_core (s : State) (r : HeldRead) (lo : Nat) : (liqRestore s r lo).core = s.core := by
  simp [liqRestore]

@[simp] theorem readOut_core (s : State) (r : HeldRead) (miss : List Nat) (alone : Bool) : (readOut s r miss alone).core = s.core := by
  unfold readOut
  dsimp only
  (repeat' split) <;> simp_all
  rename_i h
  exact reserveWide_core _ _ _ _ h

@[simp] theorem ltArrive_core (s : State) (u : Nat) : (ltArrive s u).core = s.core := by
  unfold ltArrive; dsimp only; (repeat' split) <;> simp_all

@[simp] theorem serveWaiter_core (s : State) (w : HeldRead) (from_ cs addr : Nat) (asked : List Nat) :
    (serveWaiter s w from_ cs addr asked).core = s.core := by
  simp [serveWaiter]

@[simp] theorem serveWaiters_core (s : State) (r : HeldRead) (cs addr : Nat) : (serveWaiters s r cs addr).core = s.core := by
  simp [serveWaiters]

@[simp] theorem ltRetain_core (s : State) (r : HeldRead) (e : AccEnd) (base : Nat) : (ltRetain s r e base).core = s.core := by
  simp [ltRetain]

@[simp] theorem ltReturn_core (s : State) (r : HeldRead) (e : AccEnd) : (ltReturn s r e).2.core = s.core := by
  simp [ltReturn]

@[simp] theorem pullAccs_core (s : State) (p : Acc → Bool) : (pullAccs s p).2.core = s.core := by
  simp [pullAccs]

@[simp] theorem dropRead_core (s : State) (r : HeldRead) (why : Nat) : (dropRead s r why).core = s.core := by
  unfold dropRead; (repeat' split) <;> (try simp_all) <;> (repeat' split) <;> simp_all

@[simp] theorem hostAnswer_core (s : State) (r : HeldRead) (e : AccEnd) : (hostAnswer s r e).core = s.core := by
  unfold hostAnswer; (repeat' split) <;> simp_all

theorem hostRead_core (s : State) (t addr len : Nat) (use : TagUse) : ∀ z, hostRead s t addr len use = some z → z.core = s.core := by
  intro z h
  unfold hostRead at h
  dsimp only at h
  split at h
  · cases h
  · simp only [Option.map_eq_some_iff] at h
    obtain ⟨n, -, rfl⟩ := h
    rfl
@[simp] theorem hostRead_getD_core (s : State) (t addr len : Nat) (use : TagUse) : ((hostRead s t addr len use).getD s).core = s.core := by
  cases h : hostRead s t addr len use with
  | none => rfl
  | some z => simpa using hostRead_core s t addr len use z h

@[simp] theorem loopSend_core (s : State) (r : HeldRead) : (loopSend s r).core = s.core := by
  unfold loopSend
  dsimp only
  split
  · rename_i z h
    simp [hostRead_core _ _ _ _ _ _ h]
  · simp

@[simp] theorem abortHostRead_core (s : State) (r : HeldRead) (cs why : Nat) (answer : Bool) :
    (abortHostRead s r cs why answer).core = s.core := by
  simp [abortHostRead]

@[simp] theorem heldReadAdmitEff_core (s : State) (u : Nat) : (heldReadAdmitEff s u).core = s.core := by
  unfold heldReadAdmitEff; (repeat' split) <;> simp_all

@[simp] theorem waitEv_core (s : State) (r : HeldRead) (e : AccEnd) : (waitEv s r e).core = s.core := by
  simp [waitEv]

@[simp] theorem poisonAer_core (s : State) (fn : Nat) (res : HostEnd) : (poisonAer s fn res).core = s.core := by
  unfold poisonAer; (repeat' split) <;> simp_all

@[simp] theorem freeTag_core (s : State) (fn tag : Nat) : (freeTag s fn tag).core = s.core := by
  rfl

@[simp] theorem loopComplete_core (s : State) (r : HeldRead) (res : HostEnd) : (loopComplete s r res).core = s.core := by
  unfold loopComplete; (repeat' split) <;> (try simp_all) <;> (repeat' split) <;> simp_all

@[simp] theorem heldReadCompleteEff_core (s : State) (u : Nat) (loop : HostEnd) : (heldReadCompleteEff s u loop).core = s.core := by
  unfold heldReadCompleteEff; dsimp only; (repeat' split) <;> simp_all

@[simp] theorem holdLimitExpireEff_core (s : State) (u : Nat) : (holdLimitExpireEff s u).core = s.core := by
  unfold holdLimitExpireEff; (repeat' split) <;> simp_all

/-! ## Contain.lean -/

@[simp] theorem containRec_core (s : State) (lvl unit cause count srcId tenant : Nat) :
    (containRec s lvl unit cause count srcId tenant).core = s.core := by
  simp [containRec]

@[simp] theorem releaseRec_core (s : State) (lvl unit count srcId tenant : Nat) :
    (releaseRec s lvl unit count srcId tenant).core = s.core := by
  simp [releaseRec]

@[simp] theorem twinRelinquish_core (s : State) : (twinRelinquish s).core = s.core := by
  simp [twinRelinquish]

@[simp] theorem latchErr_core (s : State) (p addr cs space stop : Nat) (slave : Bool) :
    (latchErr s p addr cs space stop slave).core = s.core := by
  simp [latchErr]

@[simp] theorem inboundErr_core (s : State) (p addr cs space : Nat) : (inboundErr s p addr cs space).core = s.core := by
  rfl

@[simp] theorem dropRackTag_core (s : State) (t p : Nat) (which : Option Nat) : (dropRackTag s t p which).core = s.core := by
  rfl

@[simp] theorem endHeldRack_core (s : State) (p cs : Nat) (ev : Option Ev) : (endHeldRack s p cs ev).core = s.core := by
  unfold endHeldRack; (repeat' split) <;> simp_all

@[simp] theorem endDtSlot_core (s : State) (p k cs : Nat) : (endDtSlot s p k cs).core = s.core := by
  simp [endDtSlot]

@[simp] theorem endRackReads_core (s : State) (who : Nat → Bool) (cs : Nat) (ev : Option Ev) :
    (endRackReads s who cs ev).2.core = s.core := by
  simp [endRackReads]

@[simp] theorem flush64_core (s : State) (c : HarCycle) : (flush64 s c).core = s.core := by
  unfold flush64; (repeat' split) <;> simp_all

@[simp] theorem endCycle_core (s : State) (h : Nat) : (endCycle s h).core = s.core := by
  unfold endCycle; (repeat' split) <;> simp_all

@[simp] theorem freezePans_core (s : State) : (freezePans s).core = s.core := by
  simp [freezePans]

@[simp] theorem containWrites_core (s : State) (who : Nat → Bool) (ev : Option Ev) : (containWrites s who ev).2.core = s.core := by
  unfold containWrites
  dsimp only
  rw [foldl_core _ _ _ (fun u x => by simp), pullAccs_core, foldl_pair_core]
  intro u x
  split
  · exact drainStaged_core _ _ _
  · rfl

@[simp] theorem enterDevice_core (s : State) (cause : Nat) : (enterDevice s cause).core = s.core := by
  simp [enterDevice]

@[simp] theorem enterTenant_core (s : State) (t cause : Nat) : (enterTenant s t cause).core = s.core := by
  simp [enterTenant]

@[simp] theorem releaseBus_core (s : State) (p : Nat) : (releaseBus s p).core = s.core := by
  simp [releaseBus]

@[simp] theorem cutOpen_core (s : State) (p cs : Nat) (o : OpenAcc) : (cutOpen s p cs o).core = s.core := by
  simp [cutOpen]

@[simp] theorem endPortAccs_core (s : State) (p cs : Nat) : (endPortAccs s p cs).2.core = s.core := by
  simp [endPortAccs]

@[simp] theorem endPortService_core (s : State) (p cs : Nat) : (endPortService s p cs).core = s.core := by
  unfold endPortService; (repeat' split) <;> (try simp_all) <;> (repeat' split) <;> simp_all

@[simp] theorem addPortCause_core (s : State) (p bitNo : Nat) : (addPortCause s p bitNo).core = s.core := by
  rfl

@[simp] theorem enterPort_core (s : State) (p cause : Nat) : (enterPort s p cause).core = s.core := by
  simp [enterPort]

@[simp] theorem enterLink_core (s : State) (k cause count : Nat) : (enterLink s k cause count).core = s.core := by
  simp [enterLink]

/-! ## Host.lean -/

@[simp] theorem holdReq_core (s : State) (r : HostReq) : (holdReq s r).core = s.core := by
  rfl

@[simp] theorem winMiss_core (s : State) (fn off : Nat) : (winMiss s fn off).core = s.core := by
  simp [winMiss]

@[simp] theorem hostWriteRuns_core (s : State) (t addr : Nat) (bs : List (Option Byte)) : (hostWriteRuns s t addr bs).core = s.core := by
  simp [hostWriteRuns]

@[simp] theorem ticketWrite_core (s : State) (a : Acc) : (ticketWrite s a).core = s.core := by
  simp [ticketWrite]

@[simp] theorem stageDrop_core (s : State) (a : Acc) : (stageDrop s a).core = s.core := by
  simp [stageDrop]

@[simp] theorem stageWrite_core (s : State) (a : Acc) : (stageWrite s a).core = s.core := by
  simp [stageWrite]

@[simp] theorem acceptWrite_core (s : State) (fn off : Nat) (bs : List (Option Byte)) : (acceptWrite s fn off bs).core = s.core := by
  unfold acceptWrite; (repeat' split) <;> (try simp_all) <;> (repeat' split) <;> simp_all

@[simp] theorem hostPostedWriteEff_core (s : State) (fn off : Nat) (data : List Byte) (be : List Bool) :
    (hostPostedWriteEff s fn off data be).core = s.core := by
  simp [hostPostedWriteEff]

@[simp] theorem acceptRead_core (s : State) (fn rid off : Nat) (be : List Bool) : (acceptRead s fn rid off be).core = s.core := by
  unfold acceptRead; dsimp only; (repeat' split) <;> simp_all

@[simp] theorem hostReadEff_core (s : State) (fn rid off : Nat) (be : List Bool) : (hostReadEff s fn rid off be).core = s.core := by
  simp [hostReadEff]

@[simp] theorem releaseReq_core (s : State) (r : HostReq) : (releaseReq s r).core = s.core := by
  unfold releaseReq; (repeat' split) <;> simp_all

@[simp] theorem winCommitDoneEff_core (s : State) : (winCommitDoneEff s).core = s.core := by
  unfold winCommitDoneEff; (repeat' split) <;> simp_all

@[simp] theorem lateCompletionEff_core (s : State) (fn tag : Nat) : (lateCompletionEff s fn tag).core = s.core := by
  simp [lateCompletionEff]

/-! ## Budget.lean -/

@[simp] theorem forgetFlood_core (s : State) (target : Nat) : (forgetFlood s target).core = s.core := by
  simp [forgetFlood]

@[simp] theorem riskRec_core (s : State) (code h budget : Nat) : (riskRec s code h budget).core = s.core := by
  simp [riskRec]

@[simp] theorem applyBudget_core (s : State) (h : Nat) : (applyBudget s h).core = s.core := by
  simp [applyBudget]

@[simp] theorem recheckBudgets_core (s : State) : (recheckBudgets s).core = s.core := by
  simp [recheckBudgets]

@[simp] theorem sampleTaken_core (s : State) (p r sample beat : Nat) : (sampleTaken s p r sample beat).core = s.core := by
  simp [sampleTaken]

@[simp] theorem profileSetEff_core (s : State) (mb : Nat) (c : Cmd) : (profileSetEff s mb c).core = s.core := by
  simp [profileSetEff]

@[simp] theorem discardSamples_core (s : State) (p : Nat) (rs : List Nat) : (discardSamples s p rs).core = s.core := by
  rfl

@[simp] theorem profileClearEff_core (s : State) (mb : Nat) (c : Cmd) : (profileClearEff s mb c).core = s.core := by
  simp [profileClearEff]

/-! ## Ports.lean -/

@[simp] theorem strobe_core (s : State) (p space : Nat) (o : OpenAcc) : (strobe s p space o).core = s.core := by
  rfl

@[simp] theorem startStop_core (s : State) (p stop : Nat) : (startStop s p stop).core = s.core := by
  unfold startStop; (repeat' split) <;> (try simp_all) <;> (repeat' split) <;> simp_all

@[simp] theorem portUp_core (s : State) (p : Nat) : (portUp s p).core = s.core := by
  simp [portUp]

@[simp] theorem svcStart_core (s : State) (p mb : Nat) : (svcStart s p mb).core = s.core := by
  unfold svcStart; (repeat' split) <;> simp_all

@[simp] theorem svcStop_core (s : State) (p mb : Nat) : (svcStop s p mb).core = s.core := by
  simp [svcStop]

@[simp] theorem svcDecide_core (s : State) (p mb : Nat) (into : Bool) : (svcDecide s p mb into).core = s.core := by
  unfold svcDecide; (repeat' split) <;> simp_all

@[simp] theorem stopEnd_core (s : State) (p : Nat) : (stopEnd s p).core = s.core := by
  unfold stopEnd; (repeat' split) <;> (try simp_all) <;> (repeat' split) <;> simp_all

@[simp] theorem svcResume_core (s : State) (p : Nat) : (svcResume s p).core = s.core := by
  simp [svcResume]

@[simp] theorem finishStop_core (s : State) (p : Nat) : (finishStop s p).core = s.core := by
  simp [finishStop]

@[simp] theorem masterCycleStartEff_core (s : State) (p : Nat) : (masterCycleStartEff s p).core = s.core := by
  unfold masterCycleStartEff; (repeat' split) <;> (try simp_all) <;> (repeat' split) <;> simp_all

@[simp] theorem giveBus_core (s : State) (p : Nat) : (giveBus s p).core = s.core := by
  simp [giveBus]

@[simp] theorem boundary_core (s : State) (p : Nat) : (boundary s p).core = s.core := by
  simp [boundary]

@[simp] theorem afterCycle_core (s : State) (p : Nat) : (afterCycle s p).core = s.core := by
  simp [afterCycle]

@[simp] theorem dropOpen_core (s : State) (p : Nat) : (dropOpen s p).core = s.core := by
  rfl

@[simp] theorem failOpen_core (s : State) (p cs cnt : Nat) (o : OpenAcc) (ev : Option Ev) : (failOpen s p cs cnt o ev).core = s.core := by
  simp [failOpen]

@[simp] theorem countCycle_core (s : State) (p : Nat) : (countCycle s p).core = s.core := by
  simp [countCycle]

@[simp] theorem finishAcc_core (s : State) (p : Nat) (o : OpenAcc) : (finishAcc s p o).core = s.core := by
  unfold finishAcc; (repeat' split) <;> simp_all

@[simp] theorem ackCycle_core (s : State) (p : Nat) (o : OpenAcc) (data : List Byte) (sample beat : Nat) :
    (ackCycle s p o data sample beat).core = s.core := by
  unfold ackCycle; (repeat' split) <;> (try simp_all) <;> (repeat' split) <;> simp_all

@[simp] theorem busCycleEndEff_core (s : State) (p : Nat) (e : BusEnd) : (busCycleEndEff s p e).core = s.core := by
  unfold busCycleEndEff; (repeat' split) <;> simp_all

@[simp] theorem timeoutOpen_core (s : State) (p code : Nat) : (timeoutOpen s p code).core = s.core := by
  unfold timeoutOpen; (repeat' split) <;> simp_all

@[simp] theorem targetRetryEff_core (s : State) (p : Nat) : (targetRetryEff s p).core = s.core := by
  unfold targetRetryEff; (repeat' split) <;> simp_all

@[simp] theorem retryDelayEff_core (s : State) (p : Nat) : (retryDelayEff s p).core = s.core := by
  unfold retryDelayEff; (repeat' split) <;> simp_all

@[simp] theorem busGrantedEff_core (s : State) (p : Nat) : (busGrantedEff s p).core = s.core := by
  simp [busGrantedEff]

@[simp] theorem abandonRack_core (s : State) (p : Nat) : (abandonRack s p).core = s.core := by
  unfold abandonRack; (repeat' split) <;> simp_all

@[simp] theorem sysBusTimerEff_core (s : State) (p : Nat) : (sysBusTimerEff s p).core = s.core := by
  unfold sysBusTimerEff; (repeat' split) <;> (try simp_all) <;> (repeat' split) <;> simp_all

@[simp] theorem sysresetGo_core (s : State) (p : Nat) : (sysresetGo s p).core = s.core := by
  simp [sysresetGo]

@[simp] theorem rackResetSeen_core (s : State) (p : Nat) : (rackResetSeen s p).core = s.core := by
  unfold rackResetSeen; (repeat' split) <;> simp_all

@[simp] theorem rackResetEff_core (s : State) (p : Nat) : (rackResetEff s p).core = s.core := by
  simp [rackResetEff]

@[simp] theorem stuckLineEff_core (s : State) (p line : Nat) : (stuckLineEff s p line).core = s.core := by
  simp [stuckLineEff]

@[simp] theorem sysfailEff_core (s : State) (p : Nat) : (sysfailEff s p).core = s.core := by
  simp [sysfailEff]

@[simp] theorem personalityFaultEff_core (s : State) (p : Nat) (forbidden : Bool) (line : Nat) :
    (personalityFaultEff s p forbidden line).core = s.core := by
  simp [personalityFaultEff]

/-! ## PortSvc.lean -/

@[simp] theorem portServiceEff_core (into : Bool) (s : State) (mb : Nat) (c : Cmd) : (portServiceEff into s mb c).core = s.core := by
  simp [portServiceEff]

@[simp] theorem relErr_core (s : State) (b : Nat) : (relErr s b).core = s.core := by
  rfl

@[simp] theorem portRelease_core (s : State) (p : Nat) : (portRelease s p).core = s.core := by
  simp [portRelease]

@[simp] theorem warnOnce_core (s : State) (k mv : Nat) : (warnOnce s k mv).core = s.core := by
  simp [warnOnce]

@[simp] theorem portBankPowerEff_core (s : State) (p b mv : Nat) : (portBankPowerEff s p b mv).core = s.core := by
  unfold portBankPowerEff; dsimp only; (repeat' split) <;> simp_all

@[simp] theorem portAtBoot_core (s : State) (p : Nat) : (portAtBoot s p).core = s.core := by
  unfold portAtBoot; dsimp only; (repeat' split) <;> simp_all

/-! ## Slave.lean -/

@[simp] theorem denyInbound_core (s : State) (p addr space t : Nat) (d : Nat × Option Nat) :
    (denyInbound s p addr space t d).core = s.core := by
  simp [denyInbound]

@[simp] theorem rackSend_core (s : State) (p : Nat) : (rackSend s p).core = s.core := by
  unfold rackSend; dsimp only; (repeat' split) <;> simp_all

@[simp] theorem dtSend_core (s : State) (p k : Nat) : (dtSend s p k).core = s.core := by
  unfold dtSend; dsimp only; (repeat' split) <;> simp_all

@[simp] theorem setDt_core (s : State) (p k : Nat) (d : DtSlot) : (setDt s p k d).core = s.core := by
  rfl

@[simp] theorem dtCollect_core (s : State) (p k : Nat) : (dtCollect s p k).core = s.core := by
  unfold dtCollect; (repeat' split) <;> (try simp_all) <;> (repeat' split) <;> simp_all

@[simp] theorem rackReadMatched_core (s : State) (p r addr space width : Nat) (be : List Bool) (block : Bool) :
    (rackReadMatched s p r addr space width be block).core = s.core := by
  unfold rackReadMatched; (repeat' split) <;> (try simp_all) <;> (repeat' split) <;> simp_all

@[simp] theorem rackReadEff_core (s : State) (p addr space width : Nat) (be : List Bool) (block : Bool) :
    (rackReadEff s p addr space width be block).core = s.core := by
  unfold rackReadEff; (repeat' split) <;> simp_all

@[simp] theorem heldRackAnswer_core (s : State) (p : Nat) (h : HeldRack) (res : HostEnd) : (heldRackAnswer s p h res).core = s.core := by
  unfold heldRackAnswer; (repeat' split) <;> (try simp_all) <;> (repeat' split) <;> simp_all

@[simp] theorem dtAnswer_core (s : State) (p k : Nat) (res : HostEnd) : (dtAnswer s p k res).core = s.core := by
  unfold dtAnswer; (repeat' split) <;> (try simp_all) <;> (repeat' split) <;> simp_all

@[simp] theorem delayedDiscardEff_core (s : State) (p k : Nat) : (delayedDiscardEff s p k).core = s.core := by
  simp [delayedDiscardEff]

@[simp] theorem rackHostWrite_core (s : State) (p r addr : Nat) (bs : List (Option Byte)) :
    (rackHostWrite s p r addr bs).core = s.core := by
  simp [rackHostWrite]

@[simp] theorem rackWriteEff_core (s : State) (p addr space : Nat) (bs : List (Option Byte)) :
    (rackWriteEff s p addr space bs).core = s.core := by
  unfold rackWriteEff; (repeat' split) <;> (try simp_all) <;> (repeat' split) <;> simp_all

@[simp] theorem rackRmwEff_core (s : State) (p addr space : Nat) (old : HostEnd) (new : List Byte) :
    (rackRmwEff s p addr space old new).core = s.core := by
  unfold rackRmwEff; dsimp only; (repeat' split) <;> first | (simp_all; done) | (have e := hostRead_core _ _ _ _ _ _ (by assumption); simp_all)

@[simp] theorem portSlaveEff_core (s : State) (mb : Nat) (c : Cmd) : (portSlaveEff s mb c).core = s.core := by
  simp [portSlaveEff]

/-! ## RackIrq.lean -/

@[simp] theorem irqReport_core (s : State) (p l : Nat) (id : Word) : (irqReport s p l id).core = s.core := by
  simp [irqReport]

@[simp] theorem iackFail_core (s : State) (p l cs : Nat) : (iackFail s p l cs).core = s.core := by
  simp [iackFail]

@[simp] theorem irqServe_core (s : State) (p l : Nat) (e : IackEnd) : (irqServe s p l e).core = s.core := by
  unfold irqServe; (repeat' split) <;> simp_all

@[simp] theorem rirqClear_core (s : State) (fn p l : Nat) (v : Word) : (rirqClear s fn p l v).core = s.core := by
  simp [rirqClear]

@[simp] theorem irqiRaiseEff_core (s : State) (p : Nat) : (irqiRaiseEff s p).core = s.core := by
  simp [irqiRaiseEff]

@[simp] theorem irqiDropEff_core (s : State) (p : Nat) : (irqiDropEff s p).core = s.core := by
  simp [irqiDropEff]

@[simp] theorem irqiAckEff_core (s : State) (p l w : Nat) : (irqiAckEff s p l w).core = s.core := by
  simp [irqiAckEff]

/-! ## Fences.lean -/

@[simp] theorem endFence_core (s : State) (f : Fence) (cs ticket addr : Nat) : (endFence s f cs ticket addr).core = s.core := by
  unfold endFence; (repeat' split) <;> simp_all

@[simp] theorem fenceCheck_core (s : State) (f : Fence) : (fenceCheck s f).core = s.core := by
  unfold fenceCheck; (repeat' split) <;> (try simp_all) <;> (repeat' split) <;> simp_all

@[simp] theorem fenceExpiredEff_core (s : State) (f : Fence) : (fenceExpiredEff s f).core = s.core := by
  simp [fenceExpiredEff]

@[simp] theorem settleFenceEff_core (s : State) (mb : Nat) (c : Cmd) : (settleFenceEff s mb c).core = s.core := by
  unfold settleFenceEff; (repeat' split) <;> (try simp_all) <;> (repeat' split) <;> simp_all

@[simp] theorem tallyQuotaEff_core (s : State) (mb : Nat) (c : Cmd) : (tallyQuotaEff s mb c).core = s.core := by
  simp [tallyQuotaEff]

@[simp] theorem abortFences_core (s : State) (t : Nat) : (abortFences s t).2.core = s.core := by
  simp [abortFences]

end Sys2Proof.Machine
end

