-- ==== Sys2Proof/Laws/KeptQueues.lean ====
section
/-! SUPPORT. What every operation keeps: queues and pans. One lemma an operation says that it leaves the queue of waiting commands and the life-cycle fuses as they are (`State.core`); `transition` alone burns fuses. -/

namespace Sys2Proof.Machine

/-! ## Queues.lean -/

@[simp] theorem createNow_core (s : State) (mb q : Nat) (p : List Byte) : (createNow s mb q p).core = s.core := by
  simp [createNow]

@[simp] theorem queueCreateEff_core (s : State) (mb : Nat) (c : Cmd) : (queueCreateEff s mb c).core = s.core := by
  simp [queueCreateEff]

@[simp] theorem sendFetch_core (s : State) (q addr len n : Nat) (use : TagUse) : (sendFetch s q addr len n use).core = s.core := by
  unfold sendFetch
  split
  · rename_i z h
    simp [hostRead_core _ _ _ _ _ _ h]
  · rfl

@[simp] theorem fetchNext_core (s : State) (q : Nat) : (fetchNext s q).core = s.core := by
  simp [fetchNext]

@[simp] theorem queueFault_core (s : State) (q : Nat) (d : Desc) (cs addr : Nat) (always : Bool) :
    (queueFault s q d cs addr always).core = s.core := by
  rfl

@[simp] theorem queueFaultRec_core (s : State) (q : Nat) (d : Desc) (code cs addr : Nat) :
    (queueFaultRec s q d code cs addr).core = s.core := by
  simp [queueFaultRec]

@[simp] theorem resumeMarks_core (s : State) (q : Nat) (d : Desc) : (resumeMarks s q d).2.core = s.core := by
  unfold resumeMarks; (repeat' split) <;> (try simp_all) <;> (repeat' split) <;> simp_all

@[simp] theorem takeDesc_core (s : State) (q addr : Nat) (b : List Byte) : (takeDesc s q addr b).core = s.core := by
  simp [takeDesc]

@[simp] theorem fetchFailed_core (s : State) (q addr cs code : Nat) : (fetchFailed s q addr cs code).core = s.core := by
  simp [fetchFailed]

@[simp] theorem takeFetch_core (s : State) (q addr : Nat) (a0 : Nat) (a1 : List Byte) : (takeFetch s q addr a0 a1).core = s.core := by
  induction a0 generalizing s a1 addr with
  | zero => rfl
  | succ m ih => unfold takeFetch; split <;> simp_all

@[simp] theorem takeNext_core (s : State) (q : Nat) (b : List Byte) : (takeNext s q b).core = s.core := by
  rfl

@[simp] theorem descFetchEff_core (s : State) (q : Nat) (res : HostEnd) : (descFetchEff s q res).core = s.core := by
  unfold descFetchEff; (repeat' split) <;> (try simp_all) <;> (repeat' split) <;> simp_all

@[simp] theorem dbIgnored_core (s : State) (q : Nat) : (dbIgnored s q).core = s.core := by
  rfl

@[simp] theorem tailWrite_core (s : State) (q v : Nat) : (tailWrite s q v).core = s.core := by
  simp [tailWrite]

@[simp] theorem cqHeadWrite_core (s : State) (q v : Nat) : (cqHeadWrite s q v).core = s.core := by
  simp [cqHeadWrite]

@[simp] theorem onDoorbell_core (s : State) (fn idx : Nat) (f : State → Nat → State) (hf : ∀ (u : State) (x : Nat), (f u x).core = u.core) :
    (onDoorbell s fn idx f).core = s.core := by
  unfold onDoorbell; (repeat' split) <;> simp_all

@[simp] theorem resumeNow_core (s : State) (q : Nat) : (resumeNow s q).core = s.core := by
  simp [resumeNow]

@[simp] theorem resumeWrite_core (s : State) (q : Nat) : (resumeWrite s q).core = s.core := by
  simp [resumeWrite]

@[simp] theorem putEntry_core (s : State) (q : Nat) (e : List Byte) : (putEntry s q e).core = s.core := by
  simp [putEntry]

@[simp] theorem queueIrq_core (s : State) (q : Nat) : (queueIrq s q).core = s.core := by
  simp [queueIrq]

@[simp] theorem irqEvent_core (s : State) (q : Nat) : (irqEvent s q).core = s.core := by
  simp [irqEvent]

@[simp] theorem modDesc_core (s : State) (q u : Nat) (f : Desc → Desc) : (modDesc s q u f).core = s.core := by
  rfl

@[simp] theorem retireDesc_core (s : State) (q : Nat) (d : Desc) (cs : Nat) : (retireDesc s q d cs).2.core = s.core := by
  rfl

@[simp] theorem haltNow_core (s : State) (q : Nat) : (haltNow s q).core = s.core := by
  simp [haltNow]

@[simp] theorem haltCheck_core (s : State) (q : Nat) : (haltCheck s q).core = s.core := by
  simp [haltCheck]

@[simp] theorem fullEntry_core (s : State) (q : Nat) (d : Desc) : (fullEntry s q d).core = s.core := by
  simp [fullEntry]

@[simp] theorem halfEntry_core (s : State) (q : Nat) (d : Desc) : (halfEntry s q d).core = s.core := by
  simp [halfEntry]

@[simp] theorem releaseNow_core (s : State) (q : Nat) : (releaseNow s q).core = s.core := by
  unfold releaseNow; (repeat' split) <;> (try simp_all) <;> (repeat' split) <;> simp_all

@[simp] theorem settleStart_core (s : State) (q : Nat) (d : Desc) : (settleStart s q d).core = s.core := by
  unfold settleStart; (repeat' split) <;> (try simp_all) <;> (repeat' split) <;> simp_all

@[simp] theorem completionReleaseEff_core (s : State) (q : Nat) : (completionReleaseEff s q).core = s.core := by
  unfold completionReleaseEff; (repeat' split) <;> simp_all

/-! ## Pans.lean -/

@[simp] theorem raiseSlotVotes_core (s : State) (k : Nat) : (raiseSlotVotes s k).core = s.core := by
  simp [raiseSlotVotes]

@[simp] theorem dropSlotVotes_core (s : State) (k : Nat) : (dropSlotVotes s k).core = s.core := by
  simp [dropSlotVotes]

@[simp] theorem emptySlot_core (s : State) (k : Nat) : (emptySlot s k).core = s.core := by
  simp [emptySlot]

@[simp] theorem addReg64_core (s : State) (k n : Nat) : (addReg64 s k n).core = s.core := by
  rfl

@[simp] theorem putSegment_core (s : State) (q b i : Nat) (d : Desc) (g : SegPlan) : (putSegment s q b i d g).core = s.core := by
  unfold putSegment; dsimp only; (repeat' split) <;> simp_all

@[simp] theorem pushFirst_core (s : State) (q b : Nat) (a0 : List Desc) : (pushFirst s q b a0).core = s.core := by
  induction a0 generalizing s with
  | nil => rfl
  | cons d r ih => unfold pushFirst; (repeat' split) <;> simp_all

@[simp] theorem countDeferred_core (s : State) (q : Nat) (a0 : List Desc) (a1 : Bool) : (countDeferred s q a0 a1).core = s.core := by
  induction a0 generalizing s a1 with
  | nil => rfl
  | cons d r ih => unfold countDeferred; dsimp only; rw [ih]; split <;> simp_all

@[simp] theorem segmentPushEff_core (s : State) (q : Nat) : (segmentPushEff s q).core = s.core := by
  unfold segmentPushEff; (repeat' split) <;> (try simp_all) <;> (repeat' split) <;> simp_all

@[simp] theorem segTicket_core (s : State) (k : Nat) : (segTicket s k).core = s.core := by
  unfold segTicket; (repeat' split) <;> (try simp_all) <;> (repeat' split) <;> simp_all

@[simp] theorem segSend_core (s : State) (k : Nat) : (segSend s k).core = s.core := by
  unfold segSend; (repeat' split) <;> (try simp_all) <;> (repeat' split) <;> simp_all

@[simp] theorem flushHost_core (s : State) (k a en : Nat) : (flushHost s k a en).core = s.core := by
  simp [flushHost]

@[simp] theorem slotFlush_core (s : State) (k : Nat) : (slotFlush s k).core = s.core := by
  unfold slotFlush; (repeat' split) <;> (try simp_all) <;> (repeat' split) <;> simp_all

@[simp] theorem sendSegRead_core (s : State) (k : Nat) : (sendSegRead s k).core = s.core := by
  unfold sendSegRead; dsimp only; (repeat' split) <;> simp_all

@[simp] theorem sendRmw_core (s : State) (k : Nat) : (sendRmw s k).core = s.core := by
  unfold sendRmw; (repeat' split) <;> (try simp_all) <;> (repeat' split) <;> simp_all

@[simp] theorem segHostRead_core (s : State) (k : Nat) : (segHostRead s k).core = s.core := by
  unfold segHostRead; dsimp only; (repeat' split) <;> first | (simp_all; done) | (have e := hostRead_core _ _ _ _ _ _ (by assumption); simp_all)

@[simp] theorem startSlot_core (s : State) (k : Nat) : (startSlot s k).core = s.core := by
  unfold startSlot; (repeat' split) <;> (try simp_all) <;> (repeat' split) <;> simp_all

@[simp] theorem segmentStartEff_core (s : State) (b i : Nat) : (segmentStartEff s b i).core = s.core := by
  unfold segmentStartEff; (repeat' split) <;> simp_all

@[simp] theorem segHostData_core (s : State) (k : Nat) (res : HostEnd) : (segHostData s k res).core = s.core := by
  unfold segHostData; (repeat' split) <;> (try simp_all) <;> (repeat' split) <;> simp_all

@[simp] theorem segReadRec_core (s : State) (k cs addr : Nat) (alone : Bool) : (segReadRec s k cs addr alone).core = s.core := by
  unfold segReadRec; (repeat' split) <;> (try simp_all) <;> (repeat' split) <;> simp_all

@[simp] theorem segRackData_core (s : State) (k : Nat) : (segRackData s k).core = s.core := by
  unfold segRackData; dsimp only; (repeat' split) <;> simp_all

@[simp] theorem segRmwData_core (s : State) (k : Nat) : (segRmwData s k).core = s.core := by
  unfold segRmwData; (repeat' split) <;> (try simp_all) <;> (repeat' split) <;> simp_all

@[simp] theorem segReadDataEff_core (s : State) (k : Nat) (res : HostEnd) : (segReadDataEff s k res).core = s.core := by
  unfold segReadDataEff; (repeat' split) <;> (try simp_all) <;> (repeat' split) <;> simp_all

@[simp] theorem cancelDesc_core (s : State) (q u : Nat) : (cancelDesc s q u).core = s.core := by
  simp [cancelDesc]

@[simp] theorem segFault_core (s : State) (q u off cs addr residual : Nat) : (segFault s q u off cs addr residual).core = s.core := by
  unfold segFault; (repeat' split) <;> simp_all

@[simp] theorem segClose_core (s : State) (k : Nat) : (segClose s k).core = s.core := by
  rfl

@[simp] theorem halfNow_core (s : State) (q : Nat) : (halfNow s q).core = s.core := by
  unfold halfNow; (repeat' split) <;> simp_all

@[simp] theorem segDoneEff_core (s : State) (k : Nat) : (segDoneEff s k).core = s.core := by
  unfold segDoneEff; (repeat' split) <;> (try simp_all) <;> (repeat' split) <;> simp_all

@[simp] theorem segCancelEff_core (s : State) (b i : Nat) : (segCancelEff s b i).core = s.core := by
  unfold segCancelEff; (repeat' split) <;> simp_all

@[simp] theorem stagedTicketEff_core (s : State) (t : Nat) : (stagedTicketEff s t).core = s.core := by
  unfold stagedTicketEff; (repeat' split) <;> (try simp_all) <;> (repeat' split) <;> simp_all

@[simp] theorem moveSlot_core (s : State) (k k' : Nat) : (moveSlot s k k').core = s.core := by
  simp [moveSlot]

@[simp] theorem rakeWithinEff_core (s : State) (b i : Nat) : (rakeWithinEff s b i).core = s.core := by
  unfold rakeWithinEff; (repeat' split) <;> simp_all

@[simp] theorem takeAcross_core (s : State) (v dest : Nat) (a0 : Nat) : (takeAcross s v dest a0).2.core = s.core := by
  induction a0 generalizing s with
  | zero => rfl
  | succ m ih => unfold takeAcross; (repeat' split) <;> first | rfl | (simp_all; done) | (rename_i e; have e' := congrArg (fun p => p.2.core) e; simp only [ih, State.modSlot_core] at e'; exact e'.symm)

@[simp] theorem rakeAcrossEff_core (s : State) (b i : Nat) : (rakeAcrossEff s b i).core = s.core := by
  unfold rakeAcrossEff; (repeat' split) <;> simp_all

@[simp] theorem xrakeArrive_core (s : State) (b i k : Nat) : (xrakeArrive s b i k).core = s.core := by
  unfold xrakeArrive; (repeat' split) <;> simp_all

@[simp] theorem xrakeArriveEff_core (s : State) (b i : Nat) : (xrakeArriveEff s b i).core = s.core := by
  unfold xrakeArriveEff; (repeat' split) <;> simp_all

/-! ## QueueEnd.lean -/

@[simp] theorem dropTags_core (s : State) (fn : Nat) (p : TagUse → Bool) : (dropTags s fn p).core = s.core := by
  rfl

@[simp] theorem quitSlot_core (s : State) (k : Nat) (cs : Option Nat) : (quitSlot s k cs).core = s.core := by
  unfold quitSlot; (repeat' split) <;> (try simp_all) <;> (repeat' split) <;> simp_all

@[simp] theorem endSegment_core (s : State) (k : Nat) (cs : Option Nat) : (endSegment s k cs).core = s.core := by
  simp [endSegment]

@[simp] theorem endSegments_core (s : State) (q : Nat) (cs : Option Nat) : (endSegments s q cs).core = s.core := by
  simp [endSegments]

@[simp] theorem dropFetch_core (s : State) (q : Nat) : (dropFetch s q).core = s.core := by
  rfl

@[simp] theorem dropQueueFences_core (s : State) (q : Nat) : (dropQueueFences s q).core = s.core := by
  rfl

@[simp] theorem abortEntry_core (s : State) (q : Nat) (d : Desc) (cs residual : Nat) : (abortEntry s q d cs residual).2.core = s.core := by
  unfold abortEntry; dsimp only; (repeat' split) <;> simp_all

@[simp] theorem abortAll_core (s : State) (q cs : Nat) (a0 : List Desc) : (abortAll s q cs a0).2.2.core = s.core := by
  induction a0 generalizing s with
  | nil => rfl
  | cons d r ih => unfold abortAll; dsimp only; rw [ih, abortEntry_core]; rfl

@[simp] theorem finishRelease_core (s : State) (q : Nat) : (finishRelease s q).core = s.core := by
  simp [finishRelease]

@[simp] theorem endQueueWork_core (s : State) (q cs code : Nat) : (endQueueWork s q cs code).core = s.core := by
  simp [endQueueWork]

@[simp] theorem disableNow_core (s : State) (q : Nat) : (disableNow s q).core = s.core := by
  simp [disableNow]

@[simp] theorem queueDisableEff_core (s : State) (q : Nat) : (queueDisableEff s q).core = s.core := by
  simp [queueDisableEff]

@[simp] theorem resetNow_core (s : State) (mb q : Nat) (destroy : Bool) : (resetNow s mb q destroy).core = s.core := by
  simp [resetNow]

@[simp] theorem queueResetEff_core (destroy : Bool) (s : State) (mb : Nat) (c : Cmd) : (queueResetEff destroy s mb c).core = s.core := by
  simp [queueResetEff]

@[simp] theorem containedEntry_core (s : State) (q : Nat) (d : Desc) (low : Nat) : (containedEntry s q d low).core = s.core := by
  simp [containedEntry]

@[simp] theorem releaseQueue_core (s : State) (q : Nat) : (releaseQueue s q).2.core = s.core := by
  unfold releaseQueue; (repeat' split) <;> (try simp_all) <;> (repeat' split) <;> simp_all

@[simp] theorem releaseFrozen_core (s : State) : (releaseFrozen s).2.core = s.core := by
  unfold releaseFrozen
  rw [foldl_pair_core]
  intro u x
  exact releaseQueue_core _ _

/-! ## PanHealth.lean -/

@[simp] theorem spareRec_core (s : State) (code srcId kind action index meas bound reason : Nat) :
    (spareRec s code srcId kind action index meas bound reason).core = s.core := by
  simp [spareRec]

@[simp] theorem decided_core (s : State) (kind index action : Nat) : (decided s kind index action).core = s.core := by
  simp [decided]

@[simp] theorem spareUsed_core (s : State) : (spareUsed s).core = s.core := by
  rfl

@[simp] theorem mapPan_core (s : State) (p : Nat) (st pos : Nat) : (mapPan s p st pos).core = s.core := by
  rfl

@[simp] theorem moveVotes_core (s : State) (olds : List (Nat × Nat)) (b i : Nat) : (moveVotes s olds b i).core = s.core := by
  simp [moveVotes]

@[simp] theorem noteHold_core (s : State) (b : Nat) (ps : List Nat) : (noteHold s b ps).core = s.core := by
  simp [noteHold]

@[simp] theorem toSpare_core (s : State) (p sp : Nat) : (toSpare s p sp).core = s.core := by
  simp [toSpare]

@[simp] theorem toFoster_core (s : State) (p : Nat) : (toFoster s p).core = s.core := by
  simp [toFoster]

@[simp] theorem retireRecs_core (s : State) (p action meas bound : Nat) (spare : Option Nat) :
    (retireRecs s p action meas bound spare).core = s.core := by
  unfold retireRecs; (repeat' split) <;> simp_all

@[simp] theorem retirePan_core (s : State) (p action meas bound : Nat) : (retirePan s p action meas bound).core = s.core := by
  unfold retirePan; (repeat' split) <;> (try simp_all) <;> (repeat' split) <;> simp_all

@[simp] theorem selfTestEff_core (s : State) (b : Nat) (pass : Bool) : (selfTestEff s b pass).core = s.core := by
  unfold selfTestEff; (repeat' split) <;> simp_all

@[simp] theorem retireDomain_core (s : State) (d : Nat) : (retireDomain s d).core = s.core := by
  rfl

@[simp] theorem loseStarted_core (s : State) (k : Nat) : (loseStarted s k).core = s.core := by
  unfold loseStarted; (repeat' split) <;> (try simp_all) <;> (repeat' split) <;> simp_all

@[simp] theorem unpush_core (s : State) (k : Nat) : (unpush s k).core = s.core := by
  simp [unpush]

@[simp] theorem rehome_core (s : State) (q : Nat) : (rehome s q).core = s.core := by
  unfold rehome; (repeat' split) <;> simp_all

@[simp] theorem dropRakes_core (s : State) (b : Nat) : (dropRakes s b).core = s.core := by
  simp [dropRakes]

@[simp] theorem bedLost_core (s : State) (b : Nat) : (bedLost s b).core = s.core := by
  simp [bedLost]

end Sys2Proof.Machine
end

