-- ==== Sys2Proof/Laws/KeptLinks.lean ====
section
/-! SUPPORT. What every operation keeps: lanes, links, the twin engine, spares. One lemma an operation says that it leaves the queue of waiting commands and the life-cycle fuses as they are (`State.core`); `transition` alone burns fuses. -/

namespace Sys2Proof.Machine

/-! ## TwinCore.lean -/

@[simp] theorem sendHello_core (s : State) : (sendHello s).core = s.core := by
  simp [sendHello]

@[simp] theorem runHold_core (s : State) (h : MirrorHold) : (runHold s h).core = s.core := by
  unfold runHold; (repeat' split) <;> simp_all

@[simp] theorem runHolds_core (s : State) (upTo : Nat) : (runHolds s upTo).core = s.core := by
  simp [runHolds]

@[simp] theorem runAllHolds_core (s : State) : (runAllHolds s).core = s.core := by
  simp [runAllHolds]

@[simp] theorem twinSessionLost_core (s : State) : (twinSessionLost s).core = s.core := by
  simp [twinSessionLost]

/-! ## LinkCore.lean -/

@[simp] theorem modLanes_core (s : State) (k : Nat) (f : Nat → Lane → Lane) : (modLanes s k f).core = s.core := by
  simp [modLanes]

@[simp] theorem restartLanes_core (s : State) (k : Nat) (st : LaneSt) : (restartLanes s k st).core = s.core := by
  simp [restartLanes]

@[simp] theorem startBringup_core (s : State) (k : Nat) : (startBringup s k).core = s.core := by
  simp [startBringup]

@[simp] theorem toDetect_core (s : State) (k : Nat) : (toDetect s k).core = s.core := by
  simp [toDetect]

@[simp] theorem lanesOff_core (s : State) (k : Nat) : (lanesOff s k).core = s.core := by
  simp [lanesOff]

@[simp] theorem holdSession_core (s : State) (k : Nat) : (holdSession s k).core = s.core := by
  unfold holdSession; (repeat' split) <;> simp_all

@[simp] theorem startNarrow_core (s : State) (k : Nat) : (startNarrow s k).core = s.core := by
  simp [startNarrow]

@[simp] theorem setActive_core (s : State) (k most : Nat) (usable : List Nat) : (setActive s k most usable).core = s.core := by
  simp [setActive]

@[simp] theorem drawSession_core (s : State) : (drawSession s).2.core = s.core := by
  rfl

@[simp] theorem lanesUp_core (s : State) (k : Nat) : (lanesUp s k).core = s.core := by
  unfold lanesUp; dsimp only; (repeat' split) <;> simp_all

@[simp] theorem dropLinkAcc_core (s : State) (cs : Nat) (a : Acc) : (dropLinkAcc s cs a).core = s.core := by
  unfold dropLinkAcc; (repeat' split) <;> simp_all

@[simp] theorem endLinkAccs_core (s : State) (k cs : Nat) : (endLinkAccs s k cs).2.core = s.core := by
  simp [endLinkAccs]

@[simp] theorem linkVote_core (s : State) (k : Nat) : (linkVote s k).core = s.core := by
  simp [linkVote]

@[simp] theorem linkStart_core (s : State) (k : Nat) : (linkStart s k).core = s.core := by
  simp [linkStart]

@[simp] theorem linkOff_core (s : State) (k : Nat) : (linkOff s k).core = s.core := by
  unfold linkOff; (repeat' split) <;> (try simp_all) <;> (repeat' split) <;> simp_all

@[simp] theorem loseSession_core (s : State) (k cause : Nat) : (loseSession s k cause).core = s.core := by
  unfold loseSession; dsimp only; (repeat' split) <;> simp_all

@[simp] theorem linkStopCheck_core (s : State) (k : Nat) : (linkStopCheck s k).core = s.core := by
  simp [linkStopCheck]

@[simp] theorem openSession_core (s : State) (k : Nat) (f : InitFlit) : (openSession s k f).core = s.core := by
  unfold openSession; (repeat' split) <;> (try simp_all) <;> (repeat' split) <;> simp_all

@[simp] theorem resumeSession_core (s : State) (k : Nat) : (resumeSession s k).core = s.core := by
  unfold resumeSession; (repeat' split) <;> (try simp_all) <;> (repeat' split) <;> simp_all

@[simp] theorem initRefused_core (s : State) (k : Nat) : (initRefused s k).core = s.core := by
  simp [initRefused]

@[simp] theorem sessionInitEff_core (s : State) (k : Nat) (f : InitFlit) : (sessionInitEff s k f).core = s.core := by
  unfold sessionInitEff; (repeat' split) <;> (try simp_all) <;> (repeat' split) <;> simp_all

/-! ## Lanes.lean -/

@[simp] theorem detectEff_core (s : State) (k : Nat) (found : BitVec 5) : (detectEff s k found).core = s.core := by
  simp [detectEff]

@[simp] theorem toCaps_core (s : State) (n : Nat) : (toCaps s n).core = s.core := by
  rfl

@[simp] theorem freeCount_core (s : State) : (freeCount s).2.core = s.core := by
  rfl

@[simp] theorem laneDown_core (s : State) (n : Nat) : (laneDown s n).core = s.core := by
  rfl

@[simp] theorem laneLost_core (s : State) (n : Nat) : (laneLost s n).core = s.core := by
  simp [laneLost]

@[simp] theorem laneLossEff_core (s : State) (n : Nat) (cause : LaneLossCause) : (laneLossEff s n cause).core = s.core := by
  simp [laneLossEff]

@[simp] theorem swapReceivedEff_core (s : State) (k m count : Nat) : (swapReceivedEff s k m count).core = s.core := by
  unfold swapReceivedEff; (repeat' split) <;> (try simp_all) <;> (repeat' split) <;> simp_all

@[simp] theorem swapSwitchEff_core (s : State) (k : Nat) : (swapSwitchEff s k).core = s.core := by
  unfold swapSwitchEff; (repeat' split) <;> (try simp_all) <;> (repeat' split) <;> simp_all

@[simp] theorem narrowDoneEff_core (s : State) (k : Nat) (usable : BitVec 5) : (narrowDoneEff s k usable).core = s.core := by
  simp [narrowDoneEff]

@[simp] theorem laneRestoredEff_core (s : State) (n : Nat) : (laneRestoredEff s n).core = s.core := by
  simp [laneRestoredEff]

@[simp] theorem trainReceivedEff_core (s : State) (n phys : Nat) (locked inverted : Bool) :
    (trainReceivedEff s n phys locked inverted).core = s.core := by
  unfold trainReceivedEff; (repeat' split) <;> (try simp_all) <;> (repeat' split) <;> simp_all

@[simp] theorem bringupDone_core (s : State) (k : Nat) (usable : List Nat) : (bringupDone s k usable).core = s.core := by
  simp [bringupDone]

@[simp] theorem capsAgree_core (s : State) (k : Nat) (caps : List (Fin 5 × CapsBlock)) (c : CapsBlock) :
    (capsAgree s k caps c).core = s.core := by
  simp [capsAgree]

@[simp] theorem capsReceivedEff_core (s : State) (k : Nat) (caps : List (Fin 5 × CapsBlock)) :
    (capsReceivedEff s k caps).core = s.core := by
  unfold capsReceivedEff; (repeat' split) <;> (try simp_all) <;> (repeat' split) <;> simp_all

@[simp] theorem strikeRate_core (s : State) (k : Nat) : (strikeRate s k).core = s.core := by
  simp [strikeRate]

@[simp] theorem stateTimeoutEff_core (s : State) (k p : Nat) : (stateTimeoutEff s k p).core = s.core := by
  simp [stateTimeoutEff]

@[simp] theorem stirReceivedEff_core (s : State) (n v : Nat) : (stirReceivedEff s n v).core = s.core := by
  simp [stirReceivedEff]

@[simp] theorem densityEff_core (s : State) (n t : Nat) : (densityEff s n t).core = s.core := by
  simp [densityEff]

@[simp] theorem eiRequestEff_core (s : State) (k : Nat) : (eiRequestEff s k).core = s.core := by
  simp [eiRequestEff]

@[simp] theorem eiEnterEff_core (s : State) (k : Nat) : (eiEnterEff s k).core = s.core := by
  simp [eiEnterEff]

@[simp] theorem lanesLost_core (s : State) (k : Nat) (ps : List Nat) : (lanesLost s k ps).core = s.core := by
  simp [lanesLost]

@[simp] theorem eiExitEff_core (s : State) (k : Nat) (locked : BitVec 5) : (eiExitEff s k locked).core = s.core := by
  simp [eiExitEff]

@[simp] theorem eiVerifyEff_core (s : State) (k : Nat) (verified : BitVec 5) : (eiVerifyEff s k verified).core = s.core := by
  simp [eiVerifyEff]

/-! ## Ulilum.lean -/

@[simp] theorem enterStream_core (s : State) (k cls units : Nat) (bytes : List Byte) : (enterStream s k cls units bytes).core = s.core := by
  rfl

@[simp] theorem stall_core (s : State) (k : Nat) : (stall s k).core = s.core := by
  simp [stall]

@[simp] theorem sendRequest_core (s : State) (k i : Nat) (m : TxMsg) (a : Acc) : (sendRequest s k i m a).core = s.core := by
  unfold sendRequest; (repeat' split) <;> (try simp_all) <;> (repeat' split) <;> simp_all

@[simp] theorem messageSendEff_core (s : State) (k : Nat) : (messageSendEff s k).core = s.core := by
  unfold messageSendEff; (repeat' split) <;> (try simp_all) <;> (repeat' split) <;> simp_all

@[simp] theorem replayNow_core (s : State) (k : Nat) : (replayNow s k).core = s.core := by
  simp [replayNow]

@[simp] theorem nullGroup_core (s : State) (k : Nat) (nak : Bool) : (nullGroup s k nak).core = s.core := by
  rfl

@[simp] theorem countNak_core (s : State) (k : Nat) (received : Bool) : (countNak s k received).core = s.core := by
  rfl

@[simp] theorem sendNak_core (s : State) (k : Nat) : (sendNak s k).core = s.core := by
  simp [sendNak]

@[simp] theorem acceptFlit_core (s : State) (k : Nat) (b : List Byte) : (acceptFlit s k b).core = s.core := by
  unfold acceptFlit; (repeat' split) <;> (try simp_all) <;> (repeat' split) <;> simp_all

@[simp] theorem seqFlit_core (s : State) (k : Nat) (b : List Byte) : (seqFlit s k b).core = s.core := by
  simp [seqFlit]

@[simp] theorem flitControl_core (s : State) (k : Nat) (b : List Byte) : (flitControl s k b).core = s.core := by
  simp [flitControl]

@[simp] theorem rxSlot_core (k : Nat) (s : State) (f : RxFlit) : (rxSlot k s f).core = s.core := by
  unfold rxSlot; (repeat' split) <;> simp_all

@[simp] theorem flitGroupEff_core (s : State) (k : Nat) (slots : List RxFlit) : (flitGroupEff s k slots).core = s.core := by
  simp [flitGroupEff]

@[simp] theorem accAnswer_core (s : State) (k : Nat) (a : Acc) : (accAnswer s k a).core = s.core := by
  unfold accAnswer; (repeat' split) <;> (try simp_all) <;> (repeat' split) <;> simp_all

@[simp] theorem endReq_core (s : State) (k : Nat) (r : UliReq) (e : AccEnd) : (endReq s k r e).core = s.core := by
  simp [endReq]

theorem takeRx_core (s : State) (k : Nat) (p : Nat → Bool) : ∀ z, takeRx s k p = some z → z.2.core = s.core := by
  simp [takeRx]

@[simp] theorem strayAnswer_core (s : State) (k tag : Nat) : (strayAnswer s k tag).core = s.core := by
  simp [strayAnswer]

@[simp] theorem cplEnd_core (s : State) (k : Nat) (m : RxMsg) (r : UliReq) : (cplEnd s k m r).core = s.core := by
  simp [cplEnd]

@[simp] theorem cplReceiveEff_core (s : State) (k : Nat) : (cplReceiveEff s k).core = s.core := by
  unfold cplReceiveEff; (repeat' split) <;> first | (simp_all; done) | (have e := takeRx_core _ _ _ _ (by assumption); simp_all)

@[simp] theorem settleReceiveEff_core (s : State) (k : Nat) : (settleReceiveEff s k).core = s.core := by
  unfold settleReceiveEff; (repeat' split) <;> first | (simp_all; done) | (have e := takeRx_core _ _ _ _ (by assumption); simp_all)

@[simp] theorem notifyReceiveEff_core (s : State) (k : Nat) : (notifyReceiveEff s k).core = s.core := by
  unfold notifyReceiveEff; (repeat' split) <;> first | (simp_all; done) | (have e := takeRx_core _ _ _ _ (by assumption); simp_all)

@[simp] theorem peerRequestEff_core (s : State) (k : Nat) : (peerRequestEff s k).core = s.core := by
  unfold peerRequestEff; (repeat' split) <;> first | (simp_all; done) | (have e := takeRx_core _ _ _ _ (by assumption); simp_all)

@[simp] theorem reqTimeoutEff_core (s : State) (k tag : Nat) : (reqTimeoutEff s k tag).core = s.core := by
  unfold reqTimeoutEff; (repeat' split) <;> simp_all

/-! ## LinkSvc.lean -/

@[simp] theorem linkInEff_core (s : State) (mb k : Nat) : (linkInEff s mb k).core = s.core := by
  simp [linkInEff]

@[simp] theorem linkOutEff_core (s : State) (mb k : Nat) : (linkOutEff s mb k).core = s.core := by
  simp [linkOutEff]

@[simp] theorem linkRetrainEff_core (s : State) (mb : Nat) (c : Cmd) : (linkRetrainEff s mb c).core = s.core := by
  simp [linkRetrainEff]

@[simp] theorem endLoop_core (s : State) (k : Nat) (errors : List Nat) (bitsN locked : Nat) :
    (endLoop s k errors bitsN locked).core = s.core := by
  unfold endLoop; (repeat' split) <;> (try simp_all) <;> (repeat' split) <;> simp_all

@[simp] theorem linkLoopEff_core (s : State) (mb : Nat) (c : Cmd) : (linkLoopEff s mb c).core = s.core := by
  unfold linkLoopEff
  dsimp only
  (repeat' split) <;> simp [core_fresh]

@[simp] theorem eyeDoneEff_core (s : State) (n left right upper lower cnt : Nat) :
    (eyeDoneEff s n left right upper lower cnt).core = s.core := by
  unfold eyeDoneEff; (repeat' split) <;> simp_all

@[simp] theorem linkRelease_core (s : State) (k : Nat) : (linkRelease s k).core = s.core := by
  simp [linkRelease]

/-! ## Twin.lean -/

@[simp] theorem applyRelease_core (s : State) (q : Nat) (e : List Byte) (slot : Nat) : (applyRelease s q e slot).core = s.core := by
  rfl

@[simp] theorem applyCtx_core (s : State) (q : Nat) (ws : List Word) : (applyCtx s q ws).core = s.core := by
  simp [applyCtx]

@[simp] theorem applyRec_core (s : State) (r : MirrorRec) : (applyRec s r).core = s.core := by
  unfold applyRec; (repeat' split) <;> simp_all

@[simp] theorem putDown_core (s : State) (q : Nat) : (putDown s q).core = s.core := by
  simp [putDown]

@[simp] theorem takeUp_core (s : State) (q : Nat) : (takeUp s q).core = s.core := by
  simp [takeUp]

@[simp] theorem roleDone_core (s : State) : (roleDone s).core = s.core := by
  simp [roleDone]

@[simp] theorem handOver_core (s : State) : (handOver s).core = s.core := by
  simp [handOver]

@[simp] theorem handedOver_core (s : State) : (handedOver s).core = s.core := by
  simp [handedOver]

@[simp] theorem takeMap_core (s : State) (lead : List Nat) : (takeMap s lead).core = s.core := by
  simp [takeMap]

@[simp] theorem twinFormEff_core (s : State) (mb : Nat) (x_2 : Cmd) : (twinFormEff s mb x_2).core = s.core := by
  unfold twinFormEff; dsimp only; (repeat' split) <;> (try simp only [Prod.ext_iff] at *) <;> simp_all

@[simp] theorem disagree_core (s : State) (r : Nat × List Byte × List Byte) : (disagree s r).core = s.core := by
  unfold disagree; (repeat' split) <;> (try simp_all) <;> (repeat' split) <;> simp_all

@[simp] theorem formed_core (s : State) : (formed s).core = s.core := by
  unfold formed; (repeat' split) <;> (try simp_all) <;> (repeat' split) <;> simp_all

@[simp] theorem helloEff_core (s : State) (h : Hello) : (helloEff s h).core = s.core := by
  unfold helloEff; (repeat' split) <;> (try simp_all) <;> (repeat' split) <;> simp_all

@[simp] theorem mirrorAckEff_core (s : State) (seq : Nat) : (mirrorAckEff s seq).core = s.core := by
  simp [mirrorAckEff]

@[simp] theorem wipeMirror_core (s : State) (t : Nat) : (wipeMirror s t).core = s.core := by
  rfl

@[simp] theorem resyncEff_core (s : State) (t : Nat) (recs : List MirrorRec) : (resyncEff s t recs).core = s.core := by
  simp [resyncEff]

@[simp] theorem timeEff_core (s : State) (offset : DWord) : (timeEff s offset).core = s.core := by
  simp [timeEff]

@[simp] theorem hbFail_core (s : State) : (hbFail s).core = s.core := by
  simp [hbFail]

@[simp] theorem hbWeir_core (s : State) (c : HbCell) (write : Bool) : (hbWeir s c write).2.core = s.core := by
  unfold hbWeir; (repeat' split) <;> simp_all

@[simp] theorem hbWriteEff_core (s : State) (ok : Bool) : (hbWriteEff s ok).core = s.core := by
  simp [hbWriteEff]

@[simp] theorem hbReadEff_core (s : State) (v : Option Word) : (hbReadEff s v).core = s.core := by
  unfold hbReadEff; (repeat' split) <;> simp_all

@[simp] theorem rewriteEntries_core (s : State) (q : Nat) : (rewriteEntries s q).core = s.core := by
  simp [rewriteEntries]

@[simp] theorem settleUnknown_core (s : State) (t : Nat) : (settleUnknown s t).core = s.core := by
  simp [settleUnknown]

@[simp] theorem gainUnsynced_core (s : State) (t : Nat) : (gainUnsynced s t).core = s.core := by
  simp [gainUnsynced]

@[simp] theorem gainTenant_core (s : State) (t : Nat) : (gainTenant s t).core = s.core := by
  simp [gainTenant]

@[simp] theorem takeover_core (s : State) (gained : List Nat) (standby : Bool) (hold : Nat) :
    (takeover s gained standby hold).core = s.core := by
  simp [takeover]

@[simp] theorem abandonSlot_core (s : State) (k : Nat) : (abandonSlot s k).core = s.core := by
  unfold abandonSlot; (repeat' split) <;> (try simp_all) <;> (repeat' split) <;> simp_all

@[simp] theorem fenceLink_core (s : State) (k : Nat) : (fenceLink s k).core = s.core := by
  simp [fenceLink]

@[simp] theorem fence_core (s : State) : (fence s).core = s.core := by
  simp [fence]

@[simp] theorem survive_core (s : State) : (survive s).core = s.core := by
  simp [survive]

@[simp] theorem hbDecideEff_core (s : State) : (hbDecideEff s).core = s.core := by
  simp [hbDecideEff]

@[simp] theorem roleSetEff_core (s : State) (mb : Nat) (c : Cmd) : (roleSetEff s mb c).core = s.core := by
  simp [roleSetEff]

@[simp] theorem dissolve_core (s : State) : (dissolve s).core = s.core := by
  simp [dissolve]

@[simp] theorem dissolveOwn_core (s : State) : (dissolveOwn s).core = s.core := by
  simp [dissolveOwn]

@[simp] theorem twinDissolveEff_core (s : State) (mb : Nat) (x_2 : Cmd) : (twinDissolveEff s mb x_2).core = s.core := by
  unfold twinDissolveEff; (repeat' split) <;> simp_all

@[simp] theorem roleReceiveEff_core (s : State) (m : RoleMsg) : (roleReceiveEff s m).core = s.core := by
  unfold roleReceiveEff; (repeat' split) <;> simp_all

/-! ## Spares.lean -/

@[simp] theorem noteMeas_core (s : State) (unit : Nat) : (noteMeas s unit).core = s.core := by
  rfl

@[simp] theorem holdDecision_core (s : State) (kind index srcId meas bound reason : Nat) :
    (holdDecision s kind index srcId meas bound reason).core = s.core := by
  simp [holdDecision]

@[simp] theorem planned_core (s : State) (kind index srcId meas bound : Nat) (planOk spareOk same : Bool) (act : State → State) (hact : ∀ (u : State), (act u).core = u.core) :
    (planned s kind index srcId meas bound planOk spareOk same act).core = s.core := by
  unfold planned; (repeat' split) <;> simp_all

@[simp] theorem retireLane_core (s : State) (n action : Nat) : (retireLane s n action).core = s.core := by
  simp [retireLane]

@[simp] theorem eyeWearEff_core (s : State) (n h v : Nat) : (eyeWearEff s n h v).core = s.core := by
  simp [eyeWearEff]

@[simp] theorem repairRow_core (s : State) (m row meas : Nat) : (repairRow s m row meas).core = s.core := by
  simp [repairRow]

@[simp] theorem rowDue_core (s : State) (m row meas : Nat) : (rowDue s m row meas).core = s.core := by
  simp [rowDue]

@[simp] theorem sramCorrectedEff_core (s : State) (m row : Nat) : (sramCorrectedEff s m row).core = s.core := by
  simp [sramCorrectedEff]

@[simp] theorem retireBlock_core (s : State) (b action meas bound : Nat) : (retireBlock s b action meas bound).core = s.core := by
  simp [retireBlock]

@[simp] theorem switchPll_core (s : State) (fb : Bool) (action : Nat) : (switchPll s fb action).core = s.core := by
  unfold switchPll; (repeat' split) <;> simp_all

@[simp] theorem pllFaultEff_core (s : State) (fb spareOk : Bool) : (pllFaultEff s fb spareOk).core = s.core := by
  simp [pllFaultEff]

@[simp] theorem measIsland_core (s : State) (d f : Nat) : (measIsland s d f).core = s.core := by
  simp [measIsland]

@[simp] theorem measPan_core (s : State) (p f : Nat) : (measPan s p f).core = s.core := by
  simp [measPan]

@[simp] theorem measBlock_core (s : State) (b f : Nat) : (measBlock s b f).core = s.core := by
  simp [measBlock]

@[simp] theorem wearMeasureEff_core (s : State) (islands pans : List Nat) (blocks : List (Nat × Nat)) :
    (wearMeasureEff s islands pans blocks).core = s.core := by
  simp [wearMeasureEff]

@[simp] theorem overrideDone_core (s : State) (mb kind index : Nat) : (overrideDone s mb kind index).core = s.core := by
  simp [overrideDone]

@[simp] theorem retireNowEff_core (s : State) (mb : Nat) (c : Cmd) : (retireNowEff s mb c).core = s.core := by
  unfold retireNowEff; (repeat' split) <;> (try simp_all) <;> (repeat' split) <;> simp_all

@[simp] theorem setForbid_core (s : State) (mb : Nat) (c : Cmd) (on : Bool) : (setForbid s mb c on).core = s.core := by
  simp [setForbid]

/-! ## LogRows.lean -/

@[simp] theorem oweDrops_core (s : State) : (oweDrops s).core = s.core := by
  unfold oweDrops; split
  · rw [State.raise_core]; rfl
  · rfl

/-! ## Records written (R516, R517) -/

theorem fillFok_core (s : State) (r : EvRec) : (fillFok s r).core
    = (s.core.1, s.core.2.1, s.core.2.2.1, if (fokRec s (fokSlot r.code)).isSome then s.log.fok else s.log.fok.set (fun _ => none) (fokSlot r.code) (some r)) := by
  unfold fillFok; dsimp only; split
  · rfl
  · rw [sendMsix_core, raiseAlert_core]; rfl

theorem commitRec_core (s : State) (r : EvRec) : (commitRec s r).core = (s.core.1, addRec s.core.2 r) := by
  unfold commitRec; rw [fillFok_core]; rfl

theorem Grew.of_eq {n : Nat} {s t : State} (h : t.core = s.core) : Grew n s t := ⟨[], Nat.zero_le _, h⟩

theorem Grew.le {m n : Nat} {s t : State} (h : Grew m s t) (hn : m ≤ n) : Grew n s t :=
  let ⟨l, a, b⟩ := h; ⟨l, Nat.le_trans a hn, b⟩

theorem Grew.trans {m n : Nat} {s t u : State} (h : Grew m s t) (g : Grew n t u) : Grew (m + n) s u := by
  obtain ⟨l, a, b⟩ := h
  obtain ⟨k, c, d⟩ := g
  refine ⟨l ++ k, by simp; omega, ?_⟩
  rw [d, b, List.foldl_append]

theorem Grew.after {n : Nat} {s t u : State} (h : Grew n s t) (g : u.core = t.core) : Grew n s u := h.trans (n := 0) (.of_eq g)

theorem Grew.before {n : Nat} {s t u : State} (g : t.core = s.core) (h : Grew n t u) : Grew n s u := by
  obtain ⟨l, a, b⟩ := h
  exact ⟨l, a, by rw [b, g]⟩

theorem commitOne_grew (s : State) : Grew 1 s (commitOne s) := by
  unfold commitOne; split
  · exact .of_eq rfl
  · rename_i r rest h
    exact ⟨[r], Nat.le_refl _, by rw [oweDrops_core, commitRec_core]; rfl⟩

theorem commitAll_grew (s : State) (n : Nat) : Grew n s (commitAll s n) := by
  induction n generalizing s with
  | zero => exact .of_eq rfl
  | succ m ih => exact ((commitOne_grew s).trans (ih _)).le (by omega)

end Sys2Proof.Machine
end

