-- ==== Sys2Proof/Laws/KeptControl.lean ====
section
/-! SUPPORT. What every operation keeps: the host link, harvest, resets and boot, the Herdin commands, registers. One lemma an operation says that it leaves the queue of waiting commands and the life-cycle fuses as they are (`State.core`); `transition` alone burns fuses. -/

namespace Sys2Proof.Machine

/-! ## HostLink.lean -/

@[simp] theorem hostFatalEff_core (s : State) (kind : LinkFatal) : (hostFatalEff s kind).core = s.core := by
  simp [hostFatalEff]

@[simp] theorem sramUncorrEff_core (s : State) (owner : Option Nat) : (sramUncorrEff s owner).core = s.core := by
  unfold sramUncorrEff; (repeat' split) <;> simp_all

@[simp] theorem abandon_core (s : State) (u : TagUse) : (abandon s u).core = s.core := by
  unfold abandon; (repeat' split) <;> simp_all

@[simp] theorem abandonFn_core (s : State) (fn : Nat) : (abandonFn s fn).2.core = s.core := by
  simp [abandonFn]

@[simp] theorem linkDownConfig_core (s : State) : (linkDownConfig s).core = s.core := by
  simp [linkDownConfig]

@[simp] theorem dropHostReads_core (s : State) : (dropHostReads s).core = s.core := by
  simp [dropHostReads]

@[simp] theorem linkDownEff_core (s : State) : (linkDownEff s).core = s.core := by
  unfold linkDownEff
  dsimp only
  split
  · rfl
  · simp only [enterDevice_core, State.raise_core, State.incReg_core, linkDownConfig_core, dropHostReads_core]
    rw [foldl_pair_core]
    · rfl
    · intro u x; exact abandonFn_core _ _

@[simp] theorem tideWoken_core (s : State) : (tideWoken s).core = s.core := by
  simp [tideWoken]

@[simp] theorem linkUp_core (s : State) : (linkUp s).core = s.core := by
  simp [linkUp]

@[simp] theorem rbarEff_core (s : State) (size : Nat) : (rbarEff s size).core = s.core := by
  simp [rbarEff]

@[simp] theorem ptmEff_core (s : State) (master : DWord) : (ptmEff s master).core = s.core := by
  simp [ptmEff]

@[simp] theorem unmaskEff_core (s : State) (fn : Nat) (entry : Option Nat) : (unmaskEff s fn entry).core = s.core := by
  unfold unmaskEff; (repeat' split) <;> simp_all

/-! ## HarvestCmd.lean -/

@[simp] theorem clearEntries_core (s : State) (first n : Nat) : (clearEntries s first n).core = s.core := by
  rfl

@[simp] theorem harvestCreateEff_core (s : State) (mb : Nat) (c : Cmd) : (harvestCreateEff s mb c).core = s.core := by
  unfold harvestCreateEff; (repeat' split) <;> (try simp_all) <;> (repeat' split) <;> simp_all

@[simp] theorem floodCreateEff_core (s : State) (mb : Nat) (c : Cmd) : (floodCreateEff s mb c).core = s.core := by
  unfold floodCreateEff; (repeat' split) <;> (try simp_all) <;> (repeat' split) <;> simp_all

@[simp] theorem storeEntry_core (s : State) (e : Nat) (b : List Byte) : (storeEntry s e b).core = s.core := by
  simp [storeEntry]

@[simp] theorem harvestPointsEff_core (s : State) (mb : Nat) (c : Cmd) : (harvestPointsEff s mb c).core = s.core := by
  simp [harvestPointsEff]

@[simp] theorem freshPoints_core (s : State) (h : Nat) : (freshPoints s h).core = s.core := by
  simp [freshPoints]

@[simp] theorem startSched_core (s : State) (h : Nat) (force : Bool) : (startSched s h force).core = s.core := by
  simp [startSched]

@[simp] theorem harvestStartEff_core (s : State) (mb : Nat) (c : Cmd) : (harvestStartEff s mb c).core = s.core := by
  unfold harvestStartEff; (repeat' split) <;> (try simp_all) <;> (repeat' split) <;> simp_all

@[simp] theorem dropHarvestVotes_core (s : State) (h : Nat) : (dropHarvestVotes s h).core = s.core := by
  simp [dropHarvestVotes]

@[simp] theorem stopSched_core (s : State) (h : Nat) : (stopSched s h).core = s.core := by
  simp [stopSched]

@[simp] theorem freeSched_core (s : State) (h : Nat) : (freeSched s h).core = s.core := by
  simp [freeSched]

@[simp] theorem harvestStopEff_core (free : Bool) (s : State) (mb : Nat) (c : Cmd) : (harvestStopEff free s mb c).core = s.core := by
  simp [harvestStopEff]

@[simp] theorem harvestGetEff_core (s : State) (mb : Nat) (c : Cmd) : (harvestGetEff s mb c).core = s.core := by
  simp [harvestGetEff]

@[simp] theorem routeSetEff_core (s : State) (mb : Nat) (c : Cmd) : (routeSetEff s mb c).core = s.core := by
  simp [routeSetEff]

@[simp] theorem harAllowEff_core (s : State) (i v : Nat) : (harAllowEff s i v).core = s.core := by
  simp [harAllowEff]

/-! ## HarvestCycle.lean -/

@[simp] theorem modCycle_core (s : State) (h : Nat) (f : HarCycle → HarCycle) : (modCycle s h f).core = s.core := by
  rfl

@[simp] theorem modFlood_core (s : State) (h : Nat) (f : FloodRead → FloodRead) : (modFlood s h f).core = s.core := by
  rfl

@[simp] theorem floodAsk_core (s : State) (h : Nat) : (floodAsk s h).core = s.core := by
  unfold floodAsk; dsimp only; (repeat' split) <;> first | (simp_all; done) | (have e := hostRead_core _ _ _ _ _ _ (by assumption); simp_all)

@[simp] theorem floodSelectorReadEff_core (s : State) (h : Nat) : (floodSelectorReadEff s h).core = s.core := by
  unfold floodSelectorReadEff; (repeat' split) <;> (try simp_all) <;> (repeat' split) <;> simp_all

@[simp] theorem floodAnswer_core (s : State) (h : Nat) (use : TagUse) (n : Nat) (res : HostEnd) (ok : State → List Byte → State) (hok : ∀ (u : State) (x : List Byte), (ok u x).core = u.core) :
    (floodAnswer s h use n res ok).core = s.core := by
  unfold floodAnswer; (repeat' split) <;> (try simp_all) <;> (repeat' split) <;> simp_all

@[simp] theorem selectorDoneEff_core (s : State) (h : Nat) (res : HostEnd) : (selectorDoneEff s h res).core = s.core := by
  simp [selectorDoneEff]

@[simp] theorem outputDoneEff_core (s : State) (h : Nat) (res : HostEnd) : (outputDoneEff s h res).core = s.core := by
  unfold outputDoneEff; (repeat' split) <;> simp_all

@[simp] theorem pointEvent_core (s : State) (h : Nat) (flood : Bool) (i code cs : Nat) :
    (pointEvent s h flood i code cs).core = s.core := by
  unfold pointEvent; (repeat' split) <;> (try simp_all) <;> (repeat' split) <;> simp_all

@[simp] theorem pointFails_core (s : State) (h : Nat) (flood : Bool) (i code cs : Nat) :
    (pointFails s h flood i code cs).core = s.core := by
  simp [pointFails]

@[simp] theorem pointSucceeds_core (s : State) (h : Nat) (flood : Bool) (i : Nat) : (pointSucceeds s h flood i).core = s.core := by
  simp [pointSucceeds]

@[simp] theorem imageWrite_core (s : State) (h off : Nat) (b : List Byte) : (imageWrite s h off b).core = s.core := by
  simp [imageWrite]

@[simp] theorem detectChange_core (s : State) (h i : Nat) (v : Int) : (detectChange s h i v).core = s.core := by
  unfold detectChange; (repeat' split) <;> (try simp_all) <;> (repeat' split) <;> simp_all

@[simp] theorem unlist_core (s : State) (h k : Nat) (flood : Bool) (i : Nat) : (unlist s h k flood i).core = s.core := by
  rfl

@[simp] theorem launch_core (s : State) (h : Nat) (flood : Bool) (i addr ticket : Nat) (bytes : List (Option Byte)) :
    (launch s h flood i addr ticket bytes).core = s.core := by
  simp [launch]

@[simp] theorem floodSend_core (s : State) (h i : Nat) : (floodSend s h i).core = s.core := by
  unfold floodSend; (repeat' split) <;> simp_all

@[simp] theorem issueDue_core (s : State) (k h : Nat) (flood : Bool) (i : Nat) : (issueDue s k h flood i).core = s.core := by
  unfold issueDue; (repeat' split) <;> (try simp_all) <;> (repeat' split) <;> simp_all

@[simp] theorem issueTarget_core (s : State) (k : Nat) (a0 : Nat) : (issueTarget s k a0).core = s.core := by
  induction a0 generalizing s with
  | zero => rfl
  | succ m ih => unfold issueTarget; (repeat' split) <;> simp_all

@[simp] theorem issueAll_core (s : State) : (issueAll s).core = s.core := by
  simp [issueAll]

@[simp] theorem publish_core (s : State) (h : Nat) (c : HarCycle) : (publish s h c).core = s.core := by
  simp [publish]

@[simp] theorem publishDue_core (s : State) : (publishDue s).core = s.core := by
  unfold publishDue
  rw [foldl_core]
  intro u x
  (repeat' split) <;> simp

@[simp] theorem engineRuns_core (s : State) : (engineRuns s).core = s.core := by
  simp [engineRuns]

@[simp] theorem dropFlood_core (s : State) (h : Nat) : (dropFlood s h).core = s.core := by
  rfl

@[simp] theorem skipFlood_core (s : State) (h cs : Nat) : (skipFlood s h cs).core = s.core := by
  simp [skipFlood]

@[simp] theorem missStart_core (s : State) (h t : Nat) : (missStart s h t).core = s.core := by
  simp [missStart]

@[simp] theorem takeStart_core (s : State) (h t : Nat) : (takeStart s h t).core = s.core := by
  simp [takeStart]

@[simp] theorem cycleStartEff_core (s : State) (h : Nat) : (cycleStartEff s h).core = s.core := by
  simp [cycleStartEff]

@[simp] theorem pointEnded_core (s : State) (h : Nat) (flood : Bool) (i cs : Nat) : (pointEnded s h flood i cs).core = s.core := by
  simp [pointEnded]

@[simp] theorem frameOn_core (s : State) (h k : Nat) (flood : Bool) (i : Nat) : (frameOn s h k flood i).core = s.core := by
  simp [frameOn]

@[simp] theorem frameCame_core (s : State) (h k i : Nat) (d : List Byte) : (frameCame s h k i d).core = s.core := by
  unfold frameCame; (repeat' split) <;> (try simp_all) <;> (repeat' split) <;> simp_all

@[simp] theorem valueCame_core (s : State) (h i : Nat) (d : List Byte) : (valueCame s h i d).core = s.core := by
  unfold valueCame; (repeat' split) <;> (try simp_all) <;> (repeat' split) <;> simp_all

@[simp] theorem pointBack_core (s : State) (h k : Nat) (flood : Bool) (i : Nat) (r : AccEnd) :
    (pointBack s h k flood i r).core = s.core := by
  simp [pointBack]

@[simp] theorem floodRetry_core (s : State) (k : Nat) : (floodRetry s k).core = s.core := by
  unfold floodRetry; (repeat' split) <;> simp_all

@[simp] theorem pointReturnEff_core (s : State) (k : Nat) : (pointReturnEff s k).core = s.core := by
  unfold pointReturnEff; (repeat' split) <;> simp_all

@[simp] theorem deadlineEff_core (s : State) (h : Nat) : (deadlineEff s h).core = s.core := by
  unfold deadlineEff; (repeat' split) <;> simp_all

@[simp] theorem ledgerTimeoutEff_core (s : State) (k : Nat) : (ledgerTimeoutEff s k).core = s.core := by
  unfold ledgerTimeoutEff; (repeat' split) <;> simp_all

/-! ## Flr.lean -/

@[simp] theorem unwait_core (s : State) (mb : Nat) : (unwait s mb).core = s.core := by
  simp [unwait]

@[simp] theorem clearMailbox_core (s : State) (mb : Nat) : (clearMailbox s mb).core = s.core := by
  simp [clearMailbox]

@[simp] theorem flrQueues_core (s : State) (t : Nat) : (flrQueues s t).2.core = s.core := by
  unfold flrQueues
  rw [foldl_pair_core]
  intro u x
  simp

@[simp] theorem flrReads_core (s : State) (fn : Nat) : (flrReads s fn).2.core = s.core := by
  simp [flrReads]

@[simp] theorem dropUnaccepted_core (s : State) (t : Nat) : (dropUnaccepted s t).core = s.core := by
  simp [dropUnaccepted]

@[simp] theorem flrTally_core (s : State) (t : Nat) : (flrTally s t).core = s.core := by
  simp [flrTally]

@[simp] theorem resetRec_core (s : State) (code tenant d h r : Nat) : (resetRec s code tenant d h r).core = s.core := by
  simp [resetRec]

@[simp] theorem flrBegin_core (s : State) (fn : Nat) : (flrBegin s fn).core = s.core := by
  unfold flrBegin; (repeat' split) <;> (try simp_all) <;> (repeat' split) <;> simp_all

@[simp] theorem vfDisableEff_core (s : State) : (vfDisableEff s).core = s.core := by
  simp [vfDisableEff]

@[simp] theorem flrInitiateEff_core (s : State) (fn : Nat) : (flrInitiateEff s fn).core = s.core := by
  simp [flrInitiateEff]

@[simp] theorem flrCutEff_core (s : State) (p : Nat) : (flrCutEff s p).core = s.core := by
  simp [flrCutEff]

@[simp] theorem flrCompleteEff_core (s : State) (fn : Nat) : (flrCompleteEff s fn).core = s.core := by
  unfold flrCompleteEff
  dsimp only
  split
  · rfl
  · split
    · rfl
    · split <;> split <;> simp

@[simp] theorem vfEnableEff_core (s : State) : (vfEnableEff s).core = s.core := by
  simp [vfEnableEff]

/-! ## Resets.lean -/

@[simp] theorem setMv_core (s : State) (k v : Nat) : (setMv s k v).core = s.core := by
  rfl

@[simp] theorem fwSelect_core (s : State) : (fwSelect s).core = s.core := by
  simp [fwSelect]

@[simp] theorem cfgSelect_core (s : State) : (cfgSelect s).core = s.core := by
  unfold cfgSelect
  simp only []
  split
  · exact (core_img _ _).trans (State.modBoot_core _ _)
  · split
    · exact (core_img _ _).trans (State.modBoot_core _ _)
    · split
      · exact (core_img _ _).trans ((State.modBoot_core _ _).trans (State.raise_core _ _))
      · exact (core_img _ _).trans ((State.modBoot_core _ _).trans (State.raise_core _ _))

@[simp] theorem imageDomain_core (s : State) (d : Nat) : (imageDomain s d).core = s.core := by
  simp [imageDomain]

@[simp] theorem imageBed_core (s : State) (b : Nat) : (imageBed s b).core = s.core := by
  simp [imageBed]

@[simp] theorem imageLink_core (s : State) (k : Nat) : (imageLink s k).core = s.core := by
  simp [imageLink]

@[simp] theorem applyImage_core (s : State) : (applyImage s).core = s.core := by
  simp [applyImage]

@[simp] theorem portLets_core (s : State) (p : Nat) (keep : Bool) : (portLets s p keep).core = s.core := by
  simp [portLets]

@[simp] theorem clearPower_core (s : State) : (clearPower s).core = s.core := by
  rfl

@[simp] theorem clearWide_core (s : State) : (clearWide s).core = s.core := by
  unfold clearWide
  dsimp only
  rw [foldl_core _ _ _ (fun u x => by simp), foldl_core _ _ _ (fun u x => by simp), foldl_core _ _ _ (fun u x => by simp)]
  exact foldl_core _ _ _ (fun u x => by simp)

@[simp] theorem wideRec_core (s : State) (k : WideReset) (n : Nat × Nat × Nat) : (wideRec s k n).core = s.core := by
  unfold wideRec; (repeat' split) <;> simp_all

@[simp] theorem settleLinkOrphans_core (s : State) (as : List (Nat × Acc)) : (settleLinkOrphans s as).core = s.core := by
  simp [settleLinkOrphans]

@[simp] theorem closeDebug_core (s : State) (cause : Nat) : (closeDebug s cause).core = s.core := by
  simp [closeDebug]

@[simp] theorem reenterDevice_core (s : State) : (reenterDevice s).core = s.core := by
  simp [reenterDevice]

@[simp] theorem eraseKeys_core (s : State) : (eraseKeys s).core = s.core := by
  rfl

@[simp] theorem bootRun_core (s : State) (k : WideReset) : (bootRun s k).core = s.core := by
  simp [bootRun]

@[simp] theorem addCause_core (s : State) (bits : Nat) : (addCause s bits).core = s.core := by
  rfl

@[simp] theorem wideReset_core (s : State) (k : WideReset) (cause : Nat) : (wideReset s k cause).core = s.core := by
  simp [wideReset]

@[simp] theorem hostReset_core (s : State) (cause : Nat) : (hostReset s cause).core = s.core := by
  simp [hostReset]

@[simp] theorem powerOnEff_core (s : State) (testEn : Bool) (smbAddr : BitVec 2) (tornHead : Bool) :
    (powerOnEff s testEn smbAddr tornHead).core = s.core := by
  simp [powerOnEff]

/-! ## Tide.lean -/

@[simp] theorem tideArmEff_core (s : State) (mb : Nat) (c : Cmd) : (tideArmEff s mb c).core = s.core := by
  unfold tideArmEff; (repeat' split) <;> (try simp_all) <;> (repeat' split) <;> simp_all

@[simp] theorem tideBegin_core (s : State) : (tideBegin s).core = s.core := by
  unfold tideBegin; (repeat' split) <;> (try simp_all) <;> (repeat' split) <;> simp_all

@[simp] theorem domainsOff_core (s : State) : (domainsOff s).core = s.core := by
  simp [domainsOff]

@[simp] theorem serviceOn_core (s : State) : (serviceOn s).core = s.core := by
  simp [serviceOn]

@[simp] theorem goDark_core (s : State) : (goDark s).core = s.core := by
  unfold goDark
  simp only [State.modPwr_core, domainsOff_core, State.modLog_core, State.modFn_core]
  refine (core_ports_boot _ _ _).trans ?_
  rw [State.modTal_core, clearWide_core, foldl_core]
  intro u x
  exact portLets_core _ _ _

theorem tideEnterEff_grew (s : State) : Grew 600 s (tideEnterEff s) := by
  unfold tideEnterEff; split
  · exact .of_eq rfl
  · exact .after (.before (by rw [State.modTide_core, State.raise_core]) (commitAll_grew _ 600)) ((State.modTide_core _ _).trans (goDark_core _))

@[simp] theorem tideReads_core (s : State) : (tideReads s).core = s.core := by
  simp [tideReads]

@[simp] theorem tideLeave_core (s : State) : (tideLeave s).core = s.core := by
  simp [tideLeave]

@[simp] theorem tidePerst_core (s : State) : (tidePerst s).core = s.core := by
  simp [tidePerst]

@[simp] theorem tideSampleEff_core (s : State) (samples : List TideSample) (perst : Bool) :
    (tideSampleEff s samples perst).core = s.core := by
  simp [tideSampleEff]

/-! ## Boot.lean -/

@[simp] theorem confirmTrial_core (s : State) : (confirmTrial s).core = s.core := by
  rfl

@[simp] theorem endPortOrphans_core (s : State) (p : Nat) : (endPortOrphans s p).core = s.core := by
  simp [endPortOrphans]

@[simp] theorem bootPort_core (s : State) (p : Nat) : (bootPort s p).core = s.core := by
  simp [bootPort]

@[simp] theorem bootLink_core (s : State) (k : Nat) : (bootLink s k).core = s.core := by
  simp [bootLink]

@[simp] theorem bootTwin_core (s : State) : (bootTwin s).core = s.core := by
  simp [bootTwin]

@[simp] theorem privExcess_core (s : State) : (privExcess s).core = s.core := by
  simp [privExcess]

@[simp] theorem bootMailboxes_core (s : State) : (bootMailboxes s).core = s.core := by
  simp [bootMailboxes]

@[simp] theorem bootServiceEff_core (s : State) : (bootServiceEff s).core = s.core := by
  simp [bootServiceEff]

@[simp] theorem inReset_core (s : State) : (inReset s).core = s.core := by
  unfold inReset
  refine (core_dbg_boot _ _ _).trans ?_
  rw [clearPower_core, foldl_core]
  intro u x
  exact portLets_core _ _ _

@[simp] theorem porstFallEff_core (s : State) : (porstFallEff s).core = s.core := by
  simp [porstFallEff]

@[simp] theorem internalResetEff_core (s : State) (k mv : Nat) : (internalResetEff s k mv).core = s.core := by
  simp [internalResetEff]

@[simp] theorem perstFallEff_core (s : State) : (perstFallEff s).core = s.core := by
  simp [perstFallEff]

@[simp] theorem watchdogEff_core (s : State) : (watchdogEff s).core = s.core := by
  simp [watchdogEff]

@[simp] theorem supplyFaultEff_core (s : State) (k mv : Nat) : (supplyFaultEff s k mv).core = s.core := by
  simp [supplyFaultEff]

@[simp] theorem tempSeen_core (s : State) (t : BitVec 16) : (tempSeen s t).core = s.core := by
  unfold tempSeen; dsimp only; (repeat' split) <;> simp_all

theorem thermalOff_grew (s : State) : Grew 600 s (thermalOff s) := by
  unfold thermalOff
  refine .after ?_ ((core_cont_mon _ _ _).trans (goDark_core _))
  split
  · exact .of_eq (State.modTide_core _ _)
  · exact .before (by rw [enterDevice_core, State.raise_core]) (commitAll_grew _ 600)

theorem thermEff_grew (s : State) (t : BitVec 16) : Grew 600 s (thermEff s t) := by
  have h : (if awake s then tempSeen s t else s.modMon fun m => { m with temp := t }).core = s.core := by
    split
    · exact tempSeen_core _ _
    · exact State.modMon_core _ _
  refine Grew.before h ?_
  unfold thermEff
  extract_lets u
  change Grew 600 u _
  clear_value u
  split
  · exact thermalOff_grew u
  · exact Grew.of_eq rfl

/-! ## ImageCmd.lean -/

@[simp] theorem setSession_core (s : State) (kind : Nat) (x : Option ImgSession) : (setSession s kind x).core = s.core := by
  rfl

@[simp] theorem modImg_core (s : State) (kind n : Nat) (f : ImgSlot → ImgSlot) : (modImg s kind n f).core = s.core := by
  unfold modImg; (repeat' split) <;> simp_all

@[simp] theorem imageBeginEff_core (s : State) (mb : Nat) (c : Cmd) : (imageBeginEff s mb c).core = s.core := by
  simp [imageBeginEff]

@[simp] theorem imageChunkEff_core (s : State) (mb : Nat) (c : Cmd) : (imageChunkEff s mb c).core = s.core := by
  unfold imageChunkEff; (repeat' split) <;> (try simp_all) <;> (repeat' split) <;> simp_all

@[simp] theorem commitNow_core (s : State) (kind n : Nat) (hostConfirm : Bool) : (commitNow s kind n hostConfirm).core = s.core := by
  simp [commitNow]

@[simp] theorem imageCommitEff_core (s : State) (mb : Nat) (c : Cmd) : (imageCommitEff s mb c).core = s.core := by
  unfold imageCommitEff; (repeat' split) <;> (try simp_all) <;> (repeat' split) <;> simp_all

/-! ## KeysCmd.lean -/

@[simp] theorem authFail_core (s : State) (t reason : Nat) (c : Cmd) : (authFail s t reason c).core = s.core := by
  simp [authFail]

@[simp] theorem authAccept_core (s : State) (t : Nat) (c : Cmd) : (authAccept s t c).core = s.core := by
  rfl

theorem transition_grew (s : State) (mb new fuses : Nat) (act : State → State) (hact : ∀ u : State, (act u).core = u.core) :
    ∃ l : List EvRec, l.length ≤ 600 ∧ (transition s mb new fuses act).core = ((s.pending, s.mram.fuses ||| BitVec.ofNat 3 fuses), l.foldl addRec s.core.2) := by
  unfold transition
  dsimp only
  obtain ⟨l, hl, h⟩ := commitAll_grew (done (act (closeDebug ((s.raise { code := Ev.lcyTransition, src := srcSalt, data := leBytes 1 (lcyState s) ++ leBytes 1 new }).modMram
    fun m => { m with fuses := m.fuses ||| BitVec.ofNat 3 fuses }) 3)) mb []) 600
  refine ⟨l, hl, ?_⟩
  rw [wideReset_core, h, done_core, hact, closeDebug_core]
  have e := State.raise_core s { code := Ev.lcyTransition, src := srcSalt, data := leBytes 1 (lcyState s) ++ leBytes 1 new }
  simp only [State.core, Prod.mk.injEq] at e ⊢
  obtain ⟨⟨e1, e2⟩, e3, e4, e5⟩ := e
  refine ⟨⟨e1, congrArg (· ||| BitVec.ofNat 3 fuses) e2⟩, ?_⟩
  exact congrArg (fun w => l.foldl addRec w) (Prod.ext e3 (Prod.ext e4 e5))

@[simp] theorem eraseReturned_core (cfg : Bool) (s : State) : (eraseReturned cfg s).core = s.core := by
  simp [eraseReturned]

@[simp] theorem debugUnlockEff_core (s : State) (mb : Nat) (c : Cmd) : (debugUnlockEff s mb c).core = s.core := by
  simp [debugUnlockEff]

@[simp] theorem debugRun_core (s : State) (w addr space : Nat) (write : Option Word) : (debugRun s w addr space write).core = s.core := by
  unfold debugRun; (repeat' split) <;> simp_all

@[simp] theorem debugAccessEff_core (s : State) (w addr space : Nat) (write : Option Word) :
    (debugAccessEff s w addr space write).core = s.core := by
  simp [debugAccessEff]

@[simp] theorem bscanEff_core (s : State) : (bscanEff s).core = s.core := by
  simp [bscanEff]

/-! ## HerdinCmd.lean -/

@[simp] theorem ringEff_core (s : State) (mb : Nat) : (ringEff s mb).core = s.core := by
  simp [ringEff]

@[simp] theorem cancelEff_core (s : State) (mb : Nat) : (cancelEff s mb).core = s.core := by
  simp [cancelEff]

@[simp] theorem checkCmd_core (s : State) (mb : Nat) (c : Cmd) : (checkCmd s mb c).core = s.core := by
  unfold checkCmd; (repeat' split) <;> simp_all

@[simp] theorem dispatchEff_core (s : State) : (dispatchEff s).core = s.core := by
  unfold dispatchEff; (repeat' split) <;> (try simp_all) <;> (repeat' split) <;> simp_all

/-! ## Release.lean -/

theorem cutCause_grew (s : State) (c : ReleaseCut) : Grew 600 s (cutCause s c) := by
  cases c <;> first | exact thermEff_grew _ _ | exact .of_eq (by simp [cutCause])

theorem cutAfter_grew (s : State) (j : Fin 4) (c : ReleaseCut) : Grew 600 s (cutAfter s (some (j, c)) j.val) := by
  simpa [cutAfter] using cutCause_grew s c

theorem cutAfter_other (s : State) (cut : Option (Fin 4 × ReleaseCut)) (k : Nat) (h : ∀ j c, cut = some (j, c) → j.val ≠ k) : cutAfter s cut k = s := by
  unfold cutAfter; split
  · exact if_neg (h _ _ rfl)
  · rfl

@[simp] theorem releaseSend_core (s : State) : (releaseSend s).core = s.core := by
  simp [releaseSend]

@[simp] theorem releaseEnd_core (s : State) (n : Nat) : (releaseEnd s n).core = s.core := by
  simp [releaseEnd]

theorem releaseSteps_none (s : State) : (releaseSteps s none).core = s.core := by
  unfold releaseSteps; simp only [cutAfter]; (repeat' split) <;> simp_all

theorem releaseSteps_grew (s : State) (cut : Option (Fin 4 × ReleaseCut)) : Grew 600 s (releaseSteps s cut) := by
  have hf : (releaseFrozen (s.modCont fun c => { c with releasing := true })).2.core = s.core := by simp
  refine Grew.before hf ?_
  unfold releaseSteps
  generalize releaseFrozen (s.modCont fun c => { c with releasing := true }) = p
  obtain ⟨n, u⟩ := p
  dsimp only
  rcases cut with _ | ⟨j, c⟩
  · simp only [cutAfter]
    exact .of_eq (by (repeat' split) <;> simp_all)
  · have other : ∀ (v : State) (k : Nat), j.val ≠ k → cutAfter v (some (j, c)) k = v := fun v k hk =>
      cutAfter_other v _ k (fun j' c' e => by cases e; exact hk)
    have mine : ∀ (v : State), Grew 600 v (cutAfter v (some (j, c)) j.val) := fun v => cutAfter_grew v j c
    rcases (by omega : j.val = 1 ∨ j.val = 2 ∨ j.val = 3 ∨ j.val = 0) with h | h | h | h
    · have m1 := mine u; rw [h] at m1
      rw [other _ 2 (by omega), other _ 3 (by omega)]
      refine m1.after ?_
      (repeat' split) <;> simp
    · have m2 := mine (releaseSend u); rw [h] at m2
      rw [other _ 1 (by omega), other _ 3 (by omega)]
      split
      · exact .of_eq rfl
      · refine .before (releaseSend_core u) (m2.after ?_)
        (repeat' split) <;> simp
    · have m3 := mine (releaseSend u); rw [h] at m3
      rw [other _ 1 (by omega), other _ 2 (by omega)]
      split
      · exact .of_eq rfl
      · split
        · exact .of_eq (releaseSend_core u)
        · refine .before (releaseSend_core u) (m3.after ?_)
          split <;> simp
    · rw [other _ 1 (by omega), other _ 2 (by omega), other _ 3 (by omega)]
      exact .of_eq (by (repeat' split) <;> simp_all)

@[simp] theorem devRelease_none_core (s : State) (v : Word) : (devRelease s v none).core = s.core := by
  unfold devRelease; (repeat' split) <;> simp_all [releaseSteps_none]

theorem devRelease_grew (s : State) (v : Word) (cut : Option (Fin 4 × ReleaseCut)) : Grew 600 s (devRelease s v cut) := by
  have steps : ∀ (u : State) (b : Nat) , (relErr u b).core = u.core := fun u b => by simp
  unfold devRelease
  split
  · exact .of_eq rfl
  split
  · exact .of_eq rfl
  split
  · rename_i c
    split
    · exact .after (cutCause_grew s c) (steps _ _)
    · dsimp only; split
      · exact .after (cutCause_grew s c) (steps _ _)
      · exact .after (cutCause_grew s c) (releaseSteps_none _)
  · split
    · exact .of_eq (steps _ _)
    · exact releaseSteps_grew s _

@[simp] theorem tenantRelease_core (s : State) (v : Word) : (tenantRelease s v).core = s.core := by
  simp [tenantRelease]

@[simp] theorem timedOut_core (s : State) (u : TagUse) : (timedOut s u).core = s.core := by
  unfold timedOut; (repeat' split) <;> simp_all

@[simp] theorem hostTimeoutEff_core (s : State) (fn tag : Nat) : (hostTimeoutEff s fn tag).core = s.core := by
  unfold hostTimeoutEff; (repeat' split) <;> simp_all

/-! ## Regs.lean -/

@[simp] theorem ignoreAccess_core (s : State) (fn off : Nat) (isWrite : Bool) : (ignoreAccess s fn off isWrite).core = s.core := by
  simp [ignoreAccess]

@[simp] theorem noAnswer_core (s : State) (fn : Nat) (isWrite : Bool) : (noAnswer s fn isWrite).core = s.core := by
  simp [noAnswer]

@[simp] theorem readWord_core (s : State) (fn off : Nat) : (readWord s fn off).2.core = s.core := by
  unfold readWord; (repeat' split) <;> simp_all

@[simp] theorem clearRc_core (s : State) (fn off : Nat) : (clearRc s fn off).core = s.core := by
  unfold clearRc; (repeat' split) <;> simp_all

@[simp] theorem readNow_core (s : State) (fn off : Nat) (wide : Bool) : (readNow s fn off wide).core = s.core := by
  simp [readNow]

@[simp] theorem readOnes_core (s : State) (fn off : Nat) (wide : Bool) : (readOnes s fn off wide).core = s.core := by
  rfl

@[simp] theorem onIsland_core (s : State) (fn off : Nat) (wide : Bool) (h : HeldAcc) (go : State → State) (absent : State → State) (hgo : ∀ (u : State), (go u).core = u.core) (habsent : ∀ (u : State), (absent u).core = u.core) :
    (onIsland s fn off wide h go absent).core = s.core := by
  unfold onIsland; (repeat' split) <;> simp_all

@[simp] theorem regRead_core (s : State) (fn off : Nat) (wide : Bool) : (regRead s fn off wide).core = s.core := by
  simp [regRead]

@[simp] theorem putClamped_core (s : State) (k lo hi v : Nat) : (putClamped s k lo hi v).core = s.core := by
  rfl

@[simp] theorem alertClear_core (s : State) (v : Word) : (alertClear s v).core = s.core := by
  rfl

@[simp] theorem dbCtl_core (s : State) (q v : Nat) : (dbCtl s q v).core = s.core := by
  simp [dbCtl]

@[simp] theorem dbWrite_core (s : State) (fn idx off v : Nat) : (dbWrite s fn idx off v).core = s.core := by
  simp [dbWrite]

@[simp] theorem mbWrite_core (s : State) (mb off : Nat) (v : Word) : (mbWrite s mb off v).core = s.core := by
  simp [mbWrite]

@[simp] theorem talWrite_core (s : State) (t off v : Nat) : (talWrite s t off v).core = s.core := by
  simp [talWrite]

@[simp] theorem msixWrite_core (s : State) (fn off : Nat) (v : Word) : (msixWrite s fn off v).core = s.core := by
  simp [msixWrite]

@[simp] theorem reactivate_core (s : State) (k : Nat) : (reactivate s k).core = s.core := by
  rfl

@[simp] theorem portWrite_core (s : State) (p off : Nat) (v : Word) : (portWrite s p off v).core = s.core := by
  unfold portWrite; (repeat' split) <;> simp_all

@[simp] theorem linkWrite_core (s : State) (off : Nat) (v : Word) : (linkWrite s off v).core = s.core := by
  unfold linkWrite; (repeat' split) <;> simp_all

@[simp] theorem glbWrite_core (s : State) (off : Nat) (v : Word) : (glbWrite s off v).core = s.core := by
  unfold glbWrite; (repeat' split) <;> simp_all

@[simp] theorem pf0Write_core (s : State) (off : Nat) (v : Word) : (pf0Write s off v).core = s.core := by
  simp [pf0Write]

@[simp] theorem vfWrite_core (s : State) (fn off : Nat) (v : Word) : (vfWrite s fn off v).core = s.core := by
  simp [vfWrite]

@[simp] theorem writeWord_core (s : State) (fn off : Nat) (v : Word) : (writeWord s fn off v).core = s.core := by
  simp [writeWord]

@[simp] theorem writeNow_core (s : State) (fn off : Nat) (wide : Bool) (v : DWord) : (writeNow s fn off wide v).core = s.core := by
  simp [writeNow]

@[simp] theorem regWriteBar0_core (s : State) (fn off : Nat) (wide : Bool) (v : DWord) : (regWriteBar0 s fn off wide v).core = s.core := by
  simp [regWriteBar0]

@[simp] theorem regWriteBar4_core (s : State) (fn off : Nat) (wide : Bool) (v : DWord) : (regWriteBar4 s fn off wide v).core = s.core := by
  simp [regWriteBar4]

@[simp] theorem setMaster_core (s : State) (fn : Nat) (on : Bool) : (setMaster s fn on).core = s.core := by
  simp [setMaster]

@[simp] theorem cfgWrite_core (s : State) (fn : Nat) (r : CfgReg) (v : Nat) : (cfgWrite s fn r v).core = s.core := by
  unfold cfgWrite; (repeat' split) <;> simp_all

@[simp] theorem regWriteCfg_core (s : State) (fn : Nat) (r : CfgReg) (v : DWord) : (regWriteCfg s fn r v).core = s.core := by
  simp [regWriteCfg]

/-! ## PowerRows.lean -/

@[simp] theorem heldGo_core (s : State) (d : Nat) (h : HeldAcc) : (heldGo s d h).core = s.core := by
  unfold heldGo; (repeat' split) <;> simp_all

@[simp] theorem islandBack_core (s : State) (d : Nat) : (islandBack s d).core = s.core := by
  simp [islandBack]

@[simp] theorem wakeDone_core (s : State) (d : Nat) : (wakeDone s d).core = s.core := by
  simp [wakeDone]

@[simp] theorem heldEnd_core (s : State) (cs : Nat) (h : HeldAcc) : (heldEnd s cs h).core = s.core := by
  unfold heldEnd; (repeat' split) <;> simp_all

@[simp] theorem linkIslandFail_core (s : State) (k : Nat) : (linkIslandFail s k).core = s.core := by
  simp [linkIslandFail]

@[simp] theorem islandLost_core (s : State) (d : Nat) : (islandLost s d).core = s.core := by
  simp [islandLost]

@[simp] theorem islandStillLost_core (s : State) (d : Nat) : (islandStillLost s d).core = s.core := by
  simp [islandStillLost]

@[simp] theorem wakeFail_core (s : State) (d : Nat) : (wakeFail s d).core = s.core := by
  unfold wakeFail; (repeat' split) <;> (try simp_all) <;> (repeat' split) <;> simp_all

@[simp] theorem rakeAway_core (s : State) (k : Nat) : (rakeAway s k).core = s.core := by
  unfold rakeAway; (repeat' split) <;> (try simp_all) <;> (repeat' split) <;> simp_all

@[simp] theorem abortStarted_core (s : State) (k : Nat) : (abortStarted s k).core = s.core := by
  unfold abortStarted; (repeat' split) <;> (try simp_all) <;> (repeat' split) <;> simp_all

@[simp] theorem forceBed_core (s : State) (b : Nat) : (forceBed s b).2.core = s.core := by
  simp [forceBed]

@[simp] theorem forcePort_core (s : State) (p : Nat) : (forcePort s p).2.core = s.core := by
  simp [forcePort]

@[simp] theorem endLinkCmds_core (s : State) (k cs : Nat) : (endLinkCmds s k cs).core = s.core := by
  unfold endLinkCmds; (repeat' split) <;> (try simp_all) <;> (repeat' split) <;> simp_all

@[simp] theorem forceLink_core (s : State) (k : Nat) : (forceLink s k).2.core = s.core := by
  unfold forceLink; dsimp only; (repeat' split) <;> simp_all

@[simp] theorem forceServed_core (s : State) (d : Nat) : (forceServed s d).2.core = s.core := by
  unfold forceServed
  dsimp only
  (repeat' split) <;> simp

@[simp] theorem forcedDown_core (s : State) (mb d : Nat) : (forcedDown s mb d).core = s.core := by
  unfold forcedDown; (repeat' split) <;> (try simp_all) <;> (repeat' split) <;> simp_all

end Sys2Proof.Machine
end

