-- ==== Sys2Proof/Tests/Slice0.lean ====
section
/-! SUPPORT. Tests: ill-formed terms that the well-formedness check refuses, a witness for the hypotheses of every statement, and a few single steps whose results the spec states. -/

open Sys2Proof Sys2Proof.Machine

namespace Sys2Proof.Tests

set_option Elab.async false

/-! ## States to test on -/

/-- A device that is up: booted to step 9, the host link in L0, PF0, PF1 and all VFs decoding with Bus Master Enable, every island on. -/
def live : State :=
  { State.reset with
    pins := { State.reset.pins with perst := true }
    boot := { State.reset.boot with step := 9, awaitPerst := false, powerOnPending := false }
    ep := { State.reset.ep with
      link := .l0, ari := true, numVfs := 64, vfEnable := true
      fns := ⟨(List.range 66).map fun i => (i, { fnInit i with memSpace := true, busMaster := true, msixEnable := true })⟩ }
    pwr := { State.reset.pwr with dom := ⟨(List.range 12).map fun i => (i + 4, { domInit (i + 4) with st := .on })⟩ }
    log := { State.reset.log with ready := true } }

/-- A command of a mailbox. -/
def cmd (op : Nat) (p : List Byte) : Cmd := { opcode := op, flags := 0, seq := 1, len := p.length, counter := 0, tag := [], head := [], payload := p }

/-- `s` with command `c` of PF0's mailbox executing. -/
def runs (s : State) (c : Cmd) : State :=
  (s.setMb 0 { mbInit 0 with st := .executing, cmd := some c }).modHer fun h => { h with exec := some 0 }

/-- `live` with a command of `op` executing in PF0's mailbox. -/
def busy (op : Nat) (p : List Byte := []) : State := runs live (cmd op p)

/-- `s` with word `i` of window `w`'s working copy, six words in all. -/
def withWin (s : State) (w : Nat) (ws : List Word) : State :=
  { s with win := { s.win with work := ⟨(List.range 6).filterMap fun i => if nth ws i 0#32 = 0#32 then none else some (8 * w + i, nth ws i 0#32)⟩ } }

/-- `s` with a window 0 of 4 KiB at aperture offset 0 for tenant 0 to `target`, at base 0 of space 0x39. -/
def winTo (s : State) (target : Nat) : State := withWin s 0 [w32 (1 + 65536 * target + 0x0C000000), 0x00003900#32, 0#32, 0#32, 0#32, 0#32]

/-- An access of tenant 0: a write of one byte to `target`. -/
def anAcc (target : Nat) : Acc :=
  { kind := .write, tenant := 0, target := target, addr := 0, space := 0x39, width := 1, bytes := [some 1#8], region := 15, ticket := 1
    origin := .hostWrite, stop := 1, endian := 0, cls := 2, mask := 0, value := 0, temp := none }

/-- A personality table of P3 with no retry line: multiplexed, 32 bits, one default region; its last word is the CRC-32C of the rest (R329-R338). -/
def aTable : List Byte :=
  bytesOfWords ([0x53504B49, 0x20200203, 0x1000000, 0, 0, 0x134, 0, 0, 0x80, 0x81, 0x82, 0x83] ++ List.replicate 49 0
    ++ [0x20000, 0, 0, 0, 0, 0x20002, 0, 1, 0, 0, 0x191000, 0xC80064, 2, 0, 0, 0x1E6B1C4E])

/-- A configuration image of version 7 in 64 bytes: IKCF, layout 1, its last word the CRC-32C of the rest (R121). -/
def anImage : ImgSlot := { valid := true, bytes := ⟨[(0, 73), (1, 75), (2, 67), (3, 70), (4, 1), (8, 7), (12, 64), (60, 59), (61, 171), (62, 190), (63, 154)]⟩ }

/-- `live` whose image holds `aTable` for port A, which is in state `st`. -/
def withPort (st : PortSt) : State :=
  { live with img := { live.img with ports := [{ factoryPort with pers := some aTable }, factoryPort] }
              ports := ⟨[(0, { portInit 0 with st := st, loaded := some aTable, persOk := true })]⟩ }
/-! ## Registers and host path -/

theorem test_wit_CommandsRunInOrder : { live with pending := [.nop] }.pending = .nop :: [] ∧ live.pending = [] := ⟨rfl, rfl⟩

theorem live_direct : Pf0Direct live 0x1000C ∧ Pf0Direct live 0x440 ∧ Pf0Direct live 0x42018 := by
  refine ⟨⟨by decide, rfl, rfl, ?_⟩, ⟨by decide, rfl, rfl, ?_⟩, ⟨by decide, rfl, rfl, ?_⟩⟩ <;> intro d h <;> revert h <;> decide +revert

theorem test_wit_RegisterReadsLatchAndClear :
    fnAnswers live 0 = true ∧ live.latched 0 0x440 = none ∧ isPairLow 0 0x440 = true
    ∧ (live.setLatch 0 0x440 (some 1#32)).latched 0 0x440 = some 1#32 ∧ rcKey 0 0x42018 = some 0x42018 := by decide +kernel
theorem test_wit_RegisterWritesClamp :
    ¬(3 = 4 ∧ 1 % 4 = 0) ∧ ¬(3 = 8 ∧ 1 % 8 = 0) ∧ fnAnswers live 65 = true ∧ live.log.waiting.length < 256 := by decide +kernel

/-- PF0 with one staged window write to port A at the front, its window 0. -/
def stagedOne : State := live.setTally 0 { tallyInit 0 with waiters := [.window (anAcc 0)] }
/-- Tenant 0 with no entry left and `n` writes staged. -/
def stagedFull (n : Nat) : State := (winTo live 0).setTally 0 { tallyInit 0 with quota := 0, waiters := (List.range n).map fun _ => .window (anAcc 0) }

theorem test_wit_WindowWritesAreStagedInOrder :
    fnAnswers live 0 = true ∧ 8 < bar2Size live 0 ∧ commitHolds live 0 = false ∧ winMatch live 0 8 = none
    ∧ ((winMatch (winTo live 6) 0 4095).map fun f => f.target) = some 6 ∧ (winTo live 6).tenantStopped 0 = false
    ∧ ((winMatch (winTo live 0) 0 0).map fun f => f.target) = some 0 ∧ ((winTo live 0).tally 0).waiters = [] ∧ entryFree (winTo live 0) 0 = true
    ∧ (winTo live 0).leads 0 = false
    ∧ entryFree (stagedFull 15) 0 = false ∧ (staged ((stagedFull 15).tally 0)).length = 15 ∧ (staged ((stagedFull 16).tally 0)).length = 16
    ∧ (stagedOne.tally 0).waiters = .window (anAcc 0) :: [] ∧ entryFree stagedOne 0 = true ∧ countSome (anAcc 0).bytes = 1 := by
  refine ⟨?_, ?_, ?_, ?_, ?_, ?_, ?_, ?_, ?_, ?_, ?_, ?_, ?_, ?_, ?_, ?_⟩ <;> decide +kernel

/-- A held host read of PF0 of port A whose one byte has come back. -/
def aRead (stage : HeldStage) (res : Option AccEnd) : HeldRead :=
  { uid := 0, who := .host 0 7, tenant := 0, target := 0, haddr := 0, hlen := 1, addr := 0, space := 0x39, width := 1, endian := 0, cls := 2
    prefetch := 0, region := 15, want := [true], kept := [none], asked := [0], lines := 0, wideLines := 0, stale := [], stage := stage, res := res
    ended := 0, accepted := 0, dueOn := [] }
def backRead : HeldRead := aRead .back (some { cs := Cs.done, addr := 0, data := [some 5#8], beat := 0 })

theorem test_wit_HeldReadsAreAnsweredOnce :
    ((winMatch (winTo live 1) 0 0).map fun f => decide (f.target ≠ 6)) = some true ∧ (winTo live 1).tenantStopped 0 = false
    ∧ { live with reads := [aRead .room none] }.reads = aRead .room none :: [] ∧ lateRoom { live with reads := [aRead .room none] } 1 = true
    ∧ getRead { live with reads := [backRead] } 0 = some backRead ∧ backRead.dueOn = [] := by
  refine ⟨?_, ?_, ?_, ?_, ?_, ?_⟩ <;> decide +kernel
theorem test_wit_HostErrorsAreReported :
    LogRoom live ∧ (Tbl.get (fun _ => []) live.spares.rowErrs (rowKey 0 0)).length + 1 < rowCeLimit live
    ∧ 3 ∈ ((live.setFn 0 { live.fn 0 with quar := [3] }).fn 0).quar
    ∧ ((live.setFn 0 { live.fn 0 with tags := [(3, .drop)] }).fn 0).tags.find? (fun x => decide (x.1 = 3)) = some (3, .drop) := by
  unfold LogRoom; decide +kernel

/-! ## Containment, windows, rack masters -/

/-- `live` with the device contained by cause `c`. -/
def contained (c : BitVec 6) : State := { live with cont := { live.cont with dev := true, devCause := c } }

set_option maxRecDepth 100000 in
theorem aTable_loads : persFail (withPort .contained) 0 = none := by decide +kernel

theorem test_wit_ContainmentReleases :
    devReleaseRefused { contained 4#6 with cont := { (contained 4#6).cont with pllLost := true } } = true
    ∧ devReleaseRefused (contained 2#6) = false ∧ frozenQueues (contained 2#6) = [] ∧ cutContains (contained 2#6) (.fatal .dllProtocol) = true := by
  refine ⟨?_, ?_, ?_, ?_⟩ <;> decide +kernel
theorem test_wit_ContainmentReleases_ports :
    portPersists { withPort .contained with cont := { live.cont with ports := ⟨[(0, 32)]⟩ } } 0 = true
    ∧ portPersists { withPort .contained with cont := { live.cont with ports := ⟨[(0, 1)]⟩ } } 0 = false
    ∧ linkPersists { live with cont := { live.cont with links := ⟨[(3, 8)]⟩ } } 3 = true
    ∧ linkPersists { live with cont := { live.cont with links := ⟨[(3, 1)]⟩ }, links := ⟨[(3, { linkInit 3 with st := .contained })]⟩ } 3 = false
    ∧ { live with cont := { live.cont with tenants := ⟨[(64, 1)]⟩ } }.tenantCause 64 ≠ 0 := by
  refine ⟨?_, ?_, ?_, ?_, ?_⟩ <;> decide +kernel

/-- A commit of windows 0 to 255 under way with nothing held. -/
def committing (result : Nat) : State := { live with win := { live.win with commit := some { first := 0, last := 255, result := result, bad := 0, shadows := [], reqs := [] } } }

theorem test_wit_WindowCommitIsAtomic :
    live.win.commit = none ∧ (committing 0).win.commit.isSome = true ∧ (0x80000000#32).getLsbD 31 = true := by decide +kernel

/-- WIN_SET's payload: window 0, the six words of a 4 KiB window of tenant 0 to the host. -/
def winPayload (log2 : Nat) : List Byte := bytesOfWords [0, 1 + 65536 * 6 + log2 * 16777216, 0, 0, 0, 0, 0x100, 0]

theorem test_wit_WindowCommands :
    Executing (busy 0x0200 (winPayload 12)) 0x0200 0 (cmd 0x0200 (winPayload 12)) ∧ winAllowed live 0 0 = true
    ∧ (commitCheck ((List.range 6).foldl (fun u i => setShadow u 0 i (w32 (wordAt (winPayload 12) (4 * (i + 1))))) live) 0 0).1 = 0
    ∧ (commitCheck ((List.range 6).foldl (fun u i => setShadow u 0 i (w32 (wordAt (winPayload 11) (4 * (i + 1))))) live) 0 0).1 = 2
    ∧ winAllowed { live with win := { live.win with work := ⟨[(0, 1)]⟩ } } 1 0 = false
    ∧ Executing (busy 0x0201 [0, 0, 0, 0]) 0x0201 0 (cmd 0x0201 [0, 0, 0, 0]) ∧ Executing (busy 0x0202 [0, 0, 0, 0]) 0x0202 0 (cmd 0x0202 [0, 0, 0, 0]) := by
  unfold Executing; refine ⟨?_, ?_, ?_, ?_, ?_, ?_, ?_⟩ <;> decide +kernel

/-- Port A in service with slave region 0 enabled for tenant 0: 4 KiB of space 0x39 at rack address 0, read (bit 1) and write (bit 2) as `rw` says, to host address 2^40. -/
def withSlave (loaded : Option (List Byte)) (rw : Nat) (dt : Tbl DtSlot := ⟨[]⟩) (held : Option HeldRack := none) : State :=
  { live with ports := ⟨[(0, { portInit 0 with st := .inService, loaded := loaded, dt := dt, held := held, slv := ⟨[(1, w32 (1 + rw + 12 * 2 ^ 24)), (2, 0x3F39#32), (6, 0x100#32)]⟩ })]⟩ }
/-- A table of P3 with RETRY_EN and the slave roles, as far as the slave side reads it. -/
def retryTable : List Byte := bytesOfWords [0x53504B49, 0x20200303, 0x1000000, 0, 0, 0x134, 0, 0, 0x80, 0x81, 0x82, 0x83, 0x85, 0x94, 0x95]
/-- A read that holds the bus of port A for one byte. -/
def heldOne : HeldRack := { addr := 0, space := 0x39, be := [true], tenant := 0, endian := 0, base := 2 ^ 40, haddr := 2 ^ 40, len := 1, got := [] }
/-- A delayed-read slot for one byte at 4095. -/
def dtOne (data : Option (List Byte)) : DtSlot :=
  { used := true, addr := 4095, space := 0x39, width := 1, be := [true], data := data, err := 0, tenant := 0, endian := 0, base := 2 ^ 40, haddr := 2 ^ 40 + 4095, len := 1, expires := 9 }

theorem test_wit_RackMastersReachHostMemory :
    slvReady (withSlave none 6) 0 = true ∧ slvMatch (withSlave none 6) 0 4096 0x39 = none ∧ retryAnswers (withSlave none 6) 0 = false
    ∧ slvMatch (withSlave none 6) 0 4095 0x39 = some 0
    ∧ inboundDenial ((withSlave none 0).incReg (paReg 0 0x34)) 0 0 (2 ^ 40) 1 false true false = some (Cs.hostUr, some Ev.inboundDeny)
    ∧ inboundDenial ((withSlave none 6).incReg (paReg 0 0x34)) 0 0 (2 ^ 40) 1 false true false = none
    ∧ inboundDenial ((withSlave none 0).incReg (paReg 0 0x34)) 0 0 (2 ^ 40) 1 true false false = some (Cs.hostUr, some Ev.inboundDeny)
    ∧ inboundDenial ((withSlave none 6).incReg (paReg 0 0x34)) 0 0 (2 ^ 40) 1 true false false = none
    ∧ inboundDenial ((withSlave none 0).incReg (paReg 0 0x34)) 0 0 (2 ^ 40) 1 true true true = some (Cs.hostUr, some Ev.inboundDeny)
    ∧ inboundDenial ((withSlave none 6).incReg (paReg 0 0x34)) 0 0 (2 ^ 40) 1 true true true = none
    ∧ (hostRead ((withSlave none 6).incReg (paReg 0 0x34)) 0 (2 ^ 40) 1 (.rack 0 65)).isSome = true
    ∧ tagOf (((withSlave none 6 ⟨[]⟩ (some heldOne)).setFn 0 { live.fn 0 with tags := [(3, .rack 0 64)] }).fn 0) (.rack 0 64) = some 3
    ∧ mrrsPiece (withSlave none 6 ⟨[]⟩ (some heldOne)) 0 (2 ^ 40) 1 = 1 ∧ ((withSlave none 6 ⟨[]⟩ (some heldOne)).port 0).held = some heldOne := by
  refine ⟨?_, ?_, ?_, ?_, ?_, ?_, ?_, ?_, ?_, ?_, ?_, ?_, ?_, ?_⟩ <;> decide +kernel
theorem test_wit_DelayedReadsMatchExactly :
    slvReady (withSlave (some retryTable) 6) 0 = true ∧ retryAnswers (withSlave (some retryTable) 6) 0 = true
    ∧ dtMatch (withSlave (some retryTable) 6) 0 4095 0x39 1 [true] = none ∧ slvMatch (withSlave (some retryTable) 6) 0 4095 0x39 = some 0
    ∧ inboundDenial ((withSlave (some retryTable) 6).incReg (paReg 0 0x34)) 0 0 (2 ^ 40 + 4095) 1 true false false = none
    ∧ (∀ k, k < 8 → (Tbl.get dtInit ((withSlave (some retryTable) 6 ⟨(List.range 8).map fun i => (i, dtOne none)⟩).port 0).dt k).used = true)
    ∧ (List.range 8).find? (fun k => !(Tbl.get dtInit ((withSlave (some retryTable) 6).port 0).dt k).used) = some 0
    ∧ dtMatch (withSlave (some retryTable) 6 ⟨[(7, dtOne (some [1#8]))]⟩) 0 4095 0x39 1 [true] = some 7
    ∧ (dtOne (some [1#8])).data.isSome = true ∧ { dtOne none with err := Cs.hostUr }.err ≠ 0 := by
  refine ⟨?_, ?_, ?_, ?_, ?_, ?_, ?_, ?_, ?_, ?_⟩ <;> decide +kernel

/-! ## Mailboxes and images -/

/-- PF0's mailbox in state `st` with a NOP copied. -/
def mailbox (st : MbState) : State := live.setMb 0 { mbInit 0 with st := st, cmd := some (cmd 0 []) }

theorem test_wit_MailboxDoorbellsAndDispatch :
    doorbellOpen (mailbox .idle) 0 = true ∧ doorbellOpen live 65 = true ∧ ((mailbox .waiting).mb 0).cmd = some (cmd 0 [])
    ∧ { mailbox .queued with her := { (mailbox .queued).her with queue := [0] } }.served = true
    ∧ ((live.setKey 64 { keyInit 64 with lockedUntil := 5 }).key 64).lockedUntil ≠ 0 := by decide +kernel

/-- A command of every outcome of the checks, executing. -/
theorem test_wit_CommandChecksInOrder :
    lengthOk (cmd 0x0007 []) = none ∧ recoveryServes 0 (cmd 0x0200 []) = false ∧ lengthOk (cmd 0 [0]) = some false ∧ lengthOk (cmd 0 []) = some true
    ∧ flagsOk { cmd 0 [] with flags := 2 } = false ∧ critical 0x0405 = false ∧ maySend 1 0x0405 = false
    ∧ payloadOk live (cmd 0x0201 [0, 1, 0, 0]) = false ∧ payloadOk live (cmd 0x0201 [255, 0, 0, 0]) = true
    ∧ cmdContained { live with cont := { live.cont with tenants := ⟨[(0, 1)]⟩ } } 0 (cmd 0x0201 [0, 0, 0, 0]) = true
    ∧ cmdContained live 0 (cmd 0x0902 []) = false ∧ critical 0x0902 = true ∧ authReason live 0 (cmd 0x0901 (List.replicate 48 0)) = 0
    ∧ authReason live 0 (cmd 0x0902 []) = 5 ∧ LogRoom live ∧ ((busy 0).mb 0).cmd = some (cmd 0 []) ∧ (busy 0).her.exec = some 0 := by
  unfold LogRoom; refine ⟨?_, ?_, ?_, ?_, ?_, ?_, ?_, ?_, ?_, ?_, ?_, ?_, ?_, ?_, ?_, ?_, ?_⟩ <;> decide +kernel
theorem test_wit_InformationCommands :
    Executing (busy 0) 0 0 (cmd 0 []) ∧ Executing (busy 1) 1 0 (cmd 1 []) ∧ Executing (busy 2) 2 0 (cmd 2 []) ∧ Executing (busy 3) 3 0 (cmd 3 [])
    ∧ Executing (busy 4) 4 0 (cmd 4 []) ∧ Executing (busy 0x0100) 0x0100 0 (cmd 0x0100 []) := by
  unfold Executing; decide +kernel

/-- `s` with an image session of `kind` for slot 1 open. -/
def inSession (s : State) (kind : Nat) : State := (setSession s kind (some { total := 64, slot := 1 })).modHer fun h => { h with lastKind := kind }
/-- A configuration image in slot B, or none, and a command executing. -/
def imaging (img : Bool) (op : Nat) (p : List Byte) : State :=
  runs (inSession { live with mram := { live.mram with cfgB := if img then anImage else slotAtReset } } 1) (cmd op p)

set_option maxRecDepth 100000 in
theorem test_wit_ImageSessions :
    Executing (busy 0x0101 (bytesOfWords [0, 64])) 0x0101 0 (cmd 0x0101 (bytesOfWords [0, 64])) ∧ session (busy 0x0101 []) 0 = none
    ∧ (session (imaging false 0x0101 (bytesOfWords [1, 64])) 1).isSome = true
    ∧ Executing (imaging false 0x0102 (bytesOfWords [60, 4, 0])) 0x0102 0 (cmd 0x0102 (bytesOfWords [60, 4, 0]))
    ∧ session (imaging false 0x0102 []) (chunkKind (imaging false 0x0102 [])) = some { total := 64, slot := 1 }
    ∧ Executing (imaging true 0x0103 [1, 0, 0, 0]) 0x0103 0 (cmd 0x0103 [1, 0, 0, 0])
    ∧ imgCheck (imaging true 0x0103 [1, 0, 0, 0]) 1 1 = 0 ∧ imgCheck (imaging false 0x0103 [1, 0, 0, 0]) 1 1 = 3
    ∧ Executing (busy 0x0104) 0x0104 0 (cmd 0x0104 []) ∧ live.boot.trialUnconfirmed = false
    ∧ Executing (busy 0x0105 (bytesOfWords [0, 1, 0, 4])) 0x0105 0 (cmd 0x0105 (bytesOfWords [0, 1, 0, 4])) := by
  unfold Executing; refine ⟨?_, ?_, ?_, ?_, ?_, ?_, ?_, ?_, ?_, ?_, ?_⟩ <;> decide +kernel
theorem test_wit_ImageSessions_trial :
    let s := runs { live with boot := { live.boot with trialUnconfirmed := true } } (cmd 0x0104 [])
    Executing s 0x0104 0 (cmd 0x0104 []) ∧ s.boot.trialUnconfirmed = true := by
  unfold Executing; decide +kernel

/-! ## Function resets and the host link -/

/-- `live` with function `fn` under function level reset. -/
def flrOf (fn : Nat) : State := live.setFn fn { live.fn fn with flr := true }
/-- Function 0 in D3hot with `held` waiting to be sent. -/
def asleep (held : List Output) : State := live.setFn 0 { live.fn 0 with d3hot := true, heldOut := held }
/-- `live` with the host link in state `l`. -/
def linkIn (l : HostLink) : State := { live with ep := { live.ep with link := l } }
/-- An access of tenant 0 open on port A. -/
def openOne : OpenAcc := { acc := anAcc 0, cur := (0, 1), isOpen := true, rest := [], got := [], retries := 0, delaying := false, timeoutUs := 100, noSample := false, sample := none, beat := 0 }

theorem test_wit_FunctionResetsAndVfs :
    fnEnabled live 0 = true ∧ (live.fn 0).flr = false ∧ live.served = true ∧ ((flrOf 1).fn 1).flr = true
    ∧ (((flrOf 0).setPort 0 { portInit 0 with opens := [openOne] }).port 0).opens.any (fun o => ((flrOf 0).fn (fnOf o.acc.tenant)).flr) = true
    ∧ live.ep.vfEnable = true ∧ live.boot.recovery = false ∧ live.ep.keptVfs = [] ∧ LogRoom live
    ∧ (live.fn 0).memSpace = true ∧ ((live.setFn 0 (fnInit 0)).fn 0).memSpace = false := by
  unfold LogRoom; refine ⟨?_, ?_, ?_, ?_, ?_, ?_, ?_, ?_, ?_, ?_, ?_⟩ <;> decide +kernel
theorem test_wit_FunctionResetsAndVfs_off :
    let s := fun a => { live with ep := { live.ep with vfEnable := false, ari := a } }
    (∀ a, (s a).ep.vfEnable = false ∧ (s a).boot.recovery = false ∧ (s a).ep.ari = a) ∧ (s true).ep.keptVfs = [] ∧ LogRoom (s false) := by
  unfold LogRoom; decide +kernel
theorem test_wit_HostLinkStates :
    live.ep.link = .l0 ∧ (linkIn .down).ep.link = .down ∧ live.tide.woke = false ∧ (live.fn 0).pmeStatus = false
    ∧ ((linkIn .reset).ep.link = .reset ∧ (linkIn .reset).pins.perst = true ∧ 7 ≤ (linkIn .reset).boot.step)
    ∧ (linkIn .l23Ready).ep.link = .l23Ready ∧ (linkIn .l23Ready).tide.armed = false
    ∧ awake { linkIn .l23Ready with pins := { live.pins with porst := true } } = true := by
  refine ⟨?_, ?_, ?_, ?_, ?_, ?_, ?_, ?_⟩ <;> decide +kernel
theorem test_wit_PowerStatesLtrPtmMsix :
    fnEnabled live 0 = true ∧ ((asleep []).fn 0).d3hot = true ∧ ((asleep []).fn 0).flr = false ∧ ((asleep []).fn 0).heldOut = [] ∧ live.cont.dev = false
    ∧ ((asleep [.hostWrite 0 8 [1]]).fn 0).heldOut = [.hostWrite (tenantOf 0) 8 [1]]
    ∧ live.ep.link = .l0 ∧ ltrValue { live with ep := { live.ep with ltrLast := 0 } } ≠ 0 ∧ live.ep.ltrAt = none
    ∧ ((live.setFn 0 { live.fn 0 with ptmEnable := true }).fn 0).ptmEnable = true
    ∧ (live.fn 0).d3hot = false ∧ (live.fn 0).msixEnable = true ∧ (live.fn 0).fnMask = false ∧ (live.fn 0).busMaster = true
    ∧ (vec ((live.setFn 0 { live.fn 0 with vecs := ⟨[(7, { vecInit 7 with pend := true })]⟩ }).fn 0) 7).pend = true := by
  refine ⟨?_, ?_, ?_, ?_, ?_, ?_, ?_, ?_, ?_, ?_, ?_, ?_, ?_, ?_, ?_⟩ <;> decide +kernel

/-! ## Weirs -/

/-- WEIR_REGION_SET's payload for region 3 of weir 0: enabled, 4 KiB at `base`. -/
def rgnPayload (base : Nat) : List Byte := bytesOfWords [0x300, 0x0C000001, base, 0, 0, 0, 0, 0, 0]
/-- `live` with region 3 of weir 0 an enabled region of 4 KiB, locked or not. -/
def withRgn (locked : Bool) : State := { live with weirs := { live.weirs with rgn := ⟨[(16 * 3 + 1, 0x0C000001)]⟩, locked := if locked then [3] else [] } }

theorem test_wit_WeirCommands :
    (∀ b, Executing (busy 0x0300 (rgnPayload b)) 0x0300 0 (cmd 0x0300 (rgnPayload b)))
    ∧ (let ws := fun b => (List.range 8).map fun i => wordAt (rgnPayload b) (4 * (i + 1))
       regionRefusal live 0 3 (ws 1) = 2 ∧ regionRefusal live 0 3 (ws 4096) = 0 ∧ regionRefusal (withRgn true) 0 3 (ws 4096) = 3)
    ∧ Executing (busy 0x0301 [0, 3, 0, 0]) 0x0301 0 (cmd 0x0301 [0, 3, 0, 0]) ∧ Executing (busy 0x0302 [0, 1, 0, 0]) 0x0302 0 (cmd 0x0302 [0, 1, 0, 0])
    ∧ Executing (runs (withRgn true) (cmd 0x0303 [0, 3, 0, 0])) 0x0303 0 (cmd 0x0303 [0, 3, 0, 0]) ∧ rgnLocked (withRgn true) 0 3 = true
    ∧ rgnLocked (withRgn false) 0 3 = false ∧ lockRefusal (withRgn false) 0 3 = 0 ∧ lockRefusal live 0 3 = 5 := by
  unfold Executing; refine ⟨fun b => rfl, ?_, ?_, ?_, ?_, ?_, ?_, ?_, ?_⟩ <;> decide +kernel

/-! ## The ledger -/

/-- `live` with tenant 0's ledger `q` and the fences `fs`. -/
def ledger (q : TallyT) (fs : List Fence := []) : State := { live.setTally 0 q with tal := { (live.setTally 0 q).tal with fences := fs, nextFence := 9 } }
/-- One posted write of ticket 1 not settled. -/
def oneOut : TallyT := { tallyInit 0 with issued := 1, unsettled := [{ ticket := 1, addr := 16, target := 0, space := 0x39, flood := false, detached := 0 }] }
/-- Fence 4 of tenant 0 at ticket 1, asked by PF0's mailbox or detached from it. -/
def aFence (mb : Option Nat) : Fence := { id := 4, tenant := 0, n := 1, limitAt := 100, mb := mb, queue := none, clamped := false }
/-- SETTLE_FENCE of tenant 0 at ticket 1. -/
def fencePayload : List Byte := bytesOfWords [1, 0]

theorem test_wit_TallyMarksAndQuotas :
    mayNameTenant 0 0 = true ∧ live.followed 0 = false ∧ live.leads 0 = false
    ∧ Executing (busy 0x0405 (bytesOfWords [3, 9])) 0x0405 0 (cmd 0x0405 (bytesOfWords [3, 9])) ∧ quotaSum live - (live.tally 3).quota + 9 ≤ 3584
    ∧ Executing (busy 0x0405 (bytesOfWords [3, 3584])) 0x0405 0 (cmd 0x0405 (bytesOfWords [3, 3584])) ∧ 3584 < quotaSum live - (live.tally 3).quota + 3584 := by
  unfold Executing; refine ⟨?_, ?_, ?_, ?_, ?_, ?_, ?_⟩ <;> decide +kernel
theorem test_wit_FencesWaitForSettling :
    Executing (runs (ledger oneOut) (cmd 0x0404 fencePayload)) 0x0404 0 (cmd 0x0404 fencePayload)
    ∧ ownsObject 0 0 = true ∧ ownsObject 1 0 = false ∧ (ledger oneOut).followed 0 = false ∧ fenceReached oneOut (fenceTicket oneOut 1).1 = false
    ∧ (∀ g ∈ (ledger oneOut [aFence none]).tal.fences, g.id < (ledger oneOut [aFence none]).tal.nextFence)
    ∧ fenceReached { oneOut with unsettled := [] } (fenceTicket { oneOut with unsettled := [] } 1).1 = true
    ∧ fenceKept { oneOut with unsettled := [] } (fenceTicket { oneOut with unsettled := [] } 1).1 = []
    ∧ (ledger oneOut [aFence (some 0)]).tal.fences.find? (fun g => decide (g.id = 4)) = some (aFence (some 0))
    ∧ ((mailbox .waiting).mb 0).cmd = some (cmd 0 []) ∧ fenceReached ((ledger oneOut [aFence (some 0)]).tally 0) 1 = false
    ∧ (ledger oneOut [aFence none]).tal.fences.find? (fun g => decide (g.id = 4)) = some (aFence none)
    ∧ (fenceUnsettled ((ledger oneOut [aFence none]).tally 0) 1).isSome = true ∧ LogRoom (ledger oneOut [aFence none])
    ∧ (let q : TallyT := { oneOut with unsettled := [], kept := [{ ticket := 1, cs := 0x21, addr := 16, target := 0, space := 0x39, flood := false }] }
       fenceReached q 1 = true ∧ (fenceKept q 1).length = 1)
    ∧ { aFence none with queue := some (8192, 3) }.queue = some (8192, 3) := by
  unfold Executing LogRoom; refine ⟨?_, ?_, ?_, ?_, ?_, ?_, ?_, ?_, ?_, ?_, ?_, ?_, ?_, ?_, ?_, ?_⟩ <;> decide +kernel

/-- A line that holds one byte. -/
def aLine : LiqLine := { tenant := 0, gen := 0, target := 0, space := 0x39, line := 0, pool := 1, reason := 0, bytes := [{ off := 0, data := 1, arrival := 0, expires := 50 }] }

theorem test_wit_TicketsSettleOnce :
    (∀ u ∈ (live.tally 0).unsettled, u.ticket ≠ 5) ∧ (ledger oneOut).leads 0 = false
    ∧ (live.setTally 3 oneOut).leads 3 = false ∧ privOf (live.setTally 3 oneOut) 3 = false
    ∧ ((live.setTally 3 oneOut).tally 3).unsettled.find? (fun u => decide (u.ticket = 1)) = some { ticket := 1, addr := 16, target := 0, space := 0x39, flood := false, detached := 0 }
    ∧ Cs.farTimeout ≠ Cs.done ∧ ((live.setTally 3 oneOut).tally 3).kept.length < 32
    ∧ { live with liq := { live.liq with lines := [aLine] } }.liq.lines[0]? = some aLine ∧ aLine.pool ≠ 0 ∧ aLine.bytes ≠ []
    ∧ (∀ b ∈ aLine.bytes, b.expires ≤ max live.now ((aLine.bytes.map fun b => b.expires).foldl min (2 ^ 64))) := by
  refine ⟨?_, ?_, ?_, ?_, ?_, ?_, ?_, ?_, ?_, ?_, ?_⟩ <;> decide +kernel

/-! ## The log -/

/-- `live` with `n` records waiting. -/
def waits (n : Nat) : State :=
  { live with log := { live.log with waiting := (List.range n).map fun _ => { time := 0, source := 0, tenant := 0, severity := 0, code := Ev.logMark, cs := 0, addr := 0, ticket := 0, data := [] } } }

theorem test_wit_EventRecordsAreQueued :
    rateLimit Ev.logMark = 0 ∧ Ev.logMark ≠ Ev.contained ∧ live.log.waiting.length < 256 ∧ 256 ≤ (waits 256).log.waiting.length
    ∧ rateLimit Ev.weirDeny = 100 ∧ Ev.weirDeny ≠ Ev.contained ∧ LogRoom live
    ∧ (let e : Ev := { code := Ev.logMark, src := 0, cs := 0x10 }
       e.enters ≠ 2 ∧ e.critical = false ∧ e.code ∉ [Ev.thermShutdown, Ev.bedLost, Ev.pllLost, Ev.islandWakeFail] ∧ 0x10 ≤ e.cs ∧ e.cs ≤ 0x22) := by
  unfold LogRoom; refine ⟨?_, ?_, ?_, ?_, ?_, ?_, ?_, ?_⟩ <;> decide +kernel
theorem test_wit_LogCommands :
    Executing (busy 0x0C00 (List.replicate 8 0)) 0x0C00 0 (cmd 0x0C00 (List.replicate 8 0)) ∧ Executing (busy 0x0C01 (List.replicate 8 0)) 0x0C01 0 (cmd 0x0C01 (List.replicate 8 0))
    ∧ Executing (busy 0x0C02 (List.replicate 32 0)) 0x0C02 0 (cmd 0x0C02 (List.replicate 32 0)) ∧ LogRoom (busy 0x0C02 (List.replicate 32 0))
    ∧ (waits 1).log.ready = true ∧ (waits 1).log.waiting ≠ [] ∧ State.reset.log.ready = false := by
  unfold Executing LogRoom; refine ⟨?_, ?_, ?_, ?_, ?_, ?_, ?_⟩ <;> decide +kernel

/-! ## Queues -/

/-- QUEUE_CREATE's payload of a chained queue of `tenant`, homed on bed 0. -/
def queuePayload (tenant : Nat) : List Byte := bytesOfWords [1 + 256 * tenant, 0, 4096, 0, 0, 0, 8192, 0, 4, 0, 0, 0]
/-- Queue 3 of tenant 0 in state `st`, changed by `f`. -/
def withQ (st : QState) (f : QCtx → QCtx := id) : State :=
  live.modQ 3 fun _ => f { qctxInit 3 with st := st, ringLog2 := 4, cqLog2 := 4, depth := 16, ring := 4096, cq := 8192, phase := true }

theorem test_wit_QueueCommands :
    Executing (busy 0x0400 (queuePayload 0)) 0x0400 0 (cmd 0x0400 (queuePayload 0)) ∧ ownsObject 0 0 = true ∧ ownsObject 1 0 = false
    ∧ live.followed 0 = false ∧ live.leads 0 = false ∧ createRefusal live (queuePayload 0) = 0 ∧ freeQueue live = some 0
    ∧ createRefusal live (List.replicate 48 0) = 1
    ∧ Executing (runs (withQ .active) (cmd 0x0401 [3, 0, 0, 0])) 0x0401 0 (cmd 0x0401 [3, 0, 0, 0])
    ∧ Executing (runs (withQ .active) (cmd 0x0402 [3, 0, 0, 0])) 0x0402 0 (cmd 0x0402 [3, 0, 0, 0])
    ∧ ((withQ .active).q 3).st ≠ .free ∧ ((withQ .active).q 3).tenant = 0 ∧ queueBusy ((withQ .active).q 3) = false
    ∧ Executing (runs (withQ .active) (cmd 0x0403 [3, 0, 0, 0])) 0x0403 0 (cmd 0x0403 [3, 0, 0, 0]) := by
  unfold Executing; refine ⟨?_, ?_, ?_, ?_, ?_, ?_, ?_, ?_, ?_, ?_, ?_, ?_, ?_, ?_⟩ <;> decide +kernel
theorem test_wit_DoorbellsMoveQueues :
    fnAnswers live 0 = true ∧ doorbellQueue (withQ .active) 0 3 = some 3 ∧ dbDeaf (withQ .active) 3 = false ∧ ((withQ .active).q 3).chain = false
    ∧ 15 < 2 ^ ((withQ .active).q 3).ringLog2 ∧ 2 ^ ((withQ .active).q 3).cqLog2 ≤ 16 ∧ dbDeaf (withQ .disabled) 3 = true ∧ doorbellQueue live 0 3 = none
    ∧ ((withQ .active).q 3).st = .active ∧ ((withQ .halted).q 3).st = .halted ∧ ((withQ .halted).q 3).needReset = false
    ∧ (withQ .active).followed 0 = false ∧ (withQ .halted).leads 0 = false := by
  refine ⟨?_, ?_, ?_, ?_, ?_, ?_, ?_, ?_, ?_, ?_, ?_, ?_, ?_⟩ <;> decide +kernel

/-! ## Descriptors, segments, completions, raking -/

/-- Descriptor 5 of a queue, of opcode `op`. -/
def aDesc (op : Nat) : Desc :=
  { uid := 5, index := 0, addr := 4096, opcode := op, flags := 0, len := 64, next := 0, settleN := 0, op0 := 0, op1 := 0, toPush := [], inPans := [], done := [], fails := []
    halfDone := false, fence := none, final := none, ordered := false, pinnedAny := false, span := none, fetchFail := false, deferred := false }
/-- A segment of 64 bytes of descriptor 5 of queue 3, from `src` to `dst`. -/
def aSeg (src dst : Endpt) : Slot := { slotInit 0 with busy := true, queue := 3, uid := 5, len := 64, src := src, dst := dst }
/-- A rack endpoint of port A. -/
def rackEnd : Endpt := .rack 0 0 0x39 1 0 2 0 0
/-- `s` with slot `k` holding `x`. -/
def withSlot (s : State) (k : Nat) (x : Slot) : State := s.modSlot k fun _ => x
/-- Queue 3 fetching one descriptor under tag 7. -/
def fetching : State :=
  let s := withQ .active fun c => { c with fetching := some (64, 4096, 1) }
  s.setFn 0 { s.fn 0 with tags := [(7, .fetch 3)] }

theorem test_wit_DescriptorsAreFetchedCutAndPushed :
    (fetching.q 3).fetching = some (64, 4096, 1) ∧ (fetching.q 3).halting = false ∧ tagOf (fetching.fn (fnOf (fetching.q 3).tenant)) (.fetch 3) = some 7
    ∧ ((withQ .active).q 3).fetching = none ∧ ((withQ .halted).q 3).st ≠ .active ∧ ((withQ .active).q 3).st = .active ∧ mayRun (withQ .active) 0 = true
    ∧ atCap (countDeferred (withQ .active) 3 [] false) 0 = false ∧ pushBed (countDeferred (withQ .active) 3 [] false) 0 = some 0
    ∧ freeSlotOf live 7 15 = some 4064 := by
  refine ⟨?_, ?_, ?_, ?_, ?_, ?_, ?_, ?_, ?_, ?_⟩ <;> decide +kernel

/-- Queue 3 with descriptor `d` at its head and the completion queue's tail at `tail`. -/
def releasing (d : Desc) (tail : Nat := 0) (stalled : Bool := false) : State :=
  withQ .active fun c => { c with descs := [d], cqTail := tail, stalled := stalled }

theorem test_wit_EntriesAreReleasedInOrder :
    mayRelease (withQ .halted) 3 = false ∧ mayRelease (withQ .active) 3 = true ∧ ((withQ .active).q 3).descs = []
    ∧ mayRelease (releasing (aDesc 4)) 3 = true ∧ ((releasing (aDesc 4)).q 3).descs = [aDesc 4]
    ∧ halfDue { aDesc 1 with inPans := [(0, 64, false)] } = false ∧ segsDone { aDesc 1 with inPans := [(0, 64, false)] } = false
    ∧ segsDone (aDesc 1) = true ∧ halfDue { aDesc 1 with flags := 2 } = true ∧ halfDue (aDesc 1) = false
    ∧ cqRoom ((releasing (aDesc 1) 15).q 3) = false ∧ ((releasing (aDesc 1) 15 true).q 3).stalled = true ∧ ((releasing (aDesc 1) 15).q 3).stalled = false
    ∧ cqRoom ((releasing (aDesc 1)).q 3) = true ∧ (releasing (aDesc 1)).leads 0 = false
    ∧ 0 < ((withQ .active fun c => { c with irqPend := 2, timer := 9 }).q 3).irqPend ∧ 0 < ((withQ .active fun c => { c with irqPend := 2, timer := 9 }).q 3).timer := by
  refine ⟨?_, ?_, ?_, ?_, ?_, ?_, ?_, ?_, ?_, ?_, ?_, ?_, ?_, ?_, ?_, ?_, ?_⟩ <;> decide +kernel

/-- The first slot of position 0 of bed 0 with a segment to host memory that runs, its descriptor of opcode `op`. -/
def inSlot (op : Nat) (src : Endpt := .host 8192 0) (dst : Endpt := .host 4096 0) (f : Slot → Slot := id) : State :=
  withSlot (withQ .active fun c => { c with descs := [aDesc op] }) 0 (f { aSeg src dst with started := true })

theorem test_wit_SegmentsRunAndAreReported :
    let can := fun s => oldestOf s ((posBusy s 0 0).filter fun k => startable s k)
    let gone := fun s => oldestOf s ((posBusy s 0 0).filter fun k => (s.slot k).cancelled && (s.slot k).moving.isNone)
    domUp (refreshDom State.reset 4) 4 = false ∧ domUp (refreshDom live 4) 4 = true ∧ can live = none ∧ live.cont.dev = false
    ∧ can (withSlot live 0 (aSeg .none rackEnd)) = some 0 ∧ windowFits (withSlot live 0 (aSeg .none rackEnd)) 0 0 0 = true
    ∧ (let s := withSlot (withSlot live 0 (aSeg (.host 0 0) rackEnd)) 1 { aSeg (.host 0 0) rackEnd with started := true, len := 16384, order := 1 }
       can s = some 0 ∧ windowFits s 0 0 0 = false)
    ∧ (live.slot 0).busy = false ∧ ((inSlot 1).slot 0).busy = true ∧ ((inSlot 1).slot 0).started = true ∧ isRmwSlot (inSlot 1) 0 = false
    ∧ isRmwSlot (inSlot 3) 0 = true ∧ ((inSlot 3).slot 0).frozen = false ∧ ((inSlot 1).slot 0).src = .host 8192 0 ∧ ((inSlot 1 rackEnd).slot 0).src = rackEnd
    ∧ segFinished ((slotFlush (inSlot 1) 0).slot 0) = false ∧ segFinished ((slotFlush (inSlot 3 .none .none) 0).slot 0) = true
    ∧ ((slotFlush (inSlot 3 .none .none) 0).slot 0).fail = none ∧ gone live = none
    ∧ gone (inSlot 1 (.host 0 0) rackEnd fun x => { x with cancelled := true }) = some 0 := by
  refine ⟨?_, ?_, ?_, ?_, ?_, ?_, ?_, ?_, ?_, ?_, ?_, ?_, ?_, ?_, ?_, ?_, ?_, ?_, ?_, ?_⟩ <;> decide +kernel

/-- Position 0 of bed 0 idle, a segment that may be raked in position 1 of bed `b`. -/
def toRake (b : Nat) : State := withSlot (withQ .active fun c => { c with descs := [aDesc 1] }) (512 * b + 32) { aSeg .none rackEnd with started := false }
/-- Raking across beds asked for from bed 1, which advertises four segments. -/
def toRakeAcross : State :=
  let s := ((toRake 1).setReg 0x188000 0x00010401#32).setReg 0x184014 3#32 |>.setReg 0x184114 3#32
  { s with qs := { s.qs with beds := ⟨[(1, { bedInit 1 with advertised := 4 })]⟩ } }
/-- A segment on its way to position 0 of bed 0. -/
def arriving : State :=
  let s := withSlot (withQ .active fun c => { c with descs := [aDesc 1] }) 544 { aSeg .none rackEnd with moving := some 0 }
  { s with qs := { s.qs with xrakes := [(0, [544])] } }

theorem test_wit_PansRakeWork :
    mayRake State.reset 0 0 = false ∧ donorPos live 0 false = none ∧ mayRake (toRake 0) 0 0 = true ∧ donorPos (toRake 0) 0 false = some 1
    ∧ newestOf (toRake 0) (posRakable (toRake 0) 0 1 false) = some 32 ∧ freeSlotOf (toRake 0) 0 0 = some 0 ∧ windowFits (toRake 0) 0 0 32 = true
    ∧ panReg (servingPan (toRake 0) 0) 0x10 ≠ panReg (servingPan (toRake 0) 32) 0x14
    ∧ mayRake toRakeAcross 0 0 = true ∧ donorPos toRakeAcross 0 false = none ∧ bit (rakeCtl toRakeAcross) 16 = true ∧ bit (bedCtl toRakeAcross 0) 1 = true
    ∧ (toRakeAcross.qs.xrakes.any fun r => decide (r.1 = 0)) = false ∧ victimBed toRakeAcross 0 = some 1 ∧ domUp toRakeAcross 5 = true
    ∧ (takeAcross toRakeAcross 1 0 1).1 ≠ []
    ∧ (live.qs.xrakes.find? fun r => decide (r.1 = 0)) = none ∧ (arriving.qs.xrakes.find? fun r => decide (r.1 = 0)) = some (0, [544])
    ∧ (arriving.slot 544).moving = some 0 ∧ freeSlotOf arriving 0 0 = some 0 := by
  refine ⟨?_, ?_, ?_, ?_, ?_, ?_, ?_, ?_, ?_, ?_, ?_, ?_, ?_, ?_, ?_, ?_, ?_, ?_, ?_, ?_⟩ <;> decide +kernel
theorem test_wit_PansRakeWork_full :
    let s := { arriving with qs := { arriving.qs with slots := ⟨(List.range 32).map (fun i => (i, aSeg .none rackEnd)) ++ [(544, arriving.slot 544)]⟩ } }
    (s.qs.xrakes.find? fun r => decide (r.1 = 0)) = some (0, [544]) ∧ (s.slot 544).moving = some 0 ∧ freeSlotOf s 0 0 = none
    ∧ victimBed (live.setReg 0x188000 0x00010401#32) 0 = none
    ∧ (let t := { toRakeAcross with pwr := { live.pwr with dom := ⟨[(4, { domInit 4 with st := .on })]⟩ } }
       mayRake t 0 0 = true ∧ victimBed t 0 = some 1 ∧ domUp t 5 = false) := by decide +kernel

/-! ## Pans -/

theorem test_wit_PansRetireToTheirSpare :
    panServes live 16 = false ∧ panServes live 3 = true ∧ 96 ∈ posBusy (withSlot (inSlot 1) 96 { aSeg .none .none with started := true }) (3 / 17) (live.pan 3).pos
    ∧ (let s := withSlot (inSlot 1) 96 { aSeg (.host 0 0) rackEnd with started := true }
       (s.slot 96).started = true ∧ (s.slot 96).frozen = false ∧ (s.slot 96).sent = false ∧ (s.slot 96).readReq = false ∧ (s.slot 96).waitEntry = false
       ∧ slotReadOf s 96 = none ∧ isRmwSlot s 96 = false)
    ∧ bedSpare live 0 = some 16 ∧ bedSpare { live with qs := { live.qs with pans := ⟨[(16, { st := 4, pos := 31 })]⟩ } } 0 = none
    ∧ LogRoom live ∧ domUp State.reset 4 = false ∧ domUp live 4 = true := by
  unfold LogRoom; refine ⟨?_, ?_, ?_, ?_, ?_, ?_, ?_, ?_, ?_⟩ <;> decide +kernel

/-! ## Port service, profiles, schedules -/

/-- `s` with command `op` of payload `p` executing in PF0's mailbox. -/
def does (s : State) (op : Nat) (p : List Byte) : State := runs s (cmd op p)
/-- Port A in state `st`, all else as `live`. -/
def portIn (st : PortSt) : State := { live with ports := ⟨[(0, { portInit 0 with st := st })]⟩ }
/-- Port A absent by its image. -/
def portAbsent : State := { live with img := { live.img with ports := [{ factoryPort with absent := true }, factoryPort] } }
/-- PORT_SLAVE_SET's payload: region 0 of port A enabled for tenant 0, 2^`l` bytes at rack address 0. -/
def slavePayload (l : Nat) : List Byte := bytesOfWords [0, 1 + l * 2 ^ 24, 0x3F39, 0, 0, 0, 0x100, 0]

set_option maxRecDepth 100000 in
theorem test_wit_PortServiceAndProfiles :
    (∀ b : Bool, Executing (does live 0x0500 [0, b2n b, 0, 0]) 0x0500 0 (cmd 0x0500 [0, b2n b, 0, 0]) ∧ bit (wordAt [0, b2n b, 0, 0] 0) 8 = b)
    ∧ targetAbsent portAbsent 0 = true ∧ stopReached portAbsent 0 = false ∧ targetAbsent live 0 = false
    ∧ (∀ st, ((portIn st).port 0).st = st ∧ targetAbsent { portIn st with img := live.img } 0 = decide (st = .absent))
    ∧ ((List.range 4).any fun b => !bankOk { live with mon := { live.mon with mv := ⟨[(6, 1)]⟩ } } 0 b) = true
    ∧ ((List.range 4).all fun b => bankOk live 0 b) = true ∧ persFail live 0 = some (4, 0) ∧ persFail (withPort .outOfService) 0 = none
    ∧ Executing (does live 0x0501 (slavePayload 11)) 0x0501 0 (cmd 0x0501 (slavePayload 11))
    ∧ slaveRefusal live 0 0 (wordsOf (slavePayload 11) 8) = 2 ∧ slaveRefusal live 0 0 (wordsOf (slavePayload 12) 8) = 0
    ∧ Executing (does live 0x0502 [0, 3, 0, 0]) 0x0502 0 (cmd 0x0502 [0, 3, 0, 0])
    ∧ Executing (does live 0x0503 (List.replicate 16 0)) 0x0503 0 (cmd 0x0503 (List.replicate 16 0)) ∧ warm (live.prof (profKey 0 0)) = false
    ∧ warm { profInit 0 with subs := List.replicate 16 { min := 0, sum := 0, max := 0, beat := 0 } } = true
    ∧ Executing (does live 0x0504 (bytesOfWords [0, 1])) 0x0504 0 (cmd 0x0504 (bytesOfWords [0, 1])) ∧ bit (wordAt (bytesOfWords [0, 1]) 4) 1 = false
    ∧ Executing (does live 0x0504 (bytesOfWords [0, 2])) 0x0504 0 (cmd 0x0504 (bytesOfWords [0, 2])) ∧ bit (wordAt (bytesOfWords [0, 2]) 4) 1 = true := by
  unfold Executing
  refine ⟨?_, ?_, ?_, ?_, fun st => by cases st <;> decide +kernel, ?_, ?_, ?_, ?_, ?_, ?_, ?_, ?_, ?_, ?_, ?_, ?_, ?_, ?_, ?_⟩ <;> decide +kernel

/-- Schedule 2 of tenant 0 in state `st` with `cap` harvest points. -/
def withSched (st : HarSt) (cap : Nat := 0) (flood : Bool := false) : State :=
  { live with har := { live.har with sched := ⟨[(2, { schedInit 2 with st := st, hCap := cap, period := 1000, fill := 50, half := 64, hasFlood := flood })]⟩ } }
/-- HARVEST_CREATE's payload: tenant 0, 1000 us, 4 points, `half` bytes at host address `image`. -/
def harPayload (half image : Nat) : List Byte := bytesOfWords [0, 1000, 0, 4, image, 0, half]
/-- HARVEST_POINTS' payload: one point at index `i` of schedule 2. -/
def pointPayload (i : Nat) : List Byte := bytesOfWords [2, 65536 + i, 0x39, 0, 0, 0, 0, 0, 0]

theorem test_wit_SchedulesAreBuiltAndStarted :
    (∀ half image, Executing (does live 0x0600 (harPayload half image)) 0x0600 0 (cmd 0x0600 (harPayload half image)))
    ∧ ownsObject 0 (wordAt (harPayload 0 0) 0 % 128) = true ∧ wordAt (harPayload 0 0) 0x18 = 0 ∧ wordAt (harPayload 64 1) 0x18 ≠ 0
    ∧ field (harPayload 64 1) 0x10 8 % 64 ≠ 0 ∧ field (harPayload 64 64) 0x10 8 % 64 = 0 ∧ takeRun live 0 4 = some 0 ∧ takeRun live 0 100000 = none
    ∧ (live.sched 0).st = .free ∧ (∀ i, Executing (does (withSched .stopped) 0x0601 (pointPayload i)) 0x0601 0 (cmd 0x0601 (pointPayload i)))
    ∧ ((withSched .stopped 3).sched 2).hCap < field (pointPayload 3) 4 2 + field (pointPayload 3) 6 2
    ∧ field (pointPayload 2) 4 2 + field (pointPayload 2) 6 2 ≤ ((withSched .running 3).sched 2).hCap ∧ ((withSched .running 3).sched 2).st ≠ .stopped
    ∧ Executing (does (withSched .stopped) 0x0602 [2, 0, 0, 0]) 0x0602 0 (cmd 0x0602 [2, 0, 0, 0]) ∧ (withSched .stopped).followed 0 = false
    ∧ ((withSched .stopped).sched 2).st = .stopped ∧ firstRefusal (withSched .stopped) 2 = none ∧ (failingSched (withSched .stopped) 2) = none
    ∧ (∀ b : Bool, Executing (does (withSched .running) 0x0603 [2, b2n b, 0, 0]) 0x0603 0 (cmd 0x0603 [2, b2n b, 0, 0]) ∧ bit (wordAt [2, b2n b, 0, 0] 0) 8 = b)
    ∧ ((withSched .free).sched 2).st = .free ∧ ((withSched .running).sched 2).st = .running
    ∧ Executing (does (withSched .running) 0x0604 [2, 0, 0, 0]) 0x0604 0 (cmd 0x0604 [2, 0, 0, 0]) := by
  unfold Executing
  refine ⟨fun _ _ => rfl, ?_, ?_, ?_, ?_, ?_, ?_, ?_, ?_, fun _ => rfl, ?_, ?_, ?_, ?_, ?_, ?_, ?_, ?_, ?_, ?_, ?_, ?_⟩ <;> decide +kernel

/-- Schedule 2 with a period in which no cycle fits: 1 µs, one hundredth of it. -/
def tooFull : State := { withSched .stopped with har := { (withSched .stopped).har with sched := ⟨[(2, { schedInit 2 with st := .stopped, period := 1, fill := 1 })]⟩ } }
/-- FLOOD_CREATE's payload: schedule 2, one point, 64 bytes at host address 64. -/
def floodPayload : List Byte := bytesOfWords [2, 1, 64, 0, 64]
/-- A running schedule with a harvest point whose words are zero: region 0 of port A. -/
def routed : State := withSched .running 1

theorem test_wit_SchedulesAreBuiltAndStarted_more :
    (∀ f : Nat, f < 2 → Executing (does tooFull 0x0602 [2, f, 0, 0]) 0x0602 0 (cmd 0x0602 [2, f, 0, 0])) ∧ bit (wordAt [2, 1, 0, 0] 0) 8 = true
    ∧ bit (wordAt [2, 0, 0, 0] 0) 8 = false ∧ firstRefusal tooFull 2 = none ∧ failingSched tooFull 2 = some 2
    ∧ (firstRefusal (withSched .stopped 1) 2).isSome = true
    ∧ Executing (does (withSched .stopped) 0x0605 floodPayload) 0x0605 0 (cmd 0x0605 floodPayload) ∧ wordAt floodPayload 4 ≠ 0 ∧ wordAt floodPayload 0x10 ≠ 0
    ∧ field floodPayload 8 8 % 64 = 0 ∧ takeRun (withSched .stopped) 0 (wordAt floodPayload 4) = some 0 ∧ ((withSched .stopped).sched 2).hasFlood = false
    ∧ takeRun (withSched .running) 0 1 = some 0 ∧ (∀ h, h < 8 → ({ live with har := { live.har with sched := ⟨(List.range 8).map fun i => (i, { schedInit i with st := .stopped })⟩ } }.sched h).st ≠ .free)
    ∧ Executing (does routed 0x0606 (List.replicate 16 0)) 0x0606 0 (cmd 0x0606 (List.replicate 16 0)) ∧ routeInUse routed 0 0 = true ∧ routeInUse live 0 0 = false := by
  unfold Executing
  refine ⟨?_, ?_, ?_, ?_, ?_, ?_, ?_, ?_, ?_, ?_, ?_, ?_, ?_, ?_, ?_, ?_, ?_⟩ <;> decide +kernel

/-! ## Links, power, tide watch, resets -/

/-- Link 2 in session state `st`, changed by `f`. -/
def withLink (st : UliSt) (f : Link → Link := id) : State := { live with links := ⟨[(2, f { linkInit 2 with st := st })]⟩ }
/-- Link 2 absent by the image. -/
def linkAbsent : State := { live with img := { live.img with links := (List.range 5).map fun k => { factoryLink with absent := decide (k = 2) } } }
/-- LINK_SERVICE's payload: link 2, the bit for its entry. -/
def svcPayload (b : Bool) : List Byte := [2, b2n b, 0, 0]
/-- Mailbox 0 waiting with command `c`. -/
def waitingFor (c : Cmd) : State := live.setMb 0 { mbInit 0 with st := .waiting, cmd := some c }

theorem test_wit_LinkCommands :
    (∀ b : Bool, Executing (does live 0x0700 (svcPayload b)) 0x0700 0 (cmd 0x0700 (svcPayload b)) ∧ bit (wordAt (svcPayload b) 0) 8 = b)
    ∧ (imgLink linkAbsent 2).absent = true ∧ (imgLink live 2).absent = false ∧ (live.link 2).st ≠ .absent ∧ live.linkCause 2 = 0
    ∧ { live with cont := { live.cont with links := ⟨[(2, 1)]⟩ } }.linkCause 2 ≠ 0
    ∧ ((withLink .up).link 2).st = .up ∧ ((withLink .up).link 2).stopMb = none ∧ (live.link 2).st = .outOfService ∧ linkWaiting ((withLink .up).link 2) = []
    ∧ Executing (does live 0x0701 [2, 0, 0, 0]) 0x0701 0 (cmd 0x0701 [2, 0, 0, 0])
    ∧ (∀ m : Nat, m < 4 → Executing (does live 0x0702 (bytesOfWords [2, 16 + m, 0])) 0x0702 0 (cmd 0x0702 (bytesOfWords [2, 16 + m, 0]))
        ∧ wordAt (bytesOfWords [2, 16 + m, 0]) 4 % 4 = m)
    ∧ (live.link 2).peerLoopOk = false ∧ (live.link 2).loopMode = 0
    ∧ ((withLink .outOfService fun l => { l with loopMode := 1, loopMb := some 0 }).link 2).loopMode ≠ 0
    ∧ Executing (does live 0x0703 (bytesOfWords [7, 0])) 0x0703 0 (cmd 0x0703 (bytesOfWords [7, 0])) ∧ receiving (live.lane 7) = false
    ∧ receiving { laneInit 7 with st := .active } = true
    ∧ ((waitingFor (cmd 0x0703 (bytesOfWords [7, 0]))).mb 0).st = .waiting ∧ ((waitingFor (cmd 0x0703 (bytesOfWords [7, 0]))).mb 0).cmd = some (cmd 0x0703 (bytesOfWords [7, 0]))
    ∧ wordAt (bytesOfWords [7, 0]) 0 = 7 ∧ (live.mb 0).st ≠ .waiting
    ∧ Executing (does live 0x0704 [2, 0, 0, 0]) 0x0704 0 (cmd 0x0704 [2, 0, 0, 0]) ∧ (live.link 2).svcMb = none
    ∧ ((withLink .init fun l => { l with svcMb := some 0 }).link 2).svcMb = some 0 ∧ ((withLink .init).link 2).st ≠ .up ∧ linkServes (withLink .init) 2 = true := by
  unfold Executing
  refine ⟨?_, ?_, ?_, ?_, ?_, ?_, ?_, ?_, ?_, ?_, ?_, ?_, ?_, ?_, ?_, ?_, ?_, ?_, ?_, ?_, ?_, ?_, ?_, ?_, ?_, ?_, ?_⟩ <;> decide +kernel

/-- Domain 5 in state `st` with the votes `v`, changed by `f`. -/
def withDom (st : DomSt) (v : List Nat) (f : Dom → Dom := id) : State := live.modDom 5 fun _ => f { domInit 5 with st := st, votes := v }

theorem test_wit_PowerVotesAndDrains :
    (∀ p : Nat, p < 2 → Executing (does live 0x0800 (bytesOfWords [16 + 65536 * p])) 0x0800 0 (cmd 0x0800 (bytesOfWords [16 + 65536 * p])))
    ∧ bit (wordAt (bytesOfWords [16 + 65536]) 0) 16 = true ∧ bit (wordAt (bytesOfWords [16]) 0) 16 = false
    ∧ votable 5 = true ∧ ((withDom .on [3]).dom 5).st = .on ∧ ((withDom .off []).dom 5).st = .off ∧ heldVotes ((withDom .on [3]).dom 5) = [3]
    ∧ ((withDom .on [3]).dom 5).temp = [] ∧ Executing (does live 0x0801 [5, 0, 0, 0]) 0x0801 0 (cmd 0x0801 [5, 0, 0, 0]) ∧ bit (cmd 0x0801 [5, 0, 0, 0]).flags 8 = false
    ∧ ((heldVotes ((withDom .on [3]).dom 5)).filter fun c => !isXfer c) = 3 :: [] ∧ heldVotes ((withDom .on []).dom 5) = []
    ∧ (let c := { cmd 0x0801 [5, 0, 0, 0] with flags := 256 }
       Executing (runs live c) 0x0801 0 c ∧ bit c.flags 8 = true)
    ∧ ((withDom .disabled []).dom 5).st = .disabled ∧ ((withDom .draining []).dom 5).st = .draining ∧ heldVotes ((withDom .draining []).dom 5) = []
    ∧ (live.dom 5).st ≠ .draining ∧ heldVotes ((withDom .draining [3]).dom 5) = 3 :: [] ∧ ((withDom .holdoff []).dom 5).st = .holdoff ∧ (live.dom 5).st ≠ .holdoff := by
  unfold Executing
  refine ⟨?_, ?_, ?_, ?_, ?_, ?_, ?_, ?_, ?_, ?_, ?_, ?_, ?_, ?_, ?_, ?_, ?_, ?_, ?_, ?_⟩ <;> decide +kernel
theorem test_wit_IslandsWakeOrFail :
    (live.dom 5).st ≠ .waking ∧ ((withDom .waking [3]).dom 5).st = .waking ∧ 5 ∉ (withDom .waking [3]).pwr.ramp ∧ ((withDom .waking [3]).dom 5).held = []
    ∧ ((withDom .waking [3]).dom 5).drainWait = false ∧ 5 ∉ (withDom .waking [3]).mram.islandFailed ∧ heldVotes ((withDom .waking [3]).dom 5) ≠ []
    ∧ ((withDom .waking [3] fun d => { d with held := [.regRead 0 8 false] }).dom 5).held = .regRead 0 8 false :: []
    ∧ ((withDom .waking [3]).dom 5).drainMb = none ∧ LogRoom (withDom .waking [3]) ∧ (1#32).getLsbD 0 = true
    ∧ ((withDom .disabled [] fun d => { d with reason := 3 }).dom 5).st = .disabled ∧ ((withDom .disabled [] fun d => { d with reason := 3 }).dom 5).reason = 3
    ∧ heldVotes ((withDom .disabled []).dom 5) = [] ∧ heldVotes ((withDom .disabled [3]).dom 5) ≠ [] := by
  unfold LogRoom; refine ⟨?_, ?_, ?_, ?_, ?_, ?_, ?_, ?_, ?_, ?_, ?_, ?_, ?_, ?_, ?_⟩ <;> decide +kernel

/-- TIDE_ARM's payload: a period in ms and no watch points. -/
def tidePayload (period : Nat) : List Byte := bytesOfWords [period, 0]
/-- `live` in tide watch, its points `l`. -/
def inTide (l : List TidePt) (perst : Bool) : State :=
  { live with tide := { live.tide with active := true, points := l, period := 10 }, pins := { live.pins with perst := perst } }
/-- A watch point on a line whose mask is zero, so that every sample matches. -/
def aPoint : TidePt := { w0 := 1, w1 := 0, w2 := 0, w3 := 0, count := 0, prev := none }

theorem test_wit_TideWatch :
    (∀ t, Executing (does live 0x0802 (tidePayload t)) 0x0802 0 (cmd 0x0802 (tidePayload t)))
    ∧ tideRefusal live (wordAt (tidePayload 1000) 0) (tideList (tidePayload 1000)) = 0 ∧ tideRefusal live 0 [{ aPoint with w0 := 2 }] ≠ 0
    ∧ Executing (busy 0x0803) 0x0803 0 (cmd 0x0803 []) ∧ Executing (does live 0x0804 [9, 0, 0, 0]) 0x0804 0 (cmd 0x0804 [9, 0, 0, 0])
    ∧ live.tide.entering = false ∧ live.tide.active = false ∧ { live with tide := { live.tide with entering := true } }.tide.entering = true
    ∧ (inTide [] false).tide.active = true ∧ (inTide [] false).pins.perst = false ∧ tidePairs (inTide [] false) [] = []
    ∧ ((tidePairs (inTide [aPoint] false) [.value 1]).filter fun e => tideMet e.2.1 e.2.2).map (fun e => e.1) = [0] := by
  unfold Executing
  refine ⟨fun _ => rfl, ?_, ?_, ?_, ?_, ?_, ?_, ?_, ?_, ?_, ?_, ?_⟩ <;> decide +kernel

/-- `live` at boot step `n`, booting from recovery or not. -/
def atStep (n : Nat) (r : Bool) : State := { live with boot := { live.boot with step := n, recovery := r } }

theorem test_wit_ResetsAndBoot :
    live.pins.porst = true ∧ { live with pins := { live.pins with porst := false } }.pins.porst = false
    ∧ live.boot.powerOnPending = false ∧ { live with boot := { live.boot with powerOnPending := true } }.boot.powerOnPending = true ∧ suppliesValid live = true
    ∧ supplyResets (supplyIdx .ao) 0 = true ∧ live.mon.internalReset = false ∧ supplyIdx .ao < 6 ∧ supplyResets (supplyIdx (.bank 0 0)) 0 = false
    ∧ live.pins.perst = true ∧ awake { live with pins := { live.pins with perst := false } } = true ∧ awake State.reset = false ∧ live.tide.armed = false
    ∧ { live with tide := { live.tide with armed := true } }.tide.armed = true ∧ live.tide.active = false
    ∧ (atStep 7 false).boot.step = 7 ∧ (atStep 8 true).boot.step = 8 ∧ (atStep 8 true).boot.recovery = true ∧ (atStep 8 false).boot.recovery = false
    ∧ awake live = true ∧ live.ep.link = .l0 ∧ 6 ≤ live.boot.step ∧ live.boot.recovery = false := by
  refine ⟨?_, ?_, ?_, ?_, ?_, ?_, ?_, ?_, ?_, ?_, ?_, ?_, ?_, ?_, ?_, ?_, ?_, ?_, ?_, ?_, ?_, ?_, ?_⟩ <;> decide +kernel

/-! ## Supplies, SMBus, life cycle, debug -/

theorem test_wit_SuppliesAndTemperature :
    awake live = true ∧ awake State.reset = false ∧ mvWarned live 1 0 = true ∧ mvWarned live 1 (live.mv 1) = false ∧ 1 ∉ live.mon.warned ∧ LogRoom live
    ∧ { live with mon := { live.mon with warned := [1], faulted := [0] } }.mon.warned = [1] ∧ supplyIdx .core < 6
    ∧ (let mv := 90 * live.mv 0 / 100
       supplyResets 0 mv = false ∧ supplyFaulty 0 mv = true ∧ 0 ∉ live.mon.faulted ∧ 0 ∈ { live with mon := { live.mon with faulted := [0] } }.mon.faulted)
    ∧ supplyFaulty 0 (live.mv 0) = false ∧ bankFaulty (setMv live 6 3300) 0 0 3300 = false ∧ bankFaulty (setMv live 6 0) 0 0 0 = true ∧ 6 ∉ live.mon.faulted
    ∧ monitorRuns live 0 = false ∧ monitorRuns (portIn .inService) 0 = true
    ∧ (live.mon.warnThr : Int) < (2000#16).toInt ∧ (0#16).toInt + 40 ≤ live.mon.warnThr ∧ (0#16).toInt ≤ shutdownTemp ∧ shutdownTemp < (2000#16).toInt
    ∧ live.mon.tempWarned = false ∧ { live with mon := { live.mon with tempWarned := true } }.mon.tempWarned = true
    ∧ (BitVec.ofNat 16 (live.mon.warnThr - 8)).toInt ≤ live.mon.warnThr ∧ (live.mon.warnThr : Int) < (BitVec.ofNat 16 (live.mon.warnThr - 8)).toInt + 40 := by
  unfold LogRoom
  refine ⟨?_, ?_, ?_, ?_, ?_, ?_, ?_, ?_, ?_, ?_, ?_, ?_, ?_, ?_, ?_, ?_, ?_, ?_, ?_, ?_, ?_, ?_, ?_⟩ <;> decide +kernel
theorem test_wit_SmbusReads :
    7 ≤ (7#8).toNat ∧ alertLow live = false ∧ alertLow { live with pins := { live.pins with alertPending := 1#4, alertMask := 0#4 } } = true := by decide +kernel

/-- `live` with the life-cycle fuses `f`. -/
def aged (f : BitVec 3) : State := { live with mram := { live.mram with fuses := f } }
/-- Debug access open in state 1 until `e`. -/
def unlocked (e : Option Nat) : State := { aged 1#3 with dbg := { live.dbg with isOpen := true, expires := e } }

theorem test_wit_KeysAndLifeCycle :
    Executing (does live 0x0900 (List.replicate 32 1)) 0x0900 0 (cmd 0x0900 (List.replicate 32 1)) ∧ lcyState live = 0 ∧ lcyState (aged 1#3) = 1
    ∧ Executing (busy 0x0902) 0x0902 0 (cmd 0x0902 []) ∧ Executing (busy 0x0903) 0x0903 0 (cmd 0x0903 [])
    ∧ (∀ f : Nat, f < 2 → let c := { cmd 0x0903 [] with flags := 256 * f }
        Executing (runs live c) 0x0903 0 c ∧ bit c.flags 8 = decide (f = 1))
    ∧ (∀ f : Nat, f < 2 → let c := { cmd 0x0901 (List.replicate 48 0) with flags := 256 * f }
        Executing (runs live c) 0x0901 0 c ∧ bit c.flags 8 = decide (f = 1))
    ∧ awake live = true ∧ LogRoom live ∧ awake State.reset = false ∧ State.reset.tide.active = false := by
  unfold Executing LogRoom; refine ⟨?_, ?_, ?_, ?_, ?_, ?_, ?_, ?_, ?_, ?_, ?_⟩ <;> decide +kernel
theorem test_wit_DebugPort :
    Executing (does live 0x0904 [5, 0, 0, 0]) 0x0904 0 (cmd 0x0904 [5, 0, 0, 0]) ∧ lcyState live = 0 ∧ ¬(lcyState (aged 1#3) = 0 ∨ lcyState (aged 1#3) = 3)
    ∧ LogRoom (aged 1#3) ∧ (aged 1#3).dbg.isOpen = false ∧ (unlocked none).dbg.isOpen = true ∧ Executing (busy 0x0905) 0x0905 0 (cmd 0x0905 [])
    ∧ (unlocked (some 9)).dbg.expires = some 9 ∧ debugOpen (aged 1#3) = false ∧ debugOpen live = true ∧ awake live = true
    ∧ domDisabled live (weirDomain 0) = false ∧ domUp (raiseVote live (weirDomain 0) Client.debug) (weirDomain 0) = true
    ∧ (let s := { live with pwr := { live.pwr with dom := ⟨(List.range 12).map fun i => (i + 4, { domInit (i + 4) with st := .off })⟩ } }
       domDisabled s (weirDomain 0) = false ∧ domUp (raiseVote s (weirDomain 0) Client.debug) (weirDomain 0) = false)
    ∧ (let s := { live with pwr := { live.pwr with dom := ⟨(List.range 12).map fun i => (i + 4, { domInit (i + 4) with st := .disabled })⟩ } }
       domDisabled s (weirDomain 0) = true) := by
  unfold Executing LogRoom; refine ⟨?_, ?_, ?_, ?_, ?_, ?_, ?_, ?_, ?_, ?_, ?_, ?_, ?_, ?_, ?_⟩ <;> decide +kernel

/-! ## Twin -/

/-- One of a pair, of rank `r` and in state `st`, link 4 up, every weir open, changed by `f`. -/
def twinned (r : Nat) (st : TwinSt) (f : Twin → Twin := id) : State :=
  { live with
    img := { live.img with pair := { live.img.pair with rank := r } }
    links := ⟨[(4, { linkInit 4 with st := .up })]⟩
    weirs := { live.weirs with dflt := ⟨(List.range 8).map fun i => (i, 2)⟩ }
    twin := f { live.twin with st := st } }
/-- A device of rank 2 that forms a pair for PF0's mailbox, its HELLO sent. -/
def offering : State := sendHello (twinned 2 .single fun w => { w with formMb := some 0 })
/-- A partner's HELLO that agrees with it but for the rank. -/
def aHello (rank : Nat) : Hello := { helloOf offering with rank := rank, partnerUid := List.replicate 8 0, holdings := [] }

theorem test_wit_TwinCommands_hello :
    (disagreement offering (aHello 2)).isSome = true ∧ disagreement offering (aHello 1) = none ∧ twinOffers (twinned 2 .single fun w => { w with formMb := some 0 }) = true
    ∧ leadAtForm offering (aHello 1) = [] ∧ leadAtForm { offering with img := { offering.img with pair := { offering.img.pair with defaultLead := [3] } } } (aHello 1) = [3] := by
  have hp : ((helloOf offering).partnerUid.all fun b => decide (b = 0#8)) = true := by decide +kernel
  have hr : (helloOf offering).rank = 2 := by decide +kernel
  refine ⟨?_, ?_, by decide +kernel, by decide +kernel, by decide +kernel⟩
  · simp only [disagreement, aHello, hp, hr]; simp
  · simp only [disagreement, aHello, hp, hr]; simp

theorem test_wit_TwinCommands :
    Executing (busy 0x0A00) 0x0A00 0 (cmd 0x0A00 []) ∧ Executing (busy 0x0A01) 0x0A01 0 (cmd 0x0A01 []) ∧ live.img.pair.rank = 0
    ∧ (twinned 1 .formed).img.pair.rank ≠ 0 ∧ (twinned 1 .formed).twin.st = .formed ∧ (twinned 1 .single).twin.st ≠ .formed
    ∧ ((twinned 1 .single).link 4).st ≠ .outOfService ∧ (live.link 4).st = .outOfService ∧ (imgLink live 4).absent = false
    ∧ { live with twin := { live.twin with formMb := some 0 } }.twin.formMb = some 0 ∧ (live.link 4).st ≠ .up ∧ LogRoom live
    ∧ Executing (busy 0x0A02) 0x0A02 0 (cmd 0x0A02 []) ∧ (∀ st, (twinned 1 st).twin.st = st)
    ∧ Executing (does live 0x0A03 (List.replicate 16 0)) 0x0A03 0 (cmd 0x0A03 (List.replicate 16 0)) ∧ live.twin.pendingLead = none
    ∧ (twinned 2 .formed fun w => { w with pendingLead := some [] }).twin.pendingLead ≠ none
    ∧ (let lost := fun s : State => s.twin.lead.any fun t => decide (t ∉ mapLead s (field (List.replicate 16 0) 0 16))
          && (List.range 8).any fun h => decide ((s.sched h).st = .running ∧ (s.sched h).tenant = t)
       lost (twinned 2 .formed) = false
       ∧ lost { twinned 2 .formed (fun w => { w with lead := [0] }) with har := (withSched .running).har } = true)
    ∧ twinOffers live = false ∧ twinOffers (twinned 2 .single fun w => { w with formMb := some 0 }) = true := by
  unfold Executing LogRoom
  refine ⟨?_, ?_, ?_, ?_, ?_, ?_, ?_, ?_, ?_, ?_, ?_, ?_, ?_, fun _ => rfl, ?_, ?_, ?_, ?_, ?_, ?_⟩ <;> decide +kernel

theorem test_wit_TwinMirrorKeepsPace :
    paired (twinned 2 .formed) = true ∧ (twinned 2 .formed).twin.silence = false ∧ paired live = false
    ∧ (let u := fun (s : State) (seq : Nat) => runHolds (s.modTwin fun w => { w with ackedSeq := seq }) seq
       (u (twinned 2 .formed) 9).twin.formSeq = none
       ∧ (∀ st, (u (twinned 2 st fun w => { w with formSeq := some 9 }) 9).twin.formSeq = some 9 ∧ (u (twinned 2 st fun w => { w with formSeq := some 9 }) 9).twin.st = st))
    ∧ 3 ∉ (twinned 2 .formed).twin.lead ∧ (twinned 2 .formed fun w => { w with roleAsked := true }).twin.roleAsked = true ∧ (twinned 2 .formed).twin.roleAsked = false
    ∧ (twinned 1 .formed).img.pair.rank = 1 ∧ LogRoom (twinned 1 .formed) ∧ (twinned 2 .formed fun w => { w with lead := [3] }).twin.lead = [3]
    ∧ (let k := fun o : DWord => signed 64 (o - (twinned 1 .formed).twin.timeOffset).toNat
       (k ((twinned 1 .formed).twin.timeOffset + 1000)).natAbs ≤ 1000 ∧ 1000 < (k ((twinned 1 .formed).twin.timeOffset + 1001)).natAbs)
    ∧ (twinned 1 .formed fun w => { w with skewFlag := true }).twin.skewFlag = true := by
  unfold LogRoom; refine ⟨?_, ?_, ?_, ⟨?_, fun st => by cases st <;> decide +kernel⟩, ?_, ?_, ?_, ?_, ?_, ?_, ?_, ?_⟩ <;> decide +kernel

theorem test_wit_TwinHeartbeatsDecide :
    live.twin.st ≠ .formed ∧ (twinned 2 .formed).twin.st = .formed ∧ (twinned 2 .formed).twin.silence = false
    ∧ (let s := twinned 2 .formed
       weirAllows (s.modTwin fun w => { w with hbCount := w.hbCount + 1 }) (ownCell s).target 0 (ownCell s).space (ownCell s).addr false true = true
       ∧ weirAllows s (partnerCell s).target 0 (partnerCell s).space (partnerCell s).addr true false = true)
    ∧ (let s := { twinned 2 .formed with weirs := live.weirs }
       weirAllows (s.modTwin fun w => { w with hbCount := w.hbCount + 1 }) (ownCell s).target 0 (ownCell s).space (ownCell s).addr false true = false)
    ∧ LogRoom live ∧ live.twin.hbFailed = false ∧ (twinned 2 .formed fun w => { w with hbFailed := true }).twin.hbFailed = true
    ∧ (twinned 2 .formed fun w => { w with silence := true }).twin.silence = true ∧ live.twin.cellMoved = false ∧ live.twin.cellReadOk = false
    ∧ (twinned 2 .formed fun w => { w with cellReadOk := true }).twin.cellReadOk = true ∧ (twinned 2 .formed fun w => { w with cellMoved := true }).twin.cellMoved = true
    ∧ (twinned 2 .formed).img.pair.rank = 2 ∧ (twinned 1 .formed).img.pair.rank ≠ 2 ∧ live.twin.guard = false
    ∧ (twinned 2 .survivor fun w => { w with guard := true }).twin.guard = true := by
  unfold LogRoom; refine ⟨?_, ?_, ?_, ?_, ?_, ?_, ?_, ?_, ?_, ?_, ?_, ?_, ?_, ?_, ?_, ?_, ?_⟩ <;> decide +kernel

/-! ## Spares and wear -/

theorem test_wit_SpareCommandsAndWear :
    Executing (busy 0x0B00) 0x0B00 0 (cmd 0x0B00 []) ∧ Executing (does live 0x0B01 (List.replicate 32 0)) 0x0B01 0 (cmd 0x0B01 (List.replicate 32 0))
    ∧ (∀ k i a : Nat, Executing (does live 0x0B02 (bytesOfWords [k + 256 * i, a])) 0x0B02 0 (cmd 0x0B02 (bytesOfWords [k + 256 * i, a])))
    ∧ wordAt (bytesOfWords [1 + 256 * 3, 1]) 4 = 1 ∧ bits (wordAt (bytesOfWords [1 + 256 * 3, 1]) 0) 7 0 = 1 ∧ bits (wordAt (bytesOfWords [4 + 256 * 3, 1]) 0) 7 0 = 4
    ∧ panServes live 16 = false ∧ panServes live 3 = true ∧ bedSpare live (3 / 17) ≠ none
    ∧ 3 ∉ live.mram.mramRetired ∧ 3 ∈ { live with mram := { live.mram with mramRetired := [3] } }.mram.mramRetired ∧ 0 < mramLeft live
    ∧ mramLeft { live with mram := { live.mram with mramRetired := List.range 410 } } = 0 ∧ wordAt (bytesOfWords [1, 2]) 4 = 2 ∧ LogRoom live
    ∧ Executing (does live 0x0B03 [1, 0, 0, 0]) 0x0B03 0 (cmd 0x0B03 [1, 0, 0, 0]) ∧ live.tide.active = false ∧ min 1023 0 < mramLimit live
    ∧ (live.lane 3).st ≠ .active ∧ ({ live with lanes := ⟨[(3, { laneInit 3 with st := .active })]⟩ }.lane 3).st = .active
    ∧ (eyeHMin live ≤ 255 ∧ eyeVMin live ≤ 255) ∧ 3 ∉ live.spares.laneLow ∧ 0 < eyeHMin live ∧ 3 ∈ { live with spares := { live.spares with laneLow := [3] } }.spares.laneLow
    ∧ pllSwitched live true = false ∧ pllSwitched { live with mram := { live.mram with pllFb := true } } true = true
    ∧ (let s := { live with qs := { live.qs with pans := ⟨[(16, { st := 4, pos := 31 })]⟩ } }
       panServes s 3 = true ∧ bedSpare s (3 / 17) = none) := by
  unfold Executing LogRoom
  refine ⟨?_, ?_, fun _ _ _ => rfl, ?_, ?_, ?_, ?_, ?_, ?_, ?_, ?_, ?_, ?_, ?_, ?_, ?_, ?_, ?_, ?_, ?_, ?_, ?_, ?_, ?_, ?_, ?_, ?_⟩ <;> decide +kernel

/-! ## Rack ports -/

/-- The head of a personality table of kind P`k` whose lines 0, 1, … have the roles `rs`. -/
def kindTable (k : Nat) (rs : List Nat) : List Byte := bytesOfWords ([0x53504B49, 0x20200300 + k, 0x1000000, 0, 0, 0x134, 0, 0] ++ rs)
/-- Port A in service with a table of kind P`k`, changed by `f`. -/
def onBus (k : Nat) (f : Port → Port := id) (rs : List Nat := []) : State :=
  { live with ports := ⟨[(0, f { portInit 0 with st := .inService, loaded := some (kindTable k rs) })]⟩ }
/-- Port A with the access of `openOne`, changed by `g`, among its open ones. -/
def cycling (k : Nat) (g : OpenAcc → OpenAcc := id) (rs : List Nat := []) : State := onBus k (fun q => { q with opens := [g openOne] }) rs

theorem test_wit_PortCyclesRun :
    ((onBus 3).port 0).st = .inService ∧ ((onBus 3).port 0).rackReset = false ∧ ((onBus 3).port 0).watched = [] ∧ ((onBus 3).port 0).held = none
    ∧ cycleOpen ((onBus 3).port 0) = false ∧ domUp (onBus 3) 12 = true ∧ (onBus 3).tide.active = false ∧ nextStop ((onBus 3).port 0) = none
    ∧ (let s := onBus 3 fun q => { q with waiting := [anAcc 0] }
       nextStop (s.port 0) = some 1 ∧ hasBus s 0 = true)
    ∧ (let s := onBus 1 fun q => { q with waiting := [anAcc 0] }
       nextStop (s.port 0) = some 1 ∧ hasBus s 0 = false ∧ (s.port 0).requesting = false)
    ∧ ((onBus 1 fun q => { q with requesting := true }).port 0).requesting = true
    ∧ running live 0 = none ∧ running (cycling 3) 0 = some openOne ∧ openOne.acc.kind = .write
    ∧ running (cycling 3 fun o => { o with acc := { anAcc 0 with kind := .read } }) 0 = some { openOne with acc := { anAcc 0 with kind := .read } }
    ∧ portKind (cycling 3 id [0x80, 0x85]) 0 = 3 ∧ (roleLine (portTable (cycling 3 id [0x80, 0x85]) 0) 0x85).isSome = true ∧ portKind (cycling 1) 0 ≠ 3
    ∧ (live.port 0).opens.find? (fun o => o.delaying) = none
    ∧ ((cycling 3 fun o => { o with delaying := true }).port 0).opens.find? (fun o => o.delaying) = some { openOne with delaying := true }
    ∧ 255 ≤ ({ openOne with retries := 255 } : OpenAcc).retries ∧ openOne.retries < 1 := by
  refine ⟨?_, ?_, ?_, ?_, ?_, ?_, ?_, ?_, ?_, ?_, ?_, ?_, ?_, ?_, ?_, ?_, ?_, ?_, ?_, ?_, ?_, ?_⟩ <;> decide +kernel

theorem test_wit_PortsShareTheRackBus :
    (live.port 0).requesting = false ∧ ((onBus 1 fun q => { q with requesting := true }).port 0).requesting = true ∧ (portIn .contained |>.port 0).st = .contained
    ∧ (live.port 0).owned = false ∧ ((onBus 1 fun q => { q with owned := true }).port 0).owned = true
    ∧ mustRelease (onBus 1 fun q => { q with owned := true }) 0 true = true ∧ mustRelease (onBus 2 fun q => { q with owned := true }) 0 false = false
    ∧ ((onBus 1).port 0).st = .inService ∧ arbServes (onBus 1 fun q => { q with arbCtl := 0x10#32 }) 0 3 = true
    ∧ arbServes (onBus 1 fun q => { q with arbCtl := 0x10#32 }) 0 2 = false ∧ (live.port 0).grant = none
    ∧ ((onBus 1 fun q => { q with grant := some 2 }).port 0).grant = some 2 ∧ LogRoom live
    ∧ (let s := fun g => onBus 1 fun q => { q with arbCtl := 0x50#32, opens := g }
       isSysctl (s []) 0 = true ∧ bit (arbCtl (s []) 0) 6 = true ∧ running (s []) 0 = none ∧ running (s [openOne]) 0 = some openOne)
    ∧ isSysctl live 0 = false ∧ (live.port 0).sysreset = false ∧ ((onBus 1 fun q => { q with sysreset := true }).port 0).sysreset = true
    ∧ (live.port 0).rackReset = false ∧ ((onBus 1 fun q => { q with rackReset := true }).port 0).rackReset = true ∧ monitorRuns (onBus 1) 0 = true
    ∧ monitorRuns live 0 = false ∧ portKind (onBus 2) 0 = 2 ∧ portKind (onBus 1) 0 ≠ 2 := by
  unfold LogRoom
  refine ⟨?_, ?_, ?_, ?_, ?_, ?_, ?_, ?_, ?_, ?_, ?_, ?_, ?_, ?_, ?_, ?_, ?_, ?_, ?_, ?_, ?_, ?_, ?_⟩ <;> decide +kernel

theorem test_wit_PortFaultsContain :
    monitorRuns (onBus 1 id [5]) 0 = true ∧ isWatched (onBus 1 id [5]) 0 0 = true ∧ cycleOpen ((onBus 1 id [5]).port 0) = false ∧ monitorRuns live 0 = false
    ∧ isWatched (onBus 1 id [4]) 0 0 = false ∧ lineRole (portTable (onBus 1 id [0, 0x26]) 0) 1 = sysfailRole (onBus 1 id [0, 0x26]) 0
    ∧ lineRole (portTable (onBus 1 id [0, 0x27]) 0) 1 = 0x27 ∧ ((onBus 1 fun q => { q with requesting := true }).port 0).requesting = true
    ∧ ((onBus 1).port 0).st = .inService ∧ portKind (onBus 1) 0 ≠ 2 ∧ ((onBus 1).port 0).sysfail = false ∧ ((onBus 1).port 0).acfail = false ∧ LogRoom (onBus 1)
    ∧ portKind (onBus 1) 0 = 1 ∧ hasBus (onBus 1 fun q => { q with owned := true }) 0 = true ∧ hasBus (onBus 1) 0 = false
    ∧ ((onBus 1).reg (paReg 0 0x10)).getLsbD 0 = false ∧ (((onBus 1).setReg (paReg 0 0x10) 1#32).reg (paReg 0 0x10)).getLsbD 0 = true := by
  unfold LogRoom
  refine ⟨?_, ?_, ?_, ?_, ?_, ?_, ?_, ?_, ?_, ?_, ?_, ?_, ?_, ?_, ?_, ?_, ?_, ?_⟩ <;> decide +kernel

/-- Level 2 of port A's rack interrupts routed to PF0's vector 9. -/
def routedIrq (k : Nat) (f : Port → Port := id) : State := (onBus k f).setReg (irqhReg 0 2 0) 0x01000901#32
/-- The port's own interrupt of level 2 raised. -/
def ownIrq (k : Nat) : State := ((onBus k).setReg (paReg 0 0x180) 2#32).setReg (paReg 0 0x18C) 1#32

theorem test_wit_RackInterrupts :
    irqEligible live 0 2 = false ∧ irqEligible (routedIrq 1) 0 2 = true ∧ irqEligible (routedIrq 3) 0 2 = true ∧ 2 ∉ ((routedIrq 1).port 0).irqRetry
    ∧ (let s := routedIrq 1 fun q => { q with irqRetry := [2] }
       irqEligible s 0 2 = true ∧ 2 ∈ (s.port 0).irqRetry ∧ portKind s 0 = 1)
    ∧ portKind (routedIrq 3) 0 ≠ 1 ∧ (let s := live.setReg (irqhReg 0 2 0) 0x00000301#32
       routeTenant s 0 2 = tenantOf 4 ∧ (s.reg (irqhReg 0 2 2)).getLsbD 1 = false ∧ routeTenant s 0 2 ≠ tenantOf 5)
    ∧ irqiOn (onBus 1) 0 2 = false ∧ irqiOn (ownIrq 1) 0 2 = true ∧ ((ownIrq 1).port 0).st = .inService ∧ ((ownIrq 1).port 0).rackReset = false
    ∧ (onBus 1).reg (paReg 0 0x18C) = 0 ∧ (ownIrq 3).reg (paReg 0 0x18C) ≠ 0 ∧ portKind (ownIrq 3) 0 ≠ 1 ∧ portKind (ownIrq 1) 0 = 1 := by
  refine ⟨?_, ?_, ?_, ?_, ?_, ?_, ?_, ?_, ?_, ?_, ?_, ?_, ?_, ?_, ?_⟩ <;> decide +kernel

/-! ## Harvest engine, lanes, link layer -/

/-- An access that a target has answered. -/
def anEnd : AccEnd := { cs := Cs.done, addr := 0, data := [some 1#8], beat := 0 }
/-- A cycle of schedule 2 with nothing left to issue. -/
def aCycle : HarCycle :=
  { start := 0, todo := [], issued := [], fails := [], changed := [], trans := 0, failTrans := false, held64 := none, out := [], outLow := 0, ptm := none, floodApplied := false, floodCs := 0, outSeq := 0, chgIrq := false, overrun := false, lastRet := 0 }
/-- Schedule 2 running with flood, changed by `f`; function 0 with reads for its selector (tag 1) and half (tag 2). -/
def harvesting (f : Sched → Sched) : State :=
  { live with har := { live.har with sched := ⟨[(2, f { schedInit 2 with st := .running, hasFlood := true, period := 1000 })]⟩ } }.setFn 0 { live.fn 0 with tags := [(1, .selector 2), (2, .half 2)] }
/-- A selector read on its way. -/
def aFlood : FloodRead := { stage := 0, half := 0, seq := 0, bytes := [], base := 0, cs := 0 }

theorem test_wit_HarvestEngineRuns :
    (live.sched 2).st ≠ .running ∧ ((harvesting id).sched 2).st = .running ∧ schedHeld (harvesting id) 2 = false ∧ ((harvesting id).sched 2).cycle = none
    ∧ ((harvesting fun x => { x with cycle := some aCycle, missRun := true }).sched 2).cycle = some aCycle
    ∧ ((harvesting fun x => { x with missRun := true }).sched 2).missRun = true ∧ Tbl.get (fun _ => none) live.har.back 3 = none
    ∧ Tbl.get (fun _ => none) { live with har := { live.har with back := ⟨[(3, some (2, false, 0, anEnd))]⟩ } }.har.back 3 = some (2, false, 0, anEnd)
    ∧ aCycle.overrun = false ∧ { aCycle with todo := [(1, false, 0)] }.todo ≠ [] ∧ (∀ k, k < 6 → floodHeld (harvesting id) k = none) ∧ ((harvesting id).sched 2).hasFlood = true
    ∧ ((harvesting id).sched 2).flood = none ∧ ((harvesting fun x => { x with flood := some aFlood }).sched 2).flood = some aFlood
    ∧ tagOf ((harvesting id).fn (fnOf ((harvesting id).sched 2).tenant)) (.selector 2) = some 1
    ∧ tagOf ((harvesting id).fn (fnOf ((harvesting id).sched 2).tenant)) (.half 2) = some 2
    ∧ (let s := harvesting fun x => { x with flood := some aFlood }
       ∃ n : Nat, (List.replicate n 0#8).length = mrrsPiece s 0 (0 + 0 + 0 + 0) ((floodSpan s 2).2 - 0 - 0))
    ∧ floodHeld { live with har := { live.har with floodWait := ⟨[(3, some (2, 0, 9))]⟩ } } 3 = some (2, 0, 9) ∧ floodHeld live 3 = none := by
  refine ⟨?_, ?_, ?_, ?_, ?_, ?_, ?_, ?_, ?_, ?_, ?_, ?_, ?_, ?_, ?_, ?_, ⟨_, List.length_replicate⟩, ?_, ?_⟩ <;> decide +kernel

/-- Link 2 in lane state `st` with lanes in state `ln`, each changed by `f` and `g`. -/
def training (st : LaneSt) (ln : LaneSt) (f : Link → Link := id) (g : Lane → Lane := id) : State :=
  { live with
    links := ⟨[(2, f { linkInit 2 with st := .waiting, lst := st })]⟩
    lanes := ⟨(List.range 5).map fun p => (laneNo 2 p, g { laneInit 0 with st := ln })⟩ }
/-- CAPS of a peer that acknowledges. -/
def aCaps : CapsBlock := { phys := 0, ack := true, rates := 7, loopOk := true, locked := 31, sender := 1 }

theorem test_wit_LanesComeUp :
    (live.link 2).lst ≠ .detect ∧ ((training .detect .detect).link 2).lst = .detect ∧ domUp (training .detect .detect) (linkDomain 2) = true
    ∧ (∀ p, p < 5 → ((training .detect .detect id fun x => { x with detects := 1 }).lane (laneNo 2 p)).st = .detect
        ∧ ((training .detect .detect id fun x => { x with detects := 1 }).lane (laneNo 2 p)).detects = 1)
    ∧ ((training .detect .detect fun l => { l with noPeerLogged := true }).link 2).noPeerLogged = true ∧ ((training .detect .detect).link 2).noPeerLogged = false
    ∧ LogRoom (training .detect .detect) ∧ laneLink 12 = 2 ∧ ((training .train .train).lane 12).st = .train ∧ bringingUp ((training .train .train).link 2) = true
    ∧ ((training .train .bitLock).lane 12).st = .bitLock ∧ bringingUp ((training .train .bitLock).link (laneLink 12)) = true
    ∧ ((training .train .bitLock).lane 12).peerLocked = false ∧ ((training .train .bitLock id fun x => { x with peerLocked := true }).lane 12).peerLocked = true
    ∧ ((training .active .active).lane 12).st = .active ∧ (live.lane 12).st ≠ .active ∧ ((training .active .spare).lane 12).st = .spare
    ∧ (lanesIn (training .caps .caps) 2 fun st => decide (st = .caps)).head?.bind (capsOf [(0, aCaps)]) = some aCaps
    ∧ ((training .train .train).link 2).lst = .train ∧ 0 < ((training .train .train fun l => { l with rate := 1 }).link 2).rate
    ∧ ((training .train .train).link 2).rate = 0 ∧ ((training .train .bitLock fun l => { l with lst := .train }).lane (laneNo 2 0)).st = .bitLock
    ∧ (let s := (training .train .train).modLane (laneNo 2 0) fun x => { x with st := .bitLock }
       (s.lane (laneNo 2 0)).st = .bitLock ∧ (s.lane (laneNo 2 1)).st = .train ∧ (s.link 2).rate = 0 ∧ (s.link 2).lst = .train)
    ∧ receiving (live.lane 12) = false ∧ receiving ((training .active .active).lane 12) = true ∧ ((training .active .active).lane 12).frozen = false
    ∧ ((training .active .active id fun x => { x with frozen := true }).lane 12).frozen = true
    ∧ 0 < densMin (training .active .active) (laneLink 12) ∧ densMin (training .active .active) (laneLink 12) ≤ 1024 := by
  unfold LogRoom
  refine ⟨?_, ?_, ?_, ?_, ?_, ?_, ?_, ?_, ?_, ?_, ?_, ?_, ?_, ?_, ?_, ?_, ?_, ?_, ?_, ?_, ?_, ?_, ?_, ?_, ?_, ?_, ?_, ?_, ?_⟩ <;> decide +kernel

/-- Link 2 up on lanes 0 to 3 with lane 4 spare, changed by `f`. -/
def carrying (f : Link → Link := id) : State := training .active .active fun l => f { l with st := .up, map := [0, 1, 2, 3], spare := 4, offer := 32 }

theorem test_wit_LanesAreSwappedAndIdled :
    ((carrying.link (laneLink 12)).lst = .active ∧ (carrying.link (laneLink 12)).eiIdle = false ∧ ((carrying.lane 12).st = .active ∨ (carrying.lane 12).st = .spare))
    ∧ (carrying.link 2).swap = none ∧ (carrying.link 2).spare ≠ 7 ∧ 3 < (carrying.link 2).map.length
    ∧ (∀ a, ((carrying fun l => { l with swap := some (3, 9, a) }).link 2).swap = some (3, 9, a))
    ∧ ((carrying fun l => { l with narrowing := true }).link 2).narrowing = true ∧ (carrying.link 2).st ≠ .held ∧ linkServes carrying 2 = true
    ∧ ((training .active .recover).lane 12).st = .recover ∧ LogRoom (training .active .recover) ∧ ((training .active .recover).link 2).spare = 7
    ∧ (recentLosses (training .active .recover) ((training .active .recover).lane 12)).length < 3
    ∧ (carrying.link 2).st = .up ∧ bit (carrying.link 2).offer 5 = true ∧ (carrying.setReg (uliReg 2 0x4C) 1#32).reg (uliReg 2 0x4C) ≠ 0
    ∧ (carrying.link 2).eiAsked = false ∧ linkQuiet (carrying.link 2) = true ∧ ((training .ei .ei fun l => { l with eiIdle := true }).link 2).eiIdle = true
    ∧ (lanesIn (training .train .train fun l => { l with narrowing := true }) 2 fun st => decide (st = .train ∨ st = .bitLock ∨ st = .blockLock ∨ st = .caps)).filter (fun p => (31#5).getLsbD p) ≠ []
    ∧ (∃ p ∈ lanesIn (training .ei .ei fun l => { l with eiIdle := true }) 2 fun st => decide (st = .ei), (31#5).getLsbD p = true)
    ∧ (carrying.link 2).lst = .active ∧ ((carrying.modLane (laneNo 2 1) fun x => { x with verifying := true }).lane (laneNo 2 1)).verifying = true
    ∧ (∀ p, p < 5 → (carrying.lane (laneNo 2 p)).verifying = false) ∧ (live.link 2).st = .outOfService ∧ (live.link 2).loopMode = 0
    ∧ ((live.setReg (linkReg 2 8) 0x10#32).reg (linkReg 2 8)).getLsbD 4 = true ∧ ((withLink .outOfService fun l => { l with farLoop := true }).link 2).farLoop = true := by
  unfold LogRoom
  refine ⟨?_, ?_, ?_, ?_, ?_, ?_, ?_, ?_, ?_, ?_, ?_, ?_, ?_, ?_, ?_, ?_, ?_, ?_, ?_, ⟨0, ?_, ?_⟩, ?_, ?_, ?_, ?_, ?_, ?_, ?_⟩ <;> decide +kernel

/-- A message of `mtype` received on link 2, and the request of tag 5 that it may answer. -/
def received (mtype : Nat) (req : Bool) (kind : AccKind := .read) : State :=
  carrying fun l => { l with rxMsgs := [{ mtype := mtype, tag := 5, status := 0, beat := 0, addr := 0, data := [1] }], reqs := if req then [{ tag := 5, acc := { anAcc 4 with kind := kind }, off := 0, len := 1, deadline := 9, res := none }] else [] }
/-- A message waiting to be sent. -/
def aTx (req : Option Acc) : TxMsg := { cls := 2, bytes := List.replicate 32 0, req := req, off := 0 }

theorem test_wit_UlilumSessionsAndMessages :
    linkServes carrying 2 = true ∧ (carrying.link 2).lst = .active ∧ linkServes live 2 = false ∧ (carrying.link 2).st = .up
    ∧ nextTx (carrying.link 2) = none
    ∧ (∀ m ∈ [aTx none, aTx (some (anAcc 4))], let l := ((carrying fun l => { l with txQ := [m], peerReplayCap := 100, limits := [9, 9, 9, 9], used := [0, 0, 0, 0] }).link 2)
        nextTx l = some 0 ∧ l.txQ[0]? = some m)
    ∧ takeRx carrying 2 (fun t => decide (t = 0x10)) = none ∧ takeRx carrying 2 (fun t => decide (1 ≤ t ∧ t ≤ 3)) = none
    ∧ (∀ x ∈ [(0x10, false), (0x10, true), (0x11, true), (0x20, false), (0x21, false), (2, false)],
        ((takeRx (received x.1 x.2) 2 (fun t => decide (t = x.1))).map fun r => (r.1.data.length, (reqOf r.2 2 r.1.tag).isSome)) = some (1, x.2))
    ∧ (takeRx (received 2 false) 2 (fun t => decide (1 ≤ t ∧ t ≤ 3))).isSome = true
    ∧ bit (carrying.reg (uliReg 2 0x54)).toNat 0 = false ∧ reqOf carrying 2 5 = none ∧ (reqOf (received 0x11 true .write) 2 5).isSome = true
    ∧ ((withLink .held).link 2).st = .held ∧ (live.link 2).st ≠ .up ∧ (carrying.link 2).eiIdle = false
    ∧ ((carrying fun l => { l with unacked := 3 }).link 2).unacked = 3 ∧ (carrying.link 2).replays < 4 ∧ 4 ≤ ((carrying fun l => { l with replays := 4 }).link 2).replays
    ∧ ((carrying fun l => { l with ackOwed := true }).link 2).ackOwed = true := by
  refine ⟨?_, ?_, ?_, ?_, ?_, ?_, ?_, ?_, ?_, ?_, ?_, ?_, ?_, ?_, ?_, ?_, ?_, ?_, ?_, ?_⟩ <;> decide +kernel

/-! ## Families of statements over many commands -/

theorem test_wit_TenantsReadTheirOwnStatus :
    2 ≤ (4 : Fn).val ∧ tenantOf (4 : Fn).val = (3 : Tenant).val ∧ privOf live 3 = false
    ∧ { live with cont := { live.cont with tenants := ⟨[(3, 1)]⟩ } }.tenantCause 3 ≠ 0 := by decide +kernel

/-- Weir 1 as the worked example of chapter 18 sets it: region 10 over the crate for tenants 0, 2 and 7, region 3 over the relay board, read by 0 and 2, written by 2. -/
def relayWeir : State :=
  { live with weirs := { live.weirs with rgn := ⟨[(1024 + 16 * 3 + 1, 0x103B3903), (1024 + 16 * 3 + 2, 0x00E40000), (1024 + 16 * 3 + 4, 5), (1024 + 16 * 3 + 6, 4),
      (1024 + 16 * 10 + 1, 0x14003901), (1024 + 16 * 10 + 2, 0x00E00000), (1024 + 16 * 10 + 4, 0x85), (1024 + 16 * 10 + 6, 0x85)]⟩ } }

theorem test_wit_WeirsDecide :
    (0x39 : Nat) < 64 ∧ rgnMatch relayWeir 1 3 0x39 0x00E40010 = true ∧ (∀ q, q < 3 → rgnMatch relayWeir 1 q 0x39 0x00E40010 = false)
    ∧ (∀ r, r < 64 → rgnMatch live 1 r 0x39 0 = false) ∧ weirDefault live 1 = 0
    ∧ weirDefault { live with weirs := { live.weirs with dflt := ⟨[(1, 1)]⟩ } } 1 = 1 ∧ weirDefault { live with weirs := { live.weirs with dflt := ⟨[(1, 2)]⟩ } } 1 = 2 := by
  refine ⟨?_, ?_, ?_, ?_, ?_, ?_, ?_⟩ <;> decide +kernel
theorem test_wit_ResetHasALegalLifeCycle : State.reset.mram.fuses = 0#3 := rfl
theorem test_wit_LifeCycleOnlyGoesForward :
    (aged 3#3).mram.fuses.getLsbD 1 = true ∧ live.pending = [] ∧ LegalLifeCycle (aged 3#3) ∧ step (aged 3#3) = .next (idleTick (aged 3#3)) := by
  unfold LegalLifeCycle; refine ⟨?_, ?_, ?_, rfl⟩ <;> decide +kernel
theorem test_wit_NothingErasesTheLog : live.log.seq + 600 < 2 ^ 48 ∧ step live = .next (idleTick live) := ⟨by decide +kernel, rfl⟩

/-! ## Ill-formed commands are refused -/

theorem test_illformed_hostAccess :
    (Instr.regAccessIgnored 0 0 0 true).wellFormed = false ∧ (Instr.regAccessIgnored 0 (2 ^ 27) 4 true).wellFormed = false
    ∧ (Instr.hostPostedWrite 0 0 [1] [true, true]).wellFormed = false ∧ (Instr.hostPostedWrite 0 0 [] []).wellFormed = false
    ∧ (Instr.hostRead 0 7 0 []).wellFormed = false ∧ (Instr.hostReadTimeout 0 1024).wellFormed = false ∧ (Instr.lateCompletion 0 1024).wellFormed = false
    ∧ (Instr.tagQuarantineExpire 0 1024).wellFormed = false := by decide +kernel
theorem test_illformed_rackMaster :
    (Instr.rackMasterRead 0 0 0x39 3 [true, true, true] false).wellFormed = false ∧ (Instr.rackMasterRead 0 0 0x39 2 [false, false] false).wellFormed = false
    ∧ (Instr.rackMasterRead 0 0 64 1 [true] false).wellFormed = false ∧ (Instr.dtRetry 0 0 0x39 2 [true]).wellFormed = false
    ∧ (Instr.rackMasterReadCompletion 0 9 .ur).wellFormed = false ∧ (Instr.delayedDiscard 0 8).wellFormed = false
    ∧ (Instr.rackMasterWrite 0 0 0x39 [] []).wellFormed = false ∧ (Instr.rackMasterWrite 0 0 64 [1] [true]).wellFormed = false
    ∧ (Instr.rackMasterRmw 0 0 0x39 .ur [1, 2, 3]).wellFormed = false := by decide +kernel
theorem test_illformed_link :
    (Instr.loopDurationExpire 0 [0, 0, 0, 0] 0 0).wellFormed = false ∧ (Instr.flitGroupReceive 0 [⟨[], []⟩]).wellFormed = false
    ∧ (Instr.flitGroupReceive 0 [⟨List.replicate 320 0, List.replicate 16 1024⟩]).wellFormed = false
    ∧ (Instr.sessionInitReceive 0 ⟨true, false, 1, 256, 0, 1, [0, 0, 0, 0], 256, 16, 0⟩).wellFormed = false
    ∧ (Instr.sessionInitReceive 0 ⟨true, false, 1, 255, 0, 1, [0, 0, 0, 4096], 256, 16, 0⟩).wellFormed = false
    ∧ (Instr.uliReqTimeoutExpire 0 4096).wellFormed = false ∧ (Instr.uliQuarantineExpire 0 4096).wellFormed = false
    ∧ (Instr.twinHelloReceive ⟨[], 1, [], [], 0, true, 0, [], 0⟩).wellFormed = false := by decide +kernel
theorem test_illformed_others :
    (Instr.tideSamplePeriod (List.replicate 65 .readFail) false).wellFormed = false ∧ (Instr.debugAccess 0 0 64 none).wellFormed = false
    ∧ (Instr.liqExpire 16384).wellFormed = false := by decide +kernel
theorem test_wellformed :
    (Instr.rackMasterRead 0 0 0x39 2 [true, false] false).wellFormed = true ∧ (Instr.liqExpire 16383).wellFormed = true
    ∧ (Instr.flitGroupReceive 0 [⟨List.replicate 320 0, List.replicate 16 1023⟩]).wellFormed = true ∧ Instr.nop.wellFormed = true := by decide +kernel

/-! ## The worked examples of the spec -/

/-- The half entry and the full entry of chapter 11's walk of queue 0x155. -/
theorem test_queueEntry_bytes :
    entryBytes 0x2A 0 (10000 - 6144) 0x0C11 3 0x155 = [0x2A, 0, 0, 0, 0x10, 0x0F, 0, 0, 0x11, 0x0C, 0, 0, 3, 0, 0x55, 1]
    ∧ entryBytes 0x2A 0 0 0x0C11 1 0x155 = [0x2A, 0, 0, 0, 0, 0, 0, 0, 0x11, 0x0C, 0, 0, 1, 0, 0x55, 1] := by decide +kernel
/-- Chapter 14's fence over one failed write. -/
theorem test_fence_response :
    fenceBytes { tallyInit 6 with kept := [{ ticket := 0x302, cs := 0x10, addr := 0x00D10010, target := 0, space := 0x39, flood := false }] } 0x304 0x302 0x10 0x00D10010 false
      = [2, 3, 0, 0, 0x10, 0, 1, 0, 0x10, 0, 0xD1, 0, 0, 0, 0, 0] := by decide +kernel
/-- Chapter 15's offset-binary input: 0x9A30 reads 2,046 mV. -/
theorem test_offsetBinary_point : decodeField 2 12 (bits 0x9A30 15 4) = some 419 ∧ scaleFixed 419 320000 0 16 = 2046 := by decide +kernel
/-- Chapter 9's swap16: the host bytes 44 33 22 11 reach the bus as 33 44 11 22. -/
theorem test_swap16_bytes : ((List.range 4).map fun i => nth [0x44, 0x33, 0x22, 0x11] (swapAddr 1 (0x204 + i) - 0x204) 0) = [0x33, 0x44, 0x11, 0x22] := by decide +kernel
/-- Chapter 18's relay board: tenant 7 may not write it, tenant 2 may, tenant 7 passes beside it, and the mask lets the supervisory code in and the BLT code out. -/
theorem test_weir_relay :
    weirAllows relayWeir 1 7 0x39 0x00E40010 false true = false ∧ weirAllows relayWeir 1 2 0x39 0x00E40010 false true = true
    ∧ weirAllows relayWeir 1 7 0x39 0x00E80000 false true = true ∧ rgnMatch relayWeir 1 3 0x3D 0x00E40010 = true
    ∧ rgnMatch relayWeir 1 3 0x3B 0x00E40010 = false := by
  refine ⟨?_, ?_, ?_, ?_, ?_⟩ <;> decide +kernel

/-- Port A with chapter 12's slave region 2. -/
def messageBoard : State :=
  { live with ports := ⟨[(0, { portInit 0 with st := .inService, slv := ⟨[(17, 0x10000707), (18, 0x3D09), (19, 0x80000000), (21, 0x3C000000), (22, 7)]⟩ })]⟩ }
theorem test_slaveRegion_message :
    slvMatch messageBoard 0 0x80001200 0x0B = some 2 ∧ slvMatch messageBoard 0 0x80001200 0x0D = none ∧ slvMatch messageBoard 0 0x80010000 0x09 = none := by
  refine ⟨?_, ?_, ?_⟩ <;> decide +kernel

/-- Region 5 of port A as chapter 13's aging board has it once it is warm, its timeout at `t`: maxima of 3,100 ns. -/
def agingBoard (t : Nat) : State :=
  live.modProf (profKey 0 5) fun _ =>
    { profInit 0 with w3 := 0x00191004#32, w4 := w32 (100 + 200 * 65536), w5 := 2, t := t, subs := List.replicate 16 { min := 1120, sum := 1520, max := 2480, beat := 0 } }
theorem test_timeout_falls_by_halves :
    [100, 50, 25, 13, 7].map (fun t => ((adapt (agingBoard t) 0 5).prof (profKey 0 5)).t) = [50, 25, 13, 7, 7] := by decide +kernel
/-- Chapter 16's lane lost on UL2: after the switch logical lane 2 runs on physical index 4. -/
theorem test_swap_of_lane_two :
    (swapSwitchEff (carrying fun l => { l with swap := some (2, 0, true) }) 2).link 2 = { (carrying.link 2) with map := [0, 1, 4, 3], spare := 7, swap := none } := by decide +kernel

/-! ## Single steps -/

theorem test_step_idle : step State.reset = .next (idleTick State.reset) := rfl
/-- R59: SMB_READ_TEMP answers the junction temperature and changes nothing. -/
theorem test_smbReadTemp : exec .smbReadTemp live = .next (live.emit (.smbWord live.mon.temp)) := rfl
/-- R92: a vote for a domain that is OFF wakes it within 20 µs. -/
theorem test_vote_wakes : ((raiseVote (withDom .off []) 5 3).dom 5).st = .waking ∧ ((raiseVote (withDom .off []) 5 3).dom 5).until_ = 20000 := by decide +kernel
/-- R362: a tenant's first ticket is 1. -/
theorem test_first_ticket : (issueTicket live 3 0 0x39 0 1 false).1 = 1 := by decide +kernel
/-- R136: LCY_ADVANCE in PROVISIONED leaves the device in FIELD. -/
theorem test_lcyAdvance :
    (match exec .lcyAdvance (runs (aged 1#3) (cmd 0x0902 [])) with | .next t => lcyState t | _ => 9) = 2 := by decide +kernel

end Sys2Proof.Tests
end

section
/-! Register accesses of BAR0: the islands that answer at once, what a read latches and clears, what a clamped write stores (R4-R6, R59, R526, R534). -/

namespace Sys2Proof.Machine

/-! ## The latched high words -/

@[simp] theorem State.latched_setLatch_same (s : State) (fn off : Nat) (v : Option Word) : (s.setLatch fn off v).latched fn off = v :=
  Tbl.get_set_same _ _ _ _

/-! ## An island that is ON answers at once (R92, R526) -/

theorem refreshDom_of_on {s : State} {d : Nat} (h : (s.dom d).st = .on) : refreshDom s d = s := by
  simp [refreshDom, h]

theorem domDisabled_of_on {s : State} {d : Nat} (h : (s.dom d).st = .on) : domDisabled s d = false := by
  simp [domDisabled, h]

theorem domUp_of_on {s : State} {d : Nat} (h : (s.dom d).st = .on) : domUp s d = true := by
  simp [domUp, h]

/-- A 32-bit access goes straight to its register: no votable island is in the way of PF0, and none is asked for another function (R526). -/
theorem onIsland_of_direct {s : State} {fn off : Nat} (hd : fn = 0 → Pf0Direct s off) (h : HeldAcc) (go absent : State → State) :
    onIsland s fn off false h go absent = go s := by
  unfold onIsland
  split
  · rfl
  · next d hdom =>
    have hfn : fn = 0 := by
      by_contra hne
      simp [hne] at hdom
    obtain ⟨-, -, -, hon⟩ := hd hfn
    have hst : (s.dom d).st = .on := hon d (by simpa [hfn] using hdom)
    simp [refreshDom_of_on hst, domDisabled_of_on hst, domUp_of_on hst]

theorem accessOk_word {off : Nat} (h : off % 4 = 0) : accessOk off 4 = true := by
  simp [accessOk, h]

theorem not_hidden_of_direct {s : State} {fn off : Nat} (hd : fn = 0 → Pf0Direct s off) :
    ¬(s.boot.recovery = true ∧ fn = 0 ∧ (!answersInRecovery off) = true) := by
  rintro ⟨hrec, hfn, -⟩
  obtain ⟨-, hno, -, -⟩ := hd hfn
  exact absurd hrec (by simp [hno])

theorem regRead_of_direct {s : State} {fn off : Nat} (ha : fnAnswers s fn = true) (hd : fn = 0 → Pf0Direct s off)
    (hal : off % 4 = 0) : regRead s fn off false = readNow s fn off false := by
  unfold regRead
  rw [if_neg (not_hidden_of_direct hd), onIsland_of_direct hd]
  simp [ha, accessOk_word hal]

theorem regWriteBar0_of_direct {s : State} {fn off : Nat} (ha : fnAnswers s fn = true) (hd : fn = 0 → Pf0Direct s off)
    (hal : off % 4 = 0) (v : DWord) : regWriteBar0 s fn off false v = writeWord s fn off (v.truncate 32) := by
  unfold regWriteBar0
  rw [if_neg (not_hidden_of_direct hd), onIsland_of_direct hd]
  simp [ha, accessOk_word hal, writeNow]

/-! ## Reads (R5, R6) -/

theorem clearRc_of_key {s : State} {fn off k : Nat} (h : rcKey fn off = some k) : clearRc s fn off = s.setReg k 0 := by
  simp [clearRc, h]

/-- Clearing what a read returned changes the registers alone. -/
theorem clearRc_only (s : State) (fn off : Nat) : clearRc s fn off = { s with regs := (clearRc s fn off).regs } := by
  unfold clearRc
  split <;> rfl

@[simp] theorem clearRc_latched (s : State) (fn off i j : Nat) : (clearRc s fn off).latched i j = s.latched i j := by
  rw [clearRc_only]; rfl

@[simp] theorem clearRc_out (s : State) (fn off : Nat) : (clearRc s fn off).out = s.out := by
  rw [clearRc_only]

theorem readWord_latched {s : State} {fn off : Nat} {v : Word} (h : s.latched fn off = some v) :
    readWord s fn off = (v.toNat, s.setLatch fn off none) := by
  simp [readWord, h]

theorem readWord_unlatched {s : State} {fn off : Nat} (h : s.latched fn off = none) :
    readWord s fn off = (regWord s fn off,
      if isPairLow fn off then s.setLatch fn (off + 4) (some (w32 (regWord s fn (off + 4)))) else s) := by
  simp [readWord, h]

/-- Reading a word changes the latches alone. -/
theorem readWord_only (s : State) (fn off : Nat) : (readWord s fn off).2 = { s with latch := (readWord s fn off).2.latch } := by
  unfold readWord
  split
  · rfl
  · dsimp only
    split <;> rfl

theorem readNow_word (s : State) (fn off : Nat) :
    readNow s fn off false
      = (clearRc (readWord s fn off).2 fn off).emit (.regCpl fn off (BitVec.ofNat 64 (readWord s fn off).1)) := rfl

theorem readNow_out (s : State) (fn off : Nat) :
    (readNow s fn off false).out = .regCpl fn off (BitVec.ofNat 64 (readWord s fn off).1) :: s.out := by
  rw [readNow_word, State.emit_out, clearRc_out, readWord_only]

theorem readNow_latched (s : State) (fn off i j : Nat) :
    (readNow s fn off false).latched i j = (readWord s fn off).2.latched i j := by
  simp [readNow_word]

theorem readNow_reg (s : State) (fn off j : Nat) :
    (readNow s fn off false).reg j = (clearRc (readWord s fn off).2 fn off).reg j := by
  simp [readNow_word]

/-- A 32-bit read changes the latches, the registers and the ports alone. -/
theorem readNow_only (s : State) (fn off : Nat) :
    readNow s fn off false = { s with out := (readNow s fn off false).out, latch := (readNow s fn off false).latch,
                                      regs := (readNow s fn off false).regs } := by
  rw [readNow_word, clearRc_only, readWord_only]
  rfl

theorem readNow_reg_of_rcKey {s : State} {fn off k : Nat} (h : rcKey fn off = some k) (j : Nat) :
    (readNow s fn off false).reg j = if j = k then 0 else s.reg j := by
  have hr : (readWord s fn off).2.reg j = s.reg j := by rw [readWord_only]; rfl
  rw [readNow_reg, clearRc_of_key h, State.setReg_reg, hr]

/-- Settles O2: each read reaches its register at once, and what it answers, latches and clears is read off `readWord` and `clearRc`. -/
theorem registerReadsLatchAndClear : Obligations.RegisterReadsLatchAndClear := by
  unfold Obligations.RegisterReadsLatchAndClear
  refine ⟨?low, ?high, ?clear⟩
  case low =>
    intro s fn off ha hd hal hl hp
    refine ⟨_, congrArg Host.Outcome.next (regRead_of_direct ha hd hal), ?_, ?_, readNow_only s fn.val off⟩
    · rw [readNow_out, readWord_unlatched hl]
    · simp [readNow_latched, readWord_unlatched hl, hp]
  case high =>
    intro s fn off v ha hd hal hl
    refine ⟨_, congrArg Host.Outcome.next (regRead_of_direct ha hd hal), ?_, ?_, readNow_only s fn.val off⟩
    · rw [readNow_out, readWord_latched hl]
    · rw [readNow_latched, readWord_latched hl, State.latched_setLatch_same]
  case clear =>
    intro s fn off k ha hd hal hl hk
    refine ⟨_, congrArg Host.Outcome.next (regRead_of_direct ha hd hal), ?_, ?_, ?_, readNow_only s fn.val off⟩
    · rw [readNow_out, readWord_unlatched hl]
    · simp [readNow_reg_of_rcKey hk]
    · intro j hj
      simp [readNow_reg_of_rcKey hk, hj]

/-! ## Writes (R4, R59, R534) -/

theorem clampTo_eq_max_min {lo hi : Nat} (h : lo ≤ hi) (n : Nat) : clampTo lo hi n = max lo (min hi n) := by
  unfold clampTo
  split
  · omega
  · split <;> omega

/-- Registers of PF0 BAR0 that are one numeric field whose range no other register moves, with the ends of their ranges (R102, R230, R375, R499, R534). -/
def numericRegs : List (Nat × Nat × Nat) :=
  [(0x1000C, 0, 1000000), (0x10010, 10, 100000), (0x4200C, 100, 50000), (0x42010, 10, 100000), (0x42014, 10, 100000),
    (0x1C0000, 1, 10000), (0x1C0100, 1, 10000), (0x50003C, 10, 1000), (0x500040, 2, 100)]

/-- Each numeric register lies in the branch of `pf0Write` that clamps it. -/
theorem pf0Write_numeric {off lo hi : Nat} (h : (off, lo, hi) ∈ numericRegs) (s : State) (v : Word) :
    pf0Write s off v = putClamped s off lo hi v.toNat := by
  simp only [numericRegs, List.mem_cons, Prod.mk.injEq, List.not_mem_nil, or_false] at h
  rcases h with ⟨rfl, rfl, rfl⟩ | ⟨rfl, rfl, rfl⟩ | ⟨rfl, rfl, rfl⟩ | ⟨rfl, rfl, rfl⟩ | ⟨rfl, rfl, rfl⟩ | ⟨rfl, rfl, rfl⟩
    | ⟨rfl, rfl, rfl⟩ | ⟨rfl, rfl, rfl⟩ | ⟨rfl, rfl, rfl⟩ <;> rfl

theorem numericRegs_range {off lo hi : Nat} (h : (off, lo, hi) ∈ numericRegs) : lo ≤ hi := by
  have hall : ∀ r ∈ numericRegs, r.2.1 ≤ r.2.2 := by decide
  exact hall _ h

theorem regWriteBar0_numeric {s : State} {off lo hi : Nat} (h : (off, lo, hi) ∈ numericRegs) (hd : Pf0Direct s off) (v : DWord) :
    regWriteBar0 s 0 off false v = s.setReg off (w32 (max lo (min hi (v.toNat % 2 ^ 32)))) := by
  have ⟨ha, _, hal, _⟩ := hd
  calc regWriteBar0 s 0 off false v
      = pf0Write s off (v.truncate 32) := regWriteBar0_of_direct ha (fun _ => hd) hal v
    _ = putClamped s off lo hi (v.truncate 32).toNat := pf0Write_numeric h s _
    _ = s.setReg off (w32 (max lo (min hi (v.toNat % 2 ^ 32)))) := by
      simp [putClamped, clampTo_eq_max_min (numericRegs_range h)]

theorem accessOk_eq_false {off size : Nat} (h4 : ¬(size = 4 ∧ off % 4 = 0)) (h8 : ¬(size = 8 ∧ off % 8 = 0)) :
    accessOk off size = false := decide_eq_false (not_or.2 ⟨h4, h8⟩)

/-- An ignored access answers a read with all ones, drops a write, and is recorded (R4). -/
theorem ignoreAccess_records {s : State} (hr : LogRoom s) (fn off : Nat) (isWrite : Bool) :
    Records (if isWrite then s else s.emit (.regCpl fn off 0xFFFFFFFFFFFFFFFF#64)) (ignoreAccess s fn off isWrite)
      { code := Ev.regAccessIgnored, src := srcHc, tenant := tenantOf fn, addr := off } := by
  have hroom : LogRoom (if isWrite then s else s.emit (.regCpl fn off 0xFFFFFFFFFFFFFFFF#64)) := by
    cases isWrite <;> exact hr
  exact raise_records _ _ hroom rfl (.inr rfl)

/-- A pending alert stays where its bit is not written as one (R59). -/
theorem alertClear_getLsbD (s : State) (v : Word) {i : Nat} (hi : i < 4) :
    (alertClear s v).pins.alertPending.getLsbD i = (s.pins.alertPending.getLsbD i && !v.getLsbD i) := by
  simp [alertClear, State.modPins, hi]

/-- Settles O3: a numeric register's write is its clamp, an ignored access is its record, and GLB_ALERT's write masks the pending alerts. -/
theorem registerWritesClamp : Obligations.RegisterWritesClamp := by
  unfold Obligations.RegisterWritesClamp
  refine ⟨?clamp, ?ignored, ?alert⟩
  case clamp =>
    intro s off lo hi v h hd
    exact congrArg Host.Outcome.next (regWriteBar0_numeric h hd v)
  case ignored =>
    intro s fn off size isWrite h4 h8 ha hr
    refine ⟨ignoreAccess s fn.val off isWrite, _, ?_, rfl, ignoreAccess_records hr fn.val off isWrite⟩
    show execRegAccessIgnored fn off size isWrite s = _
    simp [execRegAccessIgnored, accessOk_eq_false h4 h8, ha]
  case alert =>
    intro s v
    exact ⟨alertClear s v, rfl, fun i hi => alertClear_getLsbD s v hi, rfl⟩

end Sys2Proof.Machine
end

section
/-! Posted window writes (R23-R25, R205, R362, R484, R540): accepted, missed, looped back, ticketed, staged or dropped. -/

namespace Sys2Proof.Machine

/-! ## A request that the decoder accepts -/

theorem hostPostedWriteEff_accepted {s : State} {fn off : Nat} (ha : fnAnswers s fn = true) (h1 : fn ≠ 1)
    (hoff : off < bar2Size s (tenantOf fn)) (hc : commitHolds s (tenantOf fn) = false) (data : List Byte) (be : List Bool) :
    hostPostedWriteEff s fn off data be = acceptWrite s fn off (enabled data be) := by
  simp [hostPostedWriteEff, ha, h1, hc, Nat.not_le.2 hoff]

/-! ## Misses (R205) -/

/-- The record of a window miss (R205). -/
def windowMissEv (fn off : Nat) : Ev :=
  { code := Ev.windowMiss, src := srcHc, tenant := tenantOf fn, cs := Cs.windowMiss, addr := off }

/-- A miss changes its counter, the waiting records and the ports alone. -/
theorem winMiss_eq {s : State} (hr : LogRoom s) (fn off : Nat) :
    winMiss s fn off = { s with
      regs := (s.incReg 0x42018).regs
      log := { s.log with waiting := s.log.waiting ++ [mkRec s (windowMissEv fn off) none] }
      out := .aer fn 0 :: s.out } := by
  have hrec : Records (s.incReg 0x42018) ((s.incReg 0x42018).raise (windowMissEv fn off)) (windowMissEv fn off) :=
    raise_records _ _ hr rfl (.inr rfl)
  exact congrArg (State.emit · (.aer fn 0)) hrec

theorem winMiss_reg {s : State} (hr : LogRoom s) (fn off k : Nat) :
    (winMiss s fn off).reg k = if k = 0x42018 then s.reg 0x42018 + 1 else s.reg k := by
  rw [winMiss_eq hr]
  exact State.incReg_reg s 0x42018 k

/-! ## The fate of a matched write -/

theorem acceptWrite_miss {s : State} {fn off : Nat} (h : winMatch s (tenantOf fn) off = none) (bs : List (Option Byte)) :
    acceptWrite s fn off bs = winMiss s fn off := by
  simp [acceptWrite, h]

theorem acceptWrite_loopback {s : State} {fn off : Nat} {f : WinF} (h : winMatch s (tenantOf fn) off = some f) (h6 : f.target = 6)
    (hs : s.tenantStopped (tenantOf fn) = false) (bs : List (Option Byte)) :
    acceptWrite s fn off bs = hostWriteRuns s (tenantOf fn) (writeAcc s (tenantOf fn) f off bs).addr (writeAcc s (tenantOf fn) f off bs).bytes := by
  simp [acceptWrite, h, h6, hs]

theorem acceptWrite_staged {s : State} {fn off : Nat} {f : WinF} (h : winMatch s (tenantOf fn) off = some f) (h6 : f.target ≠ 6)
    (bs : List (Option Byte)) :
    acceptWrite s fn off bs = stageWrite s (writeAcc s (tenantOf fn) f off bs) := by
  simp [acceptWrite, h, h6]

theorem stageWrite_ticket {s : State} {a : Acc} (hs : s.tenantStopped a.tenant = false) (hw : (s.tally a.tenant).waiters = [])
    (hf : entryFree s a.tenant = true) : stageWrite s a = ticketWrite s a := by
  simp [stageWrite, hs, hw, hf]

/-- What keeps a write from its ticket: another waits before it, or no entry is free (R24, R366). -/
theorem not_ticketed {s : State} {t : Nat} (h : (s.tally t).waiters ≠ [] ∨ entryFree s t = false) :
    ¬((s.tally t).waiters = [] ∧ entryFree s t = true) := by
  rintro ⟨hw, hf⟩
  exact h.elim (fun hne => hne hw) (fun hno => by simp [hf] at hno)

theorem stageWrite_waits {s : State} {a : Acc} (hs : s.tenantStopped a.tenant = false)
    (hn : (s.tally a.tenant).waiters ≠ [] ∨ entryFree s a.tenant = false) (hroom : (staged (s.tally a.tenant)).length < 16) :
    stageWrite s a = s.setTally a.tenant { s.tally a.tenant with waiters := (s.tally a.tenant).waiters ++ [.window a] } := by
  simp only [stageWrite, hs, if_neg (not_ticketed hn), if_pos hroom]
  rfl

theorem stageWrite_drops {s : State} {a : Acc} (hs : s.tenantStopped a.tenant = false)
    (hn : (s.tally a.tenant).waiters ≠ [] ∨ entryFree s a.tenant = false) (hfull : 16 ≤ (staged (s.tally a.tenant)).length) :
    stageWrite s a = stageDrop s a := by
  simp only [stageWrite, hs, if_neg (not_ticketed hn), if_neg (Nat.not_lt.2 hfull)]
  rfl

/-! ## The ticket (R362, R484)

Issuing a ticket invalidates retained bytes, which may send notes to the partner; it never changes which tenants this chip mirrors. -/

theorem mirrorNote_leads (s : State) (n : Nat) (r : MirrorRec) (t : Nat) : (mirrorNote s n r).leads t = s.leads t := by
  unfold mirrorNote
  split <;> rfl

theorem dlogFate_leads (s : State) (n target space line fate t : Nat) : (dlogFate s n target space line fate).leads t = s.leads t := by
  unfold dlogFate
  dsimp only
  split <;> rfl

theorem foldl_leads {α : Type} {f : State → α → State} {t : Nat} (h : ∀ u x, (f u x).leads t = u.leads t) (l : List α) (s : State) :
    (l.foldl f s).leads t = s.leads t :=
  List.foldlRecOn (motive := fun u => u.leads t = s.leads t) l f rfl fun u hu x _ => (h u x).trans hu

theorem liqRemove_leads (s : State) (p : LiqLine → Bool) (q : LiqLine → LiqByte → Bool) (fate cnt t : Nat) :
    (liqRemove s p q fate cnt).leads t = s.leads t := by
  have hnotes : ∀ (u : State) (l m : List LiqLine),
      (m.foldl (fun s l => noteTag s l false) (l.foldl (fun s l => dlogFate s l.tenant l.target l.space l.line fate) u)).leads t = u.leads t :=
    fun u l m => (foldl_leads (fun _ _ => mirrorNote_leads _ _ _ _) m _).trans (foldl_leads (fun _ _ => dlogFate_leads _ _ _ _ _ _ _) l u)
  unfold liqRemove
  dsimp only
  split
  · exact hnotes _ _ _
  · exact hnotes _ _ _

theorem issueTicket_leads (s : State) (n target space addr len : Nat) (flood : Bool) (t : Nat) :
    (issueTicket s n target space addr len flood).2.leads t = s.leads t :=
  liqRemove_leads _ _ _ _ _ _

/-- A write that no chip mirrors enters the rings with its tenant's next ticket. -/
theorem ticketWrite_sends {s : State} {a : Acc} (hb : 0 < countSome a.bytes) (hl : s.leads a.tenant = false) :
    ticketWrite s a
      = sendAcc (issueTicket s a.tenant a.target a.space (accFirst a) (a.bytes.length - firstSome a.bytes) false).2
          { a with ticket := ticketSucc (s.tally a.tenant).issued } := by
  simp only [ticketWrite, mirrorHold, if_neg (Nat.pos_iff_ne_zero.1 hb), issueTicket_leads, hl]
  rfl

/-- STAGED_WRITE_TICKET takes the front of the queue once an entry is free (R366, R540). -/
theorem stagedTicketEff_window {s : State} {t : Nat} {a : Acc} {r : List Waiter} (hw : (s.tally t).waiters = .window a :: r)
    (hf : entryFree s t = true) : stagedTicketEff s t = ticketWrite (s.setTally t { s.tally t with waiters := r }) a := by
  simp [stagedTicketEff, hw, hf, State.modTally]

/-- Settles O4: the decoder accepts the write, and each clause is the branch of `acceptWrite` and `stageWrite` it names. -/
theorem windowWritesAreStagedInOrder : Obligations.WindowWritesAreStagedInOrder := by
  unfold Obligations.WindowWritesAreStagedInOrder
  refine ⟨?posted, ?ticket⟩
  case posted =>
    intro s fn off data be ha h1 hoff hc
    have hexec : exec (.hostPostedWrite fn off data be) s = .next (acceptWrite s fn.val off (enabled data be)) :=
      congrArg Host.Outcome.next (hostPostedWriteEff_accepted ha h1 hoff hc data be)
    rw [hexec]
    refine ⟨fun hm hr => ?_, fun f hm hs => ?_⟩
    · rw [acceptWrite_miss hm]
      refine ⟨_, rfl, ?_, fun k hk => ?_, ?_, ?_, ?_⟩
      · simp [winMiss_reg hr]
      · simp [winMiss_reg hr, hk]
      · rw [winMiss_eq hr]; rfl
      · rw [winMiss_eq hr]
      · rw [winMiss_eq hr]
    · intro a q
      refine ⟨fun h6 => ?_, fun h6 hw hf hb hl => ?_, fun h6 hn hroom => ?_, fun h6 hn hfull => ?_⟩
      · rw [acceptWrite_loopback hm h6 hs]
      all_goals rw [acceptWrite_staged hm h6]
      · exact congrArg Host.Outcome.next ((stageWrite_ticket (a := a) hs hw hf).trans (ticketWrite_sends (a := a) hb hl))
      · exact congrArg Host.Outcome.next (stageWrite_waits (a := a) hs hn hroom)
      · exact congrArg Host.Outcome.next (stageWrite_drops (a := a) hs hn hfull)
  case ticket =>
    intro s n a r hw hf ht hb hl u
    show Host.Outcome.next (stagedTicketEff s n.val) = _
    rw [stagedTicketEff_window hw hf, ticketWrite_sends hb (by rw [ht]; exact hl), ht, State.setTally_tally_same]

end Sys2Proof.Machine
end

section
/-! Held host reads (R26, R205, R217, R353): accepted, admitted to LT, answered, and ended by their hold limit. -/

namespace Sys2Proof.Machine

theorem hostReadEff_accepted {s : State} {fn off : Nat} (ha : fnAnswers s fn = true) (h1 : fn ≠ 1)
    (hoff : off < bar2Size s (tenantOf fn)) (hc : commitHolds s (tenantOf fn) = false) (rid : Nat) (be : List Bool) :
    hostReadEff s fn rid off be = acceptRead s fn rid off be := by
  simp [hostReadEff, ha, h1, hc, Nat.not_le.2 hoff]

theorem acceptRead_miss {s : State} {fn off : Nat} (h : winMatch s (tenantOf fn) off = none) (rid : Nat) (be : List Bool) :
    acceptRead s fn rid off be = (winMiss s fn off).emit (.hostCpl fn rid .ur Cs.windowMiss []) := by
  simp [acceptRead, h]

/-- A matched read joins the held reads under the next number (R217). -/
theorem acceptRead_joins {s : State} {fn off : Nat} {f : WinF} (h : winMatch s (tenantOf fn) off = some f)
    (hs : s.tenantStopped (tenantOf fn) = false) (h6 : f.target ≠ 6) (rid : Nat) (be : List Bool) :
    acceptRead s fn rid off be
      = (newUid s).2.modReads (· ++ [readRecord (newUid s).2 s.qs.orderNext (tenantOf fn) f fn rid off be]) := by
  have hs' : (newUid s).2.tenantStopped (tenantOf fn) = false := hs
  simp only [acceptRead, h, hs', if_neg h6]
  rfl

/-! ## Admission (R353) -/

theorem getRead_head {s : State} {r : HeldRead} {rest : List HeldRead} (h : s.reads = r :: rest) : getRead s r.uid = some r := by
  simp [getRead, h]

theorem modRead_head {s : State} {r : HeldRead} {rest : List HeldRead} (h : s.reads = r :: rest) (f : HeldRead → HeldRead) :
    modRead s r.uid f = { s with reads := f r :: rest } := by
  simp [modRead, State.modReads, modFirst, h]

/-- The front read that waits for room goes to LT once the late pool has its lines. -/
theorem heldReadAdmitEff_front {s : State} {r : HeldRead} {rest : List HeldRead} (h : s.reads = r :: rest) (hst : r.stage = .room)
    (h6 : r.target ≠ 6) (hroom : lateRoom s (linesIn (wantAddrs r)) = true) :
    heldReadAdmitEff s r.uid = ltArrive (modRead s r.uid fun r' => { r' with lines := linesIn (wantAddrs r), stage := .target }) r.uid := by
  have hfront : s.reads.find? (fun x => decide (x.stage = .room ∧ (x.target = 6) = ((getRead s r.uid).any fun y => decide (y.target = 6))))
      = some r := by
    simp [getRead_head h, h, hst, h6]
  simp only [heldReadAdmitEff, hfront, if_neg h6, hroom, and_self, if_true]

/-! ## The answer (R26 step 5, R217) -/

theorem getRead_delRead (s : State) (u : Nat) : getRead (delRead s u) u = none := by
  simp [getRead, delRead]

/-- What LT gives back keeps the ending's CS. -/
theorem ltReturn_cs (s : State) (r : HeldRead) (e : AccEnd) : (ltReturn s r e).1.cs = e.cs := rfl

theorem getRead_ltReturn (s : State) (r : HeldRead) (e : AccEnd) : getRead (ltReturn s r e).2 r.uid = none :=
  getRead_delRead _ _

/-- A successful end writes no record (R217). -/
theorem waitEv_done {e : AccEnd} (h : e.cs = Cs.done) (s : State) (r : HeldRead) : waitEv s r e = s := by
  simp [waitEv, h, Cs.done, Cs.farError, Cs.farTimeout]

/-- A successful read is answered with its bytes in the request's own order (R208). -/
theorem hostAnswer_done {r : HeldRead} {e : AccEnd} {fn rid : Nat} (hw : r.who = .host fn rid) (h : e.cs = Cs.done) (s : State) :
    hostAnswer s r e = s.emit (.hostCpl fn rid .sc Cs.done (endianBack r.endian r.haddr r.hlen r.addr e.data)) := by
  simp [hostAnswer, hw, h]

/-- A host read whose bytes have all come passes LT, and HC answers it. -/
theorem heldReadCompleteEff_ready {s : State} {r : HeldRead} {fn rid : Nat} {e : AccEnd} (hg : getRead s r.uid = some r)
    (hw : r.who = .host fn rid) (h6 : r.target ≠ 6) (hres : r.res = some e) (h0 : r.ended = 0) (hready : readReady r = true) (x : HostEnd) :
    heldReadCompleteEff s r.uid x = hostAnswer (waitEv (ltReturn s r e).2 r (ltReturn s r e).1) r (ltReturn s r e).1 := by
  simp [heldReadCompleteEff, hg, hw, h6, hres, h0, hready]

theorem holdLimitExpireEff_host {s : State} {r : HeldRead} {fn rid : Nat} (hg : getRead s r.uid = some r) (hw : r.who = .host fn rid)
    (h0 : r.ended = 0) :
    holdLimitExpireEff s r.uid
      = abortHostRead (((s.atTime (r.accepted + holdLimit s)).incReg 0x42028).raise
          { code := Ev.holdLimit, src := srcHc, tenant := r.tenant, cs := Cs.farTimeout, addr := r.haddr }) r Cs.farTimeout 2 true := by
  simp [holdLimitExpireEff, hg, hw, h0]

/-- Settles O5: each clause is the branch of `acceptRead`, of the admission, of the completion or of the hold limit that it names. -/
theorem heldReadsAreAnsweredOnce : Obligations.HeldReadsAreAnsweredOnce := by
  unfold Obligations.HeldReadsAreAnsweredOnce
  refine ⟨?accepted, ?admitted, ?answered, ?limit⟩
  case accepted =>
    intro s fn rid off be ha h1 hoff hc
    have hexec : exec (.hostRead fn rid off be) s = .next (acceptRead s fn.val rid off be) :=
      congrArg Host.Outcome.next (hostReadEff_accepted ha h1 hoff hc rid be)
    rw [hexec]
    refine ⟨fun hm hr => ?_, fun f hm hs h6 => ?_⟩
    · rw [acceptRead_miss hm]
      refine ⟨_, rfl, ?_, ?_, ?_, ?_⟩
      · rw [winMiss_eq hr]; rfl
      · simp [winMiss_reg hr]
      · rw [winMiss_eq hr]; rfl
      · rw [winMiss_eq hr]; rfl
    · rw [acceptRead_joins hm hs h6]
      exact ⟨_, _, rfl, rfl, rfl, rfl, rfl, rfl, rfl, rfl, rfl, rfl, rfl, rfl⟩
  case admitted =>
    intro s r rest h hst h6 hroom
    rw [← modRead_head h fun r' => { r' with lines := linesIn (wantAddrs r), stage := .target }]
    exact congrArg Host.Outcome.next (heldReadAdmitEff_front h hst h6 hroom)
  case answered =>
    intro s r fn rid e x hg hw h6 hres hcs h0 hdue hst
    have hready : readReady r = true := by simp [readReady, hres, hdue, hst]
    have hcs' : (ltReturn s r e).1.cs = Cs.done := (ltReturn_cs s r e).trans hcs
    have hexec : exec (.heldReadComplete r.uid x) s
        = .next ((ltReturn s r e).2.emit (.hostCpl fn rid .sc Cs.done (endianBack r.endian r.haddr r.hlen r.addr (ltReturn s r e).1.data))) := by
      show Host.Outcome.next (heldReadCompleteEff s r.uid (hostEnd x)) = _
      rw [heldReadCompleteEff_ready hg hw h6 hres h0 hready, waitEv_done hcs', hostAnswer_done hw hcs']
    exact ⟨_, _, hexec, rfl, rfl, getRead_ltReturn s r e⟩
  case limit =>
    intro s r fn rid hg hw h0 u
    exact congrArg Host.Outcome.next (holdLimitExpireEff_host hg hw h0)

end Sys2Proof.Machine
end

section
/-! Rack masters on a port's slave regions (R30, R31, R221, R304-R309, R319): what a cycle is answered, what goes to host memory, and how a held read ends. -/

namespace Sys2Proof.Machine

/-! ## A cycle that no region matches (R306) -/

theorem rackReadEff_unmatched {s : State} {p addr space : Nat} (hm : slvMatch s p addr space = none) (hret : retryAnswers s p = false)
    (width : Nat) (be : List Bool) (block : Bool) : rackReadEff s p addr space width be block = s := by
  simp [rackReadEff, hret, hm]

theorem rackWriteEff_unmatched {s : State} {p addr space : Nat} (hm : slvMatch s p addr space = none) (bs : List (Option Byte)) :
    rackWriteEff s p addr space bs = s := by
  simp [rackWriteEff, hm]

theorem rackRmwEff_unmatched {s : State} {p addr space : Nat} (hm : slvMatch s p addr space = none) (old : HostEnd) (new : List Byte) :
    rackRmwEff s p addr space old new = s := by
  simp [rackRmwEff, hm]

/-! ## A matched cycle: denied, or given its effect (R307-R309, R319)

`u` is the state that has counted the cycle. -/

theorem rackWriteEff_denied {s u : State} {p addr space r : Nat} {bs : List (Option Byte)} {d : Nat × Option Nat}
    (hu : u = s.incReg (paReg p 0x34)) (hready : slvReady s p = true) (hm : slvMatch s p addr space = some r)
    (hd : inboundDenial u p r (hostRange u p r addr (bs.map Option.isSome)).2.1 (hostRange u p r addr (bs.map Option.isSome)).2.2
      false true false = some d) :
    rackWriteEff s p addr space bs = denyInbound u p addr space (slvTenant u p r) d := by
  subst hu
  simp [rackWriteEff, hready, hm, hd]

theorem rackWriteEff_acked {s u : State} {p addr space r : Nat} {bs : List (Option Byte)}
    (hu : u = s.incReg (paReg p 0x34)) (hready : slvReady s p = true) (hm : slvMatch s p addr space = some r)
    (hd : inboundDenial u p r (hostRange u p r addr (bs.map Option.isSome)).2.1 (hostRange u p r addr (bs.map Option.isSome)).2.2
      false true false = none) :
    rackWriteEff s p addr space bs = rackHostWrite (u.emit (.slaveAck p [])) p r addr bs := by
  subst hu
  simp [rackWriteEff, hready, hm, hd]

/-- A matched read of a personality without retry goes to its region. -/
theorem rackReadEff_matched {s : State} {p addr space r : Nat} (hready : slvReady s p = true) (hret : retryAnswers s p = false)
    (hm : slvMatch s p addr space = some r) (width : Nat) (be : List Bool) (block : Bool) :
    rackReadEff s p addr space width be block = rackReadMatched s p r addr space width be block := by
  simp [rackReadEff, hready, hret, hm]

theorem rackReadMatched_denied {s u : State} {p addr space width r : Nat} {be : List Bool} {block : Bool} {d : Nat × Option Nat}
    (hu : u = s.incReg (paReg p 0x34))
    (hd : inboundDenial u p r (hostRange u p r addr (rackReadBe u p r addr space width be block)).2.1
      (hostRange u p r addr (rackReadBe u p r addr space width be block)).2.2 true false false = some d) :
    rackReadMatched s p r addr space width be block = denyInbound u p addr space (slvTenant u p r) d := by
  subst hu
  simp [rackReadMatched, hd]

/-- The read of region `r` that holds the bus for the bytes `be`, none of which has come (R30, R221). -/
def heldRackOf (s : State) (p r addr space : Nat) (be : List Bool) : HeldRack :=
  { addr := addr, space := space, be := be, tenant := slvTenant s p r, endian := slvEndian s p r, base := (hostRange s p r addr be).1
    haddr := (hostRange s p r addr be).2.1, len := (hostRange s p r addr be).2.2, got := [] }

theorem rackReadMatched_held {s u : State} {p addr space width r : Nat} {be : List Bool} {block : Bool}
    (hu : u = s.incReg (paReg p 0x34)) (hret : retryAnswers s p = false)
    (hd : inboundDenial u p r (hostRange u p r addr (rackReadBe u p r addr space width be block)).2.1
      (hostRange u p r addr (rackReadBe u p r addr space width be block)).2.2 true false false = none) :
    rackReadMatched s p r addr space width be block
      = rackSend (u.setPort p { u.port p with held := some (heldRackOf u p r addr space (rackReadBe u p r addr space width be block)) }) p := by
  subst hu
  have hret' : retryAnswers (s.incReg (paReg p 0x34)) p = false := hret
  simp only [rackReadMatched, hd, hret']
  rfl

theorem rackRmwEff_denied {s u : State} {p addr space r : Nat} {new : List Byte} {d : Nat × Option Nat}
    (hu : u = s.incReg (paReg p 0x34)) (hready : slvReady s p = true) (hm : slvMatch s p addr space = some r)
    (hd : inboundDenial u p r (hostRange u p r addr (List.replicate new.length true)).2.1
      (hostRange u p r addr (List.replicate new.length true)).2.2 true true true = some d) (old : HostEnd) :
    rackRmwEff s p addr space old new = denyInbound u p addr space (slvTenant u p r) d := by
  subst hu
  simp [rackRmwEff, hready, hm, hd]

/-- A function without the tags of a use. -/
def dropUse (s : State) (fn : Nat) (use : TagUse) : State :=
  s.setFn fn { s.fn fn with tags := (s.fn fn).tags.filter fun e => decide (e.2 ≠ use) }

/-- A read-modify-write whose host read succeeds answers the old bytes and writes the new ones (R319). -/
theorem rackRmwEff_done {s u v : State} {p addr space r : Nat} {old new : List Byte}
    (hu : u = s.incReg (paReg p 0x34)) (hready : slvReady s p = true) (hm : slvMatch s p addr space = some r)
    (hd : inboundDenial u p r (hostRange u p r addr (List.replicate new.length true)).2.1
      (hostRange u p r addr (List.replicate new.length true)).2.2 true true true = none)
    (hlen : old.length = (hostRange u p r addr (List.replicate new.length true)).2.2)
    (hread : hostRead u (slvTenant u p r) (hostRange u p r addr (List.replicate new.length true)).2.1
      (hostRange u p r addr (List.replicate new.length true)).2.2 (.rack p 65) = some v) :
    let w := dropUse v (fnOf (slvTenant u p r)) (.rack p 65)
    rackRmwEff s p addr space (.ok old) new
      = rackHostWrite (w.emit (.slaveAck p
          (rackData (slvEndian w p r) addr (addr - addr % endianUnit (slvEndian w p r))
            ((hostRange u p r addr (List.replicate new.length true)).2.1 - (hostRange u p r addr (List.replicate new.length true)).1)
            (List.replicate new.length true) old))) p r addr (new.map some) := by
  subst hu
  simp only [rackRmwEff, hready, hm, if_true, hd, hread, resFits, hlen, decide_true]
  rfl

/-! ## A held read ends (R31, R221) -/

theorem finishStop_of_inService {s : State} {p : Nat} (h : (s.port p).st = .inService) : finishStop s p = s := by
  simp [finishStop, stopReached, h]

/-- The last bytes of a held read: its tag is free, the bus is released, and the rack gets the bytes in its own order (R208). -/
theorem heldRackAnswer_last {s : State} {p tag : Nat} {h : HeldRack} {d : List Byte} (hst : (s.port p).st = .inService)
    (htag : tagOf (s.fn (fnOf h.tenant)) (.rack p 64) = some tag)
    (hpiece : d.length = mrrsPiece s h.tenant (h.haddr + h.got.length) (h.len - h.got.length)) (hall : h.got.length + d.length = h.len) :
    heldRackAnswer s p h (.ok d)
      = ((freeTag s (fnOf h.tenant) tag).modPort p fun q => { q with held := none }).emit
          (.slaveAck p (rackData h.endian h.addr (h.addr - h.addr % endianUnit h.endian) (h.haddr - h.base) h.be (h.got ++ d))) := by
  have hcs : ¬hostCs (.ok d) ≠ Cs.done := fun hne => hne rfl
  have hlast : ¬(h.got ++ hostData (.ok d)).length < h.len := by simp [hostData, hall]
  simp only [heldRackAnswer, htag, resFits, hpiece, decide_true, if_true, if_neg hcs, if_neg hlast]
  apply finishStop_of_inService
  simp [freeTag, poisonAer, hst]

theorem freeTag_tags_ne (s : State) (fn tag : Nat) : ∀ x ∈ ((freeTag s fn tag).fn fn).tags, x.1 ≠ tag := by
  simp [freeTag]

/-- The record of a held read that the rack abandons (R221). -/
def inboundAbandonedEv (p : Nat) (h : HeldRack) : Ev :=
  { code := Ev.inboundAbandoned, src := srcPort p, tenant := h.tenant, addr := h.addr }

/-- A held read that the rack abandons is dropped with its tag's use and recorded. -/
theorem abandonRack_records {s : State} {p : Nat} {h : HeldRack} (hh : (s.port p).held = some h) (hr : LogRoom s) :
    Records (dropRackTag (s.modPort p fun q => { q with held := none }) h.tenant p none) (abandonRack s p) (inboundAbandonedEv p h) := by
  simp only [abandonRack, hh]
  exact raise_records _ _ hr rfl (.inr rfl)

theorem abandonRack_port {s : State} {p : Nat} {h : HeldRack} (hh : (s.port p).held = some h) (hr : LogRoom s) :
    (abandonRack s p).port p = { s.port p with held := none } := by
  rw [abandonRack_records hh hr]
  exact State.modPort_port_same s p fun q => { q with held := none }

/-- Settles O13: the cycles are taken clause by clause, the held read's two ends from `heldRackAnswer_last` and `abandonRack_records`. -/
theorem rackMastersReachHostMemory : Obligations.RackMastersReachHostMemory := by
  unfold Obligations.RackMastersReachHostMemory
  refine ⟨?cycles, ?completed, ?abandoned⟩
  case cycles =>
    intro s p addr space width be block data old new hready
    refine ⟨fun hm hret => ⟨?_, ?_, ?_⟩, fun r hm => ⟨fun d hd => ?_, fun hd => ?_, fun hret => ⟨fun d hd => ?_, fun hd => ?_⟩, ?_⟩⟩
    · exact congrArg Host.Outcome.next (rackReadEff_unmatched hm hret width be block)
    · exact congrArg Host.Outcome.next (rackWriteEff_unmatched hm (enabled data be))
    · exact congrArg Host.Outcome.next (rackRmwEff_unmatched hm (hostEnd old) new)
    · exact congrArg Host.Outcome.next (rackWriteEff_denied rfl hready hm hd)
    · exact congrArg Host.Outcome.next (rackWriteEff_acked rfl hready hm hd)
    · exact congrArg Host.Outcome.next ((rackReadEff_matched hready hret hm width be block).trans (rackReadMatched_denied rfl hd))
    · have hheld := (rackReadEff_matched hready hret hm width be block).trans (rackReadMatched_held rfl hret hd)
      exact ⟨_, _, congrArg Host.Outcome.next hheld, rfl, rfl, rfl, rfl, rfl, rfl, rfl⟩
    · refine ⟨fun d hd => ?_, fun b v hd hold hlen hread => ⟨_, rfl, ?_⟩⟩
      · exact congrArg Host.Outcome.next (rackRmwEff_denied rfl hready hm hd (hostEnd old))
      · subst hold
        exact congrArg Host.Outcome.next (rackRmwEff_done rfl hready hm hd hlen hread)
  case completed =>
    intro s p h tag d hh hst htag hpiece hall
    have hexec : exec (.rackMasterReadCompletion p 64 (.ok d)) s = .next (heldRackAnswer s p.val h (.ok d)) := by
      show execRackMasterReadCompletion p 64 (.ok d) s = _
      simp [execRackMasterReadCompletion, hh, hostEnd]
    rw [heldRackAnswer_last hst htag hpiece hall] at hexec
    refine ⟨_, hexec, rfl, ?_, ?_⟩
    · simp
    · simpa using freeTag_tags_ne s (fnOf h.tenant) tag
  case abandoned =>
    intro s p h hh hst hr
    have hport := abandonRack_port hh hr
    have hexec : exec (.inboundAbandoned p) s = .next (abandonRack s p.val) := by
      show execInboundAbandoned p s = _
      simp only [execInboundAbandoned, hh, Option.isSome_some, if_true]
      rw [finishStop_of_inService (by rw [hport]; exact hst)]
    refine ⟨_, hexec, by rw [hport], ?_⟩
    rw [abandonRack_records hh hr]
    rfl

end Sys2Proof.Machine
end

section
/-! What an alert, a record and a message leave unchanged, and how the SMBus sideband reads and releases the alerts (R59, R60, R510, R518). -/

namespace Sys2Proof.Machine

/-! ## The parts that records, alerts and messages change -/

/-- A record that finds room or none changes the registers and the log alone. -/
theorem enqueueRec_only (s : State) (r : EvRec) :
    enqueueRec s r = { s with regs := (enqueueRec s r).regs, log := (enqueueRec s r).log } := by
  unfold enqueueRec
  split <;> rfl

/-- A rate-limited event is counted, and within its limit its record is queued (R531). -/
theorem raiseLimited_cases (s : State) (e : Ev) (lim : Nat) :
    (∃ f r, raiseLimited s e lim = enqueueRec (s.modLog f) r) ∨ ∃ f, raiseLimited s e lim = s.modLog f :=
  (ite_eq_or_eq _ _ _).imp (fun h => ⟨_, _, h⟩) fun h => ⟨_, h⟩

theorem raiseLimited_only (s : State) (e : Ev) (lim : Nat) :
    raiseLimited s e lim = { s with regs := (raiseLimited s e lim).regs, log := (raiseLimited s e lim).log } := by
  rcases raiseLimited_cases s e lim with ⟨f, r, h⟩ | ⟨f, h⟩
  · rw [h]; exact enqueueRec_only (s.modLog f) r
  · rw [h]; rfl

/-- An event changes the registers and the log alone, whatever its kind. -/
theorem raise_only (s : State) (e : Ev) : s.raise e = { s with regs := (s.raise e).regs, log := (s.raise e).log } := by
  unfold State.raise
  split
  · exact raiseLimited_only _ _ _
  · split
    · exact enqueueRec_only _ _
    · exact raiseLimited_only _ _ _

@[simp] theorem raise_mon (s : State) (e : Ev) : (s.raise e).mon = s.mon := by rw [raise_only]
@[simp] theorem raise_ports (s : State) (e : Ev) : (s.raise e).ports = s.ports := by rw [raise_only]
@[simp] theorem awake_raise (s : State) (e : Ev) : awake (s.raise e) = awake s := by rw [raise_only]; rfl

/-- A message changes the functions and the ports alone. -/
theorem sendMsix_ep_out (s : State) (fn entry : Nat) :
    sendMsix s fn entry = { s with ep := (sendMsix s fn entry).ep, out := (sendMsix s fn entry).out } :=
  sendMsix_only s s.her s.regs fn entry

@[simp] theorem sendMsix_mon (s : State) (fn entry : Nat) : (sendMsix s fn entry).mon = s.mon := by rw [sendMsix_ep_out]
@[simp] theorem sendMsix_ports (s : State) (fn entry : Nat) : (sendMsix s fn entry).ports = s.ports := by rw [sendMsix_ep_out]
@[simp] theorem awake_sendMsix (s : State) (fn entry : Nat) : awake (sendMsix s fn entry) = awake s := by rw [sendMsix_ep_out]; rfl

@[simp] theorem raiseAlert_mon (s : State) (i : Nat) : (raiseAlert s i).mon = s.mon := rfl
@[simp] theorem raiseAlert_ports (s : State) (i : Nat) : (raiseAlert s i).ports = s.ports := rfl
@[simp] theorem awake_raiseAlert (s : State) (i : Nat) : awake (raiseAlert s i) = awake s := rfl

/-- A raised alert is pending (R59). -/
theorem raiseAlert_pending (s : State) {i : Nat} (hi : i < 4) : (raiseAlert s i).pins.alertPending.getLsbD i = true := by
  show (s.pins.alertPending ||| BitVec.ofNat 4 (2 ^ i)).getLsbD i = true
  rw [BitVec.getLsbD_or, BitVec.getLsbD_ofNat, Nat.testBit_two_pow_self]
  simp [hi]

/-- A note of the monitors with its event and its alert: the note, the record and the alert are all that it changes. -/
theorem raiseAlert_records {s : State} (f : Monitors → Monitors) {e : Ev} (hr : LogRoom s) (hl : rateLimit e.code = 0)
    (hc : e.code ≠ Ev.contained) (i : Nat) :
    let u := raiseAlert ((s.modMon f).raise e) i
    u.mon = f s.mon ∧ Records { s with mon := u.mon, pins := u.pins } u e := by
  have hrec : Records (s.modMon f) ((s.modMon f).raise e) e := raise_records _ _ hr hl (.inl hc)
  rw [hrec]
  exact ⟨rfl, rfl⟩

/-! ## The SMBus sideband (R60) -/

theorem alertLow_of_acked {s : State} (h : s.pins.alertAcked = true) : alertLow s = false := by
  simp [alertLow, h]

theorem execSmbUnknownCommand_nack {c : Byte} (h : 7 ≤ c.toNat) (s : State) :
    execSmbUnknownCommand c s = .next (s.emit .smbNack) := by
  simp [execSmbUnknownCommand, show ¬c.toNat ≤ 6 by omega]

theorem execSmbAlertResponse_high {s : State} (h : alertLow s = false) : execSmbAlertResponse s = .next s := by
  simp [execSmbAlertResponse, h]

/-- The answered alert response: the device's address on the bus, and ALERT_N released (R59). -/
theorem execSmbAlertResponse_low {s : State} (h : alertLow s = true) :
    execSmbAlertResponse s
      = .next ((s.emit (.smbAra (0x58#7 + s.pins.smbAddr.setWidth 7))).modPins fun p => { p with alertAcked := true }) := by
  simp [execSmbAlertResponse, h]

/-- Settles O41: the reads and the mask are their rows' meanings, the unknown code is beyond the table, and the alert response splits on ALERT_N. -/
theorem smbusReads : Obligations.SmbusReads := by
  unfold Obligations.SmbusReads
  intro s
  refine ⟨rfl, rfl, rfl, fun _ => rfl, rfl, rfl, rfl, fun c hc => ?unknown, fun hhigh => ?high, fun hlow => ?low⟩
  case unknown => exact execSmbUnknownCommand_nack hc s
  case high => exact execSmbAlertResponse_high hhigh
  case low => exact ⟨_, execSmbAlertResponse_low hlow, rfl, alertLow_of_acked rfl, rfl, rfl⟩

end Sys2Proof.Machine
end

section
/-! Supply and temperature events (R55, R56, R77-R80): what is noted, what is warned of, what is contained, and the thermal shutdown. -/

namespace Sys2Proof.Machine

/-! ## Supplies measured -/

@[simp] theorem awake_setMv (s : State) (k v : Nat) : awake (setMv s k v) = awake s := rfl
@[simp] theorem setMv_warned (s : State) (k v : Nat) : (setMv s k v).mon.warned = s.mon.warned := rfl
@[simp] theorem setMv_faulted (s : State) (k v : Nat) : (setMv s k v).mon.faulted = s.mon.faulted := rfl
@[simp] theorem setMv_ports (s : State) (k v : Nat) : (setMv s k v).ports = s.ports := rfl

theorem setMv_mv (s : State) (k v j : Nat) : (setMv s k v).mv j = if j = k then v else s.mv j := Tbl.get_set _ _ _ _ _

/-- The record of a supply warning (R77). -/
def supplyWarnEv (k mv : Nat) : Ev := { code := Ev.supplyWarn, src := srcAo, data := leBytes 4 k ++ leBytes 4 mv }

theorem warnOnce_of_warned {s : State} {k : Nat} (h : k ∈ s.mon.warned) (mv : Nat) : warnOnce s k mv = s := by
  simp [warnOnce, h]

theorem warnOnce_of_not_warned {s : State} {k : Nat} (h : k ∉ s.mon.warned) (mv : Nat) :
    warnOnce s k mv = sendMsix (raiseAlert ((s.modMon fun m => { m with warned := insertAsc k m.warned }).raise (supplyWarnEv k mv)) 1) 0 6 := by
  simp [warnOnce, h, supplyWarnEv]

@[simp] theorem warnOnce_faulted (s : State) (k mv : Nat) : (warnOnce s k mv).mon.faulted = s.mon.faulted := by
  by_cases h : k ∈ s.mon.warned
  · rw [warnOnce_of_warned h]
  · simp [warnOnce_of_not_warned h]

@[simp] theorem warnOnce_ports (s : State) (k mv : Nat) : (warnOnce s k mv).ports = s.ports := by
  by_cases h : k ∈ s.mon.warned
  · rw [warnOnce_of_warned h]
  · simp [warnOnce_of_not_warned h]

/-- The first warning of an excursion: noted, recorded, alerted and sent (R59, R77, R80). -/
theorem warnOnce_records {s : State} {k : Nat} (h : k ∉ s.mon.warned) (hr : LogRoom s) (mv : Nat) :
    ∃ u, warnOnce s k mv = sendMsix u 0 6 ∧ u.mon.warned = insertAsc k s.mon.warned ∧ u.pins.alertPending.getLsbD 1 = true
      ∧ Records { s with mon := u.mon, pins := u.pins } u (supplyWarnEv k mv) := by
  have ⟨hmon, hrec⟩ := raiseAlert_records (fun m => { m with warned := insertAsc k m.warned }) (e := supplyWarnEv k mv) hr rfl
    (by decide : Ev.supplyWarn ≠ Ev.contained) 1
  exact ⟨_, warnOnce_of_not_warned h mv, by rw [hmon], raiseAlert_pending _ (by decide), hrec⟩

theorem execSupplyWarn_of_warned {s : State} {sup : Supply} {mv : Nat} (ha : awake s = true) (hw : mvWarned s (supplyIdx sup) mv = true) :
    execSupplyWarn sup mv s = .next (warnOnce (setMv s (supplyIdx sup) mv) (supplyIdx sup) mv) := by
  simp [execSupplyWarn, ha, hw]

theorem execSupplyWarn_of_not_warned {s : State} {sup : Supply} {mv : Nat} (h : awake s = false ∨ mvWarned s (supplyIdx sup) mv = false) :
    execSupplyWarn sup mv s = .next (setMv s (supplyIdx sup) mv) := by
  rcases h with h | h <;> simp [execSupplyWarn, h]

/-! ## A supply past its fault threshold (R77, R80) -/

section
variable {s : State} {k mv : Nat} (hk : k < 6) (hres : supplyResets k mv = false)
include hk hres

theorem supplyFaultEff_of_not_faulty (h : awake s = false ∨ supplyFaulty k mv = false) : supplyFaultEff s k mv = setMv s k mv := by
  rcases h with h | h <;> simp [supplyFaultEff, Nat.not_le.2 hk, hres, h]

theorem supplyFaultEff_again (ha : awake s = true) (hf : supplyFaulty k mv = true) (hm : k ∈ s.mon.faulted) :
    supplyFaultEff s k mv = warnOnce (setMv s k mv) k mv := by
  simp [supplyFaultEff, Nat.not_le.2 hk, hres, ha, hf, hm]

theorem supplyFaultEff_contains (ha : awake s = true) (hf : supplyFaulty k mv = true) (hm : k ∉ s.mon.faulted) :
    ∃ u, supplyFaultEff s k mv = enterDevice u 3 ∧ u.mon.faulted = insertAsc k s.mon.faulted := by
  refine ⟨((warnOnce (setMv s k mv) k mv).modMon fun m => { m with faulted := insertAsc k m.faulted }).raise
    { code := Ev.supplyFault, src := srcAo, enters := 2, cs := Cs.contained, data := leBytes 4 k ++ leBytes 4 mv }, ?_, ?_⟩
  · simp [supplyFaultEff, Nat.not_le.2 hk, hres, ha, hf, hm]
  · simp

end

/-! ## A bank's supply (R55, R56, R77) -/

theorem portBankPowerEff_noted {s : State} {p b mv : Nat}
    (h : bankFaulty (setMv s (6 + 4 * p + b) mv) p b mv = false ∨ 6 + 4 * p + b ∈ s.mon.faulted) :
    portBankPowerEff s p b mv = setMv s (6 + 4 * p + b) mv := by
  refine if_neg ?_
  rintro ⟨hf, hm⟩
  exact h.elim (fun hno => Bool.false_ne_true (hno.symm.trans hf)) hm

/-- A bank newly out of range, its warning and its fault noted. -/
def bankFault (s : State) (p b mv : Nat) : State :=
  (warnOnce (setMv s (6 + 4 * p + b) mv) (6 + 4 * p + b) mv).modMon fun m => { m with faulted := insertAsc (6 + 4 * p + b) m.faulted }

theorem bankFault_faulted (s : State) (p b mv : Nat) :
    (bankFault s p b mv).mon.faulted = insertAsc (6 + 4 * p + b) s.mon.faulted := by
  simp [bankFault]

theorem bankFault_ports (s : State) (p b mv : Nat) : (bankFault s p b mv).ports = s.ports := by
  simp [bankFault]

theorem monitorRuns_bankFault (s : State) (p b mv q : Nat) : monitorRuns (bankFault s p b mv) q = monitorRuns s q := by
  unfold monitorRuns State.port
  rw [bankFault_ports]

theorem portBankPowerEff_faulty {s : State} {p b mv : Nat} (hf : bankFaulty (setMv s (6 + 4 * p + b) mv) p b mv = true)
    (hm : 6 + 4 * p + b ∉ s.mon.faulted) :
    portBankPowerEff s p b mv = if monitorRuns s p then
        enterPort ((bankFault s p b mv).raise
          { code := Ev.portBankPower, src := srcPort p, cs := Cs.contained, data := leBytes 1 p ++ leBytes 1 b }) p 4
      else bankFault s p b mv := by
  rw [← monitorRuns_bankFault s p b mv p]
  exact if_pos ⟨hf, hm⟩

/-- BANK_SUPPLY_VALID's effect on its port: the enables are driven high where the port is not in service (R55). -/
theorem execBankSupplyValid_eq (p : PortId) (mv : Nat) (s : State) :
    execBankSupplyValid p mv s = .next (if (s.port p.val).st = .inService ∨ (s.port p.val).st = .stopping then setMv s (9 + 4 * p.val) mv
      else (setMv s (9 + 4 * p.val) mv).modPort p.val fun q => { q with oeN := 0xFF#8 }) := rfl

/-! ## Temperature (R78-R80) -/

/-- The record of a temperature warning (R77). -/
def tempWarnEv (x : BitVec 16) : Ev := { code := Ev.tempWarn, src := srcAo, data := leBytes 2 x.toNat }

theorem tempSeen_warns {s : State} {x : BitVec 16} (hi : (s.mon.warnThr : Int) < x.toInt) (hw : s.mon.tempWarned = false) :
    tempSeen s x = sendMsix (raiseAlert ((s.modMon fun m => { m with temp := x, tempWarned := true }).raise (tempWarnEv x)) 0) 0 6 := by
  simp [tempSeen, hi, hw, tempWarnEv, State.modMon]

theorem tempSeen_of_warned {s : State} {x : BitVec 16} (hi : (s.mon.warnThr : Int) < x.toInt) (hw : s.mon.tempWarned = true) :
    tempSeen s x = { s with mon := { s.mon with temp := x } } := by
  simp [tempSeen, hi, hw, State.modMon]

theorem tempSeen_falls {s : State} {x : BitVec 16} (h : x.toInt + 40 ≤ s.mon.warnThr) :
    tempSeen s x = { s with mon := { s.mon with temp := x, tempWarned := false } } := by
  simp [tempSeen, h, show ¬(s.mon.warnThr : Int) < x.toInt by omega, State.modMon]

theorem tempSeen_within {s : State} {x : BitVec 16} (hle : x.toInt ≤ s.mon.warnThr) (hlt : (s.mon.warnThr : Int) < x.toInt + 40) :
    tempSeen s x = { s with mon := { s.mon with temp := x } } := by
  simp [tempSeen, Int.not_lt.2 hle, Int.not_le.2 hlt, State.modMon]

/-- A measured temperature, warned of or not, leaves the device up or down. -/
theorem awake_tempSeen (s : State) (x : BitVec 16) : awake (tempSeen s x) = awake s := by
  unfold tempSeen
  dsimp only
  split
  · split
    · rfl
    · rw [awake_sendMsix, awake_raiseAlert, awake_raise]; rfl
  · split <;> rfl

/-! ## What the dark islands leave of the monitors (R79) -/

/-- A run of steps that each keep a part of the state keeps it. -/
theorem foldl_keeps {α β : Type} (g : State → β) (f : State → α → State) (l : List α) (s : State) (h : ∀ u x, g (f u x) = g u) :
    g (l.foldl f s) = g s :=
  List.foldlRecOn l f (motive := fun u => g u = g s) rfl fun u hu x _ => (h u x).trans hu

@[simp] theorem releaseBus_mon (s : State) (p : Nat) : (releaseBus s p).mon = s.mon := by
  unfold releaseBus
  dsimp only
  split <;> split <;> simp

@[simp] theorem portLets_mon (s : State) (p : Nat) (keep : Bool) : (portLets s p keep).mon = s.mon := by
  unfold portLets
  dsimp only
  split <;> split <;> simp

@[simp] theorem checkIdle_mon (s : State) (d : Nat) : (checkIdle s d).mon = s.mon := by
  unfold checkIdle
  split <;> simp

@[simp] theorem clearWide_mon (s : State) : (clearWide s).mon = s.mon := by
  unfold clearWide
  dsimp only
  rw [foldl_keeps State.mon _ _ _ (fun u x => by simp), foldl_keeps State.mon _ _ _ (fun u x => by simp),
    foldl_keeps State.mon _ _ _ (fun u x => by simp)]
  exact foldl_keeps State.mon _ _ _ fun u x => by simp

@[simp] theorem domainsOff_mon (s : State) : (domainsOff s).mon = s.mon :=
  foldl_keeps State.mon _ _ _ fun u x => by simp

@[simp] theorem goDark_mon (s : State) : (goDark s).mon = s.mon := by
  simp [goDark, foldl_keeps State.mon]

/-! ## Thermal shutdown (R79) -/

theorem thermalOff_shutdown (s : State) : (thermalOff s).mon.shutdown = true := rfl

theorem thermalOff_contained (s : State) : (thermalOff s).cont.dev = true := rfl

/-- In tide watch the shutdown writes nothing, and the monitors keep what they measured. -/
theorem thermalOff_temp {s : State} (h : s.tide.active = true) : (thermalOff s).mon.temp = s.mon.temp := by
  simp [thermalOff, h]

theorem not_awake_of_tide {s : State} (h : s.tide.active = true) : awake s = false := by
  simp [awake, h]

theorem thermEff_below {s : State} {x : BitVec 16} (hx : x.toInt ≤ shutdownTemp) (ha : awake s = true) : thermEff s x = tempSeen s x := by
  simp [thermEff, ha, Int.not_lt.2 hx]

theorem thermEff_awake {s : State} {x : BitVec 16} (hx : shutdownTemp < x.toInt) (ha : awake s = true) :
    thermEff s x = thermalOff (tempSeen s x) := by
  simp only [thermEff, ha, if_true]
  exact if_pos ⟨hx, .inl ((awake_tempSeen s x).trans ha)⟩

theorem thermEff_tide {s : State} {x : BitVec 16} (hx : shutdownTemp < x.toInt) (ht : s.tide.active = true) :
    thermEff s x = thermalOff (s.modMon fun m => { m with temp := x }) := by
  simp only [thermEff, not_awake_of_tide ht, Bool.false_eq_true, if_false]
  exact if_pos ⟨hx, .inr ht⟩

/-! ## The events -/

/-- Settles O40: each event is taken clause by clause from the lemma on its row or on the operation that it names (`warnOnce`, `tempSeen`). -/
theorem suppliesAndTemperature : Obligations.SuppliesAndTemperature := by
  unfold Obligations.SuppliesAndTemperature
  refine ⟨?warn, ?once, ?fault, ?bank, ?valid, ?recover, ?temp, ?seen, ?shutdown⟩
  case warn =>
    intro s sup mv
    exact ⟨fun ha hw => execSupplyWarn_of_warned ha hw, fun h => execSupplyWarn_of_not_warned h⟩
  case once =>
    intro s k mv
    exact ⟨fun h => warnOnce_of_warned h mv, fun h hr => warnOnce_records h hr mv⟩
  case fault =>
    intro s sup mv hk hres
    refine ⟨fun h => ?_, fun ha hf hm => ?_, fun ha hf hm => ?_⟩
    · exact congrArg Host.Outcome.next (supplyFaultEff_of_not_faulty hk hres h)
    · exact congrArg Host.Outcome.next (supplyFaultEff_again hk hres ha hf hm)
    · obtain ⟨u, hu, hfaulted⟩ := supplyFaultEff_contains hk hres ha hf hm
      exact ⟨u, congrArg Host.Outcome.next hu, hfaulted⟩
  case bank =>
    intro s p b mv
    refine ⟨fun h => congrArg Host.Outcome.next (portBankPowerEff_noted h), fun hf hm => ?_⟩
    have hexec := portBankPowerEff_faulty hf hm
    refine ⟨bankFault s p.val b.val mv, bankFault_faulted s p.val b.val mv, bankFault_ports s p.val b.val mv, fun hidle => ?_, fun hruns => ?_⟩
    · simp only [hidle, Bool.false_eq_true, if_false] at hexec
      exact congrArg Host.Outcome.next hexec
    · simp only [hruns, if_true] at hexec
      exact ⟨_, (raise_ports _ _).trans (bankFault_ports s p.val b.val mv), congrArg Host.Outcome.next hexec⟩
  case valid =>
    intro s p mv
    refine ⟨_, execBankSupplyValid_eq p mv s, ?_⟩
    split
    · exact ⟨by simp [setMv_mv], fun k hk => by simp [setMv_mv, hk], rfl, fun _ _ => rfl, rfl⟩
    · refine ⟨(setMv_mv ..).trans (if_pos rfl), fun k hk => (setMv_mv ..).trans (if_neg hk), ?_, fun q hq => ?_, rfl⟩
      · exact State.modPort_port_same (setMv s (9 + 4 * p.val) mv) _ _
      · exact (State.modPort_port ..).trans (if_neg hq)
  case recover =>
    intro s sup mv
    refine ⟨_, rfl, (setMv_mv ..).trans (if_pos rfl), fun hw => ?_, fun hf => ?_, fun hw => ?_, fun hf => ?_, fun j hj => ?_, rfl⟩
    · simp [hw]
    · simp [hf]
    · simp [hw]
    · simp [hf]
    · cases hw : mvWarned s (supplyIdx sup) mv <;> simp [hj, hw]
  case temp =>
    intro s x
    refine ⟨fun h => ?_, fun h => ?_⟩
    · show execTempWarn x s = _
      simp [execTempWarn, h, State.modMon]
    · show execTempWarn x s = _
      simp [execTempWarn, h]
  case seen =>
    intro s x
    refine ⟨fun hi hw hr => ?_, fun hi hw => tempSeen_of_warned hi hw, fun h => tempSeen_falls h, fun hle hlt => tempSeen_within hle hlt⟩
    have ⟨hmon, hrec⟩ := raiseAlert_records (fun m => { m with temp := x, tempWarned := true }) (e := tempWarnEv x) hr rfl
      (by decide : Ev.tempWarn ≠ Ev.contained) 0
    exact ⟨_, tempSeen_warns hi hw, hmon, raiseAlert_pending _ (by decide), hrec⟩
  case shutdown =>
    intro s x
    refine ⟨fun hx ha => congrArg Host.Outcome.next (thermEff_below hx ha), fun hx hup => ?_⟩
    rcases hup with ha | ht
    · refine ⟨_, congrArg Host.Outcome.next (thermEff_awake hx ha), thermalOff_shutdown _, thermalOff_contained _, fun ht => ?_⟩
      exact absurd ha (by simp [not_awake_of_tide ht])
    · refine ⟨_, congrArg Host.Outcome.next (thermEff_tide hx ht), thermalOff_shutdown _, thermalOff_contained _, fun _ => ?_⟩
      exact thermalOff_temp ht

end Sys2Proof.Machine
end

section
/-! The power domains (R89-R99): what votes, accesses, drains, wakes and releases make of one domain, and that they touch no other. -/

namespace Sys2Proof.Machine

/-! ## The shared operations -/

theorem refreshDom_of_not_entering {s : State} {d : Nat} (h : (s.dom d).st ≠ .entering) : refreshDom s d = s := by
  simp [refreshDom, h]

theorem heldVotes_of_no_temp {x : Dom} (h : x.temp = []) : heldVotes x = x.votes := by
  simp [heldVotes, h]

theorem mem_rampInsert (s : State) (d : Nat) (l : List Nat) : d ∈ rampInsert s d l := by
  induction l with
  | nil => simp [rampInsert]
  | cons e r ih =>
    unfold rampInsert
    split
    · exact List.mem_cons_self
    · exact List.mem_cons_of_mem _ ih

/-- A wake begins: due within 20 µs (R96 step 1). -/
theorem startWake_dom (s : State) (d j : Nat) :
    (startWake s d).dom j = if j = d then { s.dom d with st := .waking, until_ := s.now + us 20 } else s.dom j :=
  Tbl.get_set ..

theorem startWake_ramp (s : State) (d : Nat) : d ∈ (startWake s d).pwr.ramp := mem_rampInsert ..

/-- A domain enters power-down: OFF within 2 µs (R92). -/
theorem startEntry_dom (s : State) (d j : Nat) :
    (startEntry s d).dom j = if j = d then { s.dom d with st := .entering, until_ := s.now + us 2 } else s.dom j :=
  Tbl.get_set ..

/-- A refusal or abort is logged in its own domain (R100, R101). -/
theorem domLog_dom (s : State) (d client reason j : Nat) :
    (domLog s d client reason).dom j = if j = d then
        { s.dom d with log := ((client, reason, s.now / 1000) :: (s.dom d).log).take 16, logCount := (s.dom d).logCount + 1 }
      else s.dom j :=
  Tbl.get_set ..

/-- Its counter lies above the registers that bound holdoff and drain (R102). -/
theorem domLog_reg_low (s : State) (d client reason : Nat) {k : Nat} (hk : k < 0x11000) : (domLog s d client reason).reg k = s.reg k := by
  have hne : ∀ off, k ≠ domReg d off := fun off => by unfold domReg; omega
  simp [domLog, State.incReg_reg, hne]

/-! ## Votes (R89-R92, R96) -/

section
variable {s : State} {d : Nat} (hv : votable d = true) (client : Nat)
include hv

/-- A vote on a domain that is ON is noted and no more. -/
theorem raiseVote_of_on (hst : (s.dom d).st = .on) :
    raiseVote s d client = s.modDom d fun x => { x with votes := insertAsc client x.votes } := by
  simp [raiseVote, hv, arrive, refreshDom, hst]

/-- A vote on a domain that is OFF wakes it. -/
theorem raiseVote_of_off (hst : (s.dom d).st = .off) :
    raiseVote s d client = startWake (s.modDom d fun x => { x with votes := insertAsc client x.votes }) d := by
  simp [raiseVote, hv, arrive, refreshDom, hst]

/-- The last vote withdrawn from a domain that is ON begins its holdoff. -/
theorem dropVote_last (hst : (s.dom d).st = .on) (hvotes : heldVotes (s.dom d) = [client]) (htemp : (s.dom d).temp = []) :
    dropVote s d client = (s.modDom d fun x => { x with votes := [] }).modDom d fun x =>
      { x with st := .holdoff, until_ := s.now + us (min 1000000 (s.reg 0x1000C).toNat) } := by
  have hlast : (s.dom d).votes = [client] := (heldVotes_of_no_temp htemp).symm.trans hvotes
  have hnone : (s.modDom d fun x => { x with votes := x.votes.filter fun c => decide (c ≠ client) })
      = s.modDom d fun x => { x with votes := [] } := by
    simp [State.modDom, hlast]
  unfold dropVote
  rw [hnone]
  simp [checkIdle, hst, hv, heldVotes, htemp]

end

/-! ## A soft power-down (R94) -/

/-- The transfers whose votes do not refuse a soft power-down are logged by the first of them. -/
def logTransfer (s : State) (d : Nat) : State :=
  match heldVotes (s.dom d) with
  | c :: _ => domLog s d c 2
  | [] => s

/-- The domain drains, and its mailbox waits on it. -/
def beginDrain (s : State) (mb d : Nat) : State :=
  waitCmd (s.modDom d fun x => { x with
    st := .draining, drainWait := false, drainMb := some mb, until_ := s.now + us (clampTo 10 100000 (s.reg 0x10010).toNat) }) mb

theorem softDown_of_down {s : State} {d : Nat} (h : (s.dom d).st = .off ∨ (s.dom d).st = .disabled) (mb : Nat) :
    softDown s mb d = done s mb [] := by
  have hne : (s.dom d).st ≠ .entering := by rcases h with h | h <;> simp [h]
  unfold softDown
  rw [refreshDom_of_not_entering hne]
  dsimp only
  split
  · rw [if_pos h]
  · rcases h with h | h <;> rw [h]

/-- A vote that is no transfer's refuses it, naming the client. -/
theorem softDown_of_voted {s : State} {d x : Nat} {r : List Nat} (hst : (s.dom d).st = .on)
    (hv : (heldVotes (s.dom d)).filter (fun c => !isXfer c) = x :: r) (mb : Nat) :
    softDown s mb d = refuse (domLog s d x 1) mb 1 x := by
  unfold softDown
  rw [refreshDom_of_on hst]
  simp [hv, hst]

theorem softDown_of_unvoted {s : State} {d : Nat} (hst : (s.dom d).st = .on)
    (hv : (heldVotes (s.dom d)).filter (fun c => !isXfer c) = []) (mb : Nat) :
    softDown s mb d = beginDrain (logTransfer s d) mb d := by
  unfold softDown
  rw [refreshDom_of_on hst]
  simp only [hv, hst]
  rfl

theorem logTransfer_only (s : State) (d : Nat) :
    logTransfer s d = { s with pwr := (logTransfer s d).pwr, regs := (logTransfer s d).regs } := by
  unfold logTransfer
  split <;> rfl

theorem logTransfer_now (s : State) (d : Nat) : (logTransfer s d).now = s.now := by
  rw [logTransfer_only]

theorem logTransfer_dom_other (s : State) {d j : Nat} (h : j ≠ d) : (logTransfer s d).dom j = s.dom j := by
  unfold logTransfer
  split
  · rw [domLog_dom, if_neg h]
  · rfl

theorem logTransfer_drainLimit (s : State) (d : Nat) : (logTransfer s d).reg 0x10010 = s.reg 0x10010 := by
  unfold logTransfer
  split
  · exact domLog_reg_low s d _ 2 (by decide)
  · rfl

theorem beginDrain_dom (s : State) (mb d j : Nat) :
    (beginDrain s mb d).dom j = if j = d then { s.dom d with
      st := .draining, drainWait := false, drainMb := some mb, until_ := s.now + us (clampTo 10 100000 (s.reg 0x10010).toNat) } else s.dom j :=
  Tbl.get_set ..

theorem waitCmd_mb_same (s : State) (mb : Nat) : ((waitCmd s mb).mb mb).st = .waiting :=
  congrArg Mailbox.st (State.modMb_mb_same s mb fun m => { m with st := .waiting })

/-! ## A forced power-down (R95) -/

/-- The votes on a domain dropped, those of the debug port with them. -/
def dropClients (s : State) (d : Nat) : State :=
  (s.modDom d fun x => { x with votes := [], temp := [] }).modDbg fun g => { g with votes := g.votes.filter fun e => decide (e ≠ d) }

theorem dropClients_dom (s : State) (d j : Nat) :
    (dropClients s d).dom j = if j = d then { s.dom d with votes := [], temp := [] } else s.dom j :=
  Tbl.get_set ..

theorem forcedDown_of_disabled {s : State} {d : Nat} (h : (s.dom d).st = .disabled) (mb : Nat) :
    forcedDown s mb d = done (dropClients s d) mb [] := by
  unfold forcedDown
  rw [refreshDom_of_not_entering (by simp [h])]
  exact if_pos h

/-! ## The executing command's response -/

theorem executing_done {s u : State} {op mb : Nat} {c : Cmd} (h : Executing s op mb c) (hu : u.her = s.her) (payload : List Byte) :
    RanDone u (done u mb payload) mb c payload :=
  executing_answers h hu 0 Cs.done 0 0 payload

theorem executing_refuses {s u : State} {op mb : Nat} {c : Cmd} (h : Executing s op mb c) (hu : u.her = s.her) (reason detail : Nat) :
    Answers u (refuse u mb reason detail) mb c 1 0 reason detail [] :=
  executing_answers h hu 1 0 reason detail []

section
variable {s : State} {mb : Nat} {c : Cmd}

theorem execPwrVoteRaise_executing (hx : Executing s 0x0800 mb c) (hraise : bit (wordAt c.payload 0) 16 = true) :
    execPwrVoteRaise s = .next (done ((voteDomains (wordAt c.payload 0)).foldl (fun s d => raiseVote s d (mbTenant mb)) s) mb []) := by
  simp only [execPwrVoteRaise, runCmd_executing hx, hraise, if_true]

theorem execPwrVoteWithdraw_executing (hx : Executing s 0x0800 mb c) (hdrop : bit (wordAt c.payload 0) 16 = false) :
    execPwrVoteWithdraw s = .next (done ((voteDomains (wordAt c.payload 0)).foldl (fun s d => dropVote s d (mbTenant mb)) s) mb []) := by
  simp only [execPwrVoteWithdraw, runCmd_executing hx, hdrop, Bool.false_eq_true, if_false]

theorem execPwrDownSoft_executing (hx : Executing s 0x0801 mb c) (hsoft : bit c.flags 8 = false) :
    execPwrDownSoft s = .next (softDown s mb (wordAt c.payload 0)) := by
  simp only [execPwrDownSoft, runCmd_executing hx, hsoft, Bool.false_eq_true, if_false]

theorem execPwrDownForced_executing (hx : Executing s 0x0801 mb c) (hforce : bit c.flags 8 = true) :
    execPwrDownForced s = .next (forcedDown s mb (wordAt c.payload 0)) := by
  simp only [execPwrDownForced, runCmd_executing hx, hforce, if_true]

end

/-! ## Drain, drain limit and holdoff (R92-R94) -/

/-- The last transfer of a draining domain is gone: no request waits, and it goes down at once (R94). -/
def drained (s : State) (d : Nat) : State := startEntry (s.modDom d fun x => { x with drainMb := none }) d

theorem drained_dom_same (s : State) (d : Nat) :
    (drained s d).dom d = { s.dom d with drainMb := none, st := .entering, until_ := s.now + us 2 } := by
  simp [drained, startEntry]

section
variable {s : State} {d : Fin 18}

theorem execDrainEnd_of_unvoted (hst : (s.dom d.val).st = .draining) (hv : heldVotes (s.dom d.val) = []) :
    execDrainEnd d s = .next (match (s.dom d.val).drainMb with
      | some m => done (drained s d.val) m []
      | none => drained s d.val) := by
  unfold execDrainEnd
  rw [if_pos ⟨hst, hv⟩]
  rfl

theorem execDrainEnd_of_voted {x : Nat} {r : List Nat} (hv : heldVotes (s.dom d.val) = x :: r) : execDrainEnd d s = .next s := by
  simp [execDrainEnd, hv]

theorem execDrainEnd_of_not_draining (hst : (s.dom d.val).st ≠ .draining) : execDrainEnd d s = .next s := by
  simp [execDrainEnd, hst]

theorem execDrainLimitExpire_of_not_draining (hst : (s.dom d.val).st ≠ .draining) : execDrainLimitExpire d s = .next s := by
  unfold execDrainLimitExpire
  split
  · next hd _ => exact absurd hd hst
  · rfl

theorem execDrainLimitExpire_of_voted {x : Nat} {r : List Nat} (hst : (s.dom d.val).st = .draining) (hv : heldVotes (s.dom d.val) = x :: r) :
    execDrainLimitExpire d s = .next (refuseDrain (s.atTime (s.dom d.val).until_) d.val x 3) := by
  simp [execDrainLimitExpire, hst, hv]

theorem execHoldoffExpire_of_holdoff (hst : (s.dom d.val).st = .holdoff) :
    execHoldoffExpire d s = .next (startEntry (s.atTime (s.dom d.val).until_) d.val) := by
  simp [execHoldoffExpire, hst]

theorem execHoldoffExpire_of_not_holdoff (hst : (s.dom d.val).st ≠ .holdoff) : execHoldoffExpire d s = .next s := by
  simp [execHoldoffExpire, hst]

end

/-! ## The power commands and events -/

/-- Settles O35: each clause is the lemma on its operation, and what that leaves is read off its rule for `State.dom`. -/
theorem powerVotesAndDrains : Obligations.PowerVotesAndDrains := by
  unfold Obligations.PowerVotesAndDrains
  refine ⟨?vote, ?raiseOn, ?raiseOff, ?last, ?soft, ?forced, ?drain, fun s => rfl⟩
  case vote =>
    intro s mb c hx
    exact ⟨fun hraise => execPwrVoteRaise_executing hx hraise, fun hdrop => execPwrVoteWithdraw_executing hx hdrop⟩
  case raiseOn =>
    intro s d client hv hst
    rw [raiseVote_of_on hv client hst]
    refine ⟨?_, ?_, fun e he => (State.modDom_dom ..).trans (if_neg he), rfl⟩
    · rw [State.modDom_dom_same]
    · rw [State.modDom_dom_same]; exact hst
  case raiseOff =>
    intro s d client hv hst
    rw [raiseVote_of_off hv client hst]
    refine ⟨?_, ?_, ?_, startWake_ramp _ d, fun e he => ?_, rfl⟩
    · simp [startWake_dom]
    · simp [startWake_dom]
    · simp [startWake_dom]
    · simp [startWake_dom, State.modDom_dom, he]
  case last =>
    intro s d client hv hst hvotes htemp
    rw [dropVote_last hv client hst hvotes htemp]
    refine ⟨?_, ?_, ?_, fun e he => ?_⟩
    · simp
    · simp
    · simp
    · simp [State.modDom_dom, he]
  case soft =>
    intro s mb c hx hsoft d v
    have hexec : exec .pwrDownSoft s = .next (softDown s mb d) := execPwrDownSoft_executing hx hsoft
    refine ⟨fun hdown => ?_, fun x r hst hvoted => ?_, fun hst hfree => ?_⟩
    · rw [softDown_of_down hdown] at hexec
      exact ⟨_, hexec, executing_done hx rfl []⟩
    · rw [softDown_of_voted hst hvoted] at hexec
      refine ⟨_, _, hexec, executing_refuses (u := domLog s d x 1) hx rfl 1 x, ?_, ?_, fun e he => (domLog_dom ..).trans (if_neg he)⟩
      · simp [domLog_dom]
      · simp [domLog_dom, hst]
    · rw [softDown_of_unvoted hst hfree] at hexec
      have honly := logTransfer_only s d
      refine ⟨_, hexec, ?_, ?_, ?_, waitCmd_mb_same _ mb, fun e he => ?_, ?_⟩
      · simp [beginDrain_dom]
      · simp [beginDrain_dom]
      · simp [beginDrain_dom, logTransfer_drainLimit, logTransfer_now]
      · rw [beginDrain_dom, if_neg he, logTransfer_dom_other s he]
      · unfold beginDrain
        rw [honly]; rfl
  case forced =>
    intro s mb c hx hforce d
    have hexec : exec .pwrDownForced s = .next (forcedDown s mb d) := execPwrDownForced_executing hx hforce
    refine ⟨fun hst => ?_, hexec⟩
    rw [forcedDown_of_disabled hst] at hexec
    refine ⟨_, _, hexec, executing_done (u := dropClients s d) hx rfl [], ?_, ?_, ?_, fun e he => (dropClients_dom ..).trans (if_neg he), rfl⟩
    · simp [dropClients_dom]
    · simp [dropClients_dom]
    · simp [dropClients_dom, hst]
  case drain =>
    intro s d
    refine ⟨fun hst hv => ?_, fun hst => ?_, fun x r hst hv => ?_, fun hst => ?_, fun hst => execHoldoffExpire_of_not_holdoff hst⟩
    · have hexec := execDrainEnd_of_unvoted hst hv
      refine ⟨drained s d.val, ?_, ?_, ?_, rfl, fun hmb => ?_, fun m hmb => ?_⟩
      · rw [drained_dom_same]
      · rw [drained_dom_same]
      · rw [drained_dom_same]
      · rw [hmb] at hexec
        exact hexec
      · rw [hmb] at hexec
        exact hexec
    · exact ⟨execDrainEnd_of_not_draining hst, execDrainLimitExpire_of_not_draining hst⟩
    · exact ⟨execDrainEnd_of_voted hv, execDrainLimitExpire_of_voted hst hv⟩
    · refine ⟨_, execHoldoffExpire_of_holdoff hst, ?_, rfl, ?_, fun e he => ?_, rfl⟩
      · simp [startEntry_dom]
      · exact congrArg Dom.until_ ((startEntry_dom ..).trans (if_pos rfl))
      · simp [startEntry_dom, he]

end Sys2Proof.Machine
end

section
/-! A wake that is done or fails, and the release of a domain (R95-R98, R509). -/

namespace Sys2Proof.Machine

/-! ## A wake is done (R96) -/

/-- The domain is ON, reason and held accesses gone, and one wake is counted. -/
def wokenUp (s : State) (d : Nat) : State :=
  (s.modDom d fun x => { x with st := .on, drainWait := false, reason := 0, held := [] }).incReg (domReg d 0x20)

theorem wokenUp_dom (s : State) (d j : Nat) :
    (wokenUp s d).dom j = if j = d then { s.dom d with st := .on, drainWait := false, reason := 0, held := [] } else s.dom j :=
  Tbl.get_set ..

theorem wokenUp_reg (s : State) (d k : Nat) :
    (wokenUp s d).reg k = if k = domReg d 0x20 then s.reg (domReg d 0x20) + 1 else s.reg k :=
  Tbl.get_set ..

theorem wakeDone_idle {s : State} {d : Nat} (h : (s.dom d).st ≠ .waking ∨ d ∈ s.pwr.ramp) : wakeDone s d = s :=
  if_pos h

theorem wakeDone_on {s : State} {d : Nat} (hst : (s.dom d).st = .waking) (hramp : d ∉ s.pwr.ramp)
    (hwait : (s.dom d).drainWait = false) (hfail : d ∉ s.mram.islandFailed) :
    wakeDone s d = checkIdle ((s.dom d).held.foldl (fun s h => heldGo s d h) (wokenUp s d)) d := by
  unfold wakeDone
  simp [hst, hramp, hwait, hfail, wokenUp, State.modDom]

/-- A domain that holds a vote is not idle (R92). -/
theorem checkIdle_of_voted {s : State} {d : Nat} (h : heldVotes (s.dom d) ≠ []) : checkIdle s d = s := by
  simp [checkIdle, h]

/-! ## A wake fails (R98) -/

/-- The domain is RETIRED at the time its wake was due, its mark set in MRAM, with nothing held and no vote of an access. -/
def retired (s : State) (d : Nat) : State :=
  (retireDomain (s.atTime (s.dom d).until_) d).modDom d fun x => { x with held := [], temp := [], drainMb := none, drainWait := false }

theorem retired_dom (s : State) (d j : Nat) :
    (retired s d).dom j = if j = d then
        { s.dom d with st := .disabled, reason := 2, held := [], temp := [], drainMb := none, drainWait := false }
      else s.dom j := by
  have hret : ∀ i, (retireDomain (s.atTime (s.dom d).until_) d).dom i = if i = d then { s.dom d with st := .disabled, reason := 2 } else s.dom i :=
    fun i => Tbl.get_set ..
  unfold retired
  rw [State.modDom_dom, hret, hret, if_pos rfl]
  split <;> rfl

/-- The record of a failed wake (R98). -/
def wakeFailEv (d : Nat) : Ev := { code := Ev.islandWakeFail, src := srcSalt, data := leBytes 2 d }

theorem wakeFail_idle {s : State} {d : Nat} (h : (s.dom d).st ≠ .waking) : wakeFail s d = s :=
  if_pos h

theorem wakeFail_first {s : State} {d : Nat} (hst : (s.dom d).st = .waking) (hheld : (s.dom d).held = []) (hmb : (s.dom d).drainMb = none)
    (hfail : d ∉ s.mram.islandFailed) : wakeFail s d = islandLost ((retired s d).raise (wakeFailEv d)) d := by
  unfold wakeFail
  simp [hst, hheld, hmb, hfail, retired, wakeFailEv]

/-! ## A release (R95, R99, R102) -/

theorem bit_zero_toNat (v : Word) : bit v.toNat 0 = v.getLsbD 0 := by
  simp [bit, BitVec.getLsbD, Nat.testBit_zero]

/-- A forced power-down released: the domain is OFF. -/
def unforced (s : State) (d : Nat) : State := s.modDom d fun x => { x with st := .off, reason := 0 }

theorem domRelease_ignored {s : State} {d v : Nat} (h : bit v 0 = false ∨ (s.dom d).st ≠ .disabled ∨ (s.dom d).reason ≠ 3) :
    domRelease s d v = s := by
  refine if_neg ?_
  rintro ⟨hbit, hst, hreason⟩
  rcases h with h | h | h
  · exact absurd hbit (by simp [h])
  · exact h hst
  · exact h hreason

theorem domRelease_forced {s : State} {d v : Nat} (hbit : bit v 0 = true) (hst : (s.dom d).st = .disabled) (hreason : (s.dom d).reason = 3) :
    domRelease s d v = if heldVotes (s.dom d) = [] then unforced s d else startWake (unforced s d) d := by
  have hvotes : heldVotes ((unforced s d).dom d) = heldVotes (s.dom d) := by simp [unforced, heldVotes]
  rw [← hvotes]
  exact if_pos ⟨hbit, hst, hreason⟩

/-! ## The events -/

/-- Settles O36: a wake done is `wokenUp`, a wake failed `retired`, a release `unforced`, each with the lemma that says when. -/
theorem islandsWakeOrFail : Obligations.IslandsWakeOrFail := by
  unfold Obligations.IslandsWakeOrFail
  refine ⟨?done, ?held, ?fail, ?release⟩
  case done =>
    intro s d
    refine ⟨fun h => congrArg Host.Outcome.next (wakeDone_idle h), fun hst hramp hheld hwait hfail hv => ?_⟩
    have hvoted : heldVotes ((wokenUp s d.val).dom d.val) ≠ [] := by simpa [wokenUp_dom, heldVotes] using hv
    have hexec : wakeDone s d.val = wokenUp s d.val := by
      rw [wakeDone_on hst hramp hwait hfail, hheld, List.foldl_nil, checkIdle_of_voted hvoted]
    refine ⟨_, congrArg Host.Outcome.next hexec, ?_, ?_, ?_, ?_, fun k hk => ?_, fun e he => ?_, rfl⟩
    · simp [wokenUp_dom]
    · simp [wokenUp_dom]
    · simp [wokenUp_dom]
    · simp [wokenUp_reg]
    · simp [wokenUp_reg, hk]
    · simp [wokenUp_dom, he]
  case held =>
    intro s d h r hst hramp hheld hwait hfail
    refine ⟨wokenUp s d.val, ?_, ?_, rfl, ?_⟩
    · simp [wokenUp_dom]
    · simp [wokenUp_dom]
    · refine congrArg Host.Outcome.next ?_
      rw [wakeDone_on hst hramp hwait hfail, hheld, List.foldl_cons]
  case fail =>
    intro s d
    refine ⟨fun h => congrArg Host.Outcome.next (wakeFail_idle h), fun hst hheld hmb hfail hr => ?_⟩
    have hrec : Records (retired s d.val) ((retired s d.val).raise (wakeFailEv d.val)) (wakeFailEv d.val) :=
      raise_records _ _ hr rfl (.inr rfl)
    refine ⟨_, _, congrArg Host.Outcome.next (wakeFail_first hst hheld hmb hfail), ?_, ?_, rfl, fun e he => ?_, rfl, hrec⟩
    · simp [retired_dom]
    · simp [retired_dom]
    · simp [retired_dom, he]
  case release =>
    intro s d v
    rw [← bit_zero_toNat]
    refine ⟨fun h => congrArg Host.Outcome.next (domRelease_ignored h), fun hbit hst hreason => ?_⟩
    have hexec : exec (.pwrDomRelease d v) s = .next (domRelease s d.val v.toNat) := rfl
    rw [domRelease_forced hbit hst hreason] at hexec
    refine ⟨fun hv => ?_, fun hv => ?_⟩
    · rw [if_pos hv] at hexec
      exact ⟨_, hexec, State.modDom_dom_same .., fun e he => (State.modDom_dom ..).trans (if_neg he), rfl⟩
    · rw [if_neg hv] at hexec
      refine ⟨_, hexec, ?_, ?_, ?_, rfl⟩
      · simp [startWake_dom]
      · simp [startWake_dom, unforced]
      · simp [startWake_dom, unforced]

end Sys2Proof.Machine
end

section
/-! Tide watch (R78, R104-R111): arming, entry, the sampled period, and the exits. -/

namespace Sys2Proof.Machine

/-! ## The tide commands (R78, R104) -/

/-- The watch armed with a period and its points, the last cause cleared (R104). -/
def tideArmed (s : State) (period : Nat) (l : List TidePt) : State :=
  s.modTide fun t => { t with armed := true, period := period, points := l, cause := 0, value := 0, matched := 0 }

theorem tideArmEff_accepted {s : State} {c : Cmd} (h : tideRefusal s (wordAt c.payload 0) (tideList c.payload) = 0) (mb : Nat) :
    tideArmEff s mb c = done (tideArmed s (wordAt c.payload 0) (tideList c.payload)) mb [] := by
  unfold tideArmEff
  dsimp only
  rw [h]
  rfl

theorem tideArmEff_refused {s : State} {c : Cmd} (h : tideRefusal s (wordAt c.payload 0) (tideList c.payload) ≠ 0) (mb : Nat) :
    tideArmEff s mb c = refuse s mb (tideRefusal s (wordAt c.payload 0) (tideList c.payload)) 0 := by
  unfold tideArmEff
  dsimp only
  split
  · next h0 => exact absurd h0 h
  · rfl

theorem execTideDisarm_executing {s : State} {mb : Nat} {c : Cmd} (hx : Executing s 0x0803 mb c) :
    execTideDisarm s = .next (done (s.modTide fun t => { t with armed := false }) mb []) :=
  runCmd_executing hx _

theorem execTempWarnSet_executing {s : State} {mb : Nat} {c : Cmd} (hx : Executing s 0x0804 mb c) :
    execTempWarnSet s = .next (done (s.modMon fun m => { m with warnThr := wordAt c.payload 0 }) mb []) :=
  runCmd_executing hx _

/-! ## Entry (R105) -/

/-- Steps 3 and 4 of entry before the watch is active: the record, the frozen timeouts, the log committed, and the islands dark. -/
def tideDark (s : State) : State :=
  goDark (commitAll ((s.raise (saltEv Ev.tideEnter)).modTide fun x => { x with frozen := tideFreeze (s.raise (saltEv Ev.tideEnter)) }) 600)

theorem tideEnterEff_idle {s : State} (h : s.tide.entering = false) : tideEnterEff s = s := by
  simp [tideEnterEff, h]

theorem tideEnterEff_entering {s : State} (h : s.tide.entering = true) :
    tideEnterEff s = (tideDark s).modTide fun t => { t with active := true, entering := false } := by
  unfold tideEnterEff
  rw [h]
  rfl

/-! ## A sampled period (R106-R110) -/

/-- Steps that each change the ports alone change the ports alone together. -/
theorem foldl_out_only {α : Type} {f : State → α → State} (h : ∀ u x, f u x = { u with out := (f u x).out }) (l : List α) (s : State) :
    l.foldl f s = { s with out := (l.foldl f s).out } := by
  induction l generalizing s with
  | nil => rfl
  | cons x r ih => rw [List.foldl_cons, ih (f s x), h s x]

/-- The reads of a period put bus cycles out and change nothing else (R107). -/
theorem tideReads_only (s : State) : tideReads s = { s with out := (tideReads s).out } :=
  foldl_out_only (fun u _ => foldl_out_only (fun _ _ => rfl) _ u) _ s

section
variable (s : State) (l : List TideSample) (p : Bool)

/-- The points whose debounce counts the samples meet. -/
def tideMetPoints : List Nat := ((tidePairs s l).filter fun e => tideMet e.2.1 e.2.2).map fun e => e.1

/-- The points whose register reads failed. -/
def tideFailures : List (Nat × TidePt × Option TideSample) := (tidePairs s l).filter fun e => tideFailed e.2.1 e.2.2

/-- One of the failed reads wakes (R109). -/
def tideErrWakes : Bool := (tideFailures s l).any fun e => tpErrWake e.2.1

/-- The period's reads are out, its time gone by, the failed reads that do not wake counted, and every point stepped. -/
def tideSampled : State :=
  ((tideReads (s.atTime (s.now + ms s.tide.period))).addReg 0x10038 ((tideFailures s l).filter fun e => !tpErrWake e.2.1).length).modTide
    fun t => { t with points := (tidePairs s l).map fun e => tideStep e.2.1 e.2.2 }

/-- The cause of a wake by the samples and WAKE_N, as tide watch is left (R110). -/
def tideWaking : State :=
  let low := nth (tideMetPoints s l) 0 0
  ((tideSampled s l).modTide fun t => { t with
      cause := w32 (low + 256 * b2n (decide (tideMetPoints s l ≠ [])) + 512 * b2n (tideErrWakes s l) + 1024 * b2n (p && !s.pins.perst))
      value := if tideMetPoints s l = [] then 0 else (nth (tideSampled s l).tide.points low (tidePoint [] 0)).prev.getD 0
      matched := (tideMetPoints s l).foldl (fun m i => m ||| BitVec.ofNat 64 (2 ^ i)) 0
      woke := true }).modPins fun q => { q with wake := true, perst := q.perst || (p && !s.pins.perst) }

/-- A sampled period changes the time, the ports, the counter of failed reads and the points, and nothing else. -/
theorem tideSampled_eq : tideSampled s l
    = { s with
        now := max s.now (s.now + ms s.tide.period), out := (tideSampled s l).out, regs := (tideSampled s l).regs
        tide := { s.tide with points := (tidePairs s l).map fun e => tideStep e.2.1 e.2.2 } } := by
  unfold tideSampled
  rw [tideReads_only]
  rfl

theorem tideSampled_reg (k : Nat) : (tideSampled s l).reg k
    = if k = 0x10038 then s.reg k + w32 ((tideFailures s l).filter fun e => !tpErrWake e.2.1).length else s.reg k := by
  have hreads : (tideReads (s.atTime (s.now + ms s.tide.period))).reg 0x10038 = s.reg 0x10038 := by rw [tideReads_only]; rfl
  have hother : (tideReads (s.atTime (s.now + ms s.tide.period))).reg k = s.reg k := by rw [tideReads_only]; rfl
  unfold tideSampled
  simp only [State.modTide_frame, State.addReg_reg, hreads, hother]
  split
  · next hk => rw [hk]
  · rfl

theorem tideWaking_perst : (tideWaking s l p).pins.perst = (s.pins.perst || p) := by
  have h : (tideWaking s l p).pins.perst = ((tideSampled s l).pins.perst || (p && !s.pins.perst)) := rfl
  rw [h, tideSampled_eq]
  cases p <;> cases s.pins.perst <;> rfl

theorem tideWaking_now : (tideWaking s l p).now = max s.now (s.now + ms s.tide.period) := by
  have h : (tideWaking s l p).now = (tideSampled s l).now := rfl
  rw [h, tideSampled_eq]

theorem tideWaking_cause {i : Nat} {r : List Nat} (hmet : tideMetPoints s l = i :: r) :
    (tideWaking s l p).tide.cause = w32 (i + 256 + 512 * b2n (tideErrWakes s l) + 1024 * b2n (p && !s.pins.perst)) := by
  simp [tideWaking, hmet, nth, b2n]

/-- With no waking failure every failed read is counted (R109). -/
theorem tideFailures_all_counted {s : State} {l : List TideSample} (hwakes : tideErrWakes s l = false) :
    ((tideFailures s l).filter fun e => !tpErrWake e.2.1) = tideFailures s l := by
  rw [List.filter_eq_self]
  simpa [tideErrWakes] using hwakes

theorem tideSampleEff_inactive {s : State} (h : s.tide.active = false) : tideSampleEff s l p = s := by
  simp [tideSampleEff, h]

end

section
variable {s : State} (l : List TideSample) (p : Bool) (ha : s.tide.active = true)
include ha

/-- An active watch after its samples: it goes on, PERST_N wakes it, or the samples do. -/
theorem tideSampleEff_active : tideSampleEff s l p
    = if tideMetPoints s l = [] ∧ !tideErrWakes s l then (if p && !s.pins.perst then tidePerst (tideSampled s l) else tideSampled s l)
      else tideLeave (tideWaking s l p) := by
  have hpairs : tidePairs (tideReads (s.atTime (s.now + ms s.tide.period))) l = tidePairs s l := by rw [tideReads_only]; rfl
  unfold tideSampleEff
  simp only [ha, Bool.not_true, Bool.false_eq_true, if_false, hpairs]
  rfl

/-- With no count met and no waking failure, and PERST_N not rising, the watch goes on. -/
theorem tideSampleEff_goesOn (hmet : tideMetPoints s l = []) (hwakes : tideErrWakes s l = false) (hp : p = false ∨ s.pins.perst = true) :
    tideSampleEff s l p = tideSampled s l := by
  rw [tideSampleEff_active l p ha, if_pos (by simp [hmet, hwakes])]
  rcases hp with hp | hp <;> simp [hp]

theorem tideSampleEff_wakes {i : Nat} {r : List Nat} (hmet : tideMetPoints s l = i :: r) :
    tideSampleEff s l p = tideLeave (tideWaking s l p) := by
  rw [tideSampleEff_active l p ha, if_neg (by simp [hmet])]

end

/-! ## PERST_N rises in tide watch (R111) -/

/-- The pin is high and the cause names PERST_N alone. -/
def perstWaking (s : State) : State :=
  (s.modPins fun p => { p with perst := true }).modTide fun t => { t with cause := 1024#32, value := 0, matched := 0 }

theorem execTideExitPerst_wakes {s : State} (ha : s.tide.active = true) (hp : s.pins.perst = false) :
    execTideExitPerst s = .next ((tideLeave (perstWaking s)).raise { saltEv Ev.tideWake with data := leBytes 4 1024 }) := by
  unfold execTideExitPerst
  rw [if_pos (by simp [ha, hp])]
  rfl

theorem execTideExitPerst_ignored {s : State} (h : s.tide.active = false ∨ s.pins.perst = true) : execTideExitPerst s = .next s := by
  rcases h with h | h <;> simp [execTideExitPerst, h]

/-! ## The commands and events -/

/-- Settles O37: arming splits on the refusal (its order is log entry 58), a period on the counts met, and each case is read off its lemma. -/
theorem tideWatch : Obligations.TideWatch := by
  unfold Obligations.TideWatch
  refine ⟨?arm, ?disarm, ?warn, ?enter, ?outside, ?sample, ?perst⟩
  case arm =>
    intro s mb c hx why
    have hexec : exec .tideArm s = .next (tideArmEff s mb c) := runCmd_executing hx _
    refine ⟨fun hwhy => ?_, fun hwhy => ?_⟩
    · rw [tideArmEff_refused hwhy] at hexec
      exact ⟨_, hexec, executing_refuses hx rfl why 0⟩
    · rw [tideArmEff_accepted hwhy] at hexec
      exact ⟨_, hexec, executing_done (u := tideArmed s (wordAt c.payload 0) (tideList c.payload)) hx rfl []⟩
  case disarm =>
    intro s mb c hx
    exact ⟨_, execTideDisarm_executing hx, executing_done (u := s.modTide fun t => { t with armed := false }) hx rfl []⟩
  case warn =>
    intro s mb c hx
    exact ⟨_, execTempWarnSet_executing hx, executing_done (u := s.modMon fun m => { m with warnThr := wordAt c.payload 0 }) hx rfl []⟩
  case enter =>
    intro s
    refine ⟨fun h => congrArg Host.Outcome.next (tideEnterEff_idle h), fun h => ?_⟩
    exact ⟨tideDark s, _, congrArg Host.Outcome.next (tideEnterEff_entering h), rfl, rfl⟩
  case outside =>
    intro s l p h
    exact congrArg Host.Outcome.next (tideSampleEff_inactive l p h)
  case sample =>
    intro s l p ha prs met failed wakes
    refine ⟨fun hmet hwakes hp => ?_, fun i r hmet => ?_⟩
    · have heq := tideSampled_eq s l
      have hcount := tideSampled_reg s l 0x10038
      rw [if_pos rfl, tideFailures_all_counted hwakes] at hcount
      refine ⟨_, congrArg Host.Outcome.next (tideSampleEff_goesOn l p ha hmet hwakes hp), ?_, ?_, hcount, fun k hk => ?_, ?_⟩
      · rw [heq]
      · rw [heq]
      · rw [tideSampled_reg, if_neg hk]
      · rw [heq]
    · refine ⟨tideWaking s l p, congrArg Host.Outcome.next (tideSampleEff_wakes l p ha hmet), rfl, rfl, ?_, ?_, ?_⟩
      · exact tideWaking_cause s l p hmet
      · exact tideWaking_perst s l p
      · exact tideWaking_now s l p
  case perst =>
    intro s
    refine ⟨fun ha hp => ?_, fun h => execTideExitPerst_ignored h⟩
    exact ⟨perstWaking s, rfl, rfl, rfl, rfl, execTideExitPerst_wakes ha hp⟩

end Sys2Proof.Machine
end

section
/-! The host link's states (R105, R192, R196, R532, R535): what a surprise link down clears, and that ending the work in flight takes nothing from the VFs that existed. -/

namespace Sys2Proof.Machine

/-! ## What a link down remembers -/

/-- The VFs that exist, those remembered, and the applied image: what a surprise link down reads after the work in flight has ended (R196 step 3, R535). The rules for single updates below are proved by the tactic `rfl`, so that `simp` rewrites with them and the kernel need not compare whole states. -/
def State.vfPart (s : State) : (Bool × Nat × List Nat) × Image := ((s.ep.vfEnable, s.ep.numVfs, s.ep.keptVfs), s.img)

@[simp] theorem State.modFn_vfPart (s : State) (k : Nat) (f : FnState → FnState) : (s.modFn k f).vfPart = s.vfPart := by rfl
@[simp] theorem State.modPort_vfPart (s : State) (k : Nat) (f : Port → Port) : (s.modPort k f).vfPart = s.vfPart := by rfl
@[simp] theorem State.modLink_vfPart (s : State) (k : Nat) (f : Link → Link) : (s.modLink k f).vfPart = s.vfPart := by rfl
@[simp] theorem State.modDom_vfPart (s : State) (k : Nat) (f : Dom → Dom) : (s.modDom k f).vfPart = s.vfPart := by rfl
@[simp] theorem State.modQ_vfPart (s : State) (k : Nat) (f : QCtx → QCtx) : (s.modQ k f).vfPart = s.vfPart := by rfl
@[simp] theorem State.modSlot_vfPart (s : State) (k : Nat) (f : Slot → Slot) : (s.modSlot k f).vfPart = s.vfPart := by rfl
@[simp] theorem State.modSched_vfPart (s : State) (k : Nat) (f : Sched → Sched) : (s.modSched k f).vfPart = s.vfPart := by rfl
@[simp] theorem State.modHar_vfPart (s : State) (f : Harvest → Harvest) : (s.modHar f).vfPart = s.vfPart := by rfl
@[simp] theorem State.modLiq_vfPart (s : State) (f : Liquor → Liquor) : (s.modLiq f).vfPart = s.vfPart := by rfl
@[simp] theorem State.modWin_vfPart (s : State) (f : Windows → Windows) : (s.modWin f).vfPart = s.vfPart := by rfl
@[simp] theorem State.modReads_vfPart (s : State) (f : List HeldRead → List HeldRead) : (s.modReads f).vfPart = s.vfPart := by rfl
@[simp] theorem State.setReg_vfPart (s : State) (k : Nat) (v : Word) : (s.setReg k v).vfPart = s.vfPart := by rfl
@[simp] theorem State.incReg_vfPart (s : State) (k : Nat) : (s.incReg k).vfPart = s.vfPart := by rfl
@[simp] theorem State.addReg_vfPart (s : State) (k n : Nat) : (s.addReg k n).vfPart = s.vfPart := by rfl
@[simp] theorem State.emit_vfPart (s : State) (o : Output) : (s.emit o).vfPart = s.vfPart := by rfl
@[simp] theorem modRead_vfPart (s : State) (u : Nat) (f : HeldRead → HeldRead) : (modRead s u f).vfPart = s.vfPart := by rfl
@[simp] theorem delRead_vfPart (s : State) (u : Nat) : (delRead s u).vfPart = s.vfPart := by rfl

@[simp] theorem vfPart_ite (c : Prop) [Decidable c] (a b : State) : (if c then a else b).vfPart = if c then a.vfPart else b.vfPart :=
  apply_ite State.vfPart c a b

@[simp] theorem foldl_vfPart {α : Type} (f : State → α → State) (l : List α) (s : State) (h : ∀ u x, (f u x).vfPart = u.vfPart) :
    (l.foldl f s).vfPart = s.vfPart :=
  foldl_keeps State.vfPart f l s h

/-! ## Ending the reads of the host (R196 step 2, R352) -/

@[simp] theorem mirrorNote_vfPart (s : State) (t : Nat) (r : MirrorRec) : (mirrorNote s t r).vfPart = s.vfPart := by
  unfold mirrorNote
  split <;> rfl

@[simp] theorem noteTag_vfPart (s : State) (l : LiqLine) (here : Bool) : (noteTag s l here).vfPart = s.vfPart :=
  mirrorNote_vfPart ..

@[simp] theorem dlogFate_vfPart (s : State) (t target space line fate : Nat) : (dlogFate s t target space line fate).vfPart = s.vfPart := by
  unfold dlogFate
  dsimp only
  split <;> rfl

@[simp] theorem dlogAdd_vfPart (s : State) (e : DlogEntry) : (dlogAdd s e).vfPart = s.vfPart := by
  unfold dlogAdd
  dsimp only
  split <;> rfl

@[simp] theorem liqRemove_vfPart (s : State) (p : LiqLine → Bool) (q : LiqLine → LiqByte → Bool) (fate cnt : Nat) :
    (liqRemove s p q fate cnt).vfPart = s.vfPart := by
  simp [liqRemove]

@[simp] theorem liqConsume_vfPart (s : State) (t target space : Nat) (addrs : List Nat) :
    (liqConsume s t target space addrs).vfPart = s.vfPart :=
  liqRemove_vfPart ..

@[simp] theorem liqRetainLine_vfPart (s : State) (t target space line pool reason cls : Nat) (bs : List (Nat × Byte)) :
    (liqRetainLine s t target space line pool reason cls bs).vfPart = s.vfPart := by
  simp [liqRetainLine]

@[simp] theorem liqRetain_vfPart (s : State) (t target space pool reason cls : Nat) (stale : List (Nat × Nat)) (bs : List (Nat × Byte)) :
    (liqRetain s t target space pool reason cls stale bs).vfPart = s.vfPart := by
  simp [liqRetain]

@[simp] theorem liqRestore_vfPart (s : State) (r : HeldRead) (lo : Nat) : (liqRestore s r lo).vfPart = s.vfPart := by
  simp [liqRestore]

@[simp] theorem serveWaiters_vfPart (s : State) (r : HeldRead) (cs addr : Nat) : (serveWaiters s r cs addr).vfPart = s.vfPart := by
  simp [serveWaiters, serveWaiter]

@[simp] theorem ltRetain_vfPart (s : State) (r : HeldRead) (e : AccEnd) (base : Nat) : (ltRetain s r e base).vfPart = s.vfPart := by
  simp [ltRetain]

@[simp] theorem dropAccVote_vfPart (s : State) (a : Acc) : (dropAccVote s a).vfPart = s.vfPart := by
  unfold dropAccVote
  split
  · simp [dropTemp, checkIdle]
  · rfl

@[simp] theorem pullAccs_vfPart (s : State) (p : Acc → Bool) : (pullAccs s p).2.vfPart = s.vfPart := by
  simp [pullAccs]

@[simp] theorem dropRead_vfPart (s : State) (r : HeldRead) (why : Nat) : (dropRead s r why).vfPart = s.vfPart := by
  unfold dropRead
  dsimp only
  split
  · simp
  · split
    · simp
    · simp

/-- A read of the host that ends unanswered. -/
@[simp] theorem abortHostRead_vfPart (s : State) (r : HeldRead) (cs why : Nat) : (abortHostRead s r cs why false).vfPart = s.vfPart := by
  simp [abortHostRead]

@[simp] theorem dropHostReads_vfPart (s : State) : (dropHostReads s).vfPart = s.vfPart := by
  simp [dropHostReads]

/-! ## Abandoning the requests to the host (R196 step 2, R532) -/

@[simp] theorem dropRackTag_vfPart (s : State) (t p : Nat) (which : Option Nat) : (dropRackTag s t p which).vfPart = s.vfPart :=
  State.modFn_vfPart ..

@[simp] theorem latchErr_vfPart (s : State) (p addr cs space stop : Nat) (slave : Bool) :
    (latchErr s p addr cs space stop slave).vfPart = s.vfPart := by
  simp [latchErr]

@[simp] theorem inboundErr_vfPart (s : State) (p addr cs space : Nat) : (inboundErr s p addr cs space).vfPart = s.vfPart := by
  simp [inboundErr]

/-- A held read of the rack that ends without a record. -/
@[simp] theorem endHeldRack_vfPart (s : State) (p cs : Nat) : (endHeldRack s p cs none).vfPart = s.vfPart := by
  unfold endHeldRack
  split
  · rfl
  · simp [raiseOpt]

@[simp] theorem endDtSlot_vfPart (s : State) (p k cs : Nat) : (endDtSlot s p k cs).vfPart = s.vfPart := by
  simp [endDtSlot]

@[simp] theorem enqueueRec_vfPart (s : State) (r : EvRec) : (enqueueRec s r).vfPart = s.vfPart := by
  rw [enqueueRec_only]; rfl

@[simp] theorem flush64_vfPart (s : State) (c : HarCycle) : (flush64 s c).vfPart = s.vfPart := by
  unfold flush64
  split <;> simp

@[simp] theorem endCycle_vfPart (s : State) (h : Nat) : (endCycle s h).vfPart = s.vfPart := by
  unfold endCycle
  dsimp only
  split <;> simp

theorem abandon_vfPart (s : State) (u : TagUse) : (abandon s u).vfPart = s.vfPart := by
  unfold abandon
  split <;> simp

theorem abandonFn_vfPart (s : State) (fn : Nat) : (abandonFn s fn).2.vfPart = s.vfPart := by
  simp [abandonFn, abandon_vfPart]

/-! ## A surprise link down (R196, R535) -/

/-- The host link is down, its requests abandoned function by function: the uses that the tags had, and the state. -/
def linkLost (s : State) : List TagUse × State :=
  (List.range 66).foldl (fun (acc : List TagUse × State) fn => (acc.1 ++ (abandonFn acc.2 fn).1, (abandonFn acc.2 fn).2))
    ([], s.modEp fun e => { e with link := .down })

theorem linkLost_vfPart (s : State) : (linkLost s).2.vfPart = s.vfPart :=
  List.foldlRecOn (List.range 66) _ (motive := fun acc : List TagUse × State => acc.2.vfPart = s.vfPart) rfl
    fun acc h fn _ => (abandonFn_vfPart acc.2 fn).trans h

theorem liveVfs_of_vfPart {s t : State} (h : t.vfPart = s.vfPart) : liveVfs t = liveVfs s := by
  simp only [State.vfPart, Prod.mk.injEq] at h
  obtain ⟨⟨hen, hnum, -⟩, -⟩ := h
  simp [liveVfs, hen, hnum]

/-- Checking the windows against BAR2 changes no field of the endpoint (R216). -/
theorem reachCheck_ep (s : State) : (reachCheck s).ep = s.ep := by
  refine foldl_keeps State.ep _ _ _ fun u w => ?_
  dsimp only
  split
  · split
    · simp
    · split
      · rfl
      · rw [raise_only]; rfl
  · rfl

/-- Function after function changed, the rest of the endpoint and of the state is as it was. -/
theorem foldl_modFn_only (f : FnState → FnState) (l : List Nat) (s : State) :
    ∃ fns, l.foldl (fun s fn => s.modFn fn f) s = { s with ep := { s.ep with fns := fns } } := by
  induction l generalizing s with
  | nil => exact ⟨s.ep.fns, rfl⟩
  | cons k r ih =>
    obtain ⟨fns, h⟩ := ih (s.modFn k f)
    exact ⟨fns, h⟩

/-- Configuration space after a link down: no VF is enabled, those that existed are remembered, and BAR2 has the image's size. -/
theorem linkDownConfig_ep (s : State) : ∃ fns, (linkDownConfig s).ep
    = { s.ep with fns := fns, vfEnable := false, numVfs := 0, ari := false, vfBars := ⟨[]⟩, bar2Log2 := s.img.pf0Bar2Log2
                  keptVfs := (liveVfs s).foldl (fun l n => insertAsc n l) s.ep.keptVfs } := by
  obtain ⟨fns, h⟩ := foldl_modFn_only resetCfg (List.range 66) s
  refine ⟨fns, ?_⟩
  unfold linkDownConfig
  dsimp only
  rw [reachCheck_ep, h]
  rfl

/-- The link is down, the work in flight ended, configuration space reset and HOST_LINK_DOWN recorded with the counts of what was abandoned. -/
def linkDownSettled (s : State) : State :=
  ((linkDownConfig (dropHostReads (linkLost s).2)).incReg 0x434).raise
    { code := Ev.hostLinkDown, src := srcHc, enters := 2
      data := (List.range 5).flatMap fun k => leBytes 4 ((linkLost s).1.filter fun u => decide (useKind u = k)).length }

theorem linkDownEff_of_l0 {s : State} (h : s.ep.link = .l0) : linkDownEff s = enterDevice (linkDownSettled s) 0 := by
  unfold linkDownEff linkDownSettled
  rw [if_neg (by simp [h])]
  dsimp only
  generalize hlost : List.foldl _ (_ : List TagUse × State) (List.range 66) = x
  rw [show linkLost s = x from hlost]

theorem counted_ep (s : State) (k : Nat) (e : Ev) : ((s.incReg k).raise e).ep = s.ep := by
  rw [raise_only]
  rfl

/-- What `linkDownConfig` reads has not changed since the link went down. -/
theorem linkDownSettled_vfs (s : State) :
    (linkDownSettled s).ep.vfEnable = false ∧ (linkDownSettled s).ep.numVfs = 0 ∧ (linkDownSettled s).ep.ari = false
    ∧ (linkDownSettled s).ep.keptVfs = (liveVfs s).foldl (fun l n => insertAsc n l) s.ep.keptVfs
    ∧ (linkDownSettled s).ep.bar2Log2 = s.img.pf0Bar2Log2 := by
  have hpart : (dropHostReads (linkLost s).2).vfPart = s.vfPart := (dropHostReads_vfPart _).trans (linkLost_vfPart s)
  obtain ⟨fns, hep⟩ := linkDownConfig_ep (dropHostReads (linkLost s).2)
  have hsettled : (linkDownSettled s).ep = (linkDownConfig (dropHostReads (linkLost s).2)).ep := by
    unfold linkDownSettled
    exact counted_ep ..
  rw [liveVfs_of_vfPart hpart] at hep
  simp only [State.vfPart, Prod.mk.injEq] at hpart
  obtain ⟨⟨-, -, hkept⟩, himg⟩ := hpart
  rw [hsettled, hep]
  exact ⟨rfl, rfl, rfl, by rw [hkept], by rw [himg]⟩

/-! ## Training and L2 (R105, R192) -/

/-- With no tide wake to announce and no PME to send, a trained link is in L0 and no more (R110, R192). -/
theorem linkUp_quiet {s : State} (hwoke : s.tide.woke = false) (hpme : (s.fn 0).pmeStatus = false) :
    linkUp s = s.modEp fun e => { e with link := .l0 } := by
  have htide : tideWoken (s.modEp fun e => { e with link := .l0 }) = s.modEp fun e => { e with link := .l0 } :=
    if_neg (by simp [hwoke])
  have hfn : (s.modEp fun e => { e with link := .l0 }).fn 0 = s.fn 0 := rfl
  unfold linkUp
  rw [htide]
  exact if_neg (by simp [hfn, hpme])

theorem tideBegin_unarmed {s : State} (h : s.tide.armed = false) : tideBegin s = s :=
  if_pos (.inl (by simp [h]))

theorem execHostLinkL2_ready {s : State} (h : s.ep.link = .l23Ready) :
    execHostLinkL2 s = .next (if awake s then tideBegin (s.modEp fun e => { e with link := .l2 }) else s.modEp fun e => { e with link := .l2 }) := by
  unfold execHostLinkL2
  rw [if_pos h]
  rfl

/-! ## The events -/

/-- Settles O8: the link down is `linkDownSettled` before containment (BAR2's size is log entry 40), and each other event is its guard with the lemma on what it starts. -/
theorem hostLinkStates : Obligations.HostLinkStates := by
  unfold Obligations.HostLinkStates
  refine ⟨?down, ?trained, ?turnOff, ?l2, ?watch⟩
  case down =>
    intro s h
    exact ⟨_, linkDownSettled s, congrArg Host.Outcome.next (linkDownEff_of_l0 h), rfl, linkDownSettled_vfs s⟩
  case trained =>
    intro s hlink hwoke hpme
    have hguard : s.ep.link = .down ∨ (s.ep.link = .reset ∧ s.pins.perst ∧ 7 ≤ s.boot.step) := hlink
    exact congrArg Host.Outcome.next ((if_pos hguard).trans (linkUp_quiet hwoke hpme))
  case turnOff =>
    intro s h
    exact congrArg Host.Outcome.next (if_pos h)
  case l2 =>
    intro s h harmed
    have hquiet : tideBegin (s.modEp fun e => { e with link := .l2 }) = s.modEp fun e => { e with link := .l2 } := tideBegin_unarmed harmed
    have hexec := execHostLinkL2_ready h
    rw [hquiet, ite_self] at hexec
    exact hexec
  case watch =>
    intro s h hawake
    have hexec := execHostLinkL2_ready h
    rw [if_pos hawake] at hexec
    exact hexec

end Sys2Proof.Machine
end

section
/-! Image sessions (R119, R121, R123, R124): what writing a slot, a session and the boot record leaves of the slots, and the five commands. -/

namespace Sys2Proof.Machine

/-! ## Slots and sessions -/

theorem session_setSession_same (s : State) (kind : Nat) (x : Option ImgSession) : session (setSession s kind x) kind = x := by
  by_cases h : kind = 0 <;> simp [session, setSession, h]

@[simp] theorem setSession_mram (s : State) (kind : Nat) (x : Option ImgSession) : (setSession s kind x).mram = s.mram := rfl

/-- A session is written: the engine and the mailboxes are as they were. -/
theorem setSession_her (s : State) (kind : Nat) (x : Option ImgSession) :
    (setSession s kind x).her.exec = s.her.exec ∧ ∀ m, (setSession s kind x).mb m = s.mb m := by
  unfold setSession State.mb
  by_cases h : kind = 0 <;> simp [h]

@[simp] theorem modImg_boot (s : State) (kind n : Nat) (f : ImgSlot → ImgSlot) : (modImg s kind n f).mram.boot = s.mram.boot := by
  unfold modImg
  by_cases hk : kind = 0 <;> by_cases hn : n = 0 <;> simp [hk, hn]

/-- The slot that is changed. -/
theorem imgOf_modImg_same (s : State) (kind n : Nat) (f : ImgSlot → ImgSlot) : imgOf (modImg s kind n f) kind n = f (imgOf s kind n) := by
  by_cases hk : kind = 0 <;> by_cases hn : n = 0 <;> simp [imgOf, modImg, fwImg, cfgImg, hk, hn]

/-- A kind has two slots, and the other one keeps its bytes. -/
theorem imgOf_modImg_slot (s : State) (kind : Nat) {n : Nat} (hn : n ≤ 1) (f : ImgSlot → ImgSlot) :
    imgOf (modImg s kind n f) kind (1 - n) = imgOf s kind (1 - n) := by
  obtain rfl | rfl : n = 0 ∨ n = 1 := by omega
  all_goals by_cases hk : kind = 0 <;> simp [imgOf, modImg, fwImg, cfgImg, hk]

/-- The slots of the other kind keep their bytes. -/
theorem imgOf_modImg_kind (s : State) {kind : Nat} (hk : kind ≤ 1) (n : Nat) (f : ImgSlot → ImgSlot) (m : Nat) :
    imgOf (modImg s kind n f) (1 - kind) m = imgOf s (1 - kind) m := by
  obtain rfl | rfl : kind = 0 ∨ kind = 1 := by omega
  all_goals by_cases hn : n = 0 <;> simp [imgOf, modImg, fwImg, cfgImg, hn]

/-! ## Writing bytes (R123 step 2) -/

/-- Bytes written one after the other from an offset. -/
theorem foldl_set_bytes (bs : List Byte) (off i : Nat) (t : Tbl Byte) (j : Nat) :
    Tbl.get (fun _ => 0#8) (((List.range' i bs.length).zip bs).foldl (fun t e => t.set (fun _ => 0#8) (off + e.1) e.2) t) j
      = if off + i ≤ j ∧ j < off + i + bs.length then bs.getD (j - (off + i)) 0#8 else Tbl.get (fun _ => 0#8) t j := by
  induction bs generalizing i t with
  | nil =>
    simp
  | cons b bs ih =>
    rw [List.length_cons, List.range'_succ, List.zip_cons_cons, List.foldl_cons, ih, Tbl.get_set]
    by_cases hfirst : j = off + i
    · subst hfirst
      simp
    · by_cases hrest : off + (i + 1) ≤ j ∧ j < off + (i + 1) + bs.length
      · have hin : off + i ≤ j ∧ j < off + i + (bs.length + 1) := by omega
        have hidx : j - (off + i) = j - (off + (i + 1)) + 1 := by omega
        rw [if_pos hrest, if_pos hin, hidx, List.getD_cons_succ]
      · have hout : ¬(off + i ≤ j ∧ j < off + i + (bs.length + 1)) := by omega
        rw [if_neg hrest, if_neg hout, if_neg hfirst]

theorem writeImg_get (i : ImgSlot) (off : Nat) (bs : List Byte) (j : Nat) :
    Tbl.get (fun _ => 0#8) (writeImg i off bs).bytes j
      = if off ≤ j ∧ j < off + bs.length then bs.getD (j - off) 0#8 else Tbl.get (fun _ => 0#8) i.bytes j := by
  unfold writeImg
  rw [List.range_eq_range']
  exact foldl_set_bytes bs off 0 i.bytes j

/-! ## The commands' effects -/

/-- The inactive slot's header is invalidated. -/
def invalidated (s : State) (kind : Nat) : State := modImg s kind (inactiveSlot s kind) fun i => { i with valid := false }

/-- A session opened on the inactive slot, whose header is invalidated (R123 step 1). -/
def begun (s : State) (kind total : Nat) : State :=
  (setSession (invalidated s kind) kind (some { total := total, slot := inactiveSlot s kind })).modHer fun h => { h with lastKind := kind }

theorem inactiveSlot_le (s : State) (kind : Nat) : inactiveSlot s kind ≤ 1 := Nat.sub_le _ _

theorem session_begun (s : State) (kind total : Nat) :
    session (begun s kind total) kind = some { total := total, slot := inactiveSlot s kind } :=
  session_setSession_same (invalidated s kind) kind _

theorem begun_her (s : State) (kind total : Nat) :
    (begun s kind total).her.exec = s.her.exec ∧ ∀ m, (begun s kind total).mb m = s.mb m :=
  setSession_her (invalidated s kind) kind _

theorem begun_boot (s : State) (kind total : Nat) : (begun s kind total).mram.boot = s.mram.boot :=
  modImg_boot s kind _ fun i => { i with valid := false }

theorem imgOf_begun_inactive (s : State) (kind total : Nat) :
    imgOf (begun s kind total) kind (inactiveSlot s kind) = { imgOf s kind (inactiveSlot s kind) with valid := false } :=
  imgOf_modImg_same s kind _ fun i => { i with valid := false }

theorem imgOf_begun_active (s : State) (kind total : Nat) :
    imgOf (begun s kind total) kind (1 - inactiveSlot s kind) = imgOf s kind (1 - inactiveSlot s kind) :=
  imgOf_modImg_slot s kind (inactiveSlot_le s kind) fun i => { i with valid := false }

theorem imgOf_begun_kind (s : State) {kind : Nat} (hk : kind ≤ 1) (total n : Nat) :
    imgOf (begun s kind total) (1 - kind) n = imgOf s (1 - kind) n :=
  imgOf_modImg_kind s hk _ (fun i => { i with valid := false }) n

theorem commitNow_session (s : State) (kind n : Nat) (hc : Bool) : session (commitNow s kind n hc) kind = none := by
  by_cases h : kind = 0 <;> simp [commitNow, session, setSession, h]

theorem commitNow_firmware (s : State) (n : Nat) (hc : Bool) :
    (commitNow s 0 n hc).mram.boot = { s.mram.boot with fwPending := n, trial := true, attempts := 0 }
    ∧ (commitNow s 0 n hc).boot.trialUnconfirmed = false := by
  simp [commitNow]

theorem commitNow_configuration (s : State) {kind : Nat} (h : kind ≠ 0) (n : Nat) (hc : Bool) :
    (commitNow s kind n hc).mram.boot = { s.mram.boot with cfgActive := n } := by
  simp [commitNow, h]

theorem commitNow_her (s : State) (kind n : Nat) (hc : Bool) :
    (commitNow s kind n hc).her.exec = s.her.exec ∧ ∀ m, (commitNow s kind n hc).mb m = s.mb m := by
  have hses := setSession_her (modImg s kind n fun i => { i with valid := true }) kind none
  by_cases h : kind = 0
  · subst h; exact hses
  · unfold commitNow
    rw [if_neg h]
    exact hses

/-- The minimum security version is never lowered (R119). -/
theorem minSec_le_confirmTrial (s : State) : s.mram.minSec ≤ (confirmTrial s).mram.minSec := by
  simp only [confirmTrial, State.modBoot_frame, State.modMram_mram]
  split
  · exact Nat.le_max_left ..
  · exact Nat.le_refl _

/-! ## The commands -/

/-- The executing command is DONE on a state whose engine and mailboxes are as they were. -/
theorem executing_done_kept {s u : State} {op mb : Nat} {c : Cmd} (h : Executing s op mb c)
    (hu : u.her.exec = s.her.exec ∧ ∀ m, u.mb m = s.mb m) (payload : List Byte) : RanDone u (done u mb payload) mb c payload := by
  obtain ⟨hexec, hcmd, -, -⟩ := execCmd_some _ _ _ _ h
  exact respond_answers u mb c 0 Cs.done 0 0 payload (hu.1.trans hexec) ((congrArg Mailbox.cmd (hu.2 mb)).trans hcmd)

section
variable {s : State} {mb : Nat} {c : Cmd}

theorem imageBeginEff_open (h : (session s (wordAt c.payload 0)).isSome = true) : imageBeginEff s mb c = refuse s mb 1 0 := if_pos h

theorem imageBeginEff_closed (h : session s (wordAt c.payload 0) = none) :
    imageBeginEff s mb c = done (begun s (wordAt c.payload 0) (wordAt c.payload 4)) mb [] := if_neg (by simp [h])

variable {x : ImgSession}

theorem imageChunkEff_session (h : session s (chunkKind s) = some x) :
    imageChunkEff s mb c = if x.total < wordAt c.payload 0 + wordAt c.payload 4 then reject s mb Rej.badParam
      else done (modImg s (chunkKind s) x.slot fun i => writeImg i (wordAt c.payload 0) (c.payload.drop 8)) mb [] := by
  simp only [imageChunkEff, h]

theorem imageCommitEff_fails (h : session s (wordAt c.payload 0) = some x) (hc : imgCheck s (wordAt c.payload 0) x.slot ≠ 0) :
    imageCommitEff s mb c = refuse s mb (imgCheck s (wordAt c.payload 0) x.slot) 0 := by
  simp only [imageCommitEff, h]

theorem imageCommitEff_passes (h : session s (wordAt c.payload 0) = some x) (hc : imgCheck s (wordAt c.payload 0) x.slot = 0) :
    imageCommitEff s mb c = done (commitNow s (wordAt c.payload 0) x.slot (bit c.flags 8)) mb [] := by
  simp only [imageCommitEff, h, hc]

end

/-- Settles O18: each command's row runs its effect, and what that leaves is read off the lemmas on `begun`, `writeImg`, `commitNow` and `confirmTrial` (the slot chosen and the refusal reasons are log entries 44 and 45). -/
theorem imageSessions : Obligations.ImageSessions := by
  unfold Obligations.ImageSessions
  refine ⟨?begin, ?chunk, ?commit, ?confirm, ?read⟩
  case begin =>
    intro s mb c hx kind
    have hrun : exec .imageBegin s = .next (imageBeginEff s mb c) := runCmd_executing hx imageBeginEff
    refine ⟨fun hopen => ?_, fun hclosed hkind => ?_⟩
    · rw [imageBeginEff_open hopen] at hrun
      exact ⟨_, hrun, executing_refuses hx rfl 1 0⟩
    · rw [imageBeginEff_closed hclosed] at hrun
      refine ⟨_, begun s kind (wordAt c.payload 4), hrun, executing_done_kept hx ?_ [], session_begun .., imgOf_begun_inactive ..,
        fun _ => imgOf_begun_active .., imgOf_begun_kind s hkind _, begun_boot ..⟩
      exact begun_her ..
  case chunk =>
    intro s mb c x hx hses hslot
    have hrun : exec .imageChunk s = .next (imageChunkEff s mb c) := runCmd_executing hx imageChunkEff
    rw [imageChunkEff_session hses] at hrun
    refine ⟨fun hlong => ?_, fun hfits => ?_⟩
    · rw [if_pos hlong] at hrun
      exact ⟨_, hrun, executing_answers hx rfl 2 0 Rej.badParam 0 []⟩
    · rw [if_neg (Nat.not_lt.2 hfits)] at hrun
      refine ⟨_, _, hrun, executing_done (u := modImg s _ x.slot _) hx rfl [], fun j => ?_, imgOf_modImg_slot s _ hslot _, rfl⟩
      rw [imgOf_modImg_same, writeImg_get]
  case commit =>
    intro s mb c x hx hses kind
    have hrun : exec .imageCommit s = .next (imageCommitEff s mb c) := runCmd_executing hx imageCommitEff
    refine ⟨fun hfails => ?_, fun hpasses => ?_⟩
    · rw [imageCommitEff_fails hses hfails] at hrun
      exact ⟨_, hrun, executing_refuses hx rfl _ 0⟩
    · rw [imageCommitEff_passes hses hpasses] at hrun
      refine ⟨_, _, hrun, executing_done_kept hx (commitNow_her ..) [], commitNow_session .., fun hkind => ?_, fun hkind => ?_⟩
      · rw [show wordAt c.payload 0 = 0 from hkind]
        exact commitNow_firmware ..
      · exact commitNow_configuration s hkind ..
  case confirm =>
    intro s mb c hx
    have hrun : exec .imageConfirm s = .next (done (if s.boot.trialUnconfirmed then confirmTrial s else s) mb []) :=
      runCmd_executing hx fun s mb _ => done (if s.boot.trialUnconfirmed then confirmTrial s else s) mb []
    refine ⟨fun hnone => ?_, fun htrial => ?_⟩
    · rw [hnone] at hrun
      exact ⟨_, hrun, executing_done hx rfl []⟩
    · rw [htrial] at hrun
      exact ⟨_, confirmTrial s, hrun, executing_done (u := confirmTrial s) hx rfl [], rfl, rfl, minSec_le_confirmTrial s, rfl⟩
  case read =>
    intro s mb c hx
    have hrun : exec .imageRead s = .next (done s mb
        (imgBytes (imgOf s (wordAt c.payload 0) (wordAt c.payload 4)) (wordAt c.payload 8) (wordAt c.payload 12))) :=
      runCmd_executing hx fun s mb c => done s mb
        (imgBytes (imgOf s (wordAt c.payload 0) (wordAt c.payload 4)) (wordAt c.payload 8) (wordAt c.payload 12))
    exact ⟨_, hrun, executing_done hx rfl _⟩

end Sys2Proof.Machine
end

section
/-! Function level resets, VF Enable and the Resizable BAR (R126-R129, R175, R180, R535): a reset that has begun stays begun, and what its end leaves of the functions and of the mailbox. -/

namespace Sys2Proof.Machine

/-! ## What keeps every function under its FLR

The steps of R127 that follow the setting of FLR in progress leave the endpoint alone, but for the messages that answer the aborted fences; those change no function's FLR. -/

@[simp] theorem raise_ep (s : State) (e : Ev) : (s.raise e).ep = s.ep := by rw [raise_only]

@[simp] theorem mirrorNote_ep (s : State) (t : Nat) (r : MirrorRec) : (mirrorNote s t r).ep = s.ep := by
  unfold mirrorNote
  split <;> rfl

@[simp] theorem checkIdle_ep (s : State) (d : Nat) : (checkIdle s d).ep = s.ep := by
  unfold checkIdle
  split <;> rfl

@[simp] theorem dropAccVote_ep (s : State) (a : Acc) : (dropAccVote s a).ep = s.ep := by
  unfold dropAccVote
  split
  · exact checkIdle_ep ..
  · rfl

@[simp] theorem dropUnaccepted_ep (s : State) (t : Nat) : (dropUnaccepted s t).ep = s.ep := by
  unfold dropUnaccepted
  simp only [State.modTally_frame, State.modTwin_frame]
  refine foldl_keeps State.ep _ _ _ fun u i => ?_
  split
  · rfl
  · exact foldl_keeps State.ep _ _ _ dropAccVote_ep

@[simp] theorem resetRec_ep (s : State) (code t d h r : Nat) : (resetRec s code t d h r).ep = s.ep := raise_ep ..

/-- Which functions are under an FLR. -/
def State.flrs (s : State) : Nat → Bool := fun k => (s.fn k).flr

theorem flrs_of_ep {s t : State} (h : t.ep = s.ep) : t.flrs = s.flrs := by
  unfold State.flrs State.fn
  rw [h]

/-- A function that is changed and keeps its FLR. -/
theorem modFn_flrs (s : State) (k : Nat) {f : FnState → FnState} (h : (f (s.fn k)).flr = (s.fn k).flr) : (s.modFn k f).flrs = s.flrs := by
  funext j
  unfold State.flrs
  rw [State.modFn_fn]
  split
  · next hj => rw [h, hj]
  · rfl

theorem setPend_flrs (s : State) (fn e : Nat) (p : Bool) : (setPend s fn e p).flrs = s.flrs := modFn_flrs s fn rfl

theorem setMsiPend_flrs (s : State) (n : Nat) (p : Bool) : (setMsiPend s n p).flrs = s.flrs := modFn_flrs s 0 rfl

theorem deliverMsix_flrs (s : State) (fn e : Nat) : (deliverMsix s fn e).flrs = s.flrs := by
  unfold deliverMsix
  dsimp only
  split
  · split
    · exact setPend_flrs ..
    · exact setPend_flrs s fn e false
  · split
    · split
      · exact setMsiPend_flrs ..
      · exact setMsiPend_flrs s _ false
    · rfl

theorem sendMsix_flrs (s : State) (fn e : Nat) : (sendMsix s fn e).flrs = s.flrs := by
  unfold sendMsix
  split
  · rfl
  · split
    · exact modFn_flrs s fn rfl
    · exact deliverMsix_flrs ..

theorem respond_flrs (s : State) (mb result cs reason detail : Nat) (p : List Byte) : (respond s mb result cs reason detail p).flrs = s.flrs := by
  unfold respond
  split
  · rfl
  · dsimp only
    split
    · rw [sendMsix_flrs]
      split <;> rfl
    · split <;> rfl

theorem endFence_flrs (s : State) (f : Fence) (cs ticket addr : Nat) : (endFence s f cs ticket addr).flrs = s.flrs := by
  unfold endFence ran
  dsimp only
  split
  · rw [respond_flrs]
    split <;> rfl
  · split <;> rfl

theorem abortFences_flrs (s : State) (t : Nat) : (abortFences s t).2.flrs = s.flrs :=
  foldl_keeps State.flrs _ _ _ fun u f => endFence_flrs u f ..

theorem flrTally_flrs (s : State) (t : Nat) : (flrTally s t).flrs = s.flrs :=
  (flrs_of_ep (mirrorNote_ep ..)).trans (abortFences_flrs s t)

/-- Step 1 of R127 with what follows it: FLR in progress is set, writes not accepted are dropped and the tally detached. -/
def flrSet (s : State) (fn : Nat) : State :=
  flrTally (dropUnaccepted (s.modFn fn fun f => { f with flr := true }) (tenantOf fn)) (tenantOf fn)

theorem flrSet_flr (s : State) (fn : Nat) : (flrSet s fn).flrs fn = true := by
  unfold flrSet
  rw [flrTally_flrs, flrs_of_ep (dropUnaccepted_ep _ _)]
  exact congrArg FnState.flr (State.modFn_fn_same ..)

/-- An FLR begins with what it ends and sets, and the record of it (R128). -/
theorem flrBegin_ends (s : State) (fn : Nat) : ∃ u d h r, flrBegin s fn = resetRec (flrSet u fn) Ev.flr (tenantOf fn) d h r := by
  unfold flrBegin
  simp only
  exact ⟨_, _, _, _, rfl⟩

/-- The function whose FLR begins is under it (R127 step 1). -/
theorem flrBegin_flr (s : State) (fn : Nat) : ((flrBegin s fn).fn fn).flr = true := by
  obtain ⟨u, d, h, r, heq⟩ := flrBegin_ends s fn
  rw [heq]
  exact (congrFun (flrs_of_ep (resetRec_ep ..)) fn).trans (flrSet_flr u fn)

/-! ## FLR_INITIATE (R127) -/

theorem flrInitiateEff_begins {s : State} {fn : Nat} (he : fnEnabled s fn = true) (hf : (s.fn fn).flr = false) (hs : s.served = true) :
    flrInitiateEff s fn = if fn = 1 then (vfDisableEff s).modFn 1 fun f => { f with flr := true } else flrBegin s fn := by
  simp [flrInitiateEff, he, hf, hs]

theorem flrInitiateEff_flr {s : State} {fn : Nat} (he : fnEnabled s fn = true) (hf : (s.fn fn).flr = false) (hs : s.served = true) :
    ((flrInitiateEff s fn).fn fn).flr = true := by
  rw [flrInitiateEff_begins he hf hs]
  split
  · next h1 => simp [h1]
  · exact flrBegin_flr s fn

/-- PF1's FLR disables the VFs (R126). -/
theorem flrInitiateEff_vfEnable {s : State} (he : fnEnabled s 1 = true) (hf : (s.fn 1).flr = false) (hs : s.served = true) :
    (flrInitiateEff s 1).ep.vfEnable = false := by
  rw [flrInitiateEff_begins he hf hs]
  rfl

/-! ## FLR_COMPLETE (R127 steps 4 and 5)

The tenant's windows, contexts and liquor are cleared beside the functions and the mailboxes: they leave the endpoint, the mailbox engine and the boot as they were. -/

/-- The endpoint, the mailbox engine and the boot state. -/
def State.fnPart (s : State) : Endpoint × Herdin × Boot := (s.ep, s.her, s.boot)

@[simp] theorem State.modWin_fnPart (s : State) (f : Windows → Windows) : (s.modWin f).fnPart = s.fnPart := by rfl
@[simp] theorem State.setReg_fnPart (s : State) (k : Nat) (v : Word) : (s.setReg k v).fnPart = s.fnPart := by rfl
@[simp] theorem State.setQ_fnPart (s : State) (k : Nat) (v : QCtx) : (s.setQ k v).fnPart = s.fnPart := by rfl
@[simp] theorem State.modLiq_fnPart (s : State) (f : Liquor → Liquor) : (s.modLiq f).fnPart = s.fnPart := by rfl
@[simp] theorem State.modDom_fnPart (s : State) (k : Nat) (f : Dom → Dom) : (s.modDom k f).fnPart = s.fnPart := by rfl
@[simp] theorem State.modPort_fnPart (s : State) (k : Nat) (f : Port → Port) : (s.modPort k f).fnPart = s.fnPart := by rfl
@[simp] theorem State.modLink_fnPart (s : State) (k : Nat) (f : Link → Link) : (s.modLink k f).fnPart = s.fnPart := by rfl
@[simp] theorem State.modTwin_fnPart (s : State) (f : Twin → Twin) : (s.modTwin f).fnPart = s.fnPart := by rfl
@[simp] theorem State.modTal_fnPart (s : State) (f : Tally → Tally) : (s.modTal f).fnPart = s.fnPart := by rfl
@[simp] theorem fnPart_regs_latch (s : State) (a : Tbl Word) (b : Tbl (Option Word)) : State.fnPart { s with regs := a, latch := b } = s.fnPart := by rfl
@[simp] theorem raise_fnPart (s : State) (e : Ev) : (s.raise e).fnPart = s.fnPart := by rw [raise_only]; rfl

@[simp] theorem fnPart_ite (c : Prop) [Decidable c] (a b : State) : (if c then a else b).fnPart = if c then a.fnPart else b.fnPart :=
  apply_ite State.fnPart c a b

@[simp] theorem foldl_fnPart {α : Type} (f : State → α → State) (l : List α) (s : State) (h : ∀ u x, (f u x).fnPart = u.fnPart) :
    (l.foldl f s).fnPart = s.fnPart :=
  foldl_keeps State.fnPart f l s h

@[simp] theorem mirrorNote_fnPart (s : State) (t : Nat) (r : MirrorRec) : (mirrorNote s t r).fnPart = s.fnPart := by
  unfold mirrorNote
  split <;> rfl

@[simp] theorem clearWindowsOf_fnPart (s : State) (t : Nat) : (clearWindowsOf s t).fnPart = s.fnPart := by
  simp [clearWindowsOf, commitStatus, applyShadows, setShadow]

@[simp] theorem liqRetire_fnPart (s : State) (t : Nat) : (liqRetire s t).fnPart = s.fnPart := by
  simp [liqRetire]

@[simp] theorem reachCheck_fnPart (s : State) : (reachCheck s).fnPart = s.fnPart := by
  simp [reachCheck]

@[simp] theorem unwait_fnPart (s : State) (mb : Nat) : (unwait s mb).fnPart = s.fnPart := by
  simp [unwait]

theorem ep_of_fnPart {s t : State} (h : t.fnPart = s.fnPart) : t.ep = s.ep := congrArg Prod.fst h
theorem mb_of_fnPart {s t : State} (h : t.fnPart = s.fnPart) (m : Nat) : t.mb m = s.mb m :=
  congrArg (fun x : Endpoint × Herdin × Boot => Tbl.get mbInit x.2.1.mb m) h
theorem served_of_fnPart {s t : State} (h : t.fnPart = s.fnPart) : t.served = s.served :=
  congrArg (fun x : Endpoint × Herdin × Boot => decide (9 ≤ x.2.2.step)) h

theorem clearMailbox_ep (s : State) (mb : Nat) : (clearMailbox s mb).ep = s.ep := by
  simp [clearMailbox, ep_of_fnPart (unwait_fnPart s mb)]

/-- While Saltmaster serves, a cleared mailbox is IDLE (R155). -/
theorem clearMailbox_mb {s : State} (h : s.served = true) (mb : Nat) : (clearMailbox s mb).mb mb = { mbInit mb with st := .idle } := by
  simp [clearMailbox, served_of_fnPart (unwait_fnPart s mb), h]

/-- The windows and the contexts of a tenant cleared, unless its chip follows it (R127 step 5, R480). -/
def tenantCleared (s : State) (t : Nat) : State :=
  let s := clearWindowsOf s t
  if s.followed t then s
  else (queuesOf s t).foldl (fun s q => mirrorNote ((s.setQ q (qctxInit q)).setReg (0x100070 + 0x100 * q) 0 |>.setReg (0x100074 + 0x100 * q) 0) t
    (ctxRec (s.setQ q (qctxInit q)) q)) s

@[simp] theorem tenantCleared_fnPart (s : State) (t : Nat) : (tenantCleared s t).fnPart = s.fnPart := by
  simp [tenantCleared]

/-- The mailbox of the function's tenant cleared and its liquor retired, the function's registers and latches cleared. -/
def functionCleared (s : State) (fn : Nat) : State :=
  let s := liqRetire (clearMailbox (tenantCleared s (tenantOf fn)) (tenantOf fn)) (tenantOf fn)
  { s with regs := if fn = 0 then s.regs else Tbl.clear (fun k => decide (k / 0x100000000 = fn)) s.regs
           latch := Tbl.clear (fun k => decide (k / 0x100000000 = fn)) s.latch }

theorem functionCleared_fnPart (s : State) (fn : Nat) :
    (functionCleared s fn).fnPart = (clearMailbox (tenantCleared s (tenantOf fn)) (tenantOf fn)).fnPart := by
  simp [functionCleared]

theorem functionCleared_ep (s : State) (fn : Nat) : (functionCleared s fn).ep = s.ep := by
  rw [ep_of_fnPart (functionCleared_fnPart s fn), clearMailbox_ep, ep_of_fnPart (tenantCleared_fnPart s (tenantOf fn))]

theorem functionCleared_mb {s : State} (h : s.served = true) (fn : Nat) :
    (functionCleared s fn).mb (tenantOf fn) = { mbInit (tenantOf fn) with st := .idle } := by
  have hserved : (tenantCleared s (tenantOf fn)).served = true := (served_of_fnPart (tenantCleared_fnPart ..)).trans h
  rw [mb_of_fnPart (functionCleared_fnPart s fn), clearMailbox_mb hserved]

/-- What the completion of an FLR makes of the state: PF1 loses the VFs' configuration, any other function's tenant what it holds. -/
theorem flrCompleteEff_under {s : State} {fn : Nat} (h : (s.fn fn).flr = true) :
    flrCompleteEff s fn =
      if fn = 1 then (s.modFn fn flrCfg).modEp fun e => { e with numVfs := 0, ari := false, vfBars := ⟨[]⟩ }
      else if fn = 0 then reachCheck ((functionCleared (s.modFn fn flrCfg) fn).modEp fun e =>
        { e with bar2Log2 := (functionCleared (s.modFn fn flrCfg) fn).img.pf0Bar2Log2 })
      else functionCleared (s.modFn fn flrCfg) fn := by
  unfold flrCompleteEff functionCleared tenantCleared
  simp only [h, Bool.not_true, Bool.false_eq_true, if_false]

/-- The completion of an FLR gives its function the configuration of reset and leaves every other function as it was. -/
theorem flrCompleteEff_fns {s : State} {fn : Nat} (h : (s.fn fn).flr = true) : (flrCompleteEff s fn).ep.fns = (s.modFn fn flrCfg).ep.fns := by
  have hcleared := functionCleared_ep (s.modFn fn flrCfg) fn
  rw [flrCompleteEff_under h]
  split
  · rfl
  · split
    · rw [reachCheck_ep, State.modEp_ep, hcleared]
    · rw [hcleared]

theorem flrCompleteEff_fn {s : State} {fn : Nat} (h : (s.fn fn).flr = true) (g : Nat) :
    (flrCompleteEff s fn).fn g = if g = fn then flrCfg (s.fn fn) else s.fn g := by
  unfold State.fn
  rw [flrCompleteEff_fns h]
  exact State.modFn_fn ..

theorem flrCompleteEff_mb {s : State} {fn : Nat} (h : (s.fn fn).flr = true) (h1 : fn ≠ 1) (hs : s.served = true) :
    (flrCompleteEff s fn).mb (tenantOf fn) = { mbInit (tenantOf fn) with st := .idle } := by
  have hcleared := functionCleared_mb (s := s.modFn fn flrCfg) hs fn
  rw [flrCompleteEff_under h, if_neg h1]
  split
  · simp only [mb_of_fnPart (reachCheck_fnPart _), State.modEp_frame, hcleared]
  · exact hcleared

/-! ## VF Enable (R175, R535) -/

/-- With no VF to reset, VF Enable takes effect and no more. -/
theorem vfEnableEff_resumes {s : State} (hgo : ¬(s.ep.vfEnable = true ∨ s.boot.recovery = true)) (hari : s.ep.ari = true)
    (hkept : s.ep.keptVfs = []) :
    vfEnableEff s = { s with ep := { s.ep with vfEnable := true }, cont := { s.cont with linkWasDown := false } } := by
  have hkeeps : ({ s.ep with vfEnable := true, keptVfs := [] } : Endpoint) = { s.ep with vfEnable := true } := by
    simp only [← hkept]
  unfold vfEnableEff
  rw [if_neg hgo, if_neg (by simp [hari]), hkept]
  simp only [State.modEp, State.modCont, hkeeps, List.filter_nil, List.foldl_nil]

/-! ## The events -/

/-- Settles O7: a reset begun is `flrBegin_flr`, one completed `flrCompleteEff_fn` and `flrCompleteEff_mb`, and the writes of VF Enable and of the size are the branches of their rows (the sizes not offered and the windows' check are log entry 38, what an FLR leaves going log entry 64). -/
theorem functionResetsAndVfs : Obligations.FunctionResetsAndVfs := by
  unfold Obligations.FunctionResetsAndVfs
  refine ⟨?initiate, ?complete, ?cut, ?enable, ?disable, ?size⟩
  case initiate =>
    intro s fn he hf hs
    refine ⟨_, rfl, flrInitiateEff_flr he hf hs, fun h1 => ?_⟩
    rw [h1] at he hf ⊢
    exact flrInitiateEff_vfEnable he hf hs
  case complete =>
    intro s fn h
    have hfn : (flrCompleteEff s fn.val).fn fn.val = flrCfg (s.fn fn.val) := (flrCompleteEff_fn h _).trans (if_pos rfl)
    refine ⟨_, rfl, hfn, congrArg FnState.flr hfn, congrArg FnState.busMaster hfn, fun g hg => ?_, fun h1 => ?_, fun h1 hs => ?_⟩
    · exact (flrCompleteEff_fn h g).trans (if_neg hg)
    · rw [flrCompleteEff_under h, if_pos h1]
      exact ⟨rfl, rfl⟩
    · exact flrCompleteEff_mb h h1 hs
  case cut =>
    intro s p hany mine os u
    have hsome : os ≠ [] := by
      obtain ⟨o, ho, hflr⟩ := List.any_eq_true.1 hany
      exact List.ne_nil_of_mem (List.mem_filter.2 ⟨ho, hflr⟩)
    exact congrArg Host.Outcome.next (if_neg hsome)
  case enable =>
    intro s hoff hrec
    have hgo : ¬(s.ep.vfEnable = true ∨ s.boot.recovery = true) := by simp [hoff, hrec]
    refine ⟨fun hari hr => ?_, fun hari hkept => ?_⟩
    · refine ⟨_, congrArg Host.Outcome.next ((if_neg hgo).trans (if_pos (by simp [hari]))), ?_⟩
      exact raise_records s _ hr rfl (.inr rfl)
    · exact ⟨_, congrArg Host.Outcome.next (vfEnableEff_resumes hgo hari hkept), rfl, rfl, rfl⟩
  case disable =>
    intro s hon
    exact congrArg Host.Outcome.next (if_pos hon)
  case size =>
    intro s size
    refine ⟨fun hmem hr => ?_, fun hmem hlo hhi => ?_⟩
    · refine ⟨_, congrArg Host.Outcome.next (if_pos hmem), ?_⟩
      exact raise_records s _ hr rfl (.inr rfl)
    · exact congrArg Host.Outcome.next ((if_neg (by simp [hmem])).trans (if_pos ⟨hlo, hhi⟩))

end Sys2Proof.Machine
end

section
/-! Reset pins, hot reset, the watchdog and the boot (R72, R112-R117, R125, R198): what holding the device in reset keeps, and that entering containment at the end of a boot leaves the boot as it stands. -/

namespace Sys2Proof.Machine

/-! ## What entering device containment leaves of the boot (R115, R198) -/

/-- The boot state, the pins and whether the log is ready: what a boot has set when a persisting cause contains the device again. The rules for single updates are proved by the tactic `rfl`, so that `simp` rewrites with them. -/
def State.bootPart (s : State) : (Boot × Pins) × Bool := ((s.boot, s.pins), s.log.ready)

@[simp] theorem State.modFn_bootPart (s : State) (k : Nat) (f : FnState → FnState) : (s.modFn k f).bootPart = s.bootPart := by rfl
@[simp] theorem State.modPort_bootPart (s : State) (k : Nat) (f : Port → Port) : (s.modPort k f).bootPart = s.bootPart := by rfl
@[simp] theorem State.modLink_bootPart (s : State) (k : Nat) (f : Link → Link) : (s.modLink k f).bootPart = s.bootPart := by rfl
@[simp] theorem State.modDom_bootPart (s : State) (k : Nat) (f : Dom → Dom) : (s.modDom k f).bootPart = s.bootPart := by rfl
@[simp] theorem State.modSlot_bootPart (s : State) (k : Nat) (f : Slot → Slot) : (s.modSlot k f).bootPart = s.bootPart := by rfl
@[simp] theorem State.modSched_bootPart (s : State) (k : Nat) (f : Sched → Sched) : (s.modSched k f).bootPart = s.bootPart := by rfl
@[simp] theorem State.modTally_bootPart (s : State) (k : Nat) (f : TallyT → TallyT) : (s.modTally k f).bootPart = s.bootPart := by rfl
@[simp] theorem State.modHar_bootPart (s : State) (f : Harvest → Harvest) : (s.modHar f).bootPart = s.bootPart := by rfl
@[simp] theorem State.modLiq_bootPart (s : State) (f : Liquor → Liquor) : (s.modLiq f).bootPart = s.bootPart := by rfl
@[simp] theorem State.modReads_bootPart (s : State) (f : List HeldRead → List HeldRead) : (s.modReads f).bootPart = s.bootPart := by rfl
@[simp] theorem State.modTwin_bootPart (s : State) (f : Twin → Twin) : (s.modTwin f).bootPart = s.bootPart := by rfl
@[simp] theorem State.modCont_bootPart (s : State) (f : Contain → Contain) : (s.modCont f).bootPart = s.bootPart := by rfl
@[simp] theorem State.setReg_bootPart (s : State) (k : Nat) (v : Word) : (s.setReg k v).bootPart = s.bootPart := by rfl
@[simp] theorem State.incReg_bootPart (s : State) (k : Nat) : (s.incReg k).bootPart = s.bootPart := by rfl
@[simp] theorem State.addReg_bootPart (s : State) (k n : Nat) : (s.addReg k n).bootPart = s.bootPart := by rfl
@[simp] theorem State.emit_bootPart (s : State) (o : Output) : (s.emit o).bootPart = s.bootPart := by rfl

@[simp] theorem bootPart_ite (c : Prop) [Decidable c] (a b : State) : (if c then a else b).bootPart = if c then a.bootPart else b.bootPart :=
  apply_ite State.bootPart c a b

@[simp] theorem foldl_bootPart {α : Type} (f : State → α → State) (l : List α) (s : State) (h : ∀ u x, (f u x).bootPart = u.bootPart) :
    (l.foldl f s).bootPart = s.bootPart :=
  foldl_keeps State.bootPart f l s h

@[simp] theorem foldl_pair_bootPart {α β : Type} (f : β × State → α → β × State) (l : List α) (x : β × State)
    (h : ∀ y a, (f y a).2.bootPart = y.2.bootPart) : (l.foldl f x).2.bootPart = x.2.bootPart :=
  List.foldlRecOn l f (motive := fun y => y.2.bootPart = x.2.bootPart) rfl fun y hy a _ => (h y a).trans hy

@[simp] theorem pair_bootPart_ite {β : Type} (c : Prop) [Decidable c] (x y : β × State) :
    (if c then x else y).2.bootPart = if c then x.2.bootPart else y.2.bootPart :=
  apply_ite (fun z : β × State => z.2.bootPart) c x y

@[simp] theorem enqueueRec_bootPart (s : State) (r : EvRec) : (enqueueRec s r).bootPart = s.bootPart := by
  unfold enqueueRec
  split <;> rfl

@[simp] theorem raise_bootPart (s : State) (e : Ev) : (s.raise e).bootPart = s.bootPart := by
  have hlimited : ∀ lim, (raiseLimited s e lim).bootPart = s.bootPart := fun lim => by
    simp only [raiseLimited, bootPart_ite, enqueueRec_bootPart]
    exact ite_self s.bootPart
  unfold State.raise
  simp [hlimited]

@[simp] theorem raiseOpt_bootPart (s : State) (ev : Option Ev) : (raiseOpt s ev).bootPart = s.bootPart := by
  cases ev with
  | none => rfl
  | some e => exact raise_bootPart s e

@[simp] theorem sendMsix_bootPart (s : State) (fn e : Nat) : (sendMsix s fn e).bootPart = s.bootPart := by
  rw [sendMsix_ep_out]; rfl

/-! ### Windows, the ledger and the tally -/

@[simp] theorem mirrorNote_bootPart (s : State) (t : Nat) (r : MirrorRec) : (mirrorNote s t r).bootPart = s.bootPart := by
  unfold mirrorNote
  split <;> rfl

@[simp] theorem dlogFate_bootPart (s : State) (t target space line fate : Nat) : (dlogFate s t target space line fate).bootPart = s.bootPart := by
  unfold dlogFate
  dsimp only
  split <;> rfl

@[simp] theorem liqInvalidate_bootPart (s : State) (target space lo len : Nat) : (liqInvalidate s target space lo len).bootPart = s.bootPart := by
  simp [liqInvalidate, liqRemove, noteTag]

@[simp] theorem latchFailure_bootPart (s : State) (t : Nat) (k : Kept) : (latchFailure s t k).bootPart = s.bootPart := by
  simp [latchFailure]

@[simp] theorem settle_bootPart (s : State) (t ticket cs addr : Nat) (ev : Option Ev) : (settle s t ticket cs addr ev).bootPart = s.bootPart := by
  unfold settle
  split
  · rfl
  · simp [keepFailure]

@[simp] theorem settleContained_bootPart (s : State) (t target space addr len : Nat) (ev : Option Ev) :
    (settleContained s t target space addr len ev).bootPart = s.bootPart := by
  simp [settleContained, issueTicket]

@[simp] theorem drainStaged_bootPart (s : State) (t : Nat) (ev : Option Ev) : (drainStaged s t ev).2.bootPart = s.bootPart := by
  simp [drainStaged]

@[simp] theorem dropAccVote_bootPart (s : State) (a : Acc) : (dropAccVote s a).bootPart = s.bootPart := by
  unfold dropAccVote
  split
  · simp [dropTemp, checkIdle]
  · rfl

@[simp] theorem pullAccs_bootPart (s : State) (p : Acc → Bool) : (pullAccs s p).2.bootPart = s.bootPart := by
  simp [pullAccs]

@[simp] theorem deliver_bootPart (s : State) (a : Acc) (e : AccEnd) : (deliver s a e).bootPart = s.bootPart := by
  unfold deliver
  split
  · rfl
  · rfl
  · split
    · split
      · split <;> rfl
      · rfl
    · rfl
  · rfl

@[simp] theorem failAcc_bootPart (s : State) (a : Acc) (cs addr beat : Nat) (ev : Option Ev) : (failAcc s a cs addr beat ev).bootPart = s.bootPart := by
  simp [failAcc, failAccGot, accEnd]

@[simp] theorem containWrites_bootPart (s : State) (who : Nat → Bool) (ev : Option Ev) : (containWrites s who ev).2.bootPart = s.bootPart := by
  simp [containWrites]

/-! ### Pans, schedules and the rack's reads -/

@[simp] theorem freezePans_bootPart (s : State) : (freezePans s).bootPart = s.bootPart := by
  simp [freezePans]

@[simp] theorem endCycle_bootPart (s : State) (h : Nat) : (endCycle s h).bootPart = s.bootPart := by
  unfold endCycle flush64
  dsimp only
  split
  · split <;> simp
  · simp

@[simp] theorem endHeldRack_bootPart (s : State) (p cs : Nat) (ev : Option Ev) : (endHeldRack s p cs ev).bootPart = s.bootPart := by
  unfold endHeldRack
  split
  · rfl
  · simp [dropRackTag, inboundErr, latchErr]

@[simp] theorem endDtSlot_bootPart (s : State) (p k cs : Nat) : (endDtSlot s p k cs).bootPart = s.bootPart := by
  simp [endDtSlot, dropRackTag]

@[simp] theorem endRackReads_bootPart (s : State) (who : Nat → Bool) (cs : Nat) (ev : Option Ev) :
    (endRackReads s who cs ev).2.bootPart = s.bootPart := by
  simp [endRackReads]

@[simp] theorem enterDevice_bootPart (s : State) (cause : Nat) : (enterDevice s cause).bootPart = s.bootPart := by
  simp [enterDevice, containRec, twinRelinquish, twinSend]

@[simp] theorem reenterDevice_bootPart (s : State) : (reenterDevice s).bootPart = s.bootPart := by
  simp [reenterDevice]

/-! ## The boot to step 7 (R116, R119-R122)

Choosing the images and applying them moves no pin. -/

@[simp] theorem raise_pins (s : State) (e : Ev) : (s.raise e).pins = s.pins := by rw [raise_only]

@[simp] theorem pins_ite (c : Prop) [Decidable c] (a b : State) : (if c then a else b).pins = if c then a.pins else b.pins :=
  apply_ite State.pins c a b

@[simp] theorem foldl_pins {α : Type} (f : State → α → State) (l : List α) (s : State) (h : ∀ u x, (f u x).pins = u.pins) :
    (l.foldl f s).pins = s.pins :=
  foldl_keeps State.pins f l s h

@[simp] theorem fwSelect_pins (s : State) : (fwSelect s).pins = s.pins := by
  simp [fwSelect]

@[simp] theorem cfgSelect_pins (s : State) : (cfgSelect s).pins = s.pins := by
  simp [cfgSelect]

@[simp] theorem imageDomain_pins (s : State) (d : Nat) : (imageDomain s d).pins = s.pins := by
  simp [imageDomain]

@[simp] theorem imageBed_pins (s : State) (b : Nat) : (imageBed s b).pins = s.pins := by
  simp [imageBed]

@[simp] theorem imageLink_pins (s : State) (k : Nat) : (imageLink s k).pins = s.pins := by
  simp [imageLink, modLanes]

@[simp] theorem applyImage_pins (s : State) : (applyImage s).pins = s.pins := by
  simp [applyImage]

/-- The images chosen and applied, and the log ready: a boot as it reaches the end of step 6 (R116). -/
def imaged (s : State) (k : WideReset) : State :=
  let s := if s.mram.erasing then eraseKeys s else s
  let s := if k = .host then s else fwSelect s
  let s := applyImage (cfgSelect s)
  let s := if fuseAnomaly s then s.raise (saltEv Ev.lcyFuseAnomaly) else s
  s.modLog fun l => { l with ready := true }

@[simp] theorem eraseKeys_pins (s : State) : (eraseKeys s).pins = s.pins := rfl

theorem imaged_pins (s : State) (k : WideReset) : (imaged s k).pins = s.pins := by
  simp [imaged]

/-- The boot state as a boot enters step 7, or step 6 for a host reset with PERST_N low (R113, R116). -/
def Boot.entered (b : Boot) (k : WideReset) (perst : Bool) (now : Nat) : Boot :=
  { b with step := if k = .host ∧ !perst then 6 else 7, entry := k.entry, began := now, awaitPerst := !perst, powerOnPending := false }

/-- What a boot to step 7 ends with, whether or not the device is contained again. -/
theorem bootRun_bootPart (s : State) (k : WideReset) : (bootRun s k).bootPart
    = (((imaged s k).boot.entered k s.pins.perst (imaged s k).now, s.pins), true) := by
  have hend : bootRun s k = reenterDevice ((imaged s k).modBoot fun b => b.entered k (imaged s k).pins.perst (imaged s k).now) := rfl
  have hready : (imaged s k).log.ready = true := rfl
  rw [hend, reenterDevice_bootPart, imaged_pins]
  simp only [State.bootPart, State.modBoot_boot, State.modBoot_frame, imaged_pins, hready]

/-! ## Power-on (R62, R72, R116) -/

/-- Everything but MRAM cleared, the causes noted, PORST_N high and the SMBus straps taken. -/
def poweredOn (s : State) (a : BitVec 2) : State :=
  ((addCause (clearPower s) (1 + 2 * b2n s.mon.internalReset + 4 * b2n s.mon.shutdown)).modMon fun m =>
    { m with shutdown := false, internalReset := false }).modPins fun p => { p with porst := true, smbAddr := a }

/-- The records of a cold boot: a journal recovered, the boot, and an unlock that it ended (R112, R151, R516). -/
def coldRecords (s : State) (torn unlocked : Bool) : State :=
  let s := if torn then (s.modLog fun l => { l with recovered := true }).raise (saltEv Ev.logJournalRecover) else s
  let s := wideRec s .powerOn (0, 0, 0)
  if unlocked then s.raise { code := Ev.debugClose, src := srcSalt, data := leBytes 1 2 } else s

/-- TEST_EN taken where the life cycle allows it (R137). -/
def testEntered (s : State) (te : Bool) : State :=
  if te then
    (if lcyState s = 0 ∨ lcyState s = 3 then s.modBoot fun b => { b with factoryTest := true } else s.raise (romEv Ev.testEnIgnored))
  else s

theorem powerOnEff_boots {s : State} (hp : s.boot.powerOnPending = true) (hs : suppliesValid s = true) (te : Bool) (a : BitVec 2) (torn : Bool) :
    powerOnEff s te a torn = bootRun (testEntered (coldRecords (poweredOn s a) torn s.dbg.isOpen) te) .powerOn :=
  if_neg (by simp [hp, hs])

@[simp] theorem coldRecords_pins (s : State) (torn unlocked : Bool) : (coldRecords s torn unlocked).pins = s.pins := by
  simp [coldRecords, wideRec]

@[simp] theorem testEntered_pins (s : State) (te : Bool) : (testEntered s te).pins = s.pins := by
  simp [testEntered]

/-- A power-on reset ends at boot step 7 with the log ready, the straps taken and PORST_N high. -/
theorem powerOnEff_ends {s : State} (hp : s.boot.powerOnPending = true) (hs : suppliesValid s = true) (te : Bool) (a : BitVec 2) (torn : Bool) :
    (powerOnEff s te a torn).boot.step = 7 ∧ (powerOnEff s te a torn).boot.powerOnPending = false ∧ (powerOnEff s te a torn).log.ready = true
    ∧ (powerOnEff s te a torn).pins.smbAddr = a ∧ (powerOnEff s te a torn).pins.porst = true := by
  have hpart := bootRun_bootPart (testEntered (coldRecords (poweredOn s a) torn s.dbg.isOpen) te) .powerOn
  rw [← powerOnEff_boots hp hs, testEntered_pins, coldRecords_pins] at hpart
  simp only [State.bootPart, Prod.mk.injEq] at hpart
  obtain ⟨⟨hboot, hpins⟩, hready⟩ := hpart
  rw [hboot, hpins, hready]
  exact ⟨rfl, rfl, rfl, rfl, rfl⟩

/-! ## What holding the device in reset keeps (R71, R72, R115) -/

/-- The queue of waiting commands, MRAM, the pins, the monitors and the log. -/
def State.aoPart (s : State) : (List Instr × Mram) × Pins × Monitors × Log := ((s.pending, s.mram), s.pins, s.mon, s.log)

@[simp] theorem State.emit_aoPart (s : State) (o : Output) : (s.emit o).aoPart = s.aoPart := by rfl
@[simp] theorem State.setReg_aoPart (s : State) (k : Nat) (v : Word) : (s.setReg k v).aoPart = s.aoPart := by rfl
@[simp] theorem State.modPort_aoPart (s : State) (k : Nat) (f : Port → Port) : (s.modPort k f).aoPart = s.aoPart := by rfl

@[simp] theorem aoPart_ite (c : Prop) [Decidable c] (a b : State) : (if c then a else b).aoPart = if c then a.aoPart else b.aoPart :=
  apply_ite State.aoPart c a b

@[simp] theorem releaseBus_aoPart (s : State) (p : Nat) : (releaseBus s p).aoPart = s.aoPart := by
  simp [releaseBus]

@[simp] theorem portLets_aoPart (s : State) (p : Nat) (keep : Bool) : (portLets s p keep).aoPart = s.aoPart := by
  simp [portLets]

/-- The ports' strobes and buses let go of. -/
def busesLet (s : State) : State := (List.range 2).foldl (fun s p => portLets s p false) s

theorem busesLet_aoPart (s : State) : (busesLet s).aoPart = s.aoPart :=
  foldl_keeps State.aoPart _ _ s fun u p => portLets_aoPart u p false

/-- What of a state in reset is that of the state before. -/
theorem inReset_keeps (s : State) :
    (inReset s).pending = s.pending ∧ (inReset s).mram = { s.mram with keys := (inReset s).mram.keys } ∧ (inReset s).pins.porst = s.pins.porst
    ∧ (inReset s).mon = { s.mon with warnThr := 800, tempWarned := false }
    ∧ (inReset s).log.ring = s.log.ring ∧ (inReset s).log.seq = s.log.seq := by
  have hpart := busesLet_aoPart s
  simp only [State.aoPart, Prod.mk.injEq] at hpart
  obtain ⟨⟨hpending, hmram⟩, hpins, hmon, hlog⟩ := hpart
  have heq : inReset s = { clearPower (busesLet s) with
      dbg := s.dbg, boot := { (clearPower (busesLet s)).boot with step := 0, powerOnPending := false } } := rfl
  rw [heq]
  simp only [clearPower, hpending, hmram, hpins, hmon, hlog, and_self]

/-- What of a state in reset is that of `State.reset`. -/
theorem inReset_clears (s : State) : (inReset s).boot.step = 0 ∧ (∀ q, (inReset s).q q = qctxInit q) ∧ (inReset s).win = State.reset.win :=
  ⟨rfl, fun _ => rfl, rfl⟩

/-! ## The reset sources (R71, R72, R112-R114, R125) -/

/-- PORST_N low: the device in reset, a power-on boot pending. -/
def porstHeld (s : State) : State := (inReset (s.modPins fun p => { p with porst := false })).modBoot fun b => { b with powerOnPending := true }

theorem porstFallEff_high {s : State} (h : s.pins.porst = true) : porstFallEff s = porstHeld s :=
  if_neg (by simp [h])

theorem porstHeld_boot (s : State) :
    (porstHeld s).pins.porst = false ∧ (porstHeld s).boot.powerOnPending = true ∧ (porstHeld s).boot.step = 0 := by
  obtain ⟨-, -, hporst, -, -, -⟩ := inReset_keeps (s.modPins fun p => { p with porst := false })
  obtain ⟨hstep, -, -⟩ := inReset_clears (s.modPins fun p => { p with porst := false })
  simp [porstHeld, hporst, hstep]

theorem porstHeld_keeps (s : State) : (porstHeld s).mram = { s.mram with keys := (porstHeld s).mram.keys }
    ∧ (porstHeld s).log.ring = s.log.ring ∧ (porstHeld s).log.seq = s.log.seq ∧ (porstHeld s).pending = s.pending := by
  obtain ⟨hpending, hmram, -, -, hring, hseq⟩ := inReset_keeps (s.modPins fun p => { p with porst := false })
  simp only [porstHeld, State.modBoot_frame]
  exact ⟨hmram, hring, hseq, hpending⟩

theorem porstHeld_clears (s : State) : (∀ q, (porstHeld s).q q = qctxInit q) ∧ (porstHeld s).win = State.reset.win := by
  obtain ⟨-, hq, hwin⟩ := inReset_clears (s.modPins fun p => { p with porst := false })
  simp only [porstHeld, State.modBoot_frame]
  exact ⟨hq, hwin⟩

/-- A supply below its reset threshold: the device in internal reset, a power-on boot pending if PORST_N is low already (R72). -/
def supplyHeld (s : State) : State :=
  ((inReset s).modMon fun m => { m with internalReset := true }).modBoot fun b => { b with powerOnPending := !(inReset s).pins.porst }

theorem supplyHeld_state (s : State) : (supplyHeld s).mon.internalReset = true ∧ (supplyHeld s).boot.powerOnPending = !s.pins.porst
    ∧ (supplyHeld s).boot.step = 0 ∧ ∀ k, (supplyHeld s).mv k = s.mv k := by
  obtain ⟨-, -, hporst, hmon, -, -⟩ := inReset_keeps s
  obtain ⟨hstep, -, -⟩ := inReset_clears s
  simp [supplyHeld, State.mv, hporst, hmon, hstep]

theorem internalResetEff_enters {s : State} {k mv : Nat} (hk : k < 6) (hres : supplyResets k mv = true) (hoff : s.mon.internalReset = false) :
    internalResetEff s k mv = supplyHeld (setMv s k mv) :=
  if_pos ⟨hk, hres, by simpa [setMv] using hoff⟩

theorem internalResetEff_noted {s : State} {k mv : Nat} (h : supplyResets k mv = false ∨ s.mon.internalReset = true) :
    internalResetEff s k mv = setMv s k mv := by
  refine if_neg ?_
  rintro ⟨-, hres, hoff⟩
  rcases h with h | h
  · simp [h] at hres
  · simp [setMv, h] at hoff

/-- Any fall of PERST_N while the device is up is a host reset, or begins tide watch where it is armed (R105, R112, R113). -/
theorem perstFallEff_high {s : State} (h : s.pins.perst = true) :
    perstFallEff s = if awake (s.modPins fun p => { p with perst := false }) then
        (if s.tide.armed then tideBegin (s.modPins fun p => { p with perst := false })
         else hostReset (s.modPins fun p => { p with perst := false }) 5)
      else s.modPins fun p => { p with perst := false } := by
  unfold perstFallEff
  rw [if_neg (by simp [h])]
  dsimp only
  cases ha : awake (s.modPins fun p => { p with perst := false })
  · rfl
  · rfl

/-- What a watchdog expiry leaves to the device reset: the waiting records are lost, the expiry is counted and recorded (R125, R518). -/
def watchdogExpired (s : State) : State :=
  ((s.modLog fun l => { l with waiting := [], dropsOwed := 0 }).modBoot fun b => { b with wdogRun := b.wdogRun + 1 }).raise (saltEv Ev.fwWatchdog)

theorem watchdogExpired_only (s : State) : watchdogExpired s = { s with
    boot := { s.boot with wdogRun := s.boot.wdogRun + 1 }, regs := (watchdogExpired s).regs, log := (watchdogExpired s).log } :=
  raise_only ..

theorem watchdogEff_up {s : State} (ha : awake s = true) (h6 : 6 ≤ s.boot.step) (hrec : s.boot.recovery = false) :
    watchdogEff s = (wideReset (watchdogExpired s) .device 4).incReg 0x24 :=
  if_pos ⟨ha, h6, by simp [hrec]⟩

theorem watchdogEff_idle {s : State} (h : awake s = false ∨ s.boot.step < 6 ∨ s.boot.recovery = true) : watchdogEff s = s := by
  refine if_neg ?_
  rintro ⟨ha, h6, hrec⟩
  rcases h with h | h | h
  · simp [h] at ha
  · omega
  · simp [h] at hrec

/-! ## Steps 8 and 9 (R116, R117) -/

/-- A change made to the first `n` mailboxes, one after the other. -/
theorem foldl_modMb (f : Mailbox → Mailbox) (n : Nat) (s : State) (m : Nat) :
    ((List.range n).foldl (fun s m => s.modMb m f) s).mb m = if m < n then f (s.mb m) else s.mb m := by
  induction n with
  | zero => rfl
  | succ n ih =>
    rw [List.range_succ, List.foldl_append, List.foldl_cons, List.foldl_nil, State.modMb_mb]
    by_cases hm : m = n
    · subst hm
      rw [if_pos rfl, ih, if_neg (Nat.lt_irrefl m), if_pos (Nat.lt_succ_self m)]
    · have hiff : m < n + 1 ↔ m < n := by omega
      simp only [if_neg hm, ih, hiff]

/-- A held command is QUEUED and any other mailbox that waited for the boot IDLE (R117, R156). -/
theorem bootMailboxes_mb (s : State) {m : Nat} (h : m < 66) : (bootMailboxes s).mb m
    = if (s.mb m).st = .booting then { s.mb m with st := if (s.mb m).held then .queued else .idle, held := false } else s.mb m :=
  (foldl_modMb _ 66 s m).trans (if_pos h)

/-- The time since the boot began noted, and step 9 entered. -/
def stepNine (s : State) : State := (s.setReg 0x20 (w32 ((s.now - s.boot.began) / 1000))).modBoot fun b => { b with step := 9 }

/-- Step 9 with firmware running: the watchdog's run of expiries ends (R125). -/
def stepNineServing (s : State) : State := (stepNine s).modBoot fun b => { b with wdogRun := 0 }

/-- The trial image confirmed at step 9, unless its host confirms it (R119, R124). -/
def trialKept (s : State) : State := if s.boot.trialUnconfirmed ∧ !s.boot.hostConfirm then confirmTrial s else s

/-- Weirs, profiles and the image's PRIV taken at step 9. -/
def tablesTaken (s : State) : State := privExcess (bootProfiles (applyWeirs s (decide (s.boot.entry = 1 ∧ lcyState s ≠ 3))))

/-- Failed islands woken again after a power-on, the ports, the links and the twin link brought into service (R116, R295, R477, R509). -/
def servicesBegun (s : State) : State :=
  bootTwin ((List.range 5).foldl bootLink ((List.range 2).foldl (fun s p => endPortOrphans (bootPort s p) p)
    (if s.boot.entry = 1 then s.mram.islandFailed.foldl startWake s else s)))

theorem bootServiceEff_recovery {s : State} (h8 : s.boot.step = 8) (hrec : s.boot.recovery = true) :
    bootServiceEff s = bootMailboxes (stepNine s) := by
  have hstep : ¬(s.boot.step ≠ 8) := by simp [h8]
  exact (if_neg hstep).trans (if_pos hrec)

theorem bootServiceEff_serves {s : State} (h8 : s.boot.step = 8) (hrec : s.boot.recovery = false) :
    bootServiceEff s = bootMailboxes (servicesBegun (tablesTaken (trialKept (stepNineServing s)))) := by
  have hstep : ¬(s.boot.step ≠ 8) := by simp [h8]
  have hserve : ¬((stepNine s).boot.recovery = true) := by simp [stepNine, hrec]
  unfold bootServiceEff servicesBegun tablesTaken trialKept stepNineServing
  unfold stepNine at *
  rw [if_neg hstep]
  dsimp only
  rw [if_neg hserve]

/-! ## The events -/

/-- Settles O38: each event is its guard with the lemma on what it starts; a power-on reset is read off `powerOnEff_ends` (that one with a supply out of range is no event is log entry 55), the states in reset off `inReset_keeps`. -/
theorem resetsAndBoot : Obligations.ResetsAndBoot := by
  unfold Obligations.ResetsAndBoot
  refine ⟨?porst, ?powerOn, ?internal, ?fall, ?rise, ?eight, ?nine, fun s m hm => bootMailboxes_mb s hm, ?hot, ?watchdog⟩
  case porst =>
    intro s
    refine ⟨fun hlow => congrArg Host.Outcome.next (if_pos (by simp [hlow])), fun hhigh => ?_⟩
    obtain ⟨hporst, hpending, hstep⟩ := porstHeld_boot s
    obtain ⟨hmram, hring, hseq, hqueue⟩ := porstHeld_keeps s
    obtain ⟨hq, hwin⟩ := porstHeld_clears s
    exact ⟨_, congrArg Host.Outcome.next (porstFallEff_high hhigh), hporst, hpending, hstep, hmram, hring, hseq, hqueue, hq, hwin⟩
  case powerOn =>
    intro s te torn a
    refine ⟨fun h => congrArg Host.Outcome.next (if_neg ?_), fun hp hs => ?_⟩
    · rintro ⟨hp, hs⟩
      rcases h with h | h
      · simp [h] at hp
      · simp [h] at hs
    · exact ⟨_, congrArg Host.Outcome.next (if_pos ⟨hp, hs⟩), powerOnEff_ends hp hs te a torn⟩
  case internal =>
    intro s sup mv
    refine ⟨fun hres hoff hk => ?_, fun h => congrArg Host.Outcome.next (internalResetEff_noted h)⟩
    obtain ⟨hon, hpending, hstep, hmv⟩ := supplyHeld_state (setMv s (supplyIdx sup) mv)
    refine ⟨_, congrArg Host.Outcome.next (internalResetEff_enters hk hres hoff), hon, hpending, hstep, ?_⟩
    exact (hmv _).trans ((setMv_mv ..).trans (if_pos rfl))
  case fall =>
    intro s
    refine ⟨fun hlow => congrArg Host.Outcome.next (if_pos (by simp [hlow])), fun hhigh => ?_⟩
    intro u
    have heff : exec .perstFall s = .next (if awake u then (if s.tide.armed then tideBegin u else hostReset u 5) else u) :=
      congrArg Host.Outcome.next (perstFallEff_high hhigh)
    refine ⟨fun ha => ?_, fun ha harmed => ?_, fun ha harmed => ?_⟩
    · simpa [ha] using heff
    · simpa [ha, harmed] using heff
    · simpa [ha, harmed] using heff
  case rise =>
    intro s
    refine ⟨fun h => congrArg Host.Outcome.next (if_pos h), fun hlow hquiet => ?_⟩
    exact congrArg Host.Outcome.next (if_neg (by simp [hlow, hquiet]))
  case eight =>
    intro s
    refine ⟨fun h7 hp => congrArg Host.Outcome.next (if_pos ⟨h7, hp⟩), fun h => congrArg Host.Outcome.next (if_neg ?_)⟩
    rintro ⟨h7, hp⟩
    exact h.elim (fun hne => hne h7) fun hlow => by simp [hlow] at hp
  case nine =>
    intro s
    refine ⟨fun h => congrArg Host.Outcome.next (if_pos h), fun h8 hrec => ?_, fun h8 hrec => ?_⟩
    · refine ⟨stepNine s, congrArg Host.Outcome.next (bootServiceEff_recovery h8 hrec), rfl, ?_, fun k hk => ?_, rfl⟩
      · exact State.setReg_reg_same ..
      · exact (State.setReg_reg ..).trans (if_neg hk)
    · exact ⟨stepNineServing s, _, rfl, rfl, rfl, congrArg Host.Outcome.next (bootServiceEff_serves h8 hrec),
        trialKept (stepNineServing s), tablesTaken (trialKept (stepNineServing s)), rfl, rfl, rfl⟩
  case hot =>
    intro s
    refine ⟨fun ha hl => congrArg Host.Outcome.next (if_pos ⟨ha, hl⟩), fun h => congrArg Host.Outcome.next (if_neg ?_)⟩
    rintro ⟨ha, hl⟩
    exact h.elim (fun hdown => by simp [hdown] at ha) fun hne => hne hl
  case watchdog =>
    intro s
    refine ⟨fun ha h6 hrec => ?_, fun h => congrArg Host.Outcome.next (watchdogEff_idle h)⟩
    have honly := watchdogExpired_only s
    refine ⟨watchdogExpired s, congrArg Host.Outcome.next (watchdogEff_up ha h6 hrec), ?_, ?_, ?_⟩
    · rw [honly]
    · rw [honly]
    · rw [honly]

end Sys2Proof.Machine
end

section
/-! Life-cycle fuses over every command (R134, R136): what each command keeps of the queue, the fuses and the written log, and what the three transitions burn. -/

namespace Sys2Proof.Machine

/-! ## What every command keeps -/

/-- An event or command completes and leaves the core as it was, but for at most 600 records written to the log. -/
def GrewNext (s : State) (o : Host.Outcome State Fault Refusal) : Prop := ∃ t, o = .next t ∧ Grew 600 s t

theorem grewNext_of_grew {s t : State} (h : Grew 600 s t) : GrewNext s (.next t) := ⟨t, rfl, h⟩

theorem grewNext_of_core {s t : State} (h : t.core = s.core) : GrewNext s (.next t) := grewNext_of_grew (.of_eq h)

theorem grewNext_runCmd {op : Nat} {s : State} {f : State → Nat → Cmd → State} (h : ∀ mb c, Grew 600 s (f s mb c)) :
    GrewNext s (runCmd op s f) := by
  unfold runCmd
  split
  · exact grewNext_of_grew (h _ _)
  · exact grewNext_of_core rfl

theorem grewNext_runCmd_core {op : Nat} {s : State} {f : State → Nat → Cmd → State} (h : ∀ mb c, (f s mb c).core = s.core) :
    GrewNext s (runCmd op s f) := grewNext_runCmd fun mb c => .of_eq (h mb c)

/-- Every command but the three that burn fuses keeps the queue of waiting commands and the fuses, and adds at most 600 records to the written log: the cases are the few events that commit records, those that a match decides, the commands of a mailbox, and all others. -/
theorem exec_grew (c : Instr) (s : State) (hi : c ≠ .ownerKeyInstall) (ha : c ≠ .lcyAdvance) (hr : c ≠ .lcyReturn) : GrewNext s (exec c s) := by
  cases c
  case ownerKeyInstall | lcyAdvance | lcyReturn => contradiction
  case tideEnter => exact grewNext_of_grew (tideEnterEff_grew s)
  case thermShutdown t => exact grewNext_of_grew (thermEff_grew s t)
  case deviceContainRelease v cut => exact grewNext_of_grew (devRelease_grew s v cut)
  case deviceReset =>
    apply grewNext_runCmd
    intro mb c
    exact .after (.before (done_core s mb []) (commitAll_grew (done s mb []) 600)) (wideReset_core _ _ _)
  case logRecordCommit =>
    apply grewNext_of_grew
    split
    · exact (commitOne_grew s).le (by decide)
    · exact .of_eq rfl
  case uliCloseReceive k =>
    apply grewNext_of_core
    split
    · next m u h => exact (loseSession_core u k.val 0).trans (takeRx_core s k.val _ _ h)
    · rfl
  case powerOnReset testEn smbAddr torn =>
    apply grewNext_of_grew
    split
    · exact .before (powerOnEff_core s testEn smbAddr torn) (thermEff_grew (powerOnEff s testEn smbAddr torn) s.mon.temp)
    · exact .of_eq rfl
  case rackMasterReadCompletion | dtRetry =>
    apply grewNext_of_core
    (repeat' split) <;> simp
  case drainEnd | supplyWarn =>
    apply grewNext_of_core
    dsimp only
    (repeat' split) <;> simp
  case regWrite | settleFenceEnd | fenceExpired | drainLimitExpire | bscanTakeover | debugUnlockExpire | twinFormTimeout | rackArbTimeout
      | swapAckReceived | swapAckTimeout | linkServiceTimeout =>
    apply grewNext_of_core
    split
    all_goals simp
  case nop | infoVersion | infoIdentity | infoStatus | infoCaps | imageBegin | imageChunk | imageCommit | imageConfirm
      | imageRead | winSet | winGet | winClear | weirRegionSet | weirRegionGet | weirDefaultSet | weirRegionLock | queueCreate
      | queueDestroy | queueReset | queueGet | settleFence | tallyQuotaSet | portServiceIn | portServiceOut | portSlaveSet | profileGet
      | profileSet | profileClear | harvestCreate | harvestPoints | harvestStart | harvestStop | harvestStopFree | harvestGet | floodCreate
      | routeSet | linkServiceIn | linkServiceOut | linkStatus | linkLoop | laneEyeScan | linkRetrain | pwrVoteRaise | pwrVoteWithdraw
      | pwrDownSoft | pwrDownForced | tideArm | tideDisarm | tempWarnSet | keySet | keySetErase | debugUnlock | debugLock | twinStatus
      | twinForm | twinDissolve | twinRoleSet | spareStatus | spareBoundsSet | spareRetireNow | spareForbid | spareAllow | wearGet | logRead
      | logFokRead | logMark =>
    apply grewNext_runCmd_core
    simp
  all_goals
    apply grewNext_of_core
    simp
/-! ## What of the life cycle a command changes -/

/-- The queue of waiting commands is as before, and the fuses have at most one of the patterns of R134 burnt into them. -/
def Burnt (s t : State) : Prop := t.pending = s.pending ∧ ∃ b ∈ [0#3, 1#3, 3#3, 7#3], t.mram.fuses = s.mram.fuses ||| b

theorem Grew.pending_fuses {n : Nat} {s t : State} (h : Grew n s t) : t.pending = s.pending ∧ t.mram.fuses = s.mram.fuses := by
  obtain ⟨l, -, hcore⟩ := h
  simp only [State.core, Prod.mk.injEq] at hcore
  obtain ⟨⟨hpending, hfuses⟩, -⟩ := hcore
  exact ⟨hpending, hfuses⟩

theorem Grew.burnt {n : Nat} {s t : State} (h : Grew n s t) : Burnt s t := by
  obtain ⟨hpending, hfuses⟩ := h.pending_fuses
  exact ⟨hpending, 0#3, by simp, by simp [hfuses]⟩

theorem transition_pending_fuses (s : State) (mb new fuses : Nat) {act : State → State} (hact : ∀ u : State, (act u).core = u.core) :
    (transition s mb new fuses act).pending = s.pending
    ∧ (transition s mb new fuses act).mram.fuses = s.mram.fuses ||| BitVec.ofNat 3 fuses := by
  obtain ⟨l, -, hcore⟩ := transition_grew s mb new fuses act hact
  simp only [State.core, Prod.mk.injEq] at hcore
  obtain ⟨⟨hpending, hfuses⟩, -⟩ := hcore
  exact ⟨hpending, hfuses⟩

theorem transition_burns (s : State) (mb new : Nat) {fuses : Nat} (hf : BitVec.ofNat 3 fuses ∈ [0#3, 1#3, 3#3, 7#3]) {act : State → State}
    (hact : ∀ u : State, (act u).core = u.core) : Burnt s (transition s mb new fuses act) := by
  obtain ⟨hpending, hfuses⟩ := transition_pending_fuses s mb new fuses hact
  exact ⟨hpending, BitVec.ofNat 3 fuses, hf, hfuses⟩

theorem runCmd_burns {op : Nat} {s : State} {f : State → Nat → Cmd → State} (h : ∀ mb c, Burnt s (f s mb c)) :
    ∃ t, runCmd op s f = .next t ∧ Burnt s t := by
  unfold runCmd
  split
  · exact ⟨_, rfl, h _ _⟩
  · exact ⟨_, rfl, Grew.burnt (n := 0) (.of_eq rfl)⟩

/-- Every command completes, with the queue as it was and at most a legal pattern burnt into the fuses. -/
theorem exec_burns (c : Instr) (s : State) : ∃ t, exec c s = .next t ∧ Burnt s t := by
  by_cases hi : c = .ownerKeyInstall
  · subst hi
    apply runCmd_burns
    intro mb c
    split
    · exact Grew.burnt (n := 0) (.of_eq (by simp))
    · exact transition_burns s mb 1 (by decide) fun u => State.modKey_core _ _ _
  by_cases ha : c = .lcyAdvance
  · subst ha
    apply runCmd_burns
    intro mb c
    exact transition_burns s mb 2 (by decide) fun u => rfl
  by_cases hr : c = .lcyReturn
  · subst hr
    apply runCmd_burns
    intro mb c
    exact transition_burns s mb 3 (by decide) (eraseReturned_core _)
  · obtain ⟨t, ht, hgrew⟩ := exec_grew c s hi ha hr
    exact ⟨t, ht, hgrew.burnt⟩

theorem Burnt.getLsbD {s t : State} (h : Burnt s t) {i : Nat} (hi : s.mram.fuses.getLsbD i = true) : t.mram.fuses.getLsbD i = true := by
  obtain ⟨-, b, -, hfuses⟩ := h
  simp [hfuses, hi]

/-- No fuse bit lost, no life-cycle state left backwards: the state is that of the highest bit set (R134). -/
theorem lcyState_le {s t : State} (h : ∀ i, s.mram.fuses.getLsbD i = true → t.mram.fuses.getLsbD i = true) : lcyState s ≤ lcyState t := by
  have h0 := h 0
  have h1 := h 1
  have h2 := h 2
  unfold lcyState
  split_ifs <;> simp_all

theorem Burnt.legal {s t : State} (h : Burnt s t) (hs : LegalLifeCycle s) : LegalLifeCycle t := by
  obtain ⟨-, b, hb, hfuses⟩ := h
  have hor : ∀ f ∈ [0#3, 1#3, 3#3, 7#3], ∀ b ∈ [0#3, 1#3, 3#3, 7#3], f ||| b ∈ [0#3, 1#3, 3#3, 7#3] := by decide
  unfold LegalLifeCycle
  rw [hfuses]
  exact hor _ hs _ hb

theorem step_legal {s t : State} (hs : LegalLifeCycle s) (h : step s = .next t) : LegalLifeCycle t := by
  unfold step at h
  split at h
  · cases h
    exact hs
  · next c rest hpending =>
    obtain ⟨u, hu, hburnt⟩ := exec_burns c { s with pending := rest }
    cases hu.symm.trans h
    exact hburnt.legal hs

/-- Settles O58: each is a value of the reset state (a new part, log entry 6). -/
theorem resetHasALegalLifeCycle : Obligations.ResetHasALegalLifeCycle := by
  unfold Obligations.ResetHasALegalLifeCycle LegalLifeCycle
  decide

/-- Settles O59: every command burns at most a legal pattern into the fuses (`exec_burns`), all but three none (`exec_grew`). -/
theorem lifeCycleOnlyGoesForward : Obligations.LifeCycleOnlyGoesForward := by
  unfold Obligations.LifeCycleOnlyGoesForward
  refine ⟨fun c s => ?_, fun s hidle => ?_, fun s t hs h => step_legal hs h⟩
  · obtain ⟨t, ht, hburnt⟩ := exec_burns c s
    have hbits : ∀ i, s.mram.fuses.getLsbD i = true → t.mram.fuses.getLsbD i = true := fun i hi => hburnt.getLsbD hi
    refine ⟨t, ht, hbits, lcyState_le hbits, fun hi ha hr => ?_, hburnt.1⟩
    obtain ⟨u, hu, hgrew⟩ := exec_grew c s hi ha hr
    cases hu.symm.trans ht
    exact hgrew.pending_fuses.2
  · have htick : step s = .next (idleTick s) := by rw [step, hidle]
    exact ⟨idleTick s, htick, rfl, hidle⟩

end Sys2Proof.Machine
end

section
/-! The mailboxes' doorbells, the dispatch of a command and its checks in the order of R163 (R144-R146, R154-R169). -/

namespace Sys2Proof.Machine

/-! ## The doorbell (R154, R155) -/

section
variable {s : State} {mb : Nat}

theorem ringEff_accepted (ho : doorbellOpen s mb = true) (hst : (s.mb mb).st = .idle ∨ (s.mb mb).st = .complete) :
    ringEff s mb = (s.modMb mb fun m => { m with st := .queued, cmd := some (copyCmd (s.mb mb)), seq := (copyCmd (s.mb mb)).seq }).modHer
      fun h => { h with queue := h.queue ++ [mb] } := by
  simp [ringEff, ho, hst]

theorem ringEff_busy (ho : doorbellOpen s mb = true) (hst : (s.mb mb).st = .queued ∨ (s.mb mb).st = .executing ∨ (s.mb mb).st = .waiting) :
    ringEff s mb = s.setMb mb { s.mb mb with err := (s.mb mb).err ||| 1#2 } := by
  rcases hst with hst | hst | hst <;> simp [ringEff, ho, hst, State.modMb]

theorem cancelEff_ignored (ho : doorbellOpen s mb = true) (hst : (s.mb mb).st ≠ .waiting) :
    cancelEff s mb = s.setMb mb { s.mb mb with err := (s.mb mb).err ||| 2#2 } := by
  simp [cancelEff, ho, hst, State.modMb]

theorem cancelEff_waiting (ho : doorbellOpen s mb = true) (hst : (s.mb mb).st = .waiting) :
    cancelEff s mb = cancelled (unwait s mb) mb := by
  simp [cancelEff, ho, hst]

end

@[simp] theorem sendMsix_mb (s : State) (fn e m : Nat) : (sendMsix s fn e).mb m = s.mb m := by rw [sendMsix_ep_out]; rfl

theorem State.modHer_mb {s : State} {f : Herdin → Herdin} (h : (f s.her).mb = s.her.mb) (m : Nat) : (s.modHer f).mb m = s.mb m :=
  congrArg (fun x => Tbl.get mbInit x m) h

/-- The mailbox that holds the response (R157, R161), whichever command the engine executes. -/
theorem respond_mb {s : State} {mb : Nat} {c : Cmd} (hc : (s.mb mb).cmd = some c) (result cs reason detail : Nat) (payload : List Byte) :
    (respond s mb result cs reason detail payload).mb mb
      = { s.mb mb with rsp := rspBytes c result cs reason detail payload, st := .complete, cmd := none, seq := c.seq } := by
  unfold respond
  rw [hc]
  dsimp only
  split
  · rw [sendMsix_mb]
    split <;> simp [State.modHer_mb]
  · split <;> simp [State.modHer_mb]

/-! ## The engine takes the next command (R164) -/

theorem dispatchEff_takes {s : State} {mb : Nat} {rest : List Nat} {c : Cmd} (hs : s.served = true) (he : s.her.exec = none)
    (hq : s.her.queue = mb :: rest) (hc : (s.mb mb).cmd = some c) :
    dispatchEff s = checkCmd (({ s with her := { s.her with queue := rest, exec := some mb } }).modMb mb fun m => { m with st := .executing }) mb c := by
  have hcmd : ((s.modHer fun h => { h with queue := rest, exec := some mb }).mb mb).cmd = some c := hc
  unfold dispatchEff
  rw [he, hq]
  simp only [hs, hcmd, Bool.not_true, Bool.false_eq_true, if_false]
  rfl

/-- Settles O15: each clause is the branch of `ringEff`, `cancelEff` or `dispatchEff` that it names (a RING ignored beside a CANCEL is log entry 53), and the lockout of R145 ends in its own key slot. -/
theorem mailboxDoorbellsAndDispatch : Obligations.MailboxDoorbellsAndDispatch := by
  unfold Obligations.MailboxDoorbellsAndDispatch
  refine ⟨fun s mb ho => ⟨fun hst => ?ring, fun hst => ?busy, fun r hst => ?ignored, fun r c hst hc => ?cancel⟩,
    fun s mb rest c hs he hq hc => ?dispatch, fun s n hl => ?lockout⟩
  case ring =>
    refine ⟨_, congrArg Host.Outcome.next (ringEff_accepted ho hst), ?_, rfl, fun m hm => ?_, rfl⟩
    · simp [State.modHer_mb]
    · simp [State.modHer_mb, State.modMb_mb, hm]
  case busy => exact congrArg Host.Outcome.next (ringEff_busy ho hst)
  case ignored => exact congrArg Host.Outcome.next (cancelEff_ignored ho hst)
  case cancel =>
    have hcmd : ((unwait s mb.val).mb mb.val).cmd = some c := by rw [mb_of_fnPart (unwait_fnPart s mb.val), hc]
    have hmb := respond_mb hcmd 3 0 0 0 []
    refine ⟨_, congrArg Host.Outcome.next (cancelEff_waiting ho hst), ?_, ?_, ?_⟩
    all_goals rw [cancelled, hmb]
  case dispatch => exact congrArg Host.Outcome.next (dispatchEff_takes hs he hq hc)
  case lockout =>
    refine ⟨_, congrArg Host.Outcome.next (if_neg hl), ?_, rfl, fun m hm => ?_, rfl⟩
    · simp
    · simp [State.modKey_key, hm]

/-! ## The checks of R163, in order -/

theorem authFail_her (s : State) (t reason : Nat) (c : Cmd) : (authFail s t reason c).her = s.her := by
  unfold authFail
  dsimp only
  split
  · rfl
  · rw [raise_only]
    split
    · split <;> rfl
    · rfl

section
variable {s : State} {mb : Nat} {c : Cmd}

theorem checkCmd_badOpcode (h : lengthOk c = none) : checkCmd s mb c = reject s mb Rej.badOpcode := by
  simp [checkCmd, h]

theorem checkCmd_recovery (h : lengthOk c ≠ none) (hr : ¬(s.boot.recovery = false ∨ recoveryServes mb c = true)) :
    checkCmd s mb c = reject s mb Rej.recovery := by
  obtain ⟨ok, hok⟩ := Option.ne_none_iff_exists'.mp h
  simp only [not_or, Bool.not_eq_false, Bool.not_eq_true] at hr
  simp [checkCmd, hok, hr]

/-- What is left of `checkCmd` for a known opcode that recovery, if it runs, serves. -/
theorem checkCmd_served {ok : Bool} (h : lengthOk c = some ok) (hr : s.boot.recovery = false ∨ recoveryServes mb c = true) :
    checkCmd s mb c =
      if !ok then reject s mb Rej.badLength
      else if !flagsOk c then reject s mb Rej.badParam
      else if !critical c.opcode ∧ !maySend mb c.opcode then reject s mb Rej.notPermitted
      else if !payloadOk s c then reject s mb Rej.badParam
      else if cmdContained s (mbTenant mb) c then
        ran (s.raise { code := Ev.contained, src := srcMailbox, tenant := mbTenant mb, cs := Cs.contained }) mb Cs.contained []
      else if critical c.opcode then
        if authReason s mb c = 0 then authAccept s (mbTenant mb) c
        else respond (authFail s (mbTenant mb) (authReason s mb c) c) mb 0 Cs.authFail (authReason s mb c) 0 []
      else s := by
  have hserve : ¬(s.boot.recovery = true ∧ (!recoveryServes mb c) = true) := by
    rintro ⟨hrec, hno⟩
    rcases hr with hr | hr
    · simp [hr] at hrec
    · simp [hr] at hno
  unfold checkCmd
  rw [h]
  dsimp only
  rw [if_neg hserve]
  generalize authReason s mb c = r
  cases r <;> rfl

theorem permitted (h : critical c.opcode = true ∨ maySend mb c.opcode = true) : ¬((!critical c.opcode) = true ∧ (!maySend mb c.opcode) = true) := by
  rintro ⟨hcr, hno⟩
  rcases h with h | h
  · simp [h] at hcr
  · simp [h] at hno

theorem reject_rejects (he : s.her.exec = some mb) (hc : (s.mb mb).cmd = some c) (reason : Nat) : Rejects s (reject s mb reason) mb c reason :=
  respond_answers s mb c 2 0 reason 0 [] he hc

/-- An answer given on a state whose mailboxes are those of `s`. -/
theorem respond_answers_of_her {u : State} (hu : u.her = s.her) (he : s.her.exec = some mb) (hc : (s.mb mb).cmd = some c)
    (result cs reason detail : Nat) (payload : List Byte) :
    Answers u (respond u mb result cs reason detail payload) mb c result cs reason detail payload := by
  refine respond_answers u mb c result cs reason detail payload (by rw [hu, he]) ?_
  unfold State.mb
  rw [hu]
  exact hc

end

/-- Settles O16: an unknown opcode and one that recovery hides end before `checkCmd_served`, whose branches are the other clauses (containment after the payload, and the counter stored in RAW and RETURNED, are log entry 48). -/
theorem commandChecksInOrder : Obligations.CommandChecksInOrder := by
  unfold Obligations.CommandChecksInOrder
  intro s mb c he hc
  dsimp only
  have hrej := reject_rejects he hc
  refine ⟨fun h => ?opcode, fun h hr => ?recovery, fun h hr => ?length, fun h hr => ⟨fun hf => ?flags, fun hf hcr hm => ?issuer,
    fun hf hm => ⟨fun hp => ?payload, fun hp => ⟨fun hcont hroom => ?contained, fun hcont hcr => ?plain, fun hcont hcr ha => ?accepted,
      fun hcont hcr ha => ?failed⟩⟩⟩⟩
  case opcode => exact checkCmd_badOpcode h ▸ hrej 1
  case recovery => exact checkCmd_recovery h hr ▸ hrej 5
  case length =>
    rw [checkCmd_served h hr]
    simpa using hrej 2
  case flags =>
    rw [checkCmd_served h hr]
    simpa [hf] using hrej 3
  case issuer =>
    rw [checkCmd_served h hr]
    simpa [hf, hcr, hm] using hrej 4
  all_goals rw [checkCmd_served h hr, if_neg (permitted hm)]
  case payload => simpa [hf, hp] using hrej 3
  case contained =>
    have hrec := raise_records s { code := Ev.contained, src := srcMailbox, tenant := mbTenant mb, cs := Cs.contained } hroom rfl (.inr rfl)
    refine ⟨_, hrec, ?_⟩
    simpa [hf, hp, hcont, ran] using respond_answers_of_her (congrArg State.her hrec) he hc 0 Cs.contained 0 0 []
  case plain => simp [hf, hp, hcont, hcr]
  case accepted => simp [hf, hp, hcont, hcr, ha, authAccept, State.modKey]
  case failed =>
    refine ⟨_, rfl, ?_⟩
    simpa [hf, hp, hcont, hcr, ha] using respond_answers_of_her (authFail_her ..) he hc 0 Cs.authFail (authReason s mb c) 0 []

end Sys2Proof.Machine
end

section
/-! Keys, life-cycle transitions, boundary scan and the debug port (R135-R141, R147-R151). -/

namespace Sys2Proof.Machine

/-! ## The debug port closes (R151) -/

theorem checkIdle_only (s : State) (d : Nat) : checkIdle s d = { s with pwr := (checkIdle s d).pwr } := by
  unfold checkIdle
  split <;> rfl

theorem dropVote_only (s : State) (d client : Nat) : dropVote s d client = { s with pwr := (dropVote s d client).pwr } := by
  unfold dropVote
  rw [checkIdle_only]
  rfl

/-- What the closing of the debug port leaves as it is, besides the debug state that it does not close. -/
def State.keyPart (s : State) : (Mram × Herdin) × Weirs := ((s.mram, s.her), s.weirs)

@[simp] theorem State.modDbg_keyPart (s : State) (f : Debug → Debug) : (s.modDbg f).keyPart = s.keyPart := by rfl

@[simp] theorem raise_keyPart (s : State) (e : Ev) : (s.raise e).keyPart = s.keyPart := by rw [raise_only]; rfl

@[simp] theorem dropVote_keyPart (s : State) (d client : Nat) : (dropVote s d client).keyPart = s.keyPart := by rw [dropVote_only]; rfl

@[simp] theorem dropVotes_keyPart (s : State) (client : Nat) : (dropVotes s client).keyPart = s.keyPart := by
  refine foldl_keeps State.keyPart _ _ _ fun u i => ?_
  split
  · exact dropVote_keyPart ..
  · rfl

theorem closeDebug_keyPart (s : State) (x : Nat) : (closeDebug s x).keyPart = s.keyPart := by
  unfold closeDebug
  dsimp only
  split <;> simp

@[simp] theorem raise_dbg (s : State) (e : Ev) : (s.raise e).dbg = s.dbg := by rw [raise_only]

theorem closeDebug_dbg (s : State) (x : Nat) :
    (closeDebug s x).dbg.isOpen = false ∧ (closeDebug s x).dbg.expires = none ∧ (closeDebug s x).dbg.session = false := by
  unfold closeDebug
  dsimp only
  split <;> simp

theorem key_of_keyPart {s t : State} (h : t.keyPart = s.keyPart) (k : Nat) : t.key k = s.key k :=
  congrArg (fun x : (Mram × Herdin) × Weirs => Tbl.get keyInit x.1.1.keys k) h

theorem mb_of_keyPart {s t : State} (h : t.keyPart = s.keyPart) (m : Nat) : t.mb m = s.mb m :=
  congrArg (fun x : (Mram × Herdin) × Weirs => Tbl.get mbInit x.1.2.mb m) h

/-! ## Life-cycle transitions (R136, R137) -/

/-- A transition's state before the key, the keys or the slots that it stores or erases: recorded, the fuses burnt, the debug port closed. -/
def fused (s : State) (new fuses : Nat) : State :=
  closeDebug ((s.raise { code := Ev.lcyTransition, src := srcSalt, data := leBytes 1 (lcyState s) ++ leBytes 1 new }).modMram
    fun m => { m with fuses := m.fuses ||| BitVec.ofNat 3 fuses }) 3

theorem transition_eq (s : State) (mb new fuses : Nat) (act : State → State) :
    transition s mb new fuses act = wideReset (commitAll (done (act (fused s new fuses)) mb []) 600) .device 3 := by
  simp only [transition, fused]

theorem fused_key (s : State) (new fuses k : Nat) : (fused s new fuses).key k = s.key k := by
  unfold fused
  rw [key_of_keyPart (closeDebug_keyPart _ 3)]
  exact key_of_keyPart (raise_keyPart s _) k

theorem fused_closed (s : State) (new fuses : Nat) : (fused s new fuses).dbg.isOpen = false := by
  unfold fused
  exact (closeDebug_dbg _ 3).1

/-! ## The executing key command's row -/

section
variable {s : State} {mb : Nat} {c : Cmd}

theorem execOwnerKeyInstall_late (hx : Executing s 0x0900 mb c) (h : lcyState s ≠ 0) :
    execOwnerKeyInstall s = .next (respond (authFail s 0 5 c) mb 0 Cs.authFail 5 0 []) := by
  simp only [execOwnerKeyInstall, runCmd_executing hx, if_pos h]

theorem execOwnerKeyInstall_raw (hx : Executing s 0x0900 mb c) (h : lcyState s = 0) :
    execOwnerKeyInstall s = .next (transition s mb 1 1 fun s => s.modKey 0 fun x => { x with key := some (slice c.payload 0 32), counter := 0 }) := by
  simp only [execOwnerKeyInstall, runCmd_executing hx, if_neg (not_not_intro h)]

theorem execLcyAdvance_executing (hx : Executing s 0x0902 mb c) : execLcyAdvance s = .next (transition s mb 2 3 id) := by
  simp only [execLcyAdvance, runCmd_executing hx]

theorem execLcyReturn_executing (hx : Executing s 0x0903 mb c) :
    execLcyReturn s = .next (transition s mb 3 7 (eraseReturned (bit c.flags 8))) := by
  simp only [execLcyReturn, runCmd_executing hx]

theorem execKeySet_executing (hx : Executing s 0x0901 mb c) (h : bit c.flags 8 = false) :
    execKeySet s = .next (done ((s.bumpBy 32).modKey (wordAt c.payload 0) fun x => { x with key := some (newKey s mb c) }) mb []) := by
  simp only [execKeySet, runCmd_executing hx, h, Bool.false_eq_true, if_false]

theorem execKeySetErase_executing (hx : Executing s 0x0901 mb c) (h : bit c.flags 8 = true) :
    execKeySetErase s = .next (done (s.modKey (wordAt c.payload 0) fun x => { x with key := none }) mb []) := by
  simp only [execKeySetErase, runCmd_executing hx, h, if_true]

end

/-! ## What entry to RETURNED erases (R137, R138) -/

theorem eraseReturned_key (cfg : Bool) (s : State) (k : Nat) : (eraseReturned cfg s).key k = keyInit k := by
  cases cfg <;> rfl

theorem eraseReturned_weirs (cfg : Bool) (s : State) : (eraseReturned cfg s).weirs = { s.weirs with rgn := ⟨[]⟩, locked := [] } := by
  cases cfg <;> rfl

theorem eraseReturned_cfg (s : State) : (imgOf (eraseReturned true s) 1 0).valid = false ∧ (imgOf (eraseReturned true s) 1 1).valid = false :=
  ⟨rfl, rfl⟩

/-! ## Boundary scan (R148) -/

/-- The takeover noted and recorded, before the containment it enters. -/
def scanTaken (s : State) : State :=
  ((s.modCont fun c => { c with tapTakeover := true }).modDbg fun d => { d with takeover := true }).raise
    { code := Ev.bscanTakeover, src := srcAo, enters := 2 }

theorem execBscanTakeover_eq (i : TapInstr) (s : State) : execBscanTakeover i s = .next (bscanEff s) := by
  cases i <;> rfl

theorem bscanEff_awake {s : State} (h : awake s = true) : bscanEff s = enterDevice (scanTaken s) 5 := if_pos h

theorem bscanEff_ignored {s : State} (h : awake s = false) (ht : s.tide.active = false) : bscanEff s = s := by
  simp [bscanEff, h, ht]

theorem scanTaken_records {s : State} (hr : LogRoom s) :
    Records { s with cont := { s.cont with tapTakeover := true }, dbg := { s.dbg with takeover := true } } (scanTaken s)
      { code := Ev.bscanTakeover, src := srcAo, enters := 2 } :=
  raise_records _ _ hr rfl (.inl (by decide))

/-- Settles O42: a transition is `transition_eq` and `transition_pending_fuses`, with the keys of `fused_key` before what it stores or erases; KEY_SET and its erasure write one key (log entry 49), and a boundary scan is `scanTaken` (log entry 52). -/
theorem keysAndLifeCycle : Obligations.KeysAndLifeCycle := by
  unfold Obligations.KeysAndLifeCycle
  refine ⟨fun s mb c hx => ⟨fun hraw => ?late, fun hraw => ?install⟩, fun s mb c hx => ?advance, fun s mb c hx => ?return_,
    fun s mb c hx => ⟨fun hset => ?set, fun herase => ?erase⟩, fun s i => ⟨fun ha hr => ?scan, fun ha ht => ?ignored⟩, fun s => rfl⟩
  case late => exact execOwnerKeyInstall_late hx hraw
  case install =>
    refine ⟨_, (fused s 1 1).modKey 0 fun x => { x with key := some (slice c.payload 0 32), counter := 0 },
      execOwnerKeyInstall_raw hx hraw, ?_, ?_, ?_, fun k hk => ?_, transition_eq s mb 1 1 _⟩
    · obtain ⟨-, hfuses⟩ := transition_pending_fuses s mb 1 1 fun u => State.modKey_core u 0 _
      exact hfuses
    · simp
    · simp
    · rw [State.modKey_key, if_neg hk, fused_key]
  case advance =>
    obtain ⟨-, hfuses⟩ := transition_pending_fuses s mb 2 3 (act := id) fun u => rfl
    refine ⟨transition s mb 2 3 id, fused s 2 3, execLcyAdvance_executing hx, hfuses, ?_, ?_, ?_⟩
    · rw [transition_eq, id_eq]
    · exact fused_key s 2 3
    · exact fused_closed s 2 3
  case return_ =>
    obtain ⟨-, hfuses⟩ := transition_pending_fuses s mb 3 7 (eraseReturned_core (bit c.flags 8))
    refine ⟨_, eraseReturned (bit c.flags 8) (fused s 3 7), execLcyReturn_executing hx, hfuses, transition_eq s mb 3 7 _, eraseReturned_key _ _, ?_, fun w r i => ?_, fun hcfg => ?_⟩
    · rw [eraseReturned_weirs]
    · rw [rgnWord, eraseReturned_weirs]
      rfl
    · rw [hcfg]
      exact eraseReturned_cfg _
  case set =>
    refine ⟨_, (s.bumpBy 32).modKey (wordAt c.payload 0) fun x => { x with key := some (newKey s mb c) }, execKeySet_executing hx hset,
      executing_done hx (by simp) [], ?_, fun j hj => ?_, rfl⟩
    · simp
    · simp [State.modKey_key, hj]
  case erase =>
    refine ⟨_, s.modKey (wordAt c.payload 0) fun x => { x with key := none }, execKeySetErase_executing hx herase,
      executing_done hx (by simp) [], ?_, fun j hj => ?_, rfl⟩
    · simp
    · simp [State.modKey_key, hj]
  case scan =>
    have hrec := scanTaken_records hr
    refine ⟨scanTaken s, (execBscanTakeover_eq i s).trans (congrArg Host.Outcome.next (bscanEff_awake ha)), ?_, ?_, ?_⟩
    all_goals rw [hrec]
    exact rfl
  case ignored => exact (execBscanTakeover_eq i s).trans (congrArg Host.Outcome.next (bscanEff_ignored ha ht))

end Sys2Proof.Machine
end

section
/-! The debug port: opened by unlock, closed by lock and expiry, and its accesses (R89, R96, R99, R135, R149-R151). -/

namespace Sys2Proof.Machine

/-! ## Unlock and lock (R150, R151) -/

def debugOpenEv : Ev := { code := Ev.debugOpen, src := srcSalt }

/-- The port open until its time, the opening recorded where it was closed (R150). -/
def unlocked (s : State) (c : Cmd) : State :=
  (if s.dbg.isOpen then s else s.raise debugOpenEv).modDbg fun d =>
    { d with isOpen := true, expires := some (s.now + wordAt c.payload 0 * 1000000000) }

theorem unlocked_of_open {s : State} (h : s.dbg.isOpen = true) (c : Cmd) : unlocked s c
    = { s with dbg := { s.dbg with isOpen := true, expires := some (s.now + wordAt c.payload 0 * 1000000000) } } := by
  unfold unlocked
  rw [if_pos h]
  rfl

theorem unlocked_of_closed {s : State} (h : s.dbg.isOpen = false) (hr : LogRoom s) (c : Cmd) :
    Records { s with dbg := (unlocked s c).dbg } (unlocked s c) debugOpenEv := by
  have hrec : Records s (s.raise debugOpenEv) debugOpenEv := raise_records s debugOpenEv hr rfl (.inr rfl)
  unfold unlocked
  rw [if_neg (by simp [h]), hrec]
  rfl

theorem unlocked_keeps (s : State) (c : Cmd) : (unlocked s c).her = s.her
    ∧ (unlocked s c).dbg = { s.dbg with isOpen := true, expires := some (s.now + wordAt c.payload 0 * 1000000000) } := by
  unfold unlocked
  split
  · exact ⟨rfl, rfl⟩
  · rw [raise_only]
    exact ⟨rfl, rfl⟩

section
variable {s : State} {mb : Nat} {c : Cmd}

theorem execDebugUnlock_always_open (hx : Executing s 0x0904 mb c) (h : lcyState s = 0 ∨ lcyState s = 3) : execDebugUnlock s = .next (done s mb []) := by
  simp only [execDebugUnlock, runCmd_executing hx, debugUnlockEff, if_pos h]

theorem execDebugUnlock_unlocks (hx : Executing s 0x0904 mb c) (h : ¬(lcyState s = 0 ∨ lcyState s = 3)) :
    execDebugUnlock s = .next (done (unlocked s c) mb []) := by
  simp only [execDebugUnlock, runCmd_executing hx, debugUnlockEff, if_neg h, unlocked, debugOpenEv]

theorem execDebugLock_executing (hx : Executing s 0x0905 mb c) :
    execDebugLock s = .next (done (if s.dbg.isOpen then closeDebug s 1 else s) mb []) := by
  simp only [execDebugLock, runCmd_executing hx]

end

/-! ## The unlock expires (R151) -/

theorem execDebugUnlockExpire_idle {s : State} (h : s.dbg.expires = none ∨ s.dbg.isOpen = false) : execDebugUnlockExpire s = .next s := by
  unfold execDebugUnlockExpire
  split
  · next e he =>
    have hclosed : s.dbg.isOpen = false := by simpa [he] using h
    simp [hclosed]
  · rfl

theorem execDebugUnlockExpire_closes {s : State} {e : Nat} (he : s.dbg.expires = some e) (ho : s.dbg.isOpen = true) :
    execDebugUnlockExpire s = .next (closeDebug (s.atTime e) 0) := by
  simp [execDebugUnlockExpire, he, ho]

/-! ## Accesses (R89, R96, R99, R149) -/

/-- The session of an accepted access, with its vote for the domain of its target (R89). -/
def debugSession (s : State) (w : Nat) : State :=
  s.modDbg fun x => { x with session := true, votes := if votable (weirDomain w) then insertAsc (weirDomain w) x.votes else x.votes }

section
variable {s : State} {w : Nat} (addr space : Nat) (v : Option Word)

theorem debugAccessEff_refused (h : debugOpen s = false ∨ awake s = false) : debugAccessEff s w addr space v = s.emit .dbgErr := by
  unfold debugAccessEff
  rcases h with h | h <;> simp [h]

/-- An accepted access meets the power of its target's domain. -/
theorem debugAccessEff_accepted (ho : debugOpen s = true) (ha : awake s = true) : debugAccessEff s w addr space v =
    if domDisabled s (weirDomain w) then
      let t := ((debugSession s w).incReg 0x10014).raise (absentEv (weirDomain w) Client.debug 0xFF addr)
      if v.isSome then t else t.emit (.dbgData 0xFFFFFFFF#32)
    else
      let t := raiseVote (debugSession s w) (weirDomain w) Client.debug
      if domUp t (weirDomain w) then debugRun t w addr space v
      else t.modDom (weirDomain w) fun x => { x with held := x.held ++ [.debug w addr space v] } := by
  unfold debugAccessEff
  exact if_neg (by simp [ho, ha])

/-- An access to a disabled island: counted, recorded, and a read answered with ones (R99). -/
theorem debugAccessEff_absent (ho : debugOpen s = true) (ha : awake s = true) (hd : domDisabled s (weirDomain w) = true) (hr : LogRoom s) :
    ∃ t, debugAccessEff s w addr space v = t
      ∧ Records { debugSession s w with regs := t.regs, out := t.out } t (absentEv (weirDomain w) Client.debug 0xFF addr)
      ∧ t.reg 0x10014 = s.reg 0x10014 + 1 ∧ t.out = if v.isSome then s.out else .dbgData 0xFFFFFFFF#32 :: s.out := by
  have hrec : Records ((debugSession s w).incReg 0x10014) (((debugSession s w).incReg 0x10014).raise (absentEv (weirDomain w) Client.debug 0xFF addr))
      (absentEv (weirDomain w) Client.debug 0xFF addr) := raise_records _ _ hr rfl (.inl (by simp [absentEv]))
  have hreg : ((debugSession s w).incReg 0x10014).reg 0x10014 = s.reg 0x10014 + 1 := State.setReg_reg_same ..
  rw [debugAccessEff_accepted addr space v ho ha, if_pos hd]
  dsimp only
  rw [hrec]
  refine ⟨_, rfl, ?_⟩
  cases v
  · exact ⟨rfl, hreg, rfl⟩
  · exact ⟨rfl, hreg, rfl⟩

end

/-- Settles O43: unlock, lock and expiry are their rows' lemmas with `unlocked` and `closeDebug`, and an accepted access splits on the power of its target's domain (RAW and RETURNED, and the causes of a close, are log entry 51). -/
theorem debugPort : Obligations.DebugPort := by
  unfold Obligations.DebugPort
  refine ⟨fun s mb c hx => ⟨fun h => ?always, fun h hr => ?unlock⟩, fun s mb c hx => ⟨fun hc => ?lockClosed, fun ho => ?lockOpen⟩, fun s x => ?close,
    fun s => ⟨fun h => ?idle, fun e he ho => ?expire⟩, fun s w addr space v => ⟨fun h => ?refused, fun ho ha => ?access⟩⟩
  case always => exact ⟨_, execDebugUnlock_always_open hx h, executing_done hx rfl []⟩
  case unlock =>
    obtain ⟨hher, hdbg⟩ := unlocked_keeps s c
    refine ⟨_, unlocked s c, execDebugUnlock_unlocks hx h, executing_done hx hher [], hdbg, fun ho => ?_, fun hc => unlocked_of_closed hc hr c⟩
    rw [hdbg]
    exact unlocked_of_open ho c
  case lockClosed =>
    have hexec := execDebugLock_executing hx
    rw [if_neg (by simp [hc])] at hexec
    exact ⟨_, hexec, executing_done hx rfl []⟩
  case lockOpen =>
    have hexec := execDebugLock_executing hx
    rw [if_pos ho] at hexec
    exact hexec
  case close =>
    obtain ⟨hopen, hexp, hsession⟩ := closeDebug_dbg s x
    exact ⟨hopen, hexp, hsession, mb_of_keyPart (closeDebug_keyPart s x)⟩
  case idle => exact execDebugUnlockExpire_idle h
  case expire => exact execDebugUnlockExpire_closes he ho
  case refused => exact congrArg Host.Outcome.next (debugAccessEff_refused addr space v h)
  case access =>
    have hacc := debugAccessEff_accepted (w := w.val) addr space v ho ha
    refine ⟨debugSession s w.val, rfl, rfl, fun hd hup => ?_, fun hd hup => ?_, fun hd hr => ?_⟩
    · rw [if_neg (by simp [hd])] at hacc
      exact congrArg Host.Outcome.next (hacc.trans (if_pos hup))
    · rw [if_neg (by simp [hd])] at hacc
      refine ⟨_, congrArg Host.Outcome.next (hacc.trans (if_neg (by simp [hup]))), ?_⟩
      simp
    · obtain ⟨t, ht, hrec, hreg, hout⟩ := debugAccessEff_absent (w := w.val) addr space v ho ha hd hr
      exact ⟨t, _, congrArg Host.Outcome.next ht, hrec, rfl, rfl, rfl, hreg, hout⟩

end Sys2Proof.Machine
end

section
/-! The window commands and the information commands (R161-R163, R167, R170, R203, R212, R213): what writing and committing a window's words leaves of the two copies, and the two families' answers. -/

namespace Sys2Proof.Machine

/-! ## Writing a window's words (R203) -/

/-- The six words of window `w` written, word `j` with `g j`. -/
def setWords (g : Nat → Word) (w : Nat) (t : Tbl Word) : Tbl Word :=
  (List.range 6).foldl (fun t j => t.set (fun _ => 0#32) (8 * w + j) (g j)) t

/-- Words 0 to `n - 1` written: windows lie 8 keys apart, so no word of another window is met. -/
theorem foldl_set_words (g : Nat → Word) (w : Nat) (t : Tbl Word) {v i : Nat} (hi : i < 8) {n : Nat} (hn : n ≤ 8) :
    Tbl.get (fun _ => 0#32) ((List.range n).foldl (fun t j => t.set (fun _ => 0#32) (8 * w + j) (g j)) t) (8 * v + i)
      = if v = w ∧ i < n then g i else Tbl.get (fun _ => 0#32) t (8 * v + i) := by
  induction n with
  | zero => simp
  | succ n ih =>
    rw [List.range_succ, List.foldl_append, List.foldl_cons, List.foldl_nil, Tbl.get_set, ih (by omega)]
    by_cases hlast : v = w ∧ i = n
    · obtain ⟨rfl, rfl⟩ := hlast
      simp
    · have hkey : 8 * v + i ≠ 8 * w + n := by omega
      have hiff : (v = w ∧ i < n + 1) ↔ (v = w ∧ i < n) := by omega
      simp only [if_neg hkey, hiff]

theorem winWord_setWords (g : Nat → Word) (w : Nat) (t : Tbl Word) (v : Nat) {i : Nat} (hi : i < 6) :
    winWord (setWords g w t) v i = if v = w then (g i).toNat else winWord t v i := by
  unfold winWord setWords
  rw [foldl_set_words g w t (by omega) (by omega)]
  simp only [hi, and_true]
  split <;> rfl

theorem foldl_modWin {α : Type} (f : α → Windows → Windows) (l : List α) (s : State) :
    l.foldl (fun s a => s.modWin (f a)) s = s.modWin fun x => l.foldl (fun x a => f a x) x := by
  induction l generalizing s with
  | nil => rfl
  | cons a l ih => exact ih _

theorem foldl_shadow {α : Type} (f : α → Tbl Word → Tbl Word) (l : List α) (x : Windows) :
    l.foldl (fun x a => { x with shadow := f a x.shadow }) x = { x with shadow := l.foldl (fun t a => f a t) x.shadow } := by
  induction l generalizing x with
  | nil => rfl
  | cons a l ih => exact ih _

theorem foldl_work {α : Type} (f : Tbl Word → α → Tbl Word → Tbl Word) (l : List α) (x : Windows) :
    l.foldl (fun x a => { x with work := f x.shadow a x.work }) x = { x with work := l.foldl (fun t a => f x.shadow a t) x.work } := by
  induction l generalizing x with
  | nil => rfl
  | cons a l ih => exact ih _

/-- A window's six shadow words written (R203). -/
theorem foldl_setShadow (v : Nat → Word) (w : Nat) (s : State) :
    (List.range 6).foldl (fun u i => setShadow u w i (v i)) s
      = s.modWin fun x => { x with shadow := setWords (fun i => v i &&& winMask i) w x.shadow } := by
  unfold setShadow
  rw [foldl_modWin]
  exact congrArg s.modWin (funext fun x => foldl_shadow (fun i t => t.set (fun _ => 0#32) (8 * w + i) (v i &&& winMask i)) _ x)

/-! ## The shadows of a range committed (R212, R213) -/

/-- The working copies `t` with those of `n` windows from `first` on replaced by `shadow`'s. -/
def copyWindows (shadow : Tbl Word) (first n : Nat) (t : Tbl Word) : Tbl Word :=
  (List.range n).foldl (fun t i => setWords (fun j => Tbl.get (fun _ => 0#32) shadow (8 * (first + i) + j)) (first + i) t) t

theorem winWord_copyWindows (shadow : Tbl Word) (first n : Nat) (t : Tbl Word) (w : Nat) {i : Nat} (hi : i < 6) :
    winWord (copyWindows shadow first n t) w i = if first ≤ w ∧ w < first + n then winWord shadow w i else winWord t w i := by
  unfold copyWindows
  induction n with
  | zero =>
    have hnone : ¬(first ≤ w ∧ w < first + 0) := by omega
    rw [if_neg hnone]
    rfl
  | succ n ih =>
    rw [List.range_succ, List.foldl_append, List.foldl_cons, List.foldl_nil, winWord_setWords _ _ _ _ hi, ih]
    by_cases hlast : w = first + n
    · have hin : first ≤ w ∧ w < first + (n + 1) := by omega
      rw [if_pos hlast, if_pos hin, hlast]
      rfl
    · have hiff : (first ≤ w ∧ w < first + (n + 1)) ↔ (first ≤ w ∧ w < first + n) := by omega
      simp only [if_neg hlast, hiff]

theorem applyShadows_eq (s : State) (first last : Nat) : applyShadows s first last = s.modWin fun x =>
    { x with work := copyWindows x.shadow first (last + 1 - first) x.work, unreach := x.unreach.filter fun w => !decide (first ≤ w ∧ w ≤ last) } := by
  have hwindow : ∀ (w : Nat) (s : State), (List.range 6).foldl (fun s j => s.modWin fun x => { x with
      work := x.work.set (fun _ => 0#32) (8 * w + j) (Tbl.get (fun _ => 0#32) x.shadow (8 * w + j)) }) s
        = s.modWin fun x => { x with work := setWords (fun j => Tbl.get (fun _ => 0#32) x.shadow (8 * w + j)) w x.work } := fun w s => by
    rw [foldl_modWin]
    exact congrArg s.modWin (funext fun x =>
      foldl_work (fun sh j t => t.set (fun _ => 0#32) (8 * w + j) (Tbl.get (fun _ => 0#32) sh (8 * w + j))) _ x)
  unfold applyShadows
  simp only [hwindow]
  rw [foldl_modWin]
  exact congrArg s.modWin (funext fun x => congrArg (fun y : Windows => { y with unreach := y.unreach.filter fun w => !decide (first ≤ w ∧ w ≤ last) })
    (foldl_work (fun sh i t => setWords (fun j => Tbl.get (fun _ => 0#32) sh (8 * (first + i) + j)) (first + i) t) _ x))

/-- The working words after the shadows of a range took their place. -/
theorem applyShadows_work (s : State) (first last w : Nat) {i : Nat} (hi : i < 6) :
    winWord (applyShadows s first last).win.work w i = if first ≤ w ∧ w ≤ last then winWord s.win.shadow w i else winWord s.win.work w i := by
  rw [applyShadows_eq, State.modWin_win, winWord_copyWindows _ _ _ _ _ hi]
  have hiff : (first ≤ w ∧ w < first + (last + 1 - first)) ↔ (first ≤ w ∧ w ≤ last) := by omega
  simp only [hiff]

theorem applyShadows_shadow (s : State) (first last : Nat) : (applyShadows s first last).win.shadow = s.win.shadow := by
  rw [applyShadows_eq]
  rfl

/-- The end of a commit touches the windows and WIN_COMMIT_STATUS alone. -/
theorem endCommit_only (s : State) (first last result bad : Nat) : endCommit s first last result bad
    = { s with win := (endCommit s first last result bad).win, regs := (endCommit s first last result bad).regs } := by
  unfold endCommit
  split
  · rw [applyShadows_eq]
    rfl
  · rfl

theorem endCommit_her (s : State) (first last result bad : Nat) : (endCommit s first last result bad).her = s.her := by
  rw [endCommit_only]

theorem endCommit_passed_win (s : State) (first last bad : Nat) : (endCommit s first last 0 bad).win = (applyShadows s first last).win := rfl

/-! ## The window commands (R212, R213) -/

/-- WIN_SET's six words in the shadow copy. -/
def winSetWords (s : State) (c : Cmd) : State :=
  (List.range 6).foldl (fun u i => setShadow u (wordAt c.payload 0) i (w32 (wordAt c.payload (4 * (i + 1))))) s

theorem winSetWords_her (s : State) (c : Cmd) : (winSetWords s c).her = s.her := by
  rw [winSetWords, foldl_setShadow fun i => w32 (wordAt c.payload (4 * (i + 1)))]
  rfl

/-- PF0 may set any window; a VF one that no other tenant owns, and only for its own tenant (R212). -/
def MaySetWindow (s : State) (mb : Nat) (c : Cmd) : Prop :=
  winAllowed s mb (wordAt c.payload 0) = true ∧ (mbTenant mb = 0 ∨ bits (wordAt c.payload 4) 14 8 = mbTenant mb)

/-- WIN_CLEAR's effect on the windows. -/
def winCleared (s : State) (w : Nat) : State := endCommit ((List.range 6).foldl (fun s i => setShadow s w i 0#32) s) w w 0 w

theorem winCleared_only (s : State) (w : Nat) : winCleared s w = { s with win := (winCleared s w).win, regs := (winCleared s w).regs } := by
  rw [winCleared, endCommit_only, foldl_setShadow fun _ => 0#32]
  rfl

theorem winCleared_shadow (s : State) (w x : Nat) {i : Nat} (hi : i < 6) :
    winWord (winCleared s w).win.shadow x i = if x = w then 0 else winWord s.win.shadow x i := by
  rw [winCleared, endCommit_passed_win, applyShadows_shadow, foldl_setShadow fun _ => 0#32, State.modWin_win, winWord_setWords _ _ _ _ hi]
  simp

theorem winCleared_work (s : State) (w x : Nat) {i : Nat} (hi : i < 6) :
    winWord (winCleared s w).win.work x i = if x = w then 0 else winWord s.win.work x i := by
  have hiff : (w ≤ x ∧ x ≤ w) ↔ x = w := by omega
  have hshadow := winCleared_shadow s w x hi
  rw [winCleared, endCommit_passed_win, applyShadows_shadow] at hshadow
  rw [winCleared, endCommit_passed_win, applyShadows_work _ _ _ _ hi, hshadow, foldl_setShadow fun _ => 0#32, State.modWin_win]
  simp only [hiff]
  split <;> rfl

section
variable {s : State} {mb : Nat} {c : Cmd}

theorem executing_rejects {op : Nat} (hx : Executing s op mb c) (reason : Nat) : Rejects s (reject s mb reason) mb c reason :=
  executing_answers hx rfl 2 0 reason 0 []

theorem winSetEff_denied (hcommit : s.win.commit = none) (h : ¬MaySetWindow s mb c) : winSetEff s mb c = reject s mb Rej.notOwner := by
  have hdeny : (!winAllowed s mb (wordAt c.payload 0)) = true ∨ (mbTenant mb ≠ 0 ∧ bits (wordAt c.payload 4) 14 8 ≠ mbTenant mb) := by
    by_cases hallowed : winAllowed s mb (wordAt c.payload 0) = true
    · exact .inr (not_or.mp fun htenant => h ⟨hallowed, htenant⟩)
    · exact .inl (by simp [hallowed])
  unfold winSetEff
  rw [hcommit]
  exact if_pos hdeny

/-- A permitted WIN_SET does what the check of its one window says (R213). -/
theorem winSetEff_owned (hcommit : s.win.commit = none) (h : MaySetWindow s mb c) : winSetEff s mb c
    = let r := commitCheck (winSetWords s c) (wordAt c.payload 0) (wordAt c.payload 0)
      if r.1 = 0 then done (endCommit (winSetWords s c) (wordAt c.payload 0) (wordAt c.payload 0) r.1 r.2) mb []
      else refuse (commitStatus s r.1 r.2) mb r.1 r.2 := by
  obtain ⟨hallowed, htenant⟩ := h
  have hkeep : ¬((!winAllowed s mb (wordAt c.payload 0)) = true ∨ (mbTenant mb ≠ 0 ∧ bits (wordAt c.payload 4) 14 8 ≠ mbTenant mb)) := by
    rcases htenant with ht | ht <;> simp [hallowed, ht]
  unfold winSetEff
  rw [hcommit]
  exact if_neg hkeep

theorem winSetEff_passes (hcommit : s.win.commit = none) (hown : MaySetWindow s mb c)
    (hpass : (commitCheck (winSetWords s c) (wordAt c.payload 0) (wordAt c.payload 0)).1 = 0) :
    winSetEff s mb c = done (endCommit (winSetWords s c) (wordAt c.payload 0) (wordAt c.payload 0) 0
      (commitCheck (winSetWords s c) (wordAt c.payload 0) (wordAt c.payload 0)).2) mb [] := by
  rw [winSetEff_owned hcommit hown]
  dsimp only
  rw [if_pos hpass, hpass]

theorem winSetEff_fails (hcommit : s.win.commit = none) (hown : MaySetWindow s mb c)
    (hfail : (commitCheck (winSetWords s c) (wordAt c.payload 0) (wordAt c.payload 0)).1 ≠ 0) :
    let r := commitCheck (winSetWords s c) (wordAt c.payload 0) (wordAt c.payload 0)
    winSetEff s mb c = refuse (commitStatus s r.1 r.2) mb r.1 r.2 :=
  (winSetEff_owned hcommit hown).trans (if_neg hfail)

theorem winClearEff_denied (hcommit : s.win.commit = none) (h : winAllowed s mb (wordAt c.payload 0) = false) :
    winClearEff s mb c = reject s mb Rej.notOwner := by
  simp [winClearEff, hcommit, h]

theorem winClearEff_allowed (hcommit : s.win.commit = none) (h : winAllowed s mb (wordAt c.payload 0) = true) :
    winClearEff s mb c = done (winCleared s (wordAt c.payload 0)) mb [] := by
  simp [winClearEff, winCleared, hcommit, h]

theorem execWinGet_denied (hx : Executing s 0x0201 mb c) (h : winAllowed s mb (wordAt c.payload 0) = false) :
    execWinGet s = .next (reject s mb Rej.notOwner) := by
  simp [execWinGet, runCmd_executing hx, h]

theorem execWinGet_allowed (hx : Executing s 0x0201 mb c) (h : winAllowed s mb (wordAt c.payload 0) = true) :
    execWinGet s = .next (done s mb (bytesOfWords
      ((List.range 6).map (winWord s.win.shadow (wordAt c.payload 0)) ++ [winStatus s (wordAt c.payload 0), 0]))) := by
  simp [execWinGet, runCmd_executing hx, h]

end

/-- Settles O12: each command is its row's denied or allowed form, WIN_SET's split by the check of its one window (R212, R213), and the clear is a commit of six zero words. -/
theorem windowCommands : Obligations.WindowCommands := by
  unfold Obligations.WindowCommands
  refine ⟨fun s mb c hx hcommit => ⟨fun hown hpass => ?set, fun hown hfail => ?refused, fun hdeny => ?setDenied⟩,
    fun s mb c hx => ⟨fun hok => ?get, fun hno => ?getDenied⟩, fun s mb c hx hcommit => ⟨fun hok => ?clear, fun hno => ?clearDenied⟩⟩
  case set =>
    exact ⟨_, (runCmd_executing hx winSetEff).trans (congrArg _ (winSetEff_passes hcommit hown hpass)),
      executing_done hx ((endCommit_her ..).trans (winSetWords_her s c)) []⟩
  case refused =>
    exact ⟨_, (runCmd_executing hx winSetEff).trans (congrArg _ (winSetEff_fails hcommit hown hfail)), executing_refuses (u := commitStatus s _ _) hx rfl _ _⟩
  case setDenied => exact ⟨_, (runCmd_executing hx winSetEff).trans (congrArg _ (winSetEff_denied hcommit hdeny)), executing_rejects hx _⟩
  case get => exact ⟨_, execWinGet_allowed hx hok, executing_done hx rfl _⟩
  case getDenied => exact ⟨_, execWinGet_denied hx hno, executing_rejects hx _⟩
  case clear =>
    refine ⟨_, _, (runCmd_executing hx winClearEff).trans (congrArg _ (winClearEff_allowed hcommit hok)), executing_done hx ?_ [],
      fun x i hi => ⟨winCleared_shadow s _ x hi, winCleared_work s _ x hi⟩, winCleared_only s _⟩
    rw [winCleared_only]
  case clearDenied => exact ⟨_, (runCmd_executing hx winClearEff).trans (congrArg _ (winClearEff_denied hcommit hno)), executing_rejects hx _⟩

/-! ## The information commands (R167, R170) -/

section
variable {s : State} {mb : Nat} {c : Cmd}

theorem execNop_executing (hx : Executing s 0x0000 mb c) : execNop s = .next (done s mb []) := runCmd_executing hx _

theorem execInfoVersion_executing (hx : Executing s 0x0001 mb c) :
    execInfoVersion s = .next (done s mb (bytesOfWords [fwVerWord s 0, fwVerWord s 1, cfgVerWord s 0, cfgVerWord s 1, 0x00010000])) :=
  runCmd_executing hx _

theorem execInfoIdentity_executing (hx : Executing s 0x0002 mb c) :
    execInfoIdentity s = .next (done s mb (bytesOfWords [lcyWord s 0, lcyWord s 4, lcyWord s 8, 0] ++ uniqueId)) := runCmd_executing hx _

theorem execInfoStatus_executing (hx : Executing s 0x0003 mb c) :
    execInfoStatus s = .next (done s mb (bytesOfWords [glbStatus s, containWord s (mbTenant mb), b2n (s.key (mbTenant mb)).key.isSome]
      ++ leBytes 8 (s.key (mbTenant mb)).counter ++ leBytes 4 (lockoutMs s (mbTenant mb)))) := runCmd_executing hx _

theorem execInfoCaps_executing (hx : Executing s 0x0004 mb c) : execInfoCaps s = .next (done (s.bumpBy 32) mb (s.freeBytes 32)) :=
  runCmd_executing hx _

theorem execDeviceReset_executing (hx : Executing s 0x0100 mb c) :
    execDeviceReset s = .next (wideReset (commitAll (done s mb []) 600) .device 3) := runCmd_executing hx _

end

/-- Settles O17: each row runs the executing command with its payload (laid out as log entry 47 chooses); DEVICE_RESET answers, commits the records that wait and resets (R167, log entries 34 and 89). -/
theorem informationCommands : Obligations.InformationCommands := by
  unfold Obligations.InformationCommands
  refine ⟨fun s mb c hx => ?nop, fun s mb c hx => ?version, fun s mb c hx => ?identity, fun s mb c hx => ?status, fun s mb c hx => ?caps,
    fun s mb c hx => ?reset⟩
  case nop => exact ⟨_, execNop_executing hx, executing_done hx rfl []⟩
  case version => exact ⟨_, execInfoVersion_executing hx, executing_done hx rfl _⟩
  case identity => exact ⟨_, execInfoIdentity_executing hx, executing_done hx rfl _⟩
  case status => exact ⟨_, execInfoStatus_executing hx, executing_done hx rfl _⟩
  case caps => exact ⟨_, _, execInfoCaps_executing hx, rfl, executing_done (u := s.bumpBy 32) hx rfl _⟩
  case reset => exact ⟨done s mb [], executing_done hx rfl [], execDeviceReset_executing hx⟩

end Sys2Proof.Machine
end

section
/-! Errors of the host link and of the SRAM, and completions that come late or not at all (R186, R187, R228): what each reports, records and counts. -/

namespace Sys2Proof.Machine

/-! ## Records and bits -/

theorem bit_eq_testBit (n i : Nat) : bit n i = n.testBit i := (Nat.testBit_eq_decide_div_mod_eq ..).symm

/-- A bit of a word read as a number is the word's bit. -/
theorem bit_toNat (v : Word) (i : Nat) : bit v.toNat i = v.getLsbD i :=
  bit_eq_testBit ..

/-- An event of a kind without a rate limit adds its record to the queue. -/
theorem raise_eq_queued {s : State} (hr : LogRoom s) {e : Ev} (hl : rateLimit e.code = 0) (hk : e.key = 0) :
    s.raise e = { s with log := { s.log with waiting := s.log.waiting ++ [mkRec s e none] } } :=
  raise_records s e hr hl (.inr hk)

/-! ## Errors of the host link (R186, R187) -/

def poisonEv (fn addr : Nat) : Ev := { code := Ev.poisonReceived, src := srcHc, tenant := tenantOf fn, cs := Cs.hostPoison, addr := addr }

theorem execPoisonReceived_records {s : State} (hr : LogRoom s) (fn : Fn) (addr : Nat) :
    execPoisonReceived fn addr s = .next (State.emit { s with log := { s.log with waiting := s.log.waiting ++
      [mkRec s (poisonEv fn.val addr) none] } } (.aer fn.val 4)) := by
  rw [← raise_eq_queued hr rfl rfl]
  rfl

/-- A fatal error contains the device where PF0's severity bit makes it fatal (R187). -/
theorem hostFatalEff_severity (s : State) (kind : LinkFatal) :
    hostFatalEff s kind = if (s.fn 0).severity.getLsbD (fatalBit kind)
      then enterDevice ((s.emit (.aer 0 6)).raise { code := Ev.hostFatal, src := srcHc, enters := 2 }) 1
      else (s.emit (.aer 0 6)).raise { code := Ev.hostFatal, src := srcHc } := by
  rw [← bit_toNat]
  rfl

/-! ## A corrected SRAM error (R186, R502) -/

/-- The times of a row's corrected errors within 24 hours of now, the present one last. -/
def rowErrTimes (s : State) (m row : Nat) : List Nat :=
  (Tbl.get (fun _ => []) s.spares.rowErrs (rowKey m row)).filter (fun n => decide (s.now < n + 86400000000000)) ++ [s.now]

theorem rowErrTimes_length_le (s : State) (m row : Nat) :
    (rowErrTimes s m row).length ≤ (Tbl.get (fun _ => []) s.spares.rowErrs (rowKey m row)).length + 1 := by
  simp [rowErrTimes, List.length_filter_le]

/-- The spares' account of a corrected error: the row's times and the measurement of its SRAM block. -/
def rowErrNoted (s : State) (m row : Nat) : State :=
  noteMeas ((s.modSpares fun x => { x with rowErrs := x.rowErrs.set (fun _ => []) (rowKey m row) (rowErrTimes s m row) }).emit (.aer 0 8)) (unitKey 3 m)

theorem rowErrNoted_only (s : State) (m row : Nat) :
    rowErrNoted s m row = { s with out := .aer 0 8 :: s.out, spares := (rowErrNoted s m row).spares } := rfl

theorem rowErrNoted_rowErrs (s : State) (m row : Nat) :
    Tbl.get (fun _ => []) (rowErrNoted s m row).spares.rowErrs (rowKey m row) = rowErrTimes s m row :=
  Tbl.get_set_same ..

/-- Below ROW_CE_LIMIT no repair is due: the error is noted, reported and recorded. -/
theorem sramCorrectedEff_below {s : State} {m row : Nat} (h : (rowErrTimes s m row).length < rowCeLimit s) :
    sramCorrectedEff s m row = (rowErrNoted s m row).raise { code := Ev.sramCorrected, src := srcHc } := by
  have hlimit : rowCeLimit ((rowErrNoted s m row).raise { code := Ev.sramCorrected, src := srcHc }) = rowCeLimit s := by
    rw [raise_only]
    rfl
  have hdue : ¬(rowCeLimit ((rowErrNoted s m row).raise { code := Ev.sramCorrected, src := srcHc }) ≤ (rowErrTimes s m row).length
      ∧ (!((rowErrNoted s m row).raise { code := Ev.sramCorrected, src := srcHc }).tide.active) = true) := by
    rw [hlimit]
    exact fun hle => absurd h (Nat.not_lt.2 hle.1)
  exact if_neg hdue

/-- What a corrected error below the limit changes: the report, the record and the spares' account. -/
theorem sramCorrectedEff_records {s : State} {m row : Nat} (hr : LogRoom s) (h : (rowErrTimes s m row).length < rowCeLimit s) :
    sramCorrectedEff s m row = { s with
      out := .aer 0 8 :: s.out, spares := (rowErrNoted s m row).spares
      log := { s.log with waiting := s.log.waiting ++ [mkRec s { code := Ev.sramCorrected, src := srcHc } none] } } := by
  rw [sramCorrectedEff_below h, rowErrNoted_only]
  exact raise_eq_queued (s := { s with out := .aer 0 8 :: s.out, spares := (rowErrNoted s m row).spares }) hr rfl rfl

/-! ## Completions late, and never (R227, R228) -/

def lateCompletionEv (fn : Nat) : Ev := { code := Ev.lateCompletion, src := srcHc, tenant := tenantOf fn }

theorem lateCompletionEff_quarantined {s : State} (hr : LogRoom s) {fn tag : Nat} (h : tag ∈ (s.fn fn).quar) :
    lateCompletionEff s fn tag = State.emit { s.incReg 0x4201C with log := { s.log with waiting := s.log.waiting ++
      [mkRec s (lateCompletionEv fn) none] } } (.aer fn 3) := by
  have hrec := raise_eq_queued (s := s.incReg 0x4201C) (e := lateCompletionEv fn) hr rfl rfl
  rw [lateCompletionEff, if_pos h]
  exact congrArg (State.emit · (.aer fn 3)) hrec

theorem hostTimeoutEff_outstanding {s : State} {fn tag : Nat} {use : TagUse}
    (h : (s.fn fn).tags.find? (fun x => decide (x.1 = tag)) = some (tag, use)) :
    hostTimeoutEff s fn tag
      = freeTag (timedOut ((s.setFn fn { s.fn fn with quar := insertAsc tag (s.fn fn).quar }).emit (.aer fn 2)) use) fn tag := by
  rw [hostTimeoutEff, h]
  rfl

/-! ## The events -/

/-- Settles O6: the records without a rate limit are `raise_eq_queued`, a fatal error turns on its severity bit (R187), and the other events are their rows' branches (that an SRAM error contains the memory's owner is log entry 79). -/
theorem hostErrorsAreReported : Obligations.HostErrorsAreReported := by
  unfold Obligations.HostErrorsAreReported
  refine ⟨?poison, ?correctable, ?fatal, ?tenantSram, ?deviceSram, ?corrected, ?late, ?expire, ?timeout⟩
  case poison =>
    intro s fn addr hr
    exact ⟨_, execPoisonReceived_records hr fn addr, rfl, rfl, rfl⟩
  case correctable =>
    intro s kind
    refine ⟨_, rfl, ?_, rfl, ?_⟩ <;> rw [raise_only] <;> rfl
  case fatal =>
    intro s kind
    exact congrArg Host.Outcome.next (hostFatalEff_severity s kind)
  case tenantSram => exact fun s n => rfl
  case deviceSram => exact fun s => rfl
  case corrected =>
    intro s m row hr hfew
    have hrec := sramCorrectedEff_records hr (lt_of_le_of_lt (rowErrTimes_length_le s m.val row) hfew)
    have htimes := rowErrNoted_rowErrs s m.val row
    generalize (rowErrNoted s m.val row).spares = spares at hrec htimes
    exact ⟨_, congrArg Host.Outcome.next hrec, rfl, rfl, htimes, rfl⟩
  case late =>
    intro s fn tag hq hr
    refine ⟨_, congrArg Host.Outcome.next (lateCompletionEff_quarantined hr hq), State.setReg_reg_same .., rfl, rfl, rfl⟩
  case expire =>
    intro s fn tag
    refine ⟨_, rfl, ?_, ?_⟩
    · rw [State.modFn_fn_same]
    · rw [State.modFn_fn_same]
      rfl
  case timeout =>
    intro s fn tag use h
    exact congrArg Host.Outcome.next (hostTimeoutEff_outstanding h)

end Sys2Proof.Machine
end

section
/-! Power states, LTR, PTM and MSI-X unmasking (R185, R187, R189-R191, R194): what a function in D3hot holds and releases, and the messages of the endpoint. -/

namespace Sys2Proof.Machine

/-! ## D3hot and D0 (R191) -/

theorem sendMsix_of_d3hot {s : State} {fn e : Nat} (hd : (s.fn fn).d3hot = true) (hf : (s.fn fn).flr = false) (hne : ¬(fn = 0 ∧ e = 7)) :
    sendMsix s fn e = s.modFn fn fun f => { f with heldOut := f.heldOut ++ [.msix fn e] } := by
  rw [sendMsix, if_neg (by simp [hne, hf]), if_pos hd]

/-- A function out of D3hot that holds nothing back. -/
def inD0 (s : State) (fn : Nat) : State := (s.modFn fn fun f => { f with d3hot := false }).modFn fn fun f => { f with heldOut := [] }

theorem inD0_fn (s : State) (fn : Nat) : (inD0 s fn).fn fn = { s.fn fn with d3hot := false, heldOut := [] } := by
  simp [inD0]

/-- The return to D0 releases, oldest first, all that the function held, unless the device is contained. -/
theorem execPmD0Return_releases {s : State} {fn : Fn} (hd : (s.fn fn.val).d3hot = true) (hc : s.cont.dev = false) :
    execPmD0Return fn s = .next ((s.fn fn.val).heldOut.foldl releaseHeld (inD0 s fn.val)) := by
  rw [execPmD0Return, if_pos hd, releaseOuts, if_neg (by simp [hc]), State.modFn_fn_same]
  rfl

/-! ## LTR (R194) -/

theorem execLtrSend_due {s : State} (hl : s.ep.link = .l0) (hv : ltrValue s ≠ s.ep.ltrLast)
    (ht : ∀ n, s.ep.ltrAt = some n → n + 100000 ≤ s.now) :
    execLtrSend s = .next ((s.emit (.ltr (ltrValue s))).modEp fun e => { e with ltrLast := ltrValue s, ltrAt := some s.now }) := by
  have hdue : s.ep.ltrAt.all (fun t => decide (t + us 100 ≤ s.now)) = true :=
    (Option.all_eq_true ..).2 fun n hn => decide_eq_true (ht n hn)
  exact congrArg Host.Outcome.next (if_pos ⟨hl, hv, hdue⟩)

/-! ## PTM (R189) -/

theorem ptmRateNow_range (s : State) : -200 ≤ (ptmRateNow s).toInt ∧ (ptmRateNow s).toInt ≤ 200 := by
  unfold ptmRateNow
  dsimp only
  split
  · decide
  · omega

/-- The offset of an exchange: the master's time less the time base. -/
def ptmOffsetNow (s : State) (m : DWord) : DWord := m - BitVec.ofNat 64 s.now

/-- The last eight offsets with that of an exchange. -/
def ptmHistNow (s : State) (m : DWord) : List DWord := (ptmOffsetNow s m :: s.ep.ptmHist).take 8

/-- The offset of an exchange lies 500 ns or more from the last one. -/
def ptmJumps (s : State) (m : DWord) : Bool := decide (s.ep.ptmHist ≠ [] ∧ 500 ≤ offDist (ptmOffsetNow s m) s.ep.ptmOffset)

/-- LOCKED after an exchange: no jump, and eight offsets within 50 ns of each other or LOCKED before. -/
def ptmLocks (s : State) (m : DWord) : Bool :=
  if ptmJumps s m then false
  else (decide ((ptmHistNow s m).length = 8) && (ptmHistNow s m).all fun a => (ptmHistNow s m).all fun b => decide (offDist a b < 50))
    || s.ep.ptmStatus.getLsbD 1

theorem ptmEff_enabled {s : State} (he : (s.fn 0).ptmEnable = true) (hl : s.ep.link = .l0) (m : DWord) :
    ptmEff s m = (s.bump.emit .ptmRequest).modEp fun e => { e with
      ptmOffset := ptmOffsetNow s m, ptmHist := ptmHistNow s m, ptmStatus := if ptmLocks s m then 2#3 else 0#3, ptmRate := ptmRateNow s } :=
  if_neg (by simp [he, hl])

theorem execPtmExchangeFail_enabled {s : State} (he : (s.fn 0).ptmEnable = true) :
    execPtmExchangeFail s = .next ((s.emit .ptmRequest).modEp fun e => { e with ptmHist := [], ptmStatus := 4#3 }) :=
  congrArg Host.Outcome.next (if_pos he)

/-! ## MSI-X vectors (R185) -/

/-- A vector of a function written. -/
def setVec (s : State) (fn e : Nat) (v : Vec) : State := s.modFn fn fun f => { f with vecs := f.vecs.set vecInit e v }

theorem setVec_vec (s : State) (fn e j : Nat) (v : Vec) : vec ((setVec s fn e v).fn fn) j = if j = e then v else vec (s.fn fn) j := by
  rw [setVec, State.modFn_fn_same]
  exact Tbl.get_set ..

theorem setPend_eq (s : State) (fn e : Nat) (p : Bool) : setPend s fn e p = setVec s fn e { vec (s.fn fn) e with pend := p } := rfl

/-- A message that nothing holds back is sent, and its pending bit cleared. -/
theorem deliverMsix_sends {s : State} {fn e : Nat} (hx : (s.fn fn).msixEnable = true) (hv : (vec (s.fn fn) e).mask = false)
    (hm : (s.fn fn).fnMask = false) (hb : (s.fn fn).busMaster = true) (hc : s.cont.dev = false) :
    deliverMsix s fn e = (setPend s fn e false).emit (.msix fn e) := by
  simp [deliverMsix, hx, hv, hm, hb, hc]

/-- A pending message leaves when its entry is unmasked in D0. -/
theorem unmaskEff_pending {s : State} {fn e : Nat} (hp : (vec (s.fn fn) e).pend = true) (hd : (s.fn fn).d3hot = false) :
    unmaskEff s fn (some e) = deliverMsix (setVec s fn e { vec (s.fn fn) e with mask := false }) fn e := by
  refine if_pos ⟨?_, ?_⟩
  · exact (congrArg Vec.pend ((setVec_vec s fn e e _).trans (if_pos rfl))).trans hp
  · simp [hd]

/-! ## The events -/

/-- Settles O9: what D3hot holds is `sendMsix_of_d3hot` and what D0 releases `execPmD0Return_releases`; LTR is R194's row, PTM's history and rate are log entry 39, and an unmasked entry is delivered by `deliverMsix_sends`. -/
theorem powerStatesLtrPtmMsix : Obligations.PowerStatesLtrPtmMsix := by
  unfold Obligations.PowerStatesLtrPtmMsix
  refine ⟨?d3hot, ?held, ?d0, ?d0Write, ?ltr, ?ptm, ?ptmFail, ?unmask⟩
  case d3hot => exact fun s fn h => congrArg Host.Outcome.next (if_pos h)
  case held => exact fun s fn e hd hf hne => sendMsix_of_d3hot hd hf hne
  case d0 =>
    intro s fn hd hheld hc
    have hrun := execPmD0Return_releases hd hc
    rw [hheld] at hrun
    refine ⟨inD0 s fn.val, hrun, ?_, ?_, rfl, rfl⟩ <;> rw [inD0_fn]
  case d0Write =>
    intro s fn a d hd hc hheld
    have hrun := execPmD0Return_releases hd hc
    rw [hheld] at hrun
    refine ⟨(inD0 s fn.val).emit (.hostWrite (tenantOf fn.val) a d), hrun, ?_, ?_, rfl⟩ <;> simp [inD0_fn]
  case ltr => exact fun s hl hv ht => execLtrSend_due hl hv ht
  case ptm =>
    intro s m he hl
    refine ⟨_, congrArg Host.Outcome.next (ptmEff_enabled he hl m), rfl, rfl, fun hhist hfar => ?_, (ptmRateNow_range s).1, (ptmRateNow_range s).2, rfl, rfl⟩
    have hjump : ptmJumps s m = true := decide_eq_true ⟨hhist, hfar⟩
    simp [ptmLocks, hjump]
  case ptmFail => exact fun s he => execPtmExchangeFail_enabled he
  case unmask =>
    intro s fn e hd hx hm hb hc hp
    have hclear := unmaskEff_pending hp hd
    rw [deliverMsix_sends (by simpa [setVec] using hx) (by simp [setVec_vec]) (by simpa [setVec] using hm) (by simpa [setVec] using hb)
      (by simpa [setVec] using hc), setPend_eq] at hclear
    refine ⟨_, congrArg Host.Outcome.next hclear, rfl, ?_, fun j hj => ?_, rfl⟩
    · simp [setVec_vec]
    · simp [setVec_vec, hj]

end Sys2Proof.Machine
end

section
/-! Releases of containment (R198-R201, R326, R536, R537): what waking held work leaves of containment and of its units, and the four releases. -/

namespace Sys2Proof.Machine

/-! ## Containment and its units, under what a release sets going

Messages, records, fetches and votes leave containment, the ports and the links as they are. -/

/-- Containment, the ports and the links. -/
def State.unitPart (s : State) : Contain × Tbl Port × Tbl Link := (s.cont, s.ports, s.links)

theorem cont_of_unitPart {s t : State} (h : t.unitPart = s.unitPart) : t.cont = s.cont := congrArg Prod.fst h
theorem port_of_unitPart {s t : State} (h : t.unitPart = s.unitPart) (p : Nat) : t.port p = s.port p :=
  congrArg (fun x : Contain × Tbl Port × Tbl Link => Tbl.get portInit x.2.1 p) h
theorem link_of_unitPart {s t : State} (h : t.unitPart = s.unitPart) (k : Nat) : t.link k = s.link k :=
  congrArg (fun x : Contain × Tbl Port × Tbl Link => Tbl.get linkInit x.2.2 k) h

@[simp] theorem State.modFn_unitPart (s : State) (k : Nat) (f : FnState → FnState) : (s.modFn k f).unitPart = s.unitPart := by rfl
@[simp] theorem State.modQ_unitPart (s : State) (k : Nat) (f : QCtx → QCtx) : (s.modQ k f).unitPart = s.unitPart := by rfl
@[simp] theorem State.modDom_unitPart (s : State) (k : Nat) (f : Dom → Dom) : (s.modDom k f).unitPart = s.unitPart := by rfl
@[simp] theorem State.modPtSt_unitPart (s : State) (k : Nat) (f : PtState → PtState) : (s.modPtSt k f).unitPart = s.unitPart := by rfl
@[simp] theorem State.modMb_unitPart (s : State) (k : Nat) (f : Mailbox → Mailbox) : (s.modMb k f).unitPart = s.unitPart := by rfl
@[simp] theorem State.modHer_unitPart (s : State) (f : Herdin → Herdin) : (s.modHer f).unitPart = s.unitPart := by rfl
@[simp] theorem State.modPwr_unitPart (s : State) (f : Power → Power) : (s.modPwr f).unitPart = s.unitPart := by rfl
@[simp] theorem State.incReg_unitPart (s : State) (k : Nat) : (s.incReg k).unitPart = s.unitPart := by rfl

@[simp] theorem unitPart_ite (c : Prop) [Decidable c] (a b : State) : (if c then a else b).unitPart = if c then a.unitPart else b.unitPart :=
  apply_ite State.unitPart c a b

@[simp] theorem foldl_unitPart {α : Type} (f : State → α → State) (l : List α) (s : State) (h : ∀ u x, (f u x).unitPart = u.unitPart) :
    (l.foldl f s).unitPart = s.unitPart :=
  foldl_keeps State.unitPart f l s h

@[simp] theorem raise_unitPart (s : State) (e : Ev) : (s.raise e).unitPart = s.unitPart := by rw [raise_only]; rfl

@[simp] theorem releaseRec_unitPart (s : State) (lvl unit count srcId tenant : Nat) :
    (releaseRec s lvl unit count srcId tenant).unitPart = s.unitPart :=
  raise_unitPart ..

@[simp] theorem deliverMsix_unitPart (s : State) (fn e : Nat) : (deliverMsix s fn e).unitPart = s.unitPart :=
  (congrArg State.unitPart (deliverMsix_only s s.her s.regs fn e)).trans rfl

@[simp] theorem sendMsix_unitPart (s : State) (fn e : Nat) : (sendMsix s fn e).unitPart = s.unitPart := by rw [sendMsix_ep_out]; rfl

@[simp] theorem releaseHeld_unitPart (s : State) (o : Output) : (releaseHeld s o).unitPart = s.unitPart := by
  unfold releaseHeld
  split
  · exact deliverMsix_unitPart ..
  · rfl

@[simp] theorem releaseOuts_unitPart (s : State) (fn : Nat) : (releaseOuts s fn).unitPart = s.unitPart := by
  simp [releaseOuts]

@[simp] theorem sendPending_unitPart (s : State) (fn : Nat) : (sendPending s fn).unitPart = s.unitPart := by
  simp [sendPending]

theorem hostRead_unitPart {s u : State} {t addr len : Nat} {use : TagUse} (h : hostRead s t addr len use = some u) :
    u.unitPart = s.unitPart := by
  unfold hostRead at h
  dsimp only at h
  split at h
  · cases h
  · obtain ⟨tag, -, rfl⟩ := Option.map_eq_some_iff.1 h
    rfl

@[simp] theorem sendFetch_unitPart (s : State) (q addr len n : Nat) (use : TagUse) : (sendFetch s q addr len n use).unitPart = s.unitPart := by
  unfold sendFetch
  split
  · next u h => exact (State.modQ_unitPart ..).trans (hostRead_unitPart h)
  · rfl

@[simp] theorem fetchNext_unitPart (s : State) (q : Nat) : (fetchNext s q).unitPart = s.unitPart := by
  simp [fetchNext]

@[simp] theorem respond_unitPart (s : State) (mb result cs reason detail : Nat) (p : List Byte) :
    (respond s mb result cs reason detail p).unitPart = s.unitPart := by
  unfold respond
  split
  · rfl
  · simp

@[simp] theorem refuseDrain_unitPart (s : State) (d client reason : Nat) : (refuseDrain s d client reason).unitPart = s.unitPart := by
  unfold refuseDrain
  dsimp only
  split
  · exact respond_unitPart ..
  · rfl

@[simp] theorem arrive_unitPart (s : State) (d client reason : Nat) : (arrive s d client reason).unitPart = s.unitPart := by
  have hrefresh : (refreshDom s d).unitPart = s.unitPart := by simp [refreshDom]
  unfold arrive
  dsimp only
  split <;> simp [hrefresh, domLog, startWake]

@[simp] theorem raiseVote_unitPart (s : State) (d client : Nat) : (raiseVote s d client).unitPart = s.unitPart := by
  simp [raiseVote]

@[simp] theorem forgetFlood_unitPart (s : State) (target : Nat) : (forgetFlood s target).unitPart = s.unitPart := by
  simp [forgetFlood]

/-! ## A device release (R199, R200, R537) -/

theorem devRelease_alone {s : State} {v : Word} (hv : v.getLsbD 0 = true) (hd : s.cont.dev = true) :
    devRelease s v none = if devReleaseRefused s then relErr s 0 else releaseSteps s none := by
  simp [devRelease, hv, hd]

/-- A cause in the cycle of the write wins (R200). -/
theorem devRelease_loses {s : State} {v : Word} (hv : v.getLsbD 0 = true) (hd : s.cont.dev = true) {c : ReleaseCut}
    (hc : cutContains s c = true) : devRelease s v (some (0, c)) = relErr (cutCause s c) 0 := by
  simp [devRelease, hv, hd, hc]

/-- With no queue frozen, the first step of a release ends no descriptor. -/
theorem releaseFrozen_none {s : State} (h : frozenQueues s = []) : releaseFrozen s = (0, s) := by
  simp [releaseFrozen, h]

theorem releaseSend_cont (s : State) : (releaseSend s).cont = { s.cont with dev := true } := by
  have hsent : (releaseSend s).cont = { ((List.range 66).foldl (fun s fn => sendPending (releaseOuts s fn) fn)
      (s.modCont fun c => { c with dev := false })).cont with dev := true } := rfl
  rw [hsent, cont_of_unitPart (foldl_unitPart _ _ _ (by simp))]
  rfl

theorem releaseEnd_cont (s : State) (n : Nat) :
    (releaseEnd s n).cont = { s.cont with dev := false, devCause := 0#6, releasing := false } :=
  cont_of_unitPart (s := s.modCont fun c => { c with dev := false, devCause := 0#6, releasing := false }) (by simp [releaseEnd])

/-- A release that nothing meets, and that finds no queue frozen, ends device containment with its causes (R199 steps 2 and 4). -/
theorem releaseSteps_cont {s : State} (h : frozenQueues s = []) :
    (releaseSteps s none).cont = { s.cont with dev := false, devCause := 0#6, releasing := false } := by
  have hnone : releaseFrozen (s.modCont fun c => { c with releasing := true }) = (0, s.modCont fun c => { c with releasing := true }) :=
    releaseFrozen_none h
  simp only [releaseSteps, hnone, cutAfter, releaseSend_cont, State.modCont_cont, Bool.not_true, Bool.false_eq_true, if_false, releaseEnd_cont]

/-! ## A release register names its units by their bits -/

/-- A write with a single bit set releases one unit alone. -/
theorem foldl_named {v : Word} {n k : Nat} (h : (List.range n).filter (fun i => v.getLsbD i) = [k]) (f : State → Nat → State) (s : State) :
    (List.range n).foldl (fun s i => if v.getLsbD i then f s i else s) s = f s k := by
  rw [← List.foldl_filter, h]
  rfl

theorem execPortContainRelease_one (s : State) (p : PortId) :
    execPortContainRelease (BitVec.ofNat 32 (2 ^ p.val)) s = .next (portRelease s p.val) := by
  have hnamed : ∀ p : PortId, (List.range 2).filter (fun i => (BitVec.ofNat 32 (2 ^ p.val)).getLsbD i) = [p.val] := by decide
  exact congrArg Host.Outcome.next (foldl_named (hnamed p) portRelease s)

theorem execLinkContainRelease_one (s : State) (k : Fin 4) :
    execLinkContainRelease (BitVec.ofNat 32 (2 ^ k.val)) s = .next (linkRelease s k.val) := by
  have hnamed : ∀ k : Fin 4, (List.range 4).filter (fun i => (BitVec.ofNat 32 (2 ^ k.val)).getLsbD i) = [k.val] := by decide
  exact congrArg Host.Outcome.next (foldl_named (hnamed k) linkRelease s)

/-! ## Port releases (R326) -/

/-- The port's table loaded into the sequencer and its cause byte cleared. -/
def portLoaded (s : State) (p : Nat) : State :=
  (s.modPort p fun q => { q with persOk := true, loaded := persBytes s p, arbCtl := s.reg (paReg p 4) }).modCont fun c =>
    { c with ports := c.ports.set (fun _ => 0) p 0 }

theorem portRelease_persists {s : State} {p : Nat} (hc : s.portCause p ≠ 0) (hp : portPersists s p = true) : portRelease s p = relErr s (1 + p) := by
  simp [portRelease, hc, hp]

theorem portRelease_loads {s : State} {p : Nat} (hc : s.portCause p ≠ 0) (hp : portPersists s p = false) (hst : (s.port p).st = .contained)
    (hf : persFail s p = none) :
    portRelease s p = sendMsix (releaseRec (forgetFlood (portUp (portLoaded s p) p) p) 2 p 0 (srcPort p) 0xFF) 0 1 := by
  simp [portRelease, hc, hp, hst, loadPers, hf, portLoaded]

/-- A port that enters service: its own state is set, and neither the record nor the vote changes a unit (R296). -/
theorem portUp_unitPart (s : State) (p : Nat) : (portUp s p).unitPart = (s.modPort p fun q => { q with
    st := .inService, oeN := ~~~(groupsUsed ((q.loaded).getD [])), dir := 0#8, sysfail := false, watched := [] }).unitPart := by
  simp [portUp]

theorem portRelease_unitPart {s : State} {p : Nat} (hc : s.portCause p ≠ 0) (hp : portPersists s p = false) (hst : (s.port p).st = .contained)
    (hf : persFail s p = none) :
    (portRelease s p).unitPart = ((portLoaded s p).modPort p fun q => { q with
      st := .inService, oeN := ~~~(groupsUsed ((q.loaded).getD [])), dir := 0#8, sysfail := false, watched := [] }).unitPart := by
  rw [portRelease_loads hc hp hst hf, sendMsix_unitPart, releaseRec_unitPart, forgetFlood_unitPart, portUp_unitPart]

/-! ## Link releases (R459) -/

/-- A link's cause byte cleared; a link that its containment holds waits for its session. -/
def linkFreed (s : State) (k : Nat) : State :=
  let s := s.modCont fun c => { c with links := c.links.set (fun _ => 0) k 0 }
  if (s.link k).st = .contained then s.modLink k fun l => { l with st := .waiting } else s

theorem linkFreed_cont (s : State) (k : Nat) : (linkFreed s k).cont = { s.cont with links := s.cont.links.set (fun _ => 0) k 0 } := by
  unfold linkFreed
  dsimp only
  split <;> rfl

theorem linkFreed_link {s : State} {k : Nat} (h : (s.link k).st = .contained) : (linkFreed s k).link k = { s.link k with st := .waiting } := by
  simp [linkFreed, h]

@[simp] theorem lanesUp_cont (s : State) (k : Nat) : (lanesUp s k).cont = s.cont := by
  unfold lanesUp
  split <;> rfl

theorem linkRelease_persists {s : State} {k : Nat} (hc : s.linkCause k ≠ 0) (hp : linkPersists s k = true) : linkRelease s k = relErr s (4 + k) := by
  simp [linkRelease, hc, hp]

theorem linkRelease_frees {s : State} {k : Nat} (hc : s.linkCause k ≠ 0) (hp : linkPersists s k = false) :
    (linkRelease s k).unitPart
      = (if ((linkFreed s k).link k).st = .waiting ∧ ((linkFreed s k).link k).lst = .active then lanesUp (linkFreed s k) k else linkFreed s k).unitPart := by
  have hfrees : linkRelease s k = sendMsix (releaseRec (forgetFlood (if ((linkFreed s k).link k).st = .waiting ∧ ((linkFreed s k).link k).lst = .active
      then lanesUp (linkFreed s k) k else linkFreed s k) (k + 2)) 3 k 0 (srcLink k) 0xFF) 0 1 := by
    rw [linkRelease, if_neg hc, if_neg (by simp [hp])]
    rfl
  rw [hfrees, sendMsix_unitPart, releaseRec_unitPart, forgetFlood_unitPart]

theorem linkRelease_cont {s : State} {k : Nat} (hc : s.linkCause k ≠ 0) (hp : linkPersists s k = false) :
    (linkRelease s k).cont = { s.cont with links := s.cont.links.set (fun _ => 0) k 0 } := by
  rw [cont_of_unitPart (linkRelease_frees hc hp), ← linkFreed_cont]
  split
  · exact lanesUp_cont ..
  · rfl

/-- A contained link whose lanes are not ACTIVE waits for them. -/
theorem linkRelease_waits {s : State} {k : Nat} (hc : s.linkCause k ≠ 0) (hp : linkPersists s k = false) (hst : (s.link k).st = .contained)
    (hl : (s.link k).lst ≠ .active) : ((linkRelease s k).link k).st = .waiting := by
  have hfreed := linkFreed_link hst
  rw [link_of_unitPart (linkRelease_frees hc hp), if_neg (by simp [hfreed, hl]), hfreed]

/-! ## Tenant releases (R201) -/

theorem tenantRelease_cont {s : State} {n : Tenant} (hc : s.tenantCause n.val ≠ 0) :
    (tenantRelease s (BitVec.ofNat 32 (0x80000000 + n.val))).cont = { s.cont with tenants := s.cont.tenants.set (fun _ => 0) n.val 0 } := by
  have hname : ∀ n : Tenant, (BitVec.ofNat 32 (0x80000000 + n.val)).toNat % 128 = n.val
      ∧ (BitVec.ofNat 32 (0x80000000 + n.val)).getLsbD 31 = true ∧ ¬64 < n.val := by decide
  obtain ⟨htenant, hgo, hexists⟩ := hname n
  unfold tenantRelease
  rw [htenant, if_neg (by simp [hgo, hexists, hc])]
  exact cont_of_unitPart (s := s.modCont fun c => { c with tenants := c.tenants.set (fun _ => 0) n.val 0 }) (by simp)

/-! ## The releases -/

/-- Settles O10: a device release is refused, run to its end (`releaseSteps_cont`) or beaten by a cause in its own cycle (R200, log entry 34); the others are `portRelease_unitPart` (R326, R538), `linkRelease_cont` and `tenantRelease_cont`. -/
theorem containmentReleases : Obligations.ContainmentReleases := by
  unfold Obligations.ContainmentReleases
  refine ⟨fun s v hv hd => ⟨fun href => ?refused, fun hok => ?accepted, fun hok hfrozen => ?ends, fun c hc => ?cut⟩,
    fun s p hc => ⟨fun hp => ?portPersists, fun hp hst hf => ?port⟩, fun s k hc => ⟨fun hp => ?linkPersists, fun hp => ?link⟩, fun s n hc => ?tenant⟩
  case refused => exact congrArg Host.Outcome.next ((devRelease_alone hv hd).trans (if_pos href))
  case accepted => exact congrArg Host.Outcome.next ((devRelease_alone hv hd).trans (if_neg (by simp [hok])))
  case ends =>
    exact ⟨_, congrArg Host.Outcome.next ((devRelease_alone hv hd).trans (if_neg (by simp [hok]))), releaseSteps_cont hfrozen⟩
  case cut => exact congrArg Host.Outcome.next (devRelease_loses hv hd hc)
  case portPersists => exact (execPortContainRelease_one s p).trans (congrArg Host.Outcome.next (portRelease_persists hc hp))
  case port =>
    have hunits := portRelease_unitPart hc hp hst hf
    have hcont : (portRelease s p.val).cont = { s.cont with ports := s.cont.ports.set (fun _ => 0) p.val 0 } := cont_of_unitPart hunits
    have hcause : ∀ q, (portRelease s p.val).portCause q = if q = p.val then 0 else s.portCause q := fun q => by
      rw [State.portCause, hcont]
      exact Tbl.get_set ..
    refine ⟨_, execPortContainRelease_one s p, ?_, ?_, ?_, fun q hq => ?_⟩
    · simp [hcause]
    · simp [port_of_unitPart hunits]
    · simp [port_of_unitPart hunits, portLoaded]
    · simp [hcause, hq]
  case linkPersists => exact (execLinkContainRelease_one s k).trans (congrArg Host.Outcome.next (linkRelease_persists hc hp))
  case link =>
    have hcause : ∀ q, (linkRelease s k.val).linkCause q = if q = k.val then 0 else s.linkCause q := fun q => by
      rw [State.linkCause, linkRelease_cont hc hp]
      exact Tbl.get_set ..
    refine ⟨_, execLinkContainRelease_one s k, ?_, fun q hq => ?_, linkRelease_waits hc hp⟩
    · simp [hcause]
    · simp [hcause, hq]
  case tenant =>
    have hcont := tenantRelease_cont hc
    have hcause : ∀ m, (tenantRelease s (BitVec.ofNat 32 (0x80000000 + n.val))).tenantCause m = if m = n.val then 0 else s.tenantCause m := fun m => by
      rw [State.tenantCause, hcont]
      exact Tbl.get_set ..
    refine ⟨_, rfl, ?_, fun m hm => ?_, ?_⟩
    · simp [hcause]
    · simp [hcause, hm]
    · rw [hcont]

end Sys2Proof.Machine
end

section
/-! The tally and status registers of a tenant (R181, R270, R377): the two blocks that show them, what a tenant without PRIV sees, and the words of bits. -/

namespace Sys2Proof.Machine

/-! ## Words of bits -/

/-- A register's 32 bits are the low bits of its value. -/
theorem bit_mod_word (n : Nat) {i : Nat} (h : i < 32) : bit (n % 2 ^ 32) i = bit n i := by
  rw [bit_eq_testBit, bit_eq_testBit, Nat.testBit_mod_two_pow, decide_eq_true h, Bool.true_and]

theorem b2n_lt_two (b : Bool) : b2n b < 2 := by cases b <;> decide

theorem testBit_packBits (l : List Bool) (i : Nat) : (packBits l).testBit i = l.getD i false := by
  induction l generalizing i with
  | nil => simp [packBits]
  | cons b l ih =>
    have hcons : packBits (b :: l) = b2n b + 2 * packBits l := rfl
    rw [hcons]
    cases i with
    | zero => cases b <;> simp [b2n, Nat.testBit_zero]
    | succ i =>
      have hhalf : (b2n b + 2 * packBits l) / 2 = packBits l := by have hb := b2n_lt_two b; omega
      rw [Nat.testBit_succ, hhalf, ih, List.getD_cons_succ]

/-- A word packed from a predicate on its bit numbers. -/
theorem bit_packBits_range (p : Nat → Bool) {i : Nat} (h : i < 32) : bit (packBits ((List.range 32).map p)) i = p i := by
  rw [bit_eq_testBit, testBit_packBits, List.getD_eq_getElem _ _ (by simpa using h)]
  simp

/-! ## The two places of a TAL_ block (R375-R377) -/

theorem regWord_vf {fn : Nat} (h : 2 ≤ fn) (s : State) (off : Nat) : regWord s fn off = vfWord s fn off % 2 ^ 32 := by
  have h0 : fn ≠ 0 := by omega
  have h1 : fn ≠ 1 := by omega
  simp only [regWord, if_neg h0, if_neg h1]

theorem writeWord_vf {fn : Nat} (h : 2 ≤ fn) (s : State) (off : Nat) (v : Word) : writeWord s fn off v = vfWrite s fn off v := by
  have h0 : fn ≠ 0 := by omega
  have h1 : fn ≠ 1 := by omega
  simp only [writeWord, if_neg h0, if_neg h1]

/-- A VF reads its tenant's block at 0x8300. -/
theorem vfWord_tally (s : State) (fn : Nat) {off : Nat} (h : off < 0x40) : vfWord s fn (0x8300 + off) = talReg s (tenantOf fn) off := by
  unfold vfWord
  dsimp only
  rw [if_neg (by omega), if_neg (by omega), if_neg (by omega), if_neg (by omega), if_neg (by omega), if_pos (by omega), Nat.add_sub_cancel_left]

theorem vfWrite_tally (s : State) (fn : Nat) {off : Nat} (h : off < 0x40) (v : Word) :
    vfWrite s fn (0x8300 + off) v = talWrite s (tenantOf fn) off v.toNat := by
  unfold vfWrite
  rw [if_neg (by omega), if_neg (by omega), if_neg (by omega), if_pos (by omega), Nat.add_sub_cancel_left]

section
variable {n off : Nat} (hn : n ≤ 64) (h : off < 0x40)
include hn h

theorem liqReg_tally (s : State) : liqReg s (0x1000 + 0x40 * n + off) = talReg s n off := by
  have htenant : (0x1000 + 0x40 * n + off - 0x1000) / 0x40 = n := by omega
  have hoff : (0x1000 + 0x40 * n + off) % 0x40 = off := by omega
  unfold liqReg
  dsimp only
  rw [if_neg (by omega), if_neg (by omega), if_neg (by omega), if_neg (by omega), if_neg (by omega), if_neg (by omega), if_pos (by omega),
    htenant, hoff]

/-- PF0 reads every tenant's block from 0x1C_1000 on. -/
theorem pf0Word_tally (s : State) : pf0Word s (0x1C1000 + 0x40 * n + off) = talReg s n off := by
  have hliq : 0x1C1000 + 0x40 * n + off - 0x1C0000 = 0x1000 + 0x40 * n + off := by omega
  unfold pf0Word
  rw [if_neg (by omega), if_neg (by omega), if_neg (by omega), if_neg (by omega), if_neg (by omega), if_neg (by omega), if_neg (by omega),
    if_neg (by omega), if_neg (by omega), if_neg (by omega), if_pos (by omega), hliq, liqReg_tally hn h]

theorem pf0Write_tally (s : State) (v : Word) : pf0Write s (0x1C1000 + 0x40 * n + off) v = talWrite s n off v.toNat := by
  have htenant : (0x1C1000 + 0x40 * n + off - 0x1C1000) / 0x40 = n := by omega
  have hoff : (0x1C1000 + 0x40 * n + off) % 0x40 = off := by omega
  unfold pf0Write
  dsimp only
  rw [if_neg (by omega), if_neg (by omega), if_neg (by omega), if_neg (by omega), if_neg (by omega), if_neg (by omega), if_neg (by omega),
    if_neg (by omega), if_neg (by omega), if_pos (by omega), if_neg (by omega), if_pos (by omega), htenant, hoff]

end

/-! ## Without PRIV (R370, R377) -/

/-- The offsets of TAL_FAIL_STATUS and of the failure latch in a tenant's block (R375). -/
def failOffsets : List Nat := [0x20, 0x24, 0x28, 0x2C, 0x30]

theorem failOffsets_lt {off : Nat} (h : off ∈ failOffsets) : off < 0x40 ∧ off ≠ 8 := by
  revert off
  decide

theorem talReg_fail_unprivileged {s : State} {t off : Nat} (hp : privOf s t = false) (h : off ∈ failOffsets) : talReg s t off = 0 := by
  simp only [failOffsets, List.mem_cons, List.not_mem_nil, or_false] at h
  rcases h with rfl | rfl | rfl | rfl | rfl <;> simp [talReg, hp]

theorem failRearm_unprivileged {s : State} {t : Nat} (hp : privOf s t = false) (v : Nat) : failRearm s t v = s := by
  simp [failRearm, hp]

/-- Without PRIV the acknowledge mark is the one word of the block that takes a write. -/
theorem talWrite_unprivileged {s : State} {t off : Nat} (hp : privOf s t = false) (h : off ≠ 8) (v : Nat) : talWrite s t off v = s := by
  simp [talWrite, h, failRearm_unprivileged hp]

theorem execTalFailRearm_unprivileged {s : State} {t : Tenant} (hp : privOf s t.val = false) (fn : Fn) (v : Word) :
    execTalFailRearm fn t v s = .next s := by
  simp [execTalFailRearm, failRearm_unprivileged hp]

/-! ## The acknowledge mark (R368, R377) -/

/-- Whoever may name the tenant, the row does what the write of TAL_ACK does. -/
theorem execTalAckWrite_named {fn : Fn} {t : Tenant} (h : mayNameTenant fn.val t.val = true) (s : State) (v : Word) :
    execTalAckWrite fn t v s = .next (talWrite s t.val 8 v.toNat) := by
  by_cases hf : s.followed t.val = true <;> simp [execTalAckWrite, talWrite, h, hf]

@[simp] theorem mirrorNote_tally (s : State) (t : Nat) (r : MirrorRec) (m : Nat) : (mirrorNote s t r).tally m = s.tally m := by
  unfold mirrorNote
  split <;> rfl

theorem ackWrite_tally_other (s : State) (t v : Nat) {m : Nat} (h : m ≠ t) : (ackWrite s t v).tally m = s.tally m := by
  unfold ackWrite
  simp only [apply_ite (State.tally · m), State.modTally_tally, if_neg h, ite_self]

theorem talWrite_ack_tally_other (s : State) (t v : Nat) {m : Nat} (h : m ≠ t) : (talWrite s t 8 v).tally m = s.tally m := by
  by_cases hf : s.followed t = true <;> simp [talWrite, hf, noteTally, ackWrite_tally_other s t v h]

/-! ## A VF's status words (R181, R270) -/

/-- VF_CONTAIN. -/
theorem vfWord_contain (s : State) (fn : Nat) :
    vfWord s fn 0x8000 = b2n (decide (s.tenantCause (tenantOf fn) ≠ 0)) + 256 * s.tenantCause (tenantOf fn) := rfl

theorem vfWord_qhalt (s : State) (fn : Nat) (j : Fin 32) : vfWord s fn (0x8100 + 4 * j.val) = qhaltWord s (tenantOf fn) j.val := by
  have hword : (0x8100 + 4 * j.val - 0x8100) / 4 = j.val := by omega
  unfold vfWord
  dsimp only
  rw [if_neg (by omega), if_neg (by omega), if_neg (by omega), if_pos (by omega), hword]

/-- PF0 reads a tenant's cause in HEP_TEN_CAUSE. -/
theorem pf0Word_tenCause (s : State) {t : Nat} (h : t ≤ 64) : pf0Word s (0x500 + 4 * t) = s.tenantCause t := by
  have hoff : 0x500 + 4 * t - 0x400 = 0x100 + 4 * t := by omega
  have hword : (0x100 + 4 * t - 0x100) / 4 = t := by omega
  have hrange : 0x100 ≤ 0x100 + 4 * t ∧ 0x100 + 4 * t < 0x204 := by omega
  have hlow : ∀ k, k < 0x100 → 0x100 + 4 * t ≠ k := by omega
  unfold pf0Word
  rw [if_neg (by omega), if_pos (by omega), hoff]
  simp only [hepWord, hlow, hrange, hword, Nat.reduceLT, if_true, if_false, and_self]

theorem tenantOf_fn_le (fn : Fn) (h : 2 ≤ fn.val) : tenantOf fn.val ≤ 64 := by
  have hlt := fn.isLt
  unfold tenantOf
  rw [if_neg (by omega), if_neg (by omega)]
  omega

/-! ## The statement -/

/-- Settles O56: both blocks are `talReg` and `talWrite` of the tenant (`vfWord_tally`, `pf0Word_tally` and their writes), and the status words are read bit by bit. -/
theorem tenantsReadTheirOwnStatus : Obligations.TenantsReadTheirOwnStatus := by
  unfold Obligations.TenantsReadTheirOwnStatus
  refine ⟨fun s fn n v hvf htenant => ⟨fun hp => ⟨fun off hoff => ?latch, ?rearm⟩, ?ack⟩, fun s fn hvf => ⟨?contained, ?cause, fun j i => ?qhalt⟩⟩
  case latch =>
    obtain ⟨hlt, hne⟩ := failOffsets_lt hoff
    have hn : n.val ≤ 64 := by omega
    have hzero : talReg s n.val off = 0 := talReg_fail_unprivileged hp hoff
    have hkept := talWrite_unprivileged hp hne v.toNat
    refine ⟨?_, ?_, ?_, ?_⟩
    · rw [regWord_vf hvf, vfWord_tally s fn.val hlt, htenant, hzero, Nat.zero_mod]
    · exact congrArg (· % 2 ^ 32) ((pf0Word_tally hn hlt s).trans hzero)
    · rw [writeWord_vf hvf, vfWrite_tally s fn.val hlt, htenant, hkept]
    · exact (pf0Write_tally hn hlt s v).trans hkept
  case rearm => exact ⟨execTalFailRearm_unprivileged hp fn v, execTalFailRearm_unprivileged hp 0 v⟩
  case ack =>
    have hn : n.val ≤ 64 := by omega
    refine ⟨talWrite s n.val 8 v.toNat, execTalAckWrite_named (by simp [mayNameTenant]) s v,
      execTalAckWrite_named (by simp [mayNameTenant, htenant]) s v, fun m hm => talWrite_ack_tally_other s n.val _ hm,
      pf0Write_tally (off := 8) hn (by decide) s v, ?_⟩
    rw [writeWord_vf hvf, ← htenant]
    exact vfWrite_tally s fn.val (off := 8) (by decide) v
  case contained =>
    rw [regWord_vf hvf, bit_mod_word _ (by decide), vfWord_contain]
    by_cases hc : s.tenantCause (tenantOf fn.val) = 0
    · simp [bit, b2n, hc]
    · simp [bit, b2n, hc]
      omega
  case cause =>
    have hpf0 : regWord s 0 (0x500 + 4 * tenantOf fn.val) = s.tenantCause (tenantOf fn.val) % 2 ^ 32 :=
      congrArg (· % 2 ^ 32) (pf0Word_tenCause s (tenantOf_fn_le fn hvf))
    rw [regWord_vf hvf, vfWord_contain, hpf0]
    generalize s.tenantCause (tenantOf fn.val) = cause
    by_cases hc : cause = 0 <;> simp [bits, b2n, hc]
    omega
  case qhalt =>
    rw [regWord_vf hvf, bit_mod_word _ i.isLt, vfWord_qhalt, qhaltWord, bit_packBits_range _ i.isLt]
    simp only [List.any_eq_true, decide_eq_true_eq]

end Sys2Proof.Machine
end

section
/-! Window commits and delayed reads (R212-R215, R222, R230): what the end of a commit puts in WIN_COMMIT_STATUS, and how a delayed-read slot is taken, met by its retry and discarded. -/

namespace Sys2Proof.Machine

/-! ## The end of a commit (R213, R230) -/

/-- A commit that held back neither a shadow write nor a request ends with `endCommit` alone. -/
theorem execWinCommitDone_nothingHeld {s : State} {c : Commit} (hc : s.win.commit = some c) (hshadows : c.shadows = []) (hreqs : c.reqs = []) :
    exec .winCommitDone s = .next (endCommit (s.modWin fun x => { x with commit := none }) c.first c.last c.result c.bad) := by
  show Host.Outcome.next (winCommitDoneEff s) = _
  simp only [winCommitDoneEff, hc, hshadows, hreqs, List.foldl_nil]

/-- WIN_COMMIT_STATUS after a commit: the result from bit 4 on, the window from bit 8 on and the commits completed from bit 16 on (R230). -/
theorem endCommit_status (s : State) (first last result bad : Nat) : (endCommit s first last result bad).reg 0x42004
    = w32 (result * 16 + bad * 256 + ((s.reg 0x42004).toNat / 65536 + 1) % 65536 * 65536) := by
  have hcount : ∀ u : State, u.reg 0x42004 = s.reg 0x42004 → (commitStatus u result bad).reg 0x42004
      = w32 (result * 16 + bad * 256 + ((s.reg 0x42004).toNat / 65536 + 1) % 65536 * 65536) := fun u hu => by
    rw [commitStatus, State.setReg_reg_same, hu]
  apply hcount
  split
  · rw [applyShadows_eq]
    rfl
  · rfl

/-- R230 puts the result in bits 7 to 4 of WIN_COMMIT_STATUS. -/
theorem endCommit_status_result (s : State) (first last result bad : Nat) :
    bits ((endCommit s first last result bad).reg 0x42004).toNat 7 4 = result % 16 := by
  rw [endCommit_status, w32, BitVec.toNat_ofNat, bits]
  omega

/-- Bits 3 to 0 of WIN_COMMIT_STATUS, BUSY among them, are clear when a commit has ended (R230). -/
theorem endCommit_status_low (s : State) (first last result bad : Nat) : ((endCommit s first last result bad).reg 0x42004).toNat % 16 = 0 := by
  rw [endCommit_status, w32, BitVec.toNat_ofNat]
  omega

/-- The commit of window 0 that its check ends with result 1: the window is enabled and its size is 0 (R213). -/
def sizelessCommit : Commit := { first := 0, last := 0, result := 1, bad := 0, shadows := [], reqs := [] }

/-- After reset PF0 sets ENABLE of window 0 and no other field, and starts the window's commit. -/
def sizelessCommitting : State := winCommitWrite (shadowWrite State.reset 0 0 1#32) 0x80000000

theorem sizelessCommitting_commit : sizelessCommitting.win.commit = some sizelessCommit := by decide +kernel

/-- Refutes O11: its last clause reads the result in WIN_COMMIT_STATUS[3:0]. The model puts it in [7:4], as R230 does (`endCommit_status_result`), so a commit that fails with result 1 leaves 0 in [3:0]. -/
theorem not_windowCommitIsAtomic : ¬ Obligations.WindowCommitIsAtomic := by
  unfold Obligations.WindowCommitIsAtomic
  rintro ⟨-, -, -, -, hdone⟩
  obtain ⟨t, hexec, -, -, -, hresult, -⟩ :=
    hdone sizelessCommitting sizelessCommit sizelessCommitting_commit rfl rfl (Nat.le_refl 0) (by decide)
  rw [execWinCommitDone_nothingHeld sizelessCommitting_commit rfl rfl] at hexec
  cases hexec
  rw [endCommit_status_low] at hresult
  exact absurd hresult (by decide)

/-! ## A slot is taken (R222 step 1) -/

/-- A slot of a port written reads back, and every other slot is as before. -/
theorem setDt_slot (s : State) (p k j : Nat) (d : DtSlot) :
    Tbl.get dtInit ((setDt s p k d).port p).dt j = if j = k then d else Tbl.get dtInit (s.port p).dt j := by
  rw [setDt, State.modPort_port_same, Tbl.get_set]

section
variable {s u : State} {p addr space width r : Nat} {be : List Bool}

/-- A read that meets no open slot goes to its region. -/
theorem rackReadEff_noSlotMatched (hready : slvReady s p = true) (hslot : dtMatch s p addr space width be = none)
    (hm : slvMatch s p addr space = some r) (block : Bool) :
    rackReadEff s p addr space width be block = rackReadMatched s p r addr space width be block := by
  simp [rackReadEff, hready, hslot, hm]

/-- The slot of a delayed read of region `r`, whose host answer has not come; `h` is its host range. -/
def openSlot (s : State) (p r addr space width : Nat) (be : List Bool) (h : Nat × Nat × Nat) : DtSlot :=
  { used := true, addr := addr, space := space, width := width, be := be, data := none, err := 0, tenant := slvTenant s p r
    endian := slvEndian s p r, base := h.1, haddr := h.2.1, len := h.2.2, expires := 0 }

section
variable {block : Bool} (hu : u = s.incReg (paReg p 0x34)) (hret : retryAnswers s p = true)
  (hd : inboundDenial u p r (hostRange u p r addr (rackReadBe u p r addr space width be block)).2.1
    (hostRange u p r addr (rackReadBe u p r addr space width be block)).2.2 true false false = none)
include hu hret hd

/-! `u` is the state that has counted the cycle. -/

theorem rackReadMatched_allSlotsUsed (hall : ∀ k, k < 8 → (Tbl.get dtInit (s.port p).dt k).used = true) :
    rackReadMatched s p r addr space width be block = u.emit (.slaveRetry p) := by
  have hnone : ((List.range 8).find? fun k => !(Tbl.get dtInit (s.port p).dt k).used) = none := by
    rw [List.find?_eq_none]
    intro k hk
    simp [hall k (List.mem_range.mp hk)]
  have hret' : retryAnswers (s.incReg (paReg p 0x34)) p = true := hret
  subst hu
  simp [rackReadMatched, hd, hret', hnone]

theorem rackReadMatched_takesSlot {k : Nat} (hfree : (List.range 8).find? (fun k => !(Tbl.get dtInit (s.port p).dt k).used) = some k) :
    rackReadMatched s p r addr space width be block
      = (dtSend (setDt u p k (openSlot u p r addr space width be (hostRange u p r addr (rackReadBe u p r addr space width be block)))) p k).emit
          (.slaveRetry p) := by
  have hret' : retryAnswers (s.incReg (paReg p 0x34)) p = true := hret
  subst hu
  simp [rackReadMatched, hd, hret', hfree, openSlot]

end

/-! ## A retry (R222 steps 2 and 3) -/

theorem execDtRetry_matched {q : PortId} {k : Nat} (hready : slvReady s q.val = true) (hslot : dtMatch s q.val addr space width be = some k) :
    exec (.dtRetry q addr space width be) s = .next (dtCollect s q.val k) := by
  show execDtRetry q addr space width be s = _
  simp only [execDtRetry, hready, hslot, if_true]

theorem execDtRetry_unmatched {q : PortId} (hslot : dtMatch s q.val addr space width be = none) :
    exec (.dtRetry q addr space width be) s = .next s := by
  show execDtRetry q addr space width be s = _
  simp only [execDtRetry, hslot, ite_self]

theorem dtCollect_data {k : Nat} {data : List Byte} (hdata : (Tbl.get dtInit (s.port p).dt k).data = some data) :
    dtCollect s p k = (setDt s p k (dtInit k)).emit (.slaveAck p data) := by
  simp only [dtCollect, hdata]
  rfl

theorem dtCollect_err {k : Nat} (hdata : (Tbl.get dtInit (s.port p).dt k).data = none) (herr : (Tbl.get dtInit (s.port p).dt k).err ≠ 0) :
    let d := Tbl.get dtInit (s.port p).dt k
    dtCollect s p k = raiseOpt (inboundErr (setDt s p k (dtInit k)) p d.addr d.err d.space)
      ((rackEv p d.err).map fun e => { e with tenant := d.tenant, cs := d.err, addr := d.addr }) := by
  simp only [dtCollect, hdata]
  rw [if_pos herr]
  rfl

end

/-! ## A slot that nobody collects (R222 step 5) -/

/-- The record of a discarded slot (R222). -/
def delayedDiscardEv (p : Nat) (d : DtSlot) : Ev :=
  { code := Ev.delayedDiscard, src := srcPort p, tenant := d.tenant, addr := d.addr }

/-- The discard of slot `k` before its record: time has come to the slot's end, its port's half has counted it, and it is free. -/
def discardedSlot (s : State) (p k : Nat) : State :=
  setDt ((s.atTime (Tbl.get dtInit (s.port p).dt k).expires).addReg 0x42024 (65536 ^ p)) p k (dtInit 0)

theorem delayedDiscardEff_records {s : State} {p k : Nat} (hr : LogRoom s) (hused : (Tbl.get dtInit (s.port p).dt k).used = true)
    (hend : (Tbl.get dtInit (s.port p).dt k).data.isSome = true ∨ (Tbl.get dtInit (s.port p).dt k).err ≠ 0) :
    Records (discardedSlot s p k) (delayedDiscardEff s p k) (delayedDiscardEv p (Tbl.get dtInit (s.port p).dt k)) := by
  simp only [delayedDiscardEff, hused, hend, and_self, if_true]
  exact raise_records _ _ hr rfl (.inr rfl)

/-- Port A counts in the low half of WIN_DT_DISCARD_CNT, port B in the high half (R230). -/
theorem discardHalf (p : PortId) : w32 (65536 ^ p.val) = if p.val = 0 then 1 else 0x10000 := by
  revert p
  decide

/-- Settles O14: a first read by whether a slot is free, a retry by the two ends of `dtCollect`, a discard by its record (R222). -/
theorem delayedReadsMatchExactly : Obligations.DelayedReadsMatchExactly := by
  unfold Obligations.DelayedReadsMatchExactly
  refine ⟨?firstRead, ?retry, ?discard⟩
  case firstRead =>
    intro s p addr space width r be hready hret hslot hm u h hd
    have hread := rackReadEff_noSlotMatched hready hslot hm false
    refine ⟨fun hall => ?full, fun k hfree => ?taken⟩
    case full => exact congrArg Host.Outcome.next (hread.trans (rackReadMatched_allSlotsUsed rfl hret hd hall))
    case taken =>
      have htaken := hread.trans (rackReadMatched_takesSlot (u := u) rfl hret hd hfree)
      exact ⟨_, openSlot u p.val r addr space width be h, congrArg Host.Outcome.next htaken, rfl, rfl, rfl, rfl, rfl, rfl, rfl, rfl, rfl, rfl, rfl⟩
  case retry =>
    intro s p addr space width be hready
    refine ⟨fun k data hslot hdata => ?acked, fun k hslot hdata herr => ?failed, execDtRetry_unmatched⟩
    case acked =>
      refine ⟨_, (execDtRetry_matched hready hslot).trans (congrArg _ (dtCollect_data hdata)), rfl, ?_, fun j hj => ?_, rfl⟩
      · exact (setDt_slot s p.val k k (dtInit k)).trans (if_pos rfl)
      · exact (setDt_slot s p.val k j (dtInit k)).trans (if_neg hj)
    case failed => exact (execDtRetry_matched hready hslot).trans (congrArg _ (dtCollect_err hdata herr))
  case discard =>
    intro s p k hr d hused hend
    have hrec := delayedDiscardEff_records hr hused hend
    refine ⟨delayedDiscardEff s p.val k, rfl, ?_⟩
    rw [hrec]
    refine ⟨?_, ?_, rfl, rfl, rfl⟩
    · exact congrArg DtSlot.used ((setDt_slot _ p.val k k (dtInit 0)).trans (if_pos rfl))
    · rw [← discardHalf p]
      exact State.addReg_reg (s.atTime d.expires) 0x42024 0x42024 (65536 ^ p.val)

end Sys2Proof.Machine
end

section
/-! The votes of a segment's transfer (R89, R242, R250): raising and withdrawing them changes the power domains and the registers of their logs, and of the beds nothing. -/

namespace Sys2Proof.Machine

/-! ## What votes change -/

/-- `t` is `s` but for the power domains and for registers below those of the pans, the domains' log counters among them (R102, R262). -/
def VotesOnly (s t : State) : Prop := t = { s with regs := t.regs, pwr := t.pwr } ∧ ∀ k, 0x180000 ≤ k → t.reg k = s.reg k

theorem VotesOnly.refl (s : State) : VotesOnly s s := ⟨rfl, fun _ _ => rfl⟩

theorem VotesOnly.trans {s t u : State} (hst : VotesOnly s t) (htu : VotesOnly t u) : VotesOnly s u := by
  obtain ⟨heq, hreg⟩ := hst
  refine ⟨?_, fun k hk => (htu.2 k hk).trans (hreg k hk)⟩
  rw [htu.1, heq]

theorem VotesOnly.qs {s t : State} (h : VotesOnly s t) : t.qs = s.qs := by rw [h.1]

theorem votesOnly_foldl {α : Type} {f : State → α → State} (h : ∀ u x, VotesOnly u (f u x)) (l : List α) (s : State) :
    VotesOnly s (l.foldl f s) :=
  List.foldlRecOn l f (motive := VotesOnly s) (VotesOnly.refl s) fun _ hu x _ => hu.trans (h _ x)

theorem modDom_votesOnly (s : State) (d : Nat) (f : Dom → Dom) : VotesOnly s (s.modDom d f) := ⟨rfl, fun _ _ => rfl⟩

theorem startWake_votesOnly (s : State) (d : Nat) : VotesOnly s (startWake s d) := ⟨rfl, fun _ _ => rfl⟩

theorem refreshDom_votesOnly (s : State) (d : Nat) : VotesOnly s (refreshDom s d) := by
  unfold refreshDom
  split
  · exact modDom_votesOnly ..
  · exact VotesOnly.refl s

/-- The counters of refusals and aborts lie below the pans' registers (R102, R262). -/
theorem domLog_votesOnly (s : State) {d : Nat} (hd : d < 16) (client reason : Nat) : VotesOnly s (domLog s d client reason) := by
  refine ⟨rfl, fun k hk => ?_⟩
  have hrefusal : k ≠ domReg d 0x18 := by unfold domReg; omega
  have habort : k ≠ domReg d 0x1C := by unfold domReg; omega
  unfold domLog
  split
  · simp [State.incReg_reg, habort]
  · simp [State.incReg_reg, hrefusal]

/-- A transfer's vote that reaches a domain refuses no soft power-down (R94): it wakes the domain, or keeps it on. -/
theorem arrive_votesOnly (s : State) {d client : Nat} (hd : d < 16) (hx : isXfer client = true) (reason : Nat) :
    VotesOnly s (arrive s d client reason) := by
  refine (refreshDom_votesOnly s d).trans ?_
  unfold arrive
  generalize refreshDom s d = u
  dsimp only
  split
  · exact modDom_votesOnly ..
  · exact (domLog_votesOnly u hd client reason).trans (modDom_votesOnly ..)
  · exact startWake_votesOnly ..
  · rw [if_pos hx]
    exact VotesOnly.refl u
  · rw [if_neg (by simp [hx])]
    exact VotesOnly.refl u
  · exact VotesOnly.refl u

theorem raiseVote_votesOnly (s : State) (d : Nat) {client : Nat} (hx : isXfer client = true) : VotesOnly s (raiseVote s d client) := by
  unfold raiseVote
  split
  · next hv =>
    have hd : 4 ≤ d ∧ d ≤ 15 := of_decide_eq_true hv
    exact (modDom_votesOnly ..).trans (arrive_votesOnly _ (by omega) hx 4)
  · exact VotesOnly.refl s

theorem checkIdle_votesOnly (s : State) (d : Nat) : VotesOnly s (checkIdle s d) := by
  unfold checkIdle
  split
  · exact modDom_votesOnly ..
  · exact VotesOnly.refl s

theorem dropVote_votesOnly (s : State) (d client : Nat) : VotesOnly s (dropVote s d client) :=
  (modDom_votesOnly ..).trans (checkIdle_votesOnly ..)

/-! ## The votes of a slot -/

theorem isXfer_xferClient (s : State) (k : Nat) : isXfer (xferClient s k) = true := by
  unfold isXfer xferClient
  rw [decide_eq_true_eq]
  omega

theorem raiseSlotVotes_votesOnly (s : State) (k : Nat) : VotesOnly s (raiseSlotVotes s k) := by
  refine votesOnly_foldl (fun u d => ?_) _ s
  split
  · exact VotesOnly.refl u
  · exact raiseVote_votesOnly u d (isXfer_xferClient u k)

theorem dropSlotVotes_votesOnly (s : State) (k : Nat) : VotesOnly s (dropSlotVotes s k) :=
  votesOnly_foldl (fun _ _ => dropVote_votesOnly ..) _ s

@[simp] theorem raiseSlotVotes_qs (s : State) (k : Nat) : (raiseSlotVotes s k).qs = s.qs := (raiseSlotVotes_votesOnly s k).qs
@[simp] theorem dropSlotVotes_qs (s : State) (k : Nat) : (dropSlotVotes s k).qs = s.qs := (dropSlotVotes_votesOnly s k).qs

/-! ## What the slots, the queues, the pans and the beds are read from -/

theorem slot_of_qs {s t : State} (h : t.qs = s.qs) (k : Nat) : t.slot k = s.slot k := by
  unfold State.slot
  rw [h]

theorem q_of_qs {s t : State} (h : t.qs = s.qs) (k : Nat) : t.q k = s.q k := by
  unfold State.q
  rw [h]

@[simp] theorem raiseSlotVotes_slot (s : State) (k j : Nat) : (raiseSlotVotes s k).slot j = s.slot j := slot_of_qs (raiseSlotVotes_qs s k) j
@[simp] theorem raiseSlotVotes_q (s : State) (k j : Nat) : (raiseSlotVotes s k).q j = s.q j := q_of_qs (raiseSlotVotes_qs s k) j

/-! ## Slots emptied -/

theorem emptySlot_slot (s : State) (k j : Nat) : (emptySlot s k).slot j = if j = k then slotInit k else s.slot j := by
  unfold emptySlot
  rw [State.setSlot_slot, slot_of_qs (dropSlotVotes_qs s k)]

@[simp] theorem emptySlot_q (s : State) (k j : Nat) : (emptySlot s k).q j = s.q j := q_of_qs (dropSlotVotes_qs s k) j

theorem emptySlot_reg (s : State) (k : Nat) {r : Nat} (hr : 0x180000 ≤ r) : (emptySlot s k).reg r = s.reg r :=
  (dropSlotVotes_votesOnly s k).2 r hr

theorem panReg_high (p off : Nat) : 0x180000 ≤ panReg p off := by
  unfold panReg
  omega

end Sys2Proof.Machine
end

section
/-! Fetches and pushes (R236, R239, R246, R272, R286, R288): a fetch answered in full, one that fails, and the slot that a pushed segment takes. -/

namespace Sys2Proof.Machine

/-! ## The answer to a fetch (R272, R288) -/

section
variable {s : State} {q tag addr n w : Nat} {res : HostEnd}

theorem descFetchEff_idle (h : (s.q q).fetching = none) : descFetchEff s q res = fetchNext s q := by
  simp [descFetchEff, h]

/-- The state in which the host's answer to a fetch of queue `q` has freed its tag. -/
def fetchAnswered (s : State) (q tag : Nat) (res : HostEnd) : State :=
  poisonAer (freeTag s (fnOf (s.q q).tenant) tag) (fnOf (s.q q).tenant) res

@[simp] theorem fetchAnswered_q (s : State) (q tag : Nat) (res : HostEnd) (j : Nat) : (fetchAnswered s q tag res).q j = s.q j := by
  unfold fetchAnswered poisonAer
  split <;> rfl

variable (hf : (s.q q).fetching = some (w, addr, n)) (hn : 0 < n) (ht : tagOf (s.fn (fnOf (s.q q).tenant)) (.fetch q) = some tag)
include hf hn ht

theorem descFetchEff_whole {d : List Byte} (hd : d.length = 64 * n) (hh : (s.q q).halting = false) :
    descFetchEff s q (.ok d)
      = fetchNext (takeFetch ((fetchAnswered s q tag (.ok d)).modQ q fun c => { c with fetching := none }) q addr n d) q := by
  have hn0 : n ≠ 0 := hn.ne'
  simp [descFetchEff, hf, ht, hn0, resFits, hd, hostCs, hh, hostData, fetchAnswered]

theorem descFetchEff_fails (hres : res ∈ [HostEnd.ur, .ca, .poison]) :
    descFetchEff s q res = fetchFailed (fetchAnswered s q tag res) q addr (hostCs res) Ev.queueHostError := by
  have hn0 : n ≠ 0 := hn.ne'
  have hfits : ∀ m, resFits res m = true := by
    revert hres
    cases res <;> simp [resFits]
  have hcs : hostCs res ≠ Cs.done ∧ hostCs res ≠ Cs.hostTimeout := by
    revert hres
    cases res <;> simp [hostCs]
  simp [descFetchEff, hf, ht, hn0, hfits, hcs, fetchAnswered]

end

/-! ## A fetch that failed (R286, R288) -/

@[simp] theorem raise_qs (s : State) (e : Ev) : (s.raise e).qs = s.qs := by rw [raise_only]

@[simp] theorem raise_q (s : State) (e : Ev) (k : Nat) : (s.raise e).q k = s.q k := q_of_qs (raise_qs s e) k

/-- The entry that a failed fetch leaves: the INDEX of its first descriptor, CS, and RESIDUAL 0xFFFFFFFF (R288). -/
def failedFetch (c : QCtx) (addr cs : Nat) : Desc :=
  { parseDesc c.nextUid (if c.chain then (c.relIdx + c.descs.length) % 65536 else c.head) addr [] with
    final := some (cs, 0xFFFFFFFF), fetchFail := true }

/-- A queue context whose halt has begun with a fault, which the first fault of a halt keeps (R289). -/
def faulted (d : Desc) (cs addr : Nat) (c : QCtx) : QCtx :=
  { (if c.halting then c else { c with faultCs := cs, faultAddr := addr, faultDesc := faultDescOf c d }) with halting := true }

theorem modQ_modQ_q (s : State) (q : Nat) (f g : QCtx → QCtx) (j : Nat) :
    ((s.modQ q f).modQ q g).q j = if j = q then g (f (s.q q)) else s.q j := by
  rw [State.modQ_q, State.modQ_q_same, State.modQ_q]
  split <;> rfl

/-- The queue's context when a fetch has failed, before its fault: the fetch ended, and its entry the newest. -/
def fetchEnded (d : Desc) (c : QCtx) : QCtx := { c with fetching := none, nextUid := c.nextUid + 1, descs := c.descs ++ [d] }

theorem fetchFailed_q (s : State) (q addr cs code j : Nat) :
    (fetchFailed s q addr cs code).q j
      = if j = q then faulted (failedFetch (s.q q) addr cs) cs addr (fetchEnded (failedFetch (s.q q) addr cs) (s.q q)) else s.q j := by
  let d := failedFetch (s.q q) addr cs
  exact (raise_q _ _ j).trans (modQ_modQ_q s q (fetchEnded d) (faulted d cs addr) j)

theorem faulted_keeps (d : Desc) (cs addr : Nat) (c : QCtx) :
    (faulted d cs addr c).fetching = c.fetching ∧ (faulted d cs addr c).descs = c.descs := by
  unfold faulted
  split <;> exact ⟨rfl, rfl⟩

theorem faulted_first (d : Desc) (cs addr : Nat) {c : QCtx} (h : c.halting = false) :
    (faulted d cs addr c).faultCs = cs ∧ (faulted d cs addr c).faultAddr = addr := by
  simp [faulted, h]

/-! ## Pushing (R237-R239, R246) -/

theorem segmentPushEff_inactive {s : State} {q : Nat} (h : (s.q q).st ≠ .active) : segmentPushEff s q = s := by
  simp [segmentPushEff, h]

theorem segmentPushEff_pushes {s : State} {q b : Nat} (hst : (s.q q).st = .active) (hrun : mayRun s (s.q q).tenant = true)
    (hcap : atCap (countDeferred s q (s.q q).descs false) (s.q q).tenant = false)
    (hbed : pushBed (countDeferred s q (s.q q).descs false) (s.q q).bed = some b) :
    segmentPushEff s q = pushFirst (countDeferred s q (s.q q).descs false) q b (pushable (s.q q).descs false false) := by
  simp [segmentPushEff, hst, hrun, hcap, hbed]

/-- The slot record of a pushed segment, unstarted (R239). -/
def pushedSlot (s : State) (q k : Nat) (d : Desc) (g : SegPlan) : Slot :=
  { slotInit k with
    busy := true, queue := q, uid := d.uid, off := g.off, len := g.len, tenant := (s.q q).tenant, src := g.src, dst := g.dst
    pinned := g.pinned, order := s.qs.orderNext }

/-- The descriptor of a pushed plan in its queue's context: the plan moves from the segments to push to those in pans. -/
def planPushed (d : Desc) (g : SegPlan) (c : QCtx) : QCtx :=
  { c with
    descs := modFirst (fun x => decide (x.uid = d.uid))
      (fun x => { x with toPush := x.toPush.tail, inPans := x.inPans ++ [(g.off, g.len, g.pinned)] }) c.descs }

/-- The queue's context after a push at position `i`, which an unpinned segment notes as the last one used (R237). -/
def pushNoted (i : Nat) (d : Desc) (g : SegPlan) (c : QCtx) : QCtx :=
  if g.pinned then planPushed d g c else { planPushed d g c with lastPos := i }

theorem pushNoted_descs (i : Nat) (d : Desc) (g : SegPlan) (c : QCtx) : (pushNoted i d g c).descs = (planPushed d g c).descs := by
  unfold pushNoted
  split <;> rfl

/-- A push in its queue's account. -/
def pushed (s : State) (q i : Nat) (d : Desc) (g : SegPlan) : State :=
  let s := (newUid s).2.modQ q (planPushed d g)
  if g.pinned then s else s.modQ q fun c => { c with lastPos := i }

theorem pushed_q (s : State) (q i : Nat) (d : Desc) (g : SegPlan) (j : Nat) :
    (pushed s q i d g).q j = if j = q then pushNoted i d g (s.q q) else s.q j := by
  have hq : ∀ j, (newUid s).2.q j = s.q j := fun _ => rfl
  unfold pushed pushNoted
  cases g.pinned
  · rw [if_neg Bool.false_ne_true, if_neg Bool.false_ne_true, modQ_modQ_q, hq, hq]
  · rw [if_pos rfl, if_pos rfl, State.modQ_q, hq, hq]

theorem pushed_slot (s : State) (q i : Nat) (d : Desc) (g : SegPlan) (j : Nat) : (pushed s q i d g).slot j = s.slot j := by
  unfold pushed
  cases g.pinned <;> rfl

/-- A push is its account, the slot taken and the slot's votes. -/
theorem putSegment_eq {s : State} {q b i k : Nat} (h : freeSlotOf s b i = some k) (d : Desc) (g : SegPlan) :
    putSegment s q b i d g = raiseSlotVotes ((pushed s q i d g).setSlot k (pushedSlot s q k d g)) k := by
  unfold putSegment
  rw [h]
  rfl

theorem putSegment_slot {s : State} {q b i k : Nat} (h : freeSlotOf s b i = some k) (d : Desc) (g : SegPlan) (j : Nat) :
    (putSegment s q b i d g).slot j = if j = k then pushedSlot s q k d g else s.slot j := by
  rw [putSegment_eq h, raiseSlotVotes_slot, State.setSlot_slot, pushed_slot]

theorem putSegment_q {s : State} {q b i k : Nat} (h : freeSlotOf s b i = some k) (d : Desc) (g : SegPlan) (j : Nat) :
    (putSegment s q b i d g).q j = if j = q then pushNoted i d g (s.q q) else s.q j := by
  rw [putSegment_eq h, raiseSlotVotes_q]
  exact pushed_q s q i d g j

/-- Settles O27: a fetch ends whole (`descFetchEff_whole`) or with a failure (`fetchFailed_q`), and a push is `segmentPushEff_pushes` with what `putSegment` leaves of the slots and of the queues. -/
theorem descriptorsAreFetchedCutAndPushed : Obligations.DescriptorsAreFetchedCutAndPushed := by
  unfold Obligations.DescriptorsAreFetchedCutAndPushed
  refine ⟨?whole, ?fails, ?idle, ?push, ?put⟩
  case whole =>
    intro s q tag addr n w d hf hn hh ht hd
    exact congrArg Host.Outcome.next (descFetchEff_whole hf hn ht hd hh)
  case fails =>
    intro s q tag addr n w res hf hn ht hres
    have hend : hostEnd res ∈ [HostEnd.ur, .ca, .poison] := by
      revert hres
      cases res <;> simp [hostEnd]
    have hq := fetchFailed_q (fetchAnswered s q.val tag (hostEnd res)) q.val addr (hostCs (hostEnd res)) Ev.queueHostError
    have hsame := (hq q.val).trans (if_pos rfl)
    simp only [fetchAnswered_q] at hsame
    refine ⟨_, failedFetch (s.q q.val) addr (hostCs (hostEnd res)), congrArg Host.Outcome.next (descFetchEff_fails hf hn ht hend),
      ?_, ?_, ?_, rfl, rfl, ?_, ?_⟩
    · rw [hsame]
      rfl
    · rw [hsame, (faulted_keeps ..).1]
      rfl
    · rw [hsame, (faulted_keeps ..).2]
      rfl
    · intro hh
      rw [hsame]
      exact faulted_first _ _ _ hh
    · intro r hr
      rw [hq, if_neg hr, fetchAnswered_q]
  case idle => exact fun s q hf res => congrArg Host.Outcome.next (descFetchEff_idle hf)
  case push =>
    intro s q
    refine ⟨fun hst => congrArg Host.Outcome.next (segmentPushEff_inactive hst), ?_⟩
    rintro u b hst hrun rfl hcap hbed
    exact congrArg Host.Outcome.next (segmentPushEff_pushes hst hrun hcap hbed)
  case put =>
    intro s q b i k d g h
    dsimp only
    rw [putSegment_slot h, if_pos rfl, putSegment_q h, if_pos rfl, pushNoted_descs]
    refine ⟨rfl, rfl, rfl, rfl, rfl, rfl, rfl, rfl, rfl, rfl, fun j hj => ?_, rfl, fun r hr => ?_⟩
    · rw [putSegment_slot h, if_neg hj]
    · rw [putSegment_q h, if_neg hr]

end Sys2Proof.Machine
end

section
/-! Completion entries (R252, R281-R285, R289): what COMPLETION_RELEASE makes of the oldest descriptor, and the moderation timer's message. -/

namespace Sys2Proof.Machine

/-! ## The oldest descriptor (R252, R281-R283) -/

section
variable {s : State} {q : Nat}

theorem completionReleaseEff_closed (h : mayRelease s q = false) : completionReleaseEff s q = s := by
  simp [completionReleaseEff, h]

variable (hm : mayRelease s q = true)
include hm

theorem completionReleaseEff_empty (hd : (s.q q).descs = []) : completionReleaseEff s q = haltCheck s q := by
  simp [completionReleaseEff, hm, hd]

variable {d : Desc} {r : List Desc} (hd : (s.q q).descs = d :: r)
include hd

/-- A SETTLE that has become the oldest and has no fence yet (R281). -/
theorem completionReleaseEff_settle (hop : d.opcode = 4) (hfinal : d.final = none) (hfence : d.fence = none) :
    completionReleaseEff s q = settleStart s q d := by
  simp [completionReleaseEff, hm, hd, hop, hfinal, hfence]

variable (hn : ¬(d.opcode = 4 ∧ d.final = none))
include hn

theorem completionReleaseEff_notDue (hhalf : halfDue d = false) (hdone : segsDone d = false) : completionReleaseEff s q = s := by
  unfold completionReleaseEff
  simp only [hm, hd, if_neg hn]
  simp [hhalf, hdone]

variable (hdue : halfDue d = true ∨ segsDone d = true)
include hdue

/-- An entry that is due, before the ring is asked. -/
theorem completionReleaseEff_due : completionReleaseEff s q
    = if !cqRoom (s.q q) then
        if (s.q q).stalled then s else (s.modQ q fun c => { c with stalled := true }).incReg (0x100074 + 0x100 * q)
      else if s.leads (s.q q).tenant then
        mirrorHold (s.modQ q fun c => { c with mirrorWait := true }) (s.q q).tenant (releaseRecOf s q d) (.release q) id
      else releaseNow s q := by
  have hn2 : ¬((!halfDue d && !segsDone d) = true) := by
    rcases hdue with h | h <;> simp [h]
  unfold completionReleaseEff
  simp only [hm, hd, if_neg hn, if_neg hn2]
  rfl

theorem completionReleaseEff_waits (hroom : cqRoom (s.q q) = false) (hst : (s.q q).stalled = true) : completionReleaseEff s q = s := by
  rw [completionReleaseEff_due hm hd hn hdue]
  simp [hroom, hst]

/-- A full ring is counted at the first attempt of a wait (R282). -/
theorem completionReleaseEff_stalls (hroom : cqRoom (s.q q) = false) (hst : (s.q q).stalled = false) :
    completionReleaseEff s q = (s.modQ q fun c => { c with stalled := true }).incReg (0x100074 + 0x100 * q) := by
  rw [completionReleaseEff_due hm hd hn hdue]
  simp [hroom, hst]

theorem completionReleaseEff_releases (hroom : cqRoom (s.q q) = true) (hl : s.leads (s.q q).tenant = false) :
    completionReleaseEff s q = releaseNow s q := by
  rw [completionReleaseEff_due hm hd hn hdue]
  simp [hroom, hl]

end

section
variable {s : State} {q : Nat} {d : Desc} {r : List Desc} (hd : (s.q q).descs = d :: r)
include hd

theorem releaseNow_half (hhalf : halfDue d = true) :
    releaseNow s q = halfEntry (s.modQ q fun c => { c with mirrorWait := false }) q d := by
  simp [releaseNow, hd, hhalf]

theorem releaseNow_full (hhalf : halfDue d = false) (hdone : segsDone d = true) :
    releaseNow s q = fullEntry (s.modQ q fun c => { c with mirrorWait := false }) q d := by
  simp [releaseNow, hd, hhalf, hdone]

end

/-! ## The moderation timer (R285) -/

theorem queueIrq_only (s : State) (q : Nat) :
    queueIrq s q = { s.modQ q fun c => { c with irqPend := 0 } with ep := (queueIrq s q).ep, out := (queueIrq s q).out } :=
  sendMsix_ep_out ..

theorem queueIrq_q (s : State) (q j : Nat) : (queueIrq s q).q j = if j = q then { s.q q with irqPend := 0 } else s.q j := by
  have hqs : (queueIrq s q).qs = (s.modQ q fun c => { c with irqPend := 0 }).qs := by rw [queueIrq_only]
  rw [q_of_qs hqs, State.modQ_q]

theorem execIrqModerationTimer_due {s : State} {q : Fin 2048} (hp : 0 < (s.q q.val).irqPend) (ht : 0 < (s.q q.val).timer) :
    execIrqModerationTimer q s = .next (queueIrq (s.atTime (s.q q.val).irqAt) q.val) := by
  simp [execIrqModerationTimer, hp, ht]

theorem execIrqModerationTimer_idle {s : State} {q : Fin 2048} (h : (s.q q.val).irqPend = 0 ∨ (s.q q.val).timer = 0) :
    execIrqModerationTimer q s = .next s := by
  have hn : ¬(0 < (s.q q.val).irqPend ∧ 0 < (s.q q.val).timer) := by omega
  simp only [execIrqModerationTimer, if_neg hn]

/-! ## The events -/

/-- Settles O28: each clause is the branch of `completionReleaseEff` it names, the moderation timer `queueIrq_only` at its time. -/
theorem entriesAreReleasedInOrder : Obligations.EntriesAreReleasedInOrder := by
  unfold Obligations.EntriesAreReleasedInOrder
  refine ⟨?closed, ?empty, ?oldest, ?timer⟩
  case closed => exact fun s q hm => congrArg Host.Outcome.next (completionReleaseEff_closed hm)
  case empty => exact fun s q hm hd => congrArg Host.Outcome.next (completionReleaseEff_empty hm hd)
  case oldest =>
    intro s q d r hm hd
    refine ⟨fun hop hfinal hfence => congrArg Host.Outcome.next (completionReleaseEff_settle hm hd hop hfinal hfence),
      fun hn => ⟨fun hhalf hdone => congrArg Host.Outcome.next (completionReleaseEff_notDue hm hd hn hhalf hdone), ?full, ?room⟩⟩
    case full =>
      intro hdue hroom
      refine ⟨fun hst => congrArg Host.Outcome.next (completionReleaseEff_waits hm hd hn hdue hroom hst), fun hst => ?_⟩
      refine ⟨_, congrArg Host.Outcome.next (completionReleaseEff_stalls hm hd hn hdue hroom hst), ?_, ?_, fun j hj => ?_, fun k hk => ?_, rfl⟩
      · simp
      · exact (State.incReg_reg ..).trans (if_pos rfl)
      · simp [State.modQ_q, hj]
      · exact (State.incReg_reg ..).trans (if_neg hk)
    case room =>
      intro hroom hl
      refine ⟨fun hhalf => ?_, fun hhalf hdone => ?_⟩
      · have hrel := completionReleaseEff_releases hm hd hn (.inl hhalf) hroom hl
        exact congrArg Host.Outcome.next (hrel.trans (releaseNow_half hd hhalf))
      · have hrel := completionReleaseEff_releases hm hd hn (.inr hdone) hroom hl
        exact congrArg Host.Outcome.next (hrel.trans (releaseNow_full hd hhalf hdone))
  case timer =>
    intro s q
    refine ⟨fun hp ht => ?_, fun h => execIrqModerationTimer_idle h⟩
    have honly := queueIrq_only (s.atTime (s.q q.val).irqAt) q.val
    have hq := queueIrq_q (s.atTime (s.q q.val).irqAt) q.val
    refine ⟨_, execIrqModerationTimer_due hp ht, (hq q.val).trans (if_pos rfl), ?_, fun j hj => (hq j).trans (if_neg hj), ?_, ?_⟩
    · rw [honly]
      exact State.atTime_now ..
    · rw [honly]
      rfl
    · rw [honly]
      rfl

end Sys2Proof.Machine
end

section
/-! Segments in the pans (R240-R242, R251): started, answered, reported done and cancelled. -/

namespace Sys2Proof.Machine

/-! ## Starting (R240) -/

/-- The segment that a position would start: the oldest startable one. -/
def nextToStart (s : State) (b i : Nat) : Option Nat := oldestOf s ((posBusy s b i).filter fun k => startable s k)

section
variable {s : State} {b i : Nat}

theorem segmentStartEff_down (h : s.cont.dev = true ∨ domUp (refreshDom s (4 + b)) (4 + b) = false) : segmentStartEff s b i = s := by
  unfold segmentStartEff
  exact if_pos (h.imp_right fun h => by simp [h])

theorem segmentStartEff_none (h : nextToStart s b i = none) : segmentStartEff s b i = s := by
  unfold nextToStart at h
  simp [segmentStartEff, h]

theorem segmentStartEff_tooLong {k : Nat} (h : nextToStart s b i = some k) (hw : windowFits s b i k = false) : segmentStartEff s b i = s := by
  unfold nextToStart at h
  simp [segmentStartEff, h, hw]

theorem segmentStartEff_starts {k : Nat} (h : nextToStart s b i = some k) (hdev : s.cont.dev = false)
    (hup : domUp (refreshDom s (4 + b)) (4 + b) = true) (hw : windowFits s b i k = true) : segmentStartEff s b i = startSlot s k := by
  unfold nextToStart at h
  simp [segmentStartEff, h, hdev, hup, hw]

end

/-! ## Answers (R232, R241) -/

section
variable {s : State} {k : Nat} (res : HostEnd)

theorem segReadDataEff_ignored (h : (s.slot k).busy = false ∨ (s.slot k).started = false) : segReadDataEff s k res = s := by
  unfold segReadDataEff
  exact if_pos (h.imp (fun h => by simp [h]) fun h => by simp [h])

variable (hb : (s.slot k).busy = true) (hs : (s.slot k).started = true)
include hb hs

theorem segReadDataEff_host (hr : isRmwSlot s k = false) {a e : Nat} (hsrc : (s.slot k).src = .host a e) :
    segReadDataEff s k res = segHostData s k res := by
  simp [segReadDataEff, hb, hs, hr, hsrc]

theorem segReadDataEff_rack (hr : isRmwSlot s k = false) {t a sp w en cl pf rg : Nat} (hsrc : (s.slot k).src = .rack t a sp w en cl pf rg) :
    segReadDataEff s k res = segRackData s k := by
  simp [segReadDataEff, hb, hs, hr, hsrc]

theorem segReadDataEff_rmw (hr : isRmwSlot s k = true) (hz : (s.slot k).frozen = false) : segReadDataEff s k res = segRmwData s k := by
  simp [segReadDataEff, hb, hs, hr, hz]

end

/-! ## Reported done (R242) -/

theorem modDesc_q_other (s : State) (q u : Nat) (f : Desc → Desc) {r : Nat} (h : r ≠ q) : (modDesc s q u f).q r = s.q r :=
  (State.modQ_q ..).trans (if_neg h)

@[simp] theorem mirrorNote_qs (s : State) (t : Nat) (r : MirrorRec) : (mirrorNote s t r).qs = s.qs := by
  unfold mirrorNote
  split <;> rfl

@[simp] theorem mirrorNote_regs (s : State) (t : Nat) (r : MirrorRec) : (mirrorNote s t r).regs = s.regs := by
  unfold mirrorNote
  split <;> rfl

theorem addReg64_reg_other (s : State) {k j : Nat} (n : Nat) (hlow : j ≠ k) (hhigh : j ≠ k + 4) : (addReg64 s k n).reg j = s.reg j := by
  simp [addReg64, State.setReg_reg, hlow, hhigh]

/-- A segment that has run, counted by its pan and mirrored (R242, R262, R484). -/
def segCounted (s : State) (k : Nat) : State :=
  let p := servingPan s k
  mirrorNote (addReg64 (s.incReg (panReg p 4)) (panReg p 8) (s.slot k).wr) (s.slot k).tenant
    (.segDone (s.slot k).queue (slotIndex (addReg64 (s.incReg (panReg p 4)) (panReg p 8) (s.slot k).wr) k) (s.slot k).off)

theorem segCounted_qs (s : State) (k : Nat) : (segCounted s k).qs = s.qs := mirrorNote_qs ..

theorem segCounted_reg (s : State) (k : Nat) :
    (segCounted s k).reg (panReg (servingPan s k) 4) = s.reg (panReg (servingPan s k) 4) + 1 := by
  have hregs : (segCounted s k).regs = (addReg64 (s.incReg (panReg (servingPan s k) 4)) (panReg (servingPan s k) 8) (s.slot k).wr).regs :=
    mirrorNote_regs ..
  have hlow : panReg (servingPan s k) 4 ≠ panReg (servingPan s k) 8 := by unfold panReg; omega
  have hhigh : panReg (servingPan s k) 4 ≠ panReg (servingPan s k) 8 + 4 := by unfold panReg; omega
  calc (segCounted s k).reg (panReg (servingPan s k) 4)
      = (addReg64 (s.incReg (panReg (servingPan s k) 4)) (panReg (servingPan s k) 8) (s.slot k).wr).reg (panReg (servingPan s k) 4) := by
        unfold State.reg
        rw [hregs]
    _ = (s.incReg (panReg (servingPan s k) 4)).reg (panReg (servingPan s k) 4) := addReg64_reg_other _ _ hlow hhigh
    _ = s.reg (panReg (servingPan s k) 4) + 1 := (State.incReg_reg ..).trans (if_pos rfl)

/-- A segment that has run and leaves its slot. -/
def segLeft (s : State) (k : Nat) : State := emptySlot (segClose (segCounted s k) k) k

theorem segDoneEff_running {s : State} {k : Nat} (h : segFinished ((slotFlush s k).slot k) = false) : segDoneEff s k = slotFlush s k := by
  simp [segDoneEff, h]

/-- A segment that has finished without a failure: its slot is left, and the half entry written if that makes it due (R283). -/
theorem segDoneEff_ran {s : State} {k : Nat} (h : segFinished ((slotFlush s k).slot k) = true) (hf : ((slotFlush s k).slot k).fail = none) :
    segDoneEff s k = halfNow (segLeft (slotFlush s k) k) ((slotFlush s k).slot k).queue := by
  unfold segDoneEff
  simp only [h, hf]
  rfl

theorem segLeft_slot (s : State) (k j : Nat) : (segLeft s k).slot j = if j = k then slotInit k else s.slot j := by
  have hslot : (segClose (segCounted s k) k).slot j = s.slot j := slot_of_qs (segCounted_qs s k) j
  rw [segLeft, emptySlot_slot, hslot]

theorem segLeft_q_other (s : State) (k : Nat) {r : Nat} (h : r ≠ (s.slot k).queue) : (segLeft s k).q r = s.q r := by
  have hslot : (segCounted s k).slot k = s.slot k := slot_of_qs (segCounted_qs s k) k
  rw [segLeft, emptySlot_q, segClose, hslot, modDesc_q_other _ _ _ _ h, q_of_qs (segCounted_qs s k)]

theorem segLeft_reg (s : State) (k : Nat) : (segLeft s k).reg (panReg (servingPan s k) 4) = s.reg (panReg (servingPan s k) 4) + 1 :=
  (emptySlot_reg _ k (panReg_high ..)).trans (segCounted_reg s k)

/-! ## Cancelled (R251) -/

/-- The segment that a position would drop: the oldest cancelled one that is not on its way to another bed. -/
def nextToCancel (s : State) (b i : Nat) : Option Nat :=
  oldestOf s ((posBusy s b i).filter fun k => (s.slot k).cancelled && (s.slot k).moving.isNone)

/-- A cancelled segment dropped. -/
def segDropped (s : State) (k : Nat) : State :=
  emptySlot (modDesc s (s.slot k).queue (s.slot k).uid fun d => { d with inPans := dropFirst (fun g => decide (g.1 = (s.slot k).off)) d.inPans }) k

theorem segCancelEff_none {s : State} {b i : Nat} (h : nextToCancel s b i = none) : segCancelEff s b i = s := by
  unfold nextToCancel at h
  simp [segCancelEff, h]

theorem segCancelEff_drops {s : State} {b i k : Nat} (h : nextToCancel s b i = some k) : segCancelEff s b i = segDropped s k := by
  unfold nextToCancel at h
  simp [segCancelEff, h, segDropped]

theorem segDropped_slot (s : State) (k j : Nat) : (segDropped s k).slot j = if j = k then slotInit k else s.slot j := emptySlot_slot ..

theorem segDropped_q_other (s : State) (k : Nat) {r : Nat} (h : r ≠ (s.slot k).queue) : (segDropped s k).q r = s.q r := by
  rw [segDropped, emptySlot_q, modDesc_q_other _ _ _ _ h]

/-! ## The events -/

/-- Settles O29: starts and answers are the branches of their rows, and a slot is left by `segLeft` when its segment is done, by `segDropped` when it is cancelled. -/
theorem segmentsRunAndAreReported : Obligations.SegmentsRunAndAreReported := by
  unfold Obligations.SegmentsRunAndAreReported
  refine ⟨?start, ?data, ?done, ?cancel⟩
  case start =>
    intro s b pos
    refine ⟨fun h => congrArg Host.Outcome.next (segmentStartEff_down h), fun h => congrArg Host.Outcome.next (segmentStartEff_none h),
      fun k h hw => congrArg Host.Outcome.next (segmentStartEff_tooLong h hw), fun k h hdev hup hw => ?_⟩
    exact congrArg Host.Outcome.next (segmentStartEff_starts h hdev hup hw)
  case data =>
    intro s b pos slot res
    refine ⟨fun h => congrArg Host.Outcome.next (segReadDataEff_ignored _ h), fun hb hs hr => ⟨fun a e hsrc => ?_, ?_⟩, fun hb hs hz hr => ?_⟩
    · exact congrArg Host.Outcome.next (segReadDataEff_host _ hb hs hr hsrc)
    · exact fun t a sp w en cl pf rg hsrc => congrArg Host.Outcome.next (segReadDataEff_rack _ hb hs hr hsrc)
    · exact congrArg Host.Outcome.next (segReadDataEff_rmw _ hb hs hr hz)
  case done =>
    intro s b pos slot
    refine ⟨fun h => congrArg Host.Outcome.next (segDoneEff_running h), fun h hf => ?_⟩
    refine ⟨_, congrArg Host.Outcome.next (segDoneEff_ran h hf), ?_, fun j hj => ?_, segLeft_reg .., fun r hr => segLeft_q_other _ _ hr⟩
    · exact (segLeft_slot ..).trans (if_pos rfl)
    · exact (segLeft_slot ..).trans (if_neg hj)
  case cancel =>
    intro s b pos
    refine ⟨fun h => congrArg Host.Outcome.next (segCancelEff_none h), fun k h => ?_⟩
    refine ⟨_, congrArg Host.Outcome.next (segCancelEff_drops h), ?_, fun j hj => ?_, fun r hr => segDropped_q_other s k hr⟩
    · exact (segDropped_slot ..).trans (if_pos rfl)
    · exact (segDropped_slot ..).trans (if_neg hj)

end Sys2Proof.Machine
end

section
/-! Raking (R247-R250): advertisements, a rake within a bed, a request across beds and the arrival of what it took. -/

namespace Sys2Proof.Machine

/-! ## Advertisements (R249) -/

/-- One bed advertises its count. -/
def advertise (s : State) (b : Nat) : State := s.modBed b fun x => { x with advertised := bedRakable s b }

theorem bedRakable_advertise (s : State) (b j : Nat) : bedRakable (advertise s b) j = bedRakable s j := rfl

theorem advertise_bed (s : State) (b j : Nat) :
    (advertise s b).bed j = if j = b then { s.bed b with advertised := bedRakable s b } else s.bed j :=
  State.modBed_bed ..

/-- Advertising changes no count that is advertised, so the order of the beds is nothing. -/
theorem foldl_advertise_bed (l : List Nat) (s : State) (j : Nat) :
    (l.foldl advertise s).bed j = if j ∈ l then { s.bed j with advertised := bedRakable s j } else s.bed j := by
  induction l generalizing s with
  | nil => simp
  | cons b r ih =>
    rw [List.foldl_cons, ih, bedRakable_advertise, advertise_bed]
    by_cases hj : j = b
    · subst hj
      simp
    · simp [hj]

theorem foldl_advertise_only (l : List Nat) (s : State) :
    l.foldl advertise s = { s with qs := { s.qs with beds := (l.foldl advertise s).qs.beds } } := by
  induction l generalizing s with
  | nil => rfl
  | cons b r ih =>
    rw [List.foldl_cons, ih]
    rfl

/-! ## A segment moves (R250) -/

theorem moveSlot_slot (s : State) (k k' x : Nat) :
    (moveSlot s k k').slot x
      = if x = k then slotInit k else if x = k' then { s.slot k with order := s.qs.orderNext, moving := none } else s.slot x := by
  show (emptySlot (raiseSlotVotes ((newUid s).2.setSlot k' { s.slot k with order := s.qs.orderNext, moving := none }) k') k).slot x = _
  rw [emptySlot_slot, raiseSlotVotes_slot, State.setSlot_slot]
  rfl

theorem moveSlot_reg (s : State) (k k' : Nat) {r : Nat} (hr : 0x180000 ≤ r) : (moveSlot s k k').reg r = s.reg r :=
  (emptySlot_reg _ k hr).trans ((raiseSlotVotes_votesOnly _ k').2 r hr)

/-! ## Within a bed (R247, R248) -/

/-- The segment of slot `k` raked into slot `k'` by its pan from the other, and not yet started. -/
def rakedWithin (s : State) (k k' : Nat) : State :=
  moveSlot ((s.incReg (panReg (servingPan s k') 0x10)).incReg (panReg (servingPan s k) 0x14)) k k'

section
variable {s : State} {b i : Nat}

theorem rakeWithinEff_idle (h : mayRake s b i = false) : rakeWithinEff s b i = s := by
  simp [rakeWithinEff, h]

theorem rakeWithinEff_noDonor (h : donorPos s b false = none) : rakeWithinEff s b i = s := by
  simp [rakeWithinEff, h]

theorem rakeWithinEff_rakes {j k k' : Nat} (hmay : mayRake s b i = true) (hdonor : donorPos s b false = some j)
    (hnew : newestOf s (posRakable s b j false) = some k) (hfree : freeSlotOf s b i = some k') (hw : windowFits s b i k = true) :
    rakeWithinEff s b i = if startable (rakedWithin s k k') k' then startSlot (rakedWithin s k k') k' else rakedWithin s k k' := by
  have hgo : ¬(!mayRake s b i) = true := by simp [hmay]
  unfold rakeWithinEff
  rw [if_neg hgo, hdonor]
  dsimp only
  rw [hnew, hfree]
  dsimp only
  rw [if_pos hw]
  rfl

end

theorem rakedWithin_slot (s : State) (k k' x : Nat) :
    (rakedWithin s k k').slot x
      = if x = k then slotInit k else if x = k' then { s.slot k with order := s.qs.orderNext, moving := none } else s.slot x :=
  moveSlot_slot ..

/-- The two pans' counters (R262), where they are two registers. -/
theorem rakedWithin_reg (s : State) {k k' : Nat} (hne : panReg (servingPan s k') 0x10 ≠ panReg (servingPan s k) 0x14) :
    (rakedWithin s k k').reg (panReg (servingPan s k') 0x10) = s.reg (panReg (servingPan s k') 0x10) + 1
      ∧ (rakedWithin s k k').reg (panReg (servingPan s k) 0x14) = s.reg (panReg (servingPan s k) 0x14) + 1 := by
  unfold rakedWithin
  rw [moveSlot_reg _ _ _ (panReg_high ..), moveSlot_reg _ _ _ (panReg_high ..)]
  simp [State.incReg_reg, hne, hne.symm]

/-! ## Across beds (R249) -/

/-- The segments that a position asks a victim bed for at once: RAKE's batch, its free slots and its read window, and half of what the victim advertises (log entry 81). -/
def rakeBatch (s : State) (b i v : Nat) : Nat :=
  min (min (clampTo 1 8 (bits (rakeCtl s) 11 8)) (posFree s b i)) (min (max 1 ((16384 - windowUsed s b i) / 4096)) (((s.bed v).advertised + 1) / 2))

section
variable {s : State} {b i : Nat}

theorem rakeAcrossEff_idle (h : mayRake s b i = false) : rakeAcrossEff s b i = s := by
  simp [rakeAcrossEff, h]

theorem rakeAcrossEff_noVictim (hv : victimBed s b = none) : rakeAcrossEff s b i = s := by
  simp [rakeAcrossEff, hv]

variable (hmay : mayRake s b i = true) (hdonor : donorPos s b false = none) (hctl : bit (rakeCtl s) 16 = true) (hbed : bit (bedCtl s b) 1 = true)
  (hnone : (s.qs.xrakes.any fun r => decide (r.1 = 16 * b + i)) = false)
include hmay hdonor hctl hbed hnone

/-- A position that may ask a victim: what it asked for and got nothing of is counted. -/
theorem rakeAcrossEff_asks {v : Nat} (hv : victimBed s b = some v) {l : List Nat} {t : State}
    (htake : (if domUp s (4 + v) then takeAcross s v (16 * b + i) (rakeBatch s b i v) else ([], s)) = (l, t)) :
    rakeAcrossEff s b i = if l = [] then t.incReg 0x188014 else t.modQs fun q => { q with xrakes := q.xrakes ++ [(16 * b + i, l)] } := by
  have hgo : ¬(!mayRake s b i || (donorPos s b false).isSome || !bit (rakeCtl s) 16 || !bit (bedCtl s b) 1
      || s.qs.xrakes.any (fun r => decide (r.1 = 16 * b + i))) = true := by
    rw [hmay, hdonor, hctl, hbed, hnone]
    decide
  unfold rakeBatch at htake
  unfold rakeAcrossEff
  rw [if_neg hgo, hv]
  dsimp only
  rw [htake]

end

/-! ## Arrivals (R249, R250) -/

/-- The outstanding request of a position ended. -/
def rakeEnded (s : State) (b i : Nat) : State :=
  s.modQs fun q => { q with xrakes := dropFirst (fun r => decide (r.1 = 16 * b + i)) q.xrakes }

/-- The segment of slot `k` come to slot `k'` of bed `b`, counted by both pans and both beds, and not yet started. -/
def rakedAcross (s : State) (b k k' : Nat) : State :=
  moveSlot ((((s.addReg (panReg (servingPan s k') 0x10) 0x10000).incReg (panReg (servingPan s k) 0x14)).incReg (0x18400C + 0x100 * b)).incReg
    (0x184010 + 0x100 * slotBed k)) k k'

theorem rakedAcross_slot (s : State) (b k k' x : Nat) :
    (rakedAcross s b k k').slot x
      = if x = k then slotInit k else if x = k' then { s.slot k with order := s.qs.orderNext, moving := none } else s.slot x := by
  rw [rakedAcross, moveSlot_slot]
  simp only [State.incReg_frame, State.addReg_frame]

section
variable {s : State} {b i k : Nat}

theorem xrakeArriveEff_none (h : (s.qs.xrakes.find? fun r => decide (r.1 = 16 * b + i)) = none) : xrakeArriveEff s b i = s := by
  simp [xrakeArriveEff, h]

theorem xrakeArriveEff_one {d : Nat} (h : (s.qs.xrakes.find? fun r => decide (r.1 = 16 * b + i)) = some (d, [k])) :
    xrakeArriveEff s b i = xrakeArrive (rakeEnded s b i) b i k := by
  simp [xrakeArriveEff, h, rakeEnded]

variable (hm : (s.slot k).moving = some (16 * b + i))
include hm

theorem xrakeArrive_stays (hfree : freeSlotOf s b i = none) : xrakeArrive s b i k = s.modSlot k fun x => { x with moving := none } := by
  simp [xrakeArrive, hm, hfree]

theorem xrakeArrive_moves {k' : Nat} (hfree : freeSlotOf s b i = some k') :
    xrakeArrive s b i k = if startable (rakedAcross s b k k') k' ∧ !(rakedAcross s b k k').cont.dev ∧ domUp (rakedAcross s b k k') (4 + b)
        ∧ windowFits (rakedAcross s b k k') b i k' then startSlot (rakedAcross s b k k') k' else rakedAcross s b k k' := by
  unfold xrakeArrive
  rw [if_neg (not_not_intro hm), hfree]
  rfl

end

/-! ## The events -/

/-- Settles O30: advertising is `foldl_advertise_bed`; a segment raked is `rakedWithin` or `rakedAcross`, both a move of its record (`moveSlot_slot`); a request across beds is `rakeAcrossEff_asks` (the batch's window term is log entry 81). -/
theorem pansRakeWork : Obligations.PansRakeWork := by
  unfold Obligations.PansRakeWork
  refine ⟨?advertise, ?within, ?across, ?arrive⟩
  case advertise =>
    intro s
    have honly := foldl_advertise_only (List.range 8) s
    refine ⟨(List.range 8).foldl advertise s, rfl, fun b hb => ?_, fun b hb => ?_, ?_, ?_, ?_, ?_⟩
    · rw [foldl_advertise_bed, if_pos (List.mem_range.2 hb)]
    · rw [foldl_advertise_bed, if_neg (by simpa using hb)]
    all_goals rw [honly]
  case within =>
    intro s b pos
    refine ⟨fun h => ⟨congrArg Host.Outcome.next (rakeWithinEff_idle h), congrArg Host.Outcome.next (rakeAcrossEff_idle h)⟩,
      fun h => congrArg Host.Outcome.next (rakeWithinEff_noDonor h), fun j k k' hmay hdonor hnew hfree hw hne => ?_⟩
    refine ⟨rakedWithin s k k', congrArg Host.Outcome.next (rakeWithinEff_rakes hmay hdonor hnew hfree hw), ?_, ?_, fun x hx hx' => ?_,
      fun hregs => rakedWithin_reg s hregs⟩
    · rw [rakedWithin_slot, if_pos rfl]
    · rw [rakedWithin_slot, if_neg hne.symm, if_pos rfl]
    · rw [rakedWithin_slot, if_neg hx, if_neg hx']
  case across =>
    intro s b pos hmay hdonor hctl hbed hnone
    refine ⟨fun hv => congrArg Host.Outcome.next (rakeAcrossEff_noVictim hv), fun v hv hdown => ?_,
      fun v l t hv hup htake => ?_⟩
    · have hnothing : (if domUp s (4 + v) then takeAcross s v (16 * b.val + pos.val) (rakeBatch s b.val pos.val v) else ([], s)) = ([], s) := by
        rw [hdown]
        rfl
      exact congrArg Host.Outcome.next (rakeAcrossEff_asks hmay hdonor hctl hbed hnone hv hnothing)
    · exact congrArg Host.Outcome.next (rakeAcrossEff_asks hmay hdonor hctl hbed hnone hv ((if_pos hup).trans htake))
  case arrive =>
    intro s b pos
    refine ⟨fun h => congrArg Host.Outcome.next (xrakeArriveEff_none h), fun d k hmine hm => ⟨fun hfree => ?_, fun k' hfree hne => ?_⟩⟩
    · have hstays := xrakeArrive_stays (s := rakeEnded s b.val pos.val) hm hfree
      refine ⟨_, congrArg Host.Outcome.next ((xrakeArriveEff_one hmine).trans hstays), State.modSlot_slot_same .., fun j hj => ?_⟩
      exact (State.modSlot_slot ..).trans (if_neg hj)
    · have hmoves := xrakeArrive_moves (s := rakeEnded s b.val pos.val) hm hfree
      refine ⟨rakedAcross (rakeEnded s b.val pos.val) b.val k k', congrArg Host.Outcome.next ((xrakeArriveEff_one hmine).trans hmoves), ?_, ?_,
        fun x hx hx' => ?_⟩
      · rw [rakedAcross_slot, if_pos rfl]
      · rw [rakedAcross_slot, if_neg hne.symm, if_pos rfl]
        rfl
      · rw [rakedAcross_slot, if_neg hx, if_neg hx']
        rfl

end Sys2Proof.Machine
end

section
/-! Pans that retire and beds that are lost (R257-R261): the handover to a spare, the closing of a position, the spare's self-test, and what the loss of a bed leaves of its mark. -/

namespace Sys2Proof.Machine

/-! ## What reads, tickets and messages leave of the front end

Ending a segment's read or its ticket changes no queue, slot, pan or bed. -/

@[simp] theorem qs_ite (c : Prop) [Decidable c] (a b : State) : (if c then a else b).qs = if c then a.qs else b.qs := apply_ite State.qs c a b

@[simp] theorem foldl_qs {α : Type} (f : State → α → State) (l : List α) (s : State) (h : ∀ u x, (f u x).qs = u.qs) : (l.foldl f s).qs = s.qs :=
  foldl_keeps State.qs f l s h

@[simp] theorem sendMsix_qs (s : State) (fn e : Nat) : (sendMsix s fn e).qs = s.qs := by rw [sendMsix_ep_out]

@[simp] theorem dropVote_qs (s : State) (d client : Nat) : (dropVote s d client).qs = s.qs := (dropVote_votesOnly s d client).qs

@[simp] theorem modRead_qs (s : State) (u : Nat) (f : HeldRead → HeldRead) : (modRead s u f).qs = s.qs := rfl

@[simp] theorem delRead_qs (s : State) (u : Nat) : (delRead s u).qs = s.qs := rfl

@[simp] theorem noteTag_qs (s : State) (l : LiqLine) (here : Bool) : (noteTag s l here).qs = s.qs := mirrorNote_qs ..

@[simp] theorem dlogFate_qs (s : State) (t target space line fate : Nat) : (dlogFate s t target space line fate).qs = s.qs := by
  unfold dlogFate
  dsimp only
  split <;> rfl

@[simp] theorem dlogAdd_qs (s : State) (e : DlogEntry) : (dlogAdd s e).qs = s.qs := by
  unfold dlogAdd
  dsimp only
  split <;> rfl

@[simp] theorem liqRemove_qs (s : State) (p : LiqLine → Bool) (q : LiqLine → LiqByte → Bool) (fate cnt : Nat) :
    (liqRemove s p q fate cnt).qs = s.qs := by
  simp [liqRemove]

@[simp] theorem liqConsume_qs (s : State) (t target space : Nat) (addrs : List Nat) : (liqConsume s t target space addrs).qs = s.qs :=
  liqRemove_qs ..

@[simp] theorem liqRetainLine_qs (s : State) (t target space line pool reason cls : Nat) (bs : List (Nat × Byte)) :
    (liqRetainLine s t target space line pool reason cls bs).qs = s.qs := by
  simp [liqRetainLine]

@[simp] theorem liqRetain_qs (s : State) (t target space pool reason cls : Nat) (stale : List (Nat × Nat)) (bs : List (Nat × Byte)) :
    (liqRetain s t target space pool reason cls stale bs).qs = s.qs := by
  simp [liqRetain]

@[simp] theorem liqRestore_qs (s : State) (r : HeldRead) (lo : Nat) : (liqRestore s r lo).qs = s.qs := by
  simp [liqRestore]

@[simp] theorem serveWaiters_qs (s : State) (r : HeldRead) (cs addr : Nat) : (serveWaiters s r cs addr).qs = s.qs := by
  simp [serveWaiters, serveWaiter]

@[simp] theorem ltRetain_qs (s : State) (r : HeldRead) (e : AccEnd) (base : Nat) : (ltRetain s r e base).qs = s.qs := by
  simp [ltRetain]

@[simp] theorem dropAccVote_qs (s : State) (a : Acc) : (dropAccVote s a).qs = s.qs := by
  unfold dropAccVote
  split
  · simp [dropTemp, checkIdle]
  · rfl

@[simp] theorem pullAccs_qs (s : State) (p : Acc → Bool) : (pullAccs s p).2.qs = s.qs := by
  simp [pullAccs]

@[simp] theorem dropRead_qs (s : State) (r : HeldRead) (why : Nat) : (dropRead s r why).qs = s.qs := by
  unfold dropRead
  dsimp only
  split
  · simp
  · split <;> simp

@[simp] theorem raiseOpt_qs (s : State) (ev : Option Ev) : (raiseOpt s ev).qs = s.qs := by
  cases ev with
  | none => rfl
  | some e => exact raise_qs s e

@[simp] theorem latchFailure_qs (s : State) (t : Nat) (k : Kept) : (latchFailure s t k).qs = s.qs := by
  simp [latchFailure]

@[simp] theorem settle_qs (s : State) (t ticket cs addr : Nat) (ev : Option Ev) : (settle s t ticket cs addr ev).qs = s.qs := by
  unfold settle
  split
  · rfl
  · simp [keepFailure]

/-- A segment that gives up what it waits for, its ticket settled with a CS. -/
theorem quitSlot_qs (s : State) (k cs : Nat) : (quitSlot s k (some cs)).qs = s.qs := by
  unfold quitSlot
  simp only [qs_ite, settle_qs, State.modTwin_frame, State.modTally_frame, pullAccs_qs, ite_self]
  split <;> simp [dropTags]

/-! ## Pans and beds -/

/-- The pans and the beds. The rules for single updates are proved by the tactic `rfl`, so that `simp` rewrites with them. -/
def State.bedPart (s : State) : Tbl Pan × Tbl Bed := (s.qs.pans, s.qs.beds)

theorem pan_of_bedPart {s t : State} (h : t.bedPart = s.bedPart) (p : Nat) : t.pan p = s.pan p :=
  congrArg (fun x : Tbl Pan × Tbl Bed => Tbl.get panInit x.1 p) h
theorem bed_of_bedPart {s t : State} (h : t.bedPart = s.bedPart) (b : Nat) : t.bed b = s.bed b :=
  congrArg (fun x : Tbl Pan × Tbl Bed => Tbl.get bedInit x.2 b) h

theorem bedPart_of_qs {s t : State} (h : t.qs = s.qs) : t.bedPart = s.bedPart := by
  unfold State.bedPart
  rw [h]

@[simp] theorem State.modQ_bedPart (s : State) (k : Nat) (f : QCtx → QCtx) : (s.modQ k f).bedPart = s.bedPart := by rfl
@[simp] theorem State.modSlot_bedPart (s : State) (k : Nat) (f : Slot → Slot) : (s.modSlot k f).bedPart = s.bedPart := by rfl
@[simp] theorem State.setSlot_bedPart (s : State) (k : Nat) (v : Slot) : (s.setSlot k v).bedPart = s.bedPart := by rfl
@[simp] theorem raise_bedPart (s : State) (e : Ev) : (s.raise e).bedPart = s.bedPart := bedPart_of_qs (raise_qs s e)
@[simp] theorem modDesc_bedPart (s : State) (q u : Nat) (f : Desc → Desc) : (modDesc s q u f).bedPart = s.bedPart := by rfl
@[simp] theorem emptySlot_bedPart (s : State) (k : Nat) : (emptySlot s k).bedPart = s.bedPart :=
  (State.setSlot_bedPart ..).trans (bedPart_of_qs (dropSlotVotes_qs s k))
@[simp] theorem quitSlot_bedPart (s : State) (k cs : Nat) : (quitSlot s k (some cs)).bedPart = s.bedPart := bedPart_of_qs (quitSlot_qs s k cs)

@[simp] theorem bedPart_ite (c : Prop) [Decidable c] (a b : State) : (if c then a else b).bedPart = if c then a.bedPart else b.bedPart :=
  apply_ite State.bedPart c a b

@[simp] theorem foldl_bedPart {α : Type} (f : State → α → State) (l : List α) (s : State) (h : ∀ u x, (f u x).bedPart = u.bedPart) :
    (l.foldl f s).bedPart = s.bedPart :=
  foldl_keeps State.bedPart f l s h

/-! ## The spare and the foster are read from the pans, the beds and the slots -/

theorem bedSpare_of_qs {s t : State} (h : t.qs = s.qs) (b : Nat) : bedSpare t b = bedSpare s b := by
  unfold bedSpare panGood State.pan
  rw [h]

theorem fosterPos_of_qs {s t : State} (h : t.qs = s.qs) (b i : Nat) : fosterPos t b i = fosterPos s b i := by
  unfold fosterPos posClosed posPan panGood posBusy busySlots State.pan State.bed
  rw [h]

/-! ## Retirement (R257, R258, R260) -/

@[simp] theorem spareRec_qs (s : State) (code srcId kind action index meas bound reason : Nat) :
    (spareRec s code srcId kind action index meas bound reason).qs = s.qs :=
  raise_qs ..

@[simp] theorem decided_qs (s : State) (kind index action : Nat) : (decided s kind index action).qs = s.qs := by
  simp [decided]

@[simp] theorem spareUsed_qs (s : State) : (spareUsed s).qs = s.qs := by
  simp [spareUsed]

@[simp] theorem retireRecs_qs (s : State) (p action meas bound : Nat) (spare : Option Nat) :
    (retireRecs s p action meas bound spare).qs = s.qs := by
  cases spare <;> simp [retireRecs]

@[simp] theorem moveVotes_qs (s : State) (olds : List (Nat × Nat)) (b i : Nat) : (moveVotes s olds b i).qs = s.qs := by
  simp [moveVotes]

@[simp] theorem noteHold_qs (s : State) (b : Nat) (ps : List Nat) : (noteHold s b ps).qs = s.qs := by
  simp [noteHold]

theorem mapPan_pan (s : State) (p st pos q : Nat) : (mapPan s p st pos).pan q = if q = p then { st := st, pos := pos } else s.pan q :=
  State.setPan_pan ..

/-- The state that a retirement counts and records before it looks for a spare. -/
def retiring (s : State) (p action : Nat) : State :=
  if action = 0 then spareRec (s.incReg (panReg p 0x18)) Ev.panFault (srcPan p) 1 0 p 0 0 0 else s

theorem retiring_qs (s : State) (p action : Nat) : (retiring s p action).qs = s.qs := by
  simp [retiring]

theorem retiring_pan (s : State) (p action q : Nat) : (retiring s p action).pan q = s.pan q :=
  pan_of_bedPart (bedPart_of_qs (retiring_qs s p action)) q

theorem retirePan_spare {s : State} {p sp : Nat} (h : bedSpare s (p / 17) = some sp) (action m b : Nat) :
    retirePan s p action m b = retireRecs (toSpare (retiring s p action) p sp) p action m b (some sp) := by
  have hs : bedSpare (retiring s p action) (p / 17) = some sp := (bedSpare_of_qs (retiring_qs s p action) _).trans h
  unfold retiring at hs ⊢
  simp only [retirePan, hs]

theorem retirePan_noSpare {s : State} {p : Nat} (h : bedSpare s (p / 17) = none) (action m b : Nat) :
    retirePan s p action m b = retireRecs (toFoster (retiring s p action) p) p action m b none := by
  have hs : bedSpare (retiring s p action) (p / 17) = none := (bedSpare_of_qs (retiring_qs s p action) _).trans h
  unfold retiring at hs ⊢
  simp only [retirePan, hs]

/-- A handover leaves of the front end what its two entries in the spare map make of it. -/
theorem toSpare_qs (s : State) (p sp : Nat) : (toSpare s p sp).qs = (mapPan (mapPan s p 4 31) sp 0 (s.pan p).pos).qs := by
  simp [toSpare]

theorem toSpare_pan (s : State) (p sp q : Nat) :
    (toSpare s p sp).pan q = if q = sp then { st := 0, pos := (s.pan p).pos } else if q = p then { st := 4, pos := 31 } else s.pan q := by
  rw [pan_of_bedPart (bedPart_of_qs (toSpare_qs s p sp)), mapPan_pan, mapPan_pan]

/-- A bed that gives position `i` up to the foster `f`, which takes over what `i` itself fostered (R260). -/
def closePos (i f : Nat) (x : Bed) : Bed := { x with closed := (x.closed.map fun c => if c.2 = i then (c.1, f) else c) ++ [(i, f)] }

theorem toFoster_bedPart (s : State) (p : Nat) :
    (toFoster s p).bedPart
      = ((mapPan s p 4 31).modBed (p / 17) (closePos (s.pan p).pos ((fosterPos s (p / 17) (s.pan p).pos).getD 31))).bedPart := by
  unfold toFoster
  refine (bedPart_of_qs (noteHold_qs ..)).trans ?_
  refine (bedPart_of_qs (s := List.foldl _ _ _) rfl).trans ?_
  refine (foldl_bedPart _ _ _ fun u x => ?_).trans rfl
  split
  · exact State.modQ_bedPart ..
  · rfl

theorem toFoster_pan (s : State) (p q : Nat) : (toFoster s p).pan q = if q = p then { st := 4, pos := 31 } else s.pan q :=
  (pan_of_bedPart (toFoster_bedPart s p) q).trans (mapPan_pan s p 4 31 q)

theorem toFoster_closes (s : State) (p : Nat) :
    ((s.pan p).pos, (fosterPos s (p / 17) (s.pan p).pos).getD 31) ∈ ((toFoster s p).bed (p / 17)).closed := by
  rw [bed_of_bedPart (toFoster_bedPart s p), State.modBed_bed_same]
  exact List.mem_append_right _ List.mem_cons_self

theorem retirePan_pan_spare {s : State} {p sp : Nat} (h : bedSpare s (p / 17) = some sp) (action m b q : Nat) :
    (retirePan s p action m b).pan q
      = if q = sp then { st := 0, pos := (s.pan p).pos } else if q = p then { st := 4, pos := 31 } else s.pan q := by
  rw [retirePan_spare h, pan_of_bedPart (bedPart_of_qs (retireRecs_qs ..)), toSpare_pan, retiring_pan, retiring_pan]

theorem retirePan_pan_noSpare {s : State} {p : Nat} (h : bedSpare s (p / 17) = none) (action m b q : Nat) :
    (retirePan s p action m b).pan q = if q = p then { st := 4, pos := 31 } else s.pan q := by
  rw [retirePan_noSpare h, pan_of_bedPart (bedPart_of_qs (retireRecs_qs ..)), toFoster_pan, retiring_pan]

theorem retirePan_closes {s : State} {p : Nat} (h : bedSpare s (p / 17) = none) (action m b : Nat) :
    ((s.pan p).pos, (fosterPos s (p / 17) (s.pan p).pos).getD 31) ∈ ((retirePan s p action m b).bed (p / 17)).closed := by
  have hcloses := toFoster_closes (retiring s p action) p
  rw [retiring_pan, fosterPos_of_qs (retiring_qs s p action)] at hcloses
  rw [retirePan_noSpare h, bed_of_bedPart (bedPart_of_qs (retireRecs_qs ..))]
  exact hcloses

/-! ## Faults of a pan (R257) -/

theorem execPanFault_serving {s : State} {p : Fin 136} (h : panServes s p.val = true) : execPanFault p s = .next (retirePan s p.val 0 0 0) :=
  congrArg Host.Outcome.next (if_pos h)

theorem execPanFault_idle {s : State} {p : Fin 136} (h : panServes s p.val = false) : execPanFault p s = .next s :=
  congrArg Host.Outcome.next (if_neg (by simp [h]))

theorem execPanWatchdogExpire_idle {s : State} {p : Fin 136} (h : panServes s p.val = false) : execPanWatchdogExpire p s = .next s := by
  simp [execPanWatchdogExpire, h]

/-- A started segment that waits for nothing keeps the pan's watchdog from being cleared. -/
theorem execPanWatchdogExpire_stuck {s : State} {p : Fin 136} {k : Nat} (h : panServes s p.val = true)
    (hk : k ∈ posBusy s (p.val / 17) (s.pan p.val).pos) (hstart : (s.slot k).started = true) (hz : (s.slot k).frozen = false)
    (hsent : (s.slot k).sent = false) (hreq : (s.slot k).readReq = false) (hwait : (s.slot k).waitEntry = false)
    (hread : slotReadOf s k = none) (hrmw : isRmwSlot s k = false) : execPanWatchdogExpire p s = .next (retirePan s p.val 0 0 0) := by
  refine congrArg Host.Outcome.next (if_pos ⟨h, List.any_eq_true.2 ⟨k, hk, ?_⟩⟩)
  simp [hstart, hz, hsent, hreq, hwait, hread, hrmw]

/-! ## The spare's self-test (R259) -/

theorem selfTestEff_passes (s : State) (b : Nat) : selfTestEff s b true = s := by
  unfold selfTestEff
  split <;> rfl

theorem selfTestEff_noSpare {s : State} {b : Nat} (h : bedSpare s b = none) (pass : Bool) : selfTestEff s b pass = s := by
  simp [selfTestEff, h]

theorem selfTestEff_fails {s : State} {b sp : Nat} (h : bedSpare s b = some sp) :
    selfTestEff s b false = spareRec (mapPan s sp 5 31) Ev.panSpareFail (srcPan sp) 1 0 sp 0 0 0 := by
  simp [selfTestEff, h]

/-! ## The loss of a bed (R261) -/

@[simp] theorem unpush_bedPart (s : State) (k : Nat) : (unpush s k).bedPart = s.bedPart := by
  simp [unpush]

@[simp] theorem segFault_bedPart (s : State) (q u off cs addr residual : Nat) : (segFault s q u off cs addr residual).bedPart = s.bedPart := by
  unfold segFault
  split
  · rfl
  · simp [cancelDesc, queueFault]

@[simp] theorem loseStarted_bedPart (s : State) (k : Nat) : (loseStarted s k).bedPart = s.bedPart := by
  unfold loseStarted
  dsimp only
  split
  · simp [queueFaultRec, segClose]
  · simp [segClose]

@[simp] theorem dropRakes_bedPart (s : State) (b : Nat) : (dropRakes s b).bedPart = s.bedPart := by
  unfold dropRakes
  refine (foldl_bedPart _ _ _ fun u k => ?_).trans rfl
  split
  · exact State.modSlot_bedPart ..
  · rfl

@[simp] theorem rehome_bedPart (s : State) (q : Nat) : (rehome s q).bedPart = s.bedPart := by
  unfold rehome
  split
  · exact State.modQ_bedPart ..
  · rfl

/-- A bed that is lost advertises nothing. -/
def lostBed (x : Bed) : Bed := { x with lost := true, advertised := 0 }

theorem bedLost_bedPart (s : State) (b : Nat) : (bedLost s b).bedPart = ((retireDomain s (4 + b)).modBed b lostBed).bedPart := by
  unfold bedLost lostBed
  simp [spareRec]

theorem bedLost_bed (s : State) (b : Nat) : (bedLost s b).bed b = lostBed ((retireDomain s (4 + b)).bed b) := by
  rw [bed_of_bedPart (bedLost_bedPart s b), State.modBed_bed_same]

/-! ## The events -/

/-- Settles O31: a fault retires by `retirePan`, whose two ends are `retirePan_pan_spare` and `retirePan_closes`; a failed self-test is one entry of the spare map with its record, and a bed lost keeps its mark through `bedLost_bedPart`. -/
theorem pansRetireToTheirSpare : Obligations.PansRetireToTheirSpare := by
  unfold Obligations.PansRetireToTheirSpare
  refine ⟨?fault, ?watchdog, ?spare, ?noSpare, ?selfTest, ?lost⟩
  case fault => exact fun s p => ⟨fun h => ⟨execPanFault_idle h, execPanWatchdogExpire_idle h⟩, fun h => execPanFault_serving h⟩
  case watchdog =>
    exact fun s p k h hk hstart hz hsent hreq hwait hread hrmw => execPanWatchdogExpire_stuck h hk hstart hz hsent hreq hwait hread hrmw
  case spare =>
    intro s p sp action m b h hne
    refine ⟨?_, ?_, fun q hp hsp => ?_⟩
    · rw [retirePan_pan_spare h, if_neg hne.symm, if_pos rfl]
    · rw [retirePan_pan_spare h, if_pos rfl]
    · rw [retirePan_pan_spare h, if_neg hsp, if_neg hp]
  case noSpare =>
    intro s p action m b h
    refine ⟨?_, fun q hp => ?_, retirePan_closes h action m b⟩
    · rw [retirePan_pan_noSpare h, if_pos rfl]
    · rw [retirePan_pan_noSpare h, if_neg hp]
  case selfTest =>
    intro s b
    refine ⟨congrArg Host.Outcome.next (selfTestEff_passes s b.val), fun h => congrArg Host.Outcome.next (selfTestEff_noSpare h false),
      fun sp h hr => ?_⟩
    have hqs : (spareRec (mapPan s sp 5 31) Ev.panSpareFail (srcPan sp) 1 0 sp 0 0 0).qs = (mapPan s sp 5 31).qs := spareRec_qs ..
    have hpan := fun q => (pan_of_bedPart (bedPart_of_qs hqs) q).trans (mapPan_pan s sp 5 31 q)
    have hrec : Records (mapPan s sp 5 31) (spareRec (mapPan s sp 5 31) Ev.panSpareFail (srcPan sp) 1 0 sp 0 0 0)
        { code := Ev.panSpareFail, src := srcPan sp, data := spareData 1 0 sp 0 0 0 } := raise_records _ _ hr rfl (.inr rfl)
    refine ⟨_, congrArg Host.Outcome.next (selfTestEff_fails h), (hpan sp).trans (if_pos rfl), fun q hq => (hpan q).trans (if_neg hq), ?_⟩
    rw [hrec]
    rfl
  case lost =>
    intro s b
    refine ⟨fun hdown => congrArg Host.Outcome.next (if_neg (by simp [hdown])), fun hup => ?_⟩
    refine ⟨_, congrArg Host.Outcome.next (if_pos hup), rfl, ?_, ?_⟩ <;> rw [bedLost_bed] <;> rfl

end Sys2Proof.Machine
end

section
/-! The queue commands (R266-R268, R291): what QUEUE_CREATE makes of a context, and what QUEUE_RESET and QUEUE_DESTROY leave of an idle one. -/

namespace Sys2Proof.Machine

section
variable {s : State} {mb : Nat} {c : Cmd}

/-! ## QUEUE_CREATE (R266, R267) -/

theorem queueCreateEff_denied (hown : ownsObject mb (bits (wordAt c.payload 0) 14 8) = false) : queueCreateEff s mb c = reject s mb Rej.notOwner := by
  simp [queueCreateEff, hown]

variable (hown : ownsObject mb (bits (wordAt c.payload 0) 14 8) = true) (hfol : s.followed (bits (wordAt c.payload 0) 14 8) = false)
include hown hfol

theorem queueCreateEff_refused (hwhy : createRefusal s c.payload ≠ 0) : queueCreateEff s mb c = refuse s mb (createRefusal s c.payload) 0 := by
  simp [queueCreateEff, hown, hfol, hwhy]

theorem queueCreateEff_creates {q : Nat} (hlead : s.leads (bits (wordAt c.payload 0) 14 8) = false) (hwhy : createRefusal s c.payload = 0)
    (hq : freeQueue s = some q) : queueCreateEff s mb c = createNow s mb q c.payload := by
  simp [queueCreateEff, hown, hfol, hlead, hwhy, hq]

end

theorem newContext_bed {s : State} {p : List Byte} (h : bits (wordAt p 0) 7 4 < 8) : (newContext s p).bed = bits (wordAt p 0) 7 4 := if_pos h

theorem executing_creates {s : State} {mb : Nat} {c : Cmd} (hx : Executing s 0x0400 mb c) (q : Nat) (p : List Byte) :
    RanDone (s.setQ q (newContext s p)) (createNow s mb q p) mb c (leBytes 4 (q + ((s.setQ q (newContext s p)).q q).dbIdx * 65536)) := by
  rw [State.setQ_q_same]
  exact executing_done (u := s.setQ q (newContext s p)) hx rfl _

/-! ## QUEUE_RESET and QUEUE_DESTROY of an idle queue (R291) -/

/-- The context restarted by QUEUE_RESET's steps. -/
def restarted (s : State) (q : Nat) : State := (s.modQ q fun c => { c with st := .resetting }).modQ q resetCtx

/-- The context freed by QUEUE_DESTROY and its two counters cleared (R291). -/
def freed (s : State) (q : Nat) : State :=
  (((restarted s q).setQ q (qctxInit q)).setReg (0x100070 + 0x100 * q) 0).setReg (0x100074 + 0x100 * q) 0

theorem restarted_q (s : State) (q j : Nat) : (restarted s q).q j = if j = q then resetCtx (s.q q) else s.q j := modQ_modQ_q ..

theorem freed_q (s : State) (q j : Nat) : (freed s q).q j = if j = q then qctxInit q else s.q j := by
  have hset : (freed s q).q j = ((restarted s q).setQ q (qctxInit q)).q j := rfl
  rw [hset, State.setQ_q, restarted_q]
  split <;> rfl

theorem freed_her (s : State) (q : Nat) : (freed s q).her = s.her := by simp [freed, restarted]

theorem freed_only (s : State) (q : Nat) : freed s q = { s with qs := { s.qs with ctx := (freed s q).qs.ctx }, regs := (freed s q).regs } := by
  unfold freed restarted State.setReg State.modQ State.setQ
  rfl

theorem freed_reg (s : State) (q k : Nat) :
    (freed s q).reg k = if k = 0x100074 + 0x100 * q ∨ k = 0x100070 + 0x100 * q then 0 else s.reg k := by
  have hkept : ((restarted s q).setQ q (qctxInit q)).reg k = s.reg k := rfl
  unfold freed
  rw [State.setReg_reg, State.setReg_reg, hkept, ite_or]

section
variable {s : State} {mb q : Nat} {c : Cmd}

variable {destroy : Bool}

theorem resetNow_idle (hidle : queueBusy (s.q q) = false) :
    resetNow s mb q destroy = done (if destroy then freed s q else restarted s q) mb [] := by
  have hbusy : ¬queueBusy ((s.modQ q fun c => { c with st := .resetting }).q q) = true := by
    rw [State.modQ_q_same]
    exact Bool.eq_false_iff.mp hidle
  unfold resetNow
  dsimp only
  rw [if_neg hbusy]
  rfl

theorem exec_queueReset (hx : Executing s (if destroy then 0x0401 else 0x0402) mb c) :
    exec (if destroy then .queueDestroy else .queueReset) s = .next (queueResetEff destroy s mb c) := by
  cases destroy
  case false => exact runCmd_executing hx (queueResetEff false)
  case true => exact runCmd_executing hx (queueResetEff true)

variable (hst : (s.q (wordAt c.payload 0)).st ≠ .free)
include hst

theorem queueResetEff_denied (hown : ownsObject mb (s.q (wordAt c.payload 0)).tenant = false) :
    queueResetEff destroy s mb c = reject s mb Rej.notOwner := by
  simp [queueResetEff, hst, hown]

theorem queueResetEff_owned (hown : ownsObject mb (s.q (wordAt c.payload 0)).tenant = true)
    (hfol : s.followed (s.q (wordAt c.payload 0)).tenant = false) (hlead : s.leads (s.q (wordAt c.payload 0)).tenant = false) :
    queueResetEff destroy s mb c = resetNow s mb (wordAt c.payload 0) destroy := by
  simp [queueResetEff, hst, hown, hfol, hlead]

end

/-! ## QUEUE_GET (R268) -/

section
variable {s : State} {mb : Nat} {c : Cmd} (hx : Executing s 0x0403 mb c)
include hx

theorem execQueueGet_denied (hown : ownsObject mb (s.q (wordAt c.payload 0)).tenant = false) :
    execQueueGet s = .next (reject s mb Rej.notOwner) := by
  simp [execQueueGet, runCmd_executing hx, hown]

theorem execQueueGet_owned (hown : ownsObject mb (s.q (wordAt c.payload 0)).tenant = true) :
    execQueueGet s = .next (done s mb (bytesOfWords (qctxWords s (wordAt c.payload 0)))) := by
  simp [execQueueGet, runCmd_executing hx, hown]

end

/-! ## The commands -/

/-- Settles O25: QUEUE_CREATE is denied, refused or `createNow` with the fields of `newContext` (the lowest free context is log entry 84), an idle queue's QUEUE_RESET leaves `restarted`, its QUEUE_DESTROY `freed`, and QUEUE_GET answers its words. -/
theorem queueCommands : Obligations.QueueCommands := by
  unfold Obligations.QueueCommands
  refine ⟨?create, ?reset, ?get⟩
  case create =>
    intro s mb c hx
    have hrun : exec .queueCreate s = .next (queueCreateEff s mb c) := runCmd_executing hx queueCreateEff
    refine ⟨fun hown => ?denied, fun hown hfol hwhy => ?refused, fun q hown hfol hlead hwhy hq => ?creates⟩
    case denied => exact ⟨_, hrun.trans (congrArg _ (queueCreateEff_denied hown)), executing_rejects hx _⟩
    case refused => exact ⟨_, hrun.trans (congrArg _ (queueCreateEff_refused hown hfol hwhy)), executing_refuses hx rfl _ 0⟩
    case creates =>
      refine ⟨_, _, hrun.trans (congrArg _ (queueCreateEff_creates hown hfol hlead hwhy hq)), executing_creates hx q c.payload, ?_⟩
      rw [State.setQ_q_same]
      exact ⟨rfl, rfl, rfl, rfl, rfl, newContext_bed, rfl, rfl, rfl, rfl, rfl, rfl, rfl, rfl, rfl,
        fun r hr => (State.setQ_q ..).trans (if_neg hr), rfl⟩
  case reset =>
    intro s mb c destroy hx q hst hfol hlead hidle
    have hrun := exec_queueReset hx
    refine ⟨fun hown => ⟨_, hrun.trans (congrArg _ (queueResetEff_denied hst hown)), executing_rejects hx _⟩, fun hown => ?_⟩
    rw [queueResetEff_owned hst hown hfol hlead] at hrun
    cases destroy
    case false =>
      refine ⟨_, _, hrun.trans (congrArg _ (resetNow_idle hidle)), executing_done (u := restarted s q) hx rfl [], fun h => absurd h Bool.false_ne_true,
        fun _ => ⟨(restarted_q ..).trans (if_pos rfl), rfl⟩, fun k _ _ => rfl, fun r hr => (restarted_q ..).trans (if_neg hr), rfl⟩
    case true =>
      refine ⟨_, _, hrun.trans (congrArg _ (resetNow_idle hidle)), executing_done (u := freed s q) hx (freed_her ..) [],
        fun _ => ⟨(freed_q ..).trans (if_pos rfl), (freed_reg ..).trans (if_pos (.inr rfl)), (freed_reg ..).trans (if_pos (.inl rfl))⟩,
        fun h => absurd h.symm Bool.false_ne_true, fun k hlow hhigh => (freed_reg ..).trans (if_neg (not_or.mpr ⟨hhigh, hlow⟩)),
        fun r hr => (freed_q ..).trans (if_neg hr), freed_only ..⟩
  case get =>
    intro s mb c hx
    exact ⟨fun hown => ⟨_, execQueueGet_denied hx hown, executing_rejects hx _⟩, fun hown => ⟨_, execQueueGet_owned hx hown, executing_done hx rfl _⟩⟩

end Sys2Proof.Machine
end

section
/-! Doorbells (R269-R274, R289, R290): the queue an index names, a write that is ignored, and the ends of a queue's descriptors. -/

namespace Sys2Proof.Machine

/-! ## The queue a doorbell reaches (R269) -/

theorem onDoorbell_named {s : State} {fn idx q : Nat} (ha : fnAnswers s fn = true) (hq : doorbellQueue s fn idx = some q)
    (f : State → Nat → State) : onDoorbell s fn idx f = f s q := by
  simp [onDoorbell, ha, hq]

theorem onDoorbell_unnamed {s : State} {fn idx : Nat} (hq : doorbellQueue s fn idx = none) (f : State → Nat → State) :
    onDoorbell s fn idx f = s := by
  simp [onDoorbell, hq]

/-! ## Deaf queues (R271) -/

section
variable {s : State} {q : Nat}

theorem dbDeaf_of_enabled (h : (s.q q).st = .active ∨ (s.q q).st = .halted) : dbDeaf s q = false := by
  rcases h with h | h <;> simp [dbDeaf, h]

section
variable (h : dbDeaf s q = true)
include h

theorem tailWrite_deaf (v : Nat) : tailWrite s q v = dbIgnored s q := by simp [tailWrite, h]
theorem cqHeadWrite_deaf (v : Nat) : cqHeadWrite s q v = dbIgnored s q := by simp [cqHeadWrite, h]
theorem queueDisableEff_deaf : queueDisableEff s q = dbIgnored s q := by simp [queueDisableEff, h]
theorem resumeWrite_deaf : resumeWrite s q = dbIgnored s q := by simp [resumeWrite, h]

end

/-- Each doorbell row is a write to the queue named, which a deaf queue ignores (R269, R271). -/
theorem doorbellRow_onDoorbell (s : State) (fn : Fn) (idx : Nat) (v : Word) {row : Instr}
    (hrow : row ∈ [Instr.doorbellTail fn idx v, .doorbellCqhead fn idx v, .queueDisable fn idx, .queueResume fn idx]) :
    ∃ f, exec row s = .next (onDoorbell s fn.val idx f) ∧ ∀ q, dbDeaf s q = true → f s q = dbIgnored s q := by
  simp only [List.mem_cons, List.not_mem_nil, or_false] at hrow
  rcases hrow with rfl | rfl | rfl | rfl
  · exact ⟨fun s q => tailWrite s q v.toNat, rfl, fun _ h => tailWrite_deaf h _⟩
  · exact ⟨fun s q => cqHeadWrite s q v.toNat, rfl, fun _ h => cqHeadWrite_deaf h _⟩
  · exact ⟨queueDisableEff, rfl, fun _ h => queueDisableEff_deaf h⟩
  · exact ⟨resumeWrite, rfl, fun _ h => resumeWrite_deaf h⟩

/-! ## The indexes (R272, R282) -/

section
variable {v : Nat} (hdeaf : dbDeaf s q = false)
include hdeaf

theorem tailWrite_inRange (hring : (s.q q).chain = false) (hv : v % 65536 < 2 ^ (s.q q).ringLog2) :
    tailWrite s q v = fetchNext (s.modQ q fun c => { c with tail := v % 65536 }) q := by
  simp [tailWrite, hdeaf, hring, hv]

theorem tailWrite_outOfRange (hring : (s.q q).chain = false) (hv : 2 ^ (s.q q).ringLog2 ≤ v % 65536) : tailWrite s q v = dbIgnored s q := by
  simp [tailWrite, hdeaf, hring, hv]

theorem cqHeadWrite_inRange (hv : v % 65536 < 2 ^ (s.q q).cqLog2) :
    cqHeadWrite s q v = s.modQ q fun c => { c with cqHead := v % 65536 } := by
  simp [cqHeadWrite, hdeaf, hv]

end

theorem cqHeadWrite_outOfRange {v : Nat} (hv : 2 ^ (s.q q).cqLog2 ≤ v % 65536) : cqHeadWrite s q v = dbIgnored s q := by
  simp [cqHeadWrite, hv]

/-! ## DISABLE and RESUME of an unpaired tenant's queue (R289, R290) -/

section
variable (hfol : s.followed (s.q q).tenant = false) (hlead : s.leads (s.q q).tenant = false)
include hfol hlead

theorem queueDisableEff_disables (hst : (s.q q).st = .active ∨ (s.q q).st = .halted) : queueDisableEff s q = disableNow s q := by
  simp [queueDisableEff, dbDeaf_of_enabled hst, hfol, hst, mirrorHold, hlead]

theorem resumeWrite_resumes (hst : (s.q q).st = .halted) (hreset : (s.q q).needReset = false) : resumeWrite s q = resumeNow s q := by
  simp [resumeWrite, dbDeaf_of_enabled (.inr hst), hfol, hst, hreset, mirrorHold, hlead]

end

end

/-! ## The descriptors that a disable ends (R290) -/

@[simp] theorem hostWrite_qs (s : State) (t addr : Nat) (d : List Byte) : (hostWrite s t addr d).qs = s.qs := by
  unfold hostWrite
  (repeat' split) <;> rfl

theorem putEntry_descs (s : State) (q : Nat) (e : List Byte) : ((putEntry s q e).q q).descs = (s.q q).descs := by
  unfold putEntry
  rw [State.modQ_q_same, q_of_qs (hostWrite_qs ..)]

theorem retireDesc_descs (s : State) (q : Nat) (d : Desc) (cs : Nat) :
    ((retireDesc s q d cs).2.q q).descs = (s.q q).descs.filter fun e => decide (e.uid ≠ d.uid) := by
  unfold retireDesc
  rw [State.modQ_q_same]

theorem abortEntry_descs (s : State) (q : Nat) (d : Desc) (cs residual : Nat) :
    ((abortEntry s q d cs residual).2.q q).descs = (s.q q).descs.filter fun e => decide (e.uid ≠ d.uid) := by
  unfold abortEntry
  dsimp only
  split
  · rw [putEntry_descs, retireDesc_descs]
  · exact retireDesc_descs ..

/-- What is left names none of the descriptors aborted. -/
theorem abortAll_descs (s : State) (q cs : Nat) (l : List Desc) :
    ((abortAll s q cs l).2.2.q q).descs = (s.q q).descs.filter fun e => l.all fun d => decide (e.uid ≠ d.uid) := by
  induction l generalizing s with
  | nil => simp [abortAll]
  | cons d l ih =>
    have hbump : s.bump.q q = s.q q := rfl
    unfold abortAll
    dsimp only
    rw [ih, abortEntry_descs, hbump, List.filter_filter]
    simp [Bool.and_comm]

theorem abortAll_self_descs (s : State) (q cs : Nat) : ((abortAll s q cs (s.q q).descs).2.2.q q).descs = [] := by
  rw [abortAll_descs, List.filter_eq_nil_iff]
  intro e he hall
  simpa using List.all_eq_true.mp hall e he

theorem queueIrq_descs (s : State) (q : Nat) : ((queueIrq s q).q q).descs = (s.q q).descs := by rw [queueIrq_q, if_pos rfl]

theorem endQueueWork_descs (s : State) (q cs code : Nat) : ((endQueueWork s q cs code).q q).descs = [] := by
  unfold endQueueWork
  dsimp only
  rw [queueIrq_descs, raise_q, abortAll_self_descs]

theorem disableNow_disabled (s : State) (q : Nat) :
    ((disableNow s q).q q).st = .disabled ∧ ((disableNow s q).q q).halting = false ∧ ((disableNow s q).q q).descs = [] := by
  have hdescs := endQueueWork_descs s q Cs.abortDisable Ev.queueDisabled
  unfold disableNow
  rw [State.modQ_q_same]
  simp [hdescs]

/-! ## The doorbells -/

/-- Settles O26: each row acts on the queue its index names (`onDoorbell_named`), where the write is a branch of `tailWrite`, `cqHeadWrite`, `queueDisableEff` or `resumeWrite`; a disable leaves no descriptor (`endQueueWork_descs`, R290). -/
theorem doorbellsMoveQueues : Obligations.DoorbellsMoveQueues := by
  unfold Obligations.DoorbellsMoveQueues
  refine ⟨?indexes, ?deaf, ?unnamed, ?control⟩
  case indexes =>
    intro s fn idx q v ha hq hdeaf
    have htail : exec (.doorbellTail fn idx v) s = .next (tailWrite s q v.toNat) := congrArg _ (onDoorbell_named ha hq _)
    have hhead : exec (.doorbellCqhead fn idx v) s = .next (cqHeadWrite s q v.toNat) := congrArg _ (onDoorbell_named ha hq _)
    refine ⟨fun hring hv => htail.trans (congrArg _ (tailWrite_inRange hdeaf hring hv)), fun hring hv => ?_, fun hv => ?_,
      fun hv => hhead.trans (congrArg _ (cqHeadWrite_outOfRange hv))⟩
    · exact ⟨_, htail.trans (congrArg _ (tailWrite_outOfRange hdeaf hring hv)), (State.incReg_reg ..).trans (if_pos rfl),
        fun k hk => (State.incReg_reg ..).trans (if_neg hk), rfl⟩
    · exact ⟨_, hhead.trans (congrArg _ (cqHeadWrite_inRange hdeaf hv)), State.modQ_q_same ..,
        fun r hr => (State.modQ_q ..).trans (if_neg hr), rfl⟩
  case deaf =>
    intro s fn idx q v ha hq hdeaf row hrow
    obtain ⟨f, hexec, hf⟩ := doorbellRow_onDoorbell s fn idx v hrow
    rw [hexec, onDoorbell_named ha hq, hf q hdeaf]
    rfl
  case unnamed =>
    intro s fn idx v ha hq row hrow
    obtain ⟨f, hexec, -⟩ := doorbellRow_onDoorbell s fn idx v hrow
    rw [hexec, onDoorbell_unnamed hq]
  case control =>
    intro s fn idx q ha hq hfol hlead
    have hdis : exec (.queueDisable fn idx) s = .next (queueDisableEff s q) := congrArg _ (onDoorbell_named ha hq _)
    have hres : exec (.queueResume fn idx) s = .next (resumeWrite s q) := congrArg _ (onDoorbell_named ha hq _)
    exact ⟨fun hst => ⟨_, hdis.trans (congrArg _ (queueDisableEff_disables hfol hlead hst)), rfl, disableNow_disabled ..⟩,
      fun hst hreset => hres.trans (congrArg _ (resumeWrite_resumes hfol hlead hst hreset))⟩

end Sys2Proof.Machine
end

section
/-! The written log over every step (R519): what one record, a run of records and hence every command leaves of the records written before. -/

namespace Sys2Proof.Machine

/-! ## Reading a written log -/

/-- The oldest sequence number that a written log keeps (R515). -/
def WrittenLog.oldest (w : WrittenLog) : Nat := w.2.1 - min w.2.1 ringSize

/-- The record that a written log keeps under a sequence number (R515). -/
def WrittenLog.record (w : WrittenLog) (n : Nat) : Option EvRec :=
  if WrittenLog.oldest w ≤ n ∧ n < w.2.1 then Tbl.get (fun _ => none) w.1 (n % ringSize) else none

/-- `LogKept` of two written logs. -/
def WrittenLog.KeptBy (w v : WrittenLog) : Prop :=
  (∀ k r, Tbl.get (fun _ => none) w.2.2 k = some r → Tbl.get (fun _ => none) v.2.2 k = some r) ∧ w.2.1 ≤ v.2.1
    ∧ ∀ n r, WrittenLog.record w n = some r → WrittenLog.oldest v ≤ n → WrittenLog.record v n = some r

theorem logKept_iff_core (s t : State) : LogKept s t ↔ WrittenLog.KeptBy s.core.2 t.core.2 := Iff.rfl

theorem WrittenLog.record_bounds {w : WrittenLog} {n : Nat} {r : EvRec} (h : WrittenLog.record w n = some r) :
    WrittenLog.oldest w ≤ n ∧ n < w.2.1 ∧ Tbl.get (fun _ => none) w.1 (n % ringSize) = some r := by
  unfold WrittenLog.record at h
  split at h
  · next hb => exact ⟨hb.1, hb.2, h⟩
  · cases h

theorem WrittenLog.record_of_bounds {w : WrittenLog} {n : Nat} (ho : WrittenLog.oldest w ≤ n) (hs : n < w.2.1) :
    WrittenLog.record w n = Tbl.get (fun _ => none) w.1 (n % ringSize) := if_pos ⟨ho, hs⟩

/-- The oldest number kept never goes back while the next number does not. -/
theorem WrittenLog.oldest_mono {w v : WrittenLog} (h : w.2.1 ≤ v.2.1) : WrittenLog.oldest w ≤ WrittenLog.oldest v := by
  unfold WrittenLog.oldest
  omega

theorem WrittenLog.KeptBy.refl (w : WrittenLog) : WrittenLog.KeptBy w w := ⟨fun _ _ h => h, Nat.le_refl _, fun _ _ h _ => h⟩

theorem WrittenLog.KeptBy.trans {w v u : WrittenLog} (h : WrittenLog.KeptBy w v) (g : WrittenLog.KeptBy v u) : WrittenLog.KeptBy w u := by
  obtain ⟨hfok, hseq, hring⟩ := h
  obtain ⟨gfok, gseq, gring⟩ := g
  refine ⟨fun k r hk => gfok k r (hfok k r hk), Nat.le_trans hseq gseq, fun n r hn ho => ?_⟩
  exact gring n r (hring n r hn (Nat.le_trans (WrittenLog.oldest_mono gseq) ho)) ho

/-! ## One record written -/

/-- Two sequence numbers less than the ring's size apart have different ring slots. -/
theorem ringSlot_ne {n m : Nat} (hlt : n < m) (hnear : m < n + ringSize) : n % ringSize ≠ m % ringSize := by
  unfold ringSize at *
  omega

theorem addRec_seq {w : WrittenLog} (h : w.2.1 + 1 < 2 ^ 48) (r : EvRec) : (addRec w r).2.1 = w.2.1 + 1 := Nat.mod_eq_of_lt h

theorem addRec_fok (w : WrittenLog) (r e : EvRec) (k : Nat) (h : Tbl.get (fun _ => none) w.2.2 k = some e) :
    Tbl.get (fun _ => none) (addRec w r).2.2 k = some e := by
  unfold addRec
  dsimp only
  split
  · exact h
  · next hempty =>
    have hk : k ≠ fokSlot r.code := by
      rintro rfl
      exact hempty (by rw [h]; rfl)
    rw [Tbl.get_set_other _ _ _ _ _ hk, h]

theorem addRec_keeps {w : WrittenLog} (h : w.2.1 + 1 < 2 ^ 48) (r : EvRec) : WrittenLog.KeptBy w (addRec w r) := by
  have hseq := addRec_seq h r
  refine ⟨fun k e => addRec_fok w r e k, by omega, fun n e hn ho => ?_⟩
  obtain ⟨-, hlt, hslot⟩ := WrittenLog.record_bounds hn
  have hnear : w.2.1 < n + ringSize := by
    have := ho
    unfold WrittenLog.oldest at this
    omega
  rw [WrittenLog.record_of_bounds ho (by omega)]
  exact (Tbl.get_set_other _ _ _ _ _ (ringSlot_ne hlt hnear)).trans hslot

/-! ## A run of records -/

theorem foldl_addRec_keeps (l : List EvRec) {w : WrittenLog} (h : w.2.1 + l.length < 2 ^ 48) : WrittenLog.KeptBy w (l.foldl addRec w) := by
  induction l generalizing w with
  | nil => exact .refl w
  | cons r l ih =>
    rw [List.length_cons] at h
    have hone : w.2.1 + 1 < 2 ^ 48 := by omega
    refine (addRec_keeps hone r).trans (ih ?_)
    rw [addRec_seq hone r]
    omega

theorem logKept_of_core {s t : State} (h : t.core = s.core) : LogKept s t := by
  rw [logKept_iff_core, h]
  exact .refl _

/-- A state whose written log is another's with at most 600 records more keeps that log. -/
theorem logKept_of_records {s t : State} {l : List EvRec} (hseq : s.log.seq + 600 < 2 ^ 48) (hl : l.length ≤ 600)
    (ht : t.core.2 = l.foldl addRec s.core.2) : LogKept s t := by
  have hw : s.core.2.2.1 + l.length < 2 ^ 48 := by
    show s.log.seq + l.length < 2 ^ 48
    omega
  rw [logKept_iff_core, ht]
  exact foldl_addRec_keeps l hw

theorem Grew.logKept {s t : State} (h : Grew 600 s t) (hseq : s.log.seq + 600 < 2 ^ 48) : LogKept s t := by
  obtain ⟨l, hl, hcore⟩ := h
  exact logKept_of_records hseq hl (congrArg Prod.snd hcore)

theorem transition_logKept {s : State} (hseq : s.log.seq + 600 < 2 ^ 48) (mb new fuses : Nat) {act : State → State}
    (hact : ∀ u : State, (act u).core = u.core) : LogKept s (transition s mb new fuses act) := by
  obtain ⟨l, hl, hcore⟩ := transition_grew s mb new fuses act hact
  exact logKept_of_records hseq hl (congrArg Prod.snd hcore)

/-! ## Every command, every step -/

theorem runCmd_logKept {op : Nat} {s : State} {f : State → Nat → Cmd → State} (h : ∀ mb c, LogKept s (f s mb c)) :
    ∃ t, runCmd op s f = .next t ∧ LogKept s t := by
  unfold runCmd
  split
  · exact ⟨_, rfl, h _ _⟩
  · exact ⟨s, rfl, logKept_of_core rfl⟩

/-- Every command completes and keeps the written log: the three life-cycle commands through `transition`, all others by `exec_grew`. -/
theorem exec_logKept (c : Instr) {s : State} (hseq : s.log.seq + 600 < 2 ^ 48) : ∃ t, exec c s = .next t ∧ LogKept s t := by
  by_cases hi : c = .ownerKeyInstall
  · subst hi
    apply runCmd_logKept
    intro mb c
    split
    · exact Grew.logKept (.of_eq (by simp)) hseq
    · exact transition_logKept hseq mb 1 _ fun u => State.modKey_core _ _ _
  by_cases ha : c = .lcyAdvance
  · subst ha
    apply runCmd_logKept
    intro mb c
    exact transition_logKept hseq mb 2 _ fun u => rfl
  by_cases hr : c = .lcyReturn
  · subst hr
    apply runCmd_logKept
    intro mb c
    exact transition_logKept hseq mb 3 _ (eraseReturned_core _)
  obtain ⟨t, ht, hgrew⟩ := exec_grew c s hi ha hr
  exact ⟨t, ht, hgrew.logKept hseq⟩

/-- The queue of waiting commands is no part of the log. -/
theorem step_logKept {s t : State} (hseq : s.log.seq + 600 < 2 ^ 48) (h : step s = .next t) : LogKept s t := by
  unfold step at h
  split at h
  · cases h
    exact logKept_of_core rfl
  · next c rest hpending =>
    obtain ⟨u, hu, hkept⟩ := exec_logKept c (s := { s with pending := rest }) hseq
    cases hu.symm.trans h
    exact hkept

/-- Settles O60: every command adds at most 600 records to the written log (`exec_grew`, `transition_grew`), and a run of records that stays below the last sequence number keeps what stood there (`foldl_addRec_keeps`). -/
theorem nothingErasesTheLog : Obligations.NothingErasesTheLog := by
  unfold Obligations.NothingErasesTheLog
  exact ⟨fun s t hseq h => step_logKept hseq h, fun s hseq c _ => exec_logKept c hseq⟩

end Sys2Proof.Machine
end

section
/-! Weirs (R464-R474): when a region matches, which region decides, and what the four weir commands store. -/

namespace Sys2Proof.Machine

/-! ## Matching (R465, R466) -/

theorem testBit_bits (n hi lo i : Nat) : (bits n hi lo).testBit i = (decide (i < hi + 1 - lo) && n.testBit (lo + i)) := by
  rw [bits, Nat.testBit_mod_two_pow, Nat.testBit_div_two_pow, Nat.add_comm lo i]

/-- Two numbers agree under a mask when they agree in every bit that the mask sets. -/
theorem and_eq_and_iff_testBit (a b m : Nat) : a &&& m = b &&& m ↔ ∀ i, m.testBit i = true → a.testBit i = b.testBit i := by
  constructor
  · intro h i hi
    have hbit := congrArg (Nat.testBit · i) h
    simpa [hi] using hbit
  · intro h
    apply Nat.eq_of_testBit_eq
    intro i
    cases hi : m.testBit i <;> simp [hi]
    exact h i hi

theorem spaceAgrees_iff (w1 space : Nat) :
    space &&& bits w1 21 16 = bits w1 13 8 &&& bits w1 21 16
      ↔ ∀ i, i < 6 → w1.testBit (16 + i) = true → space.testBit i = w1.testBit (8 + i) := by
  rw [and_eq_and_iff_testBit]
  refine forall_congr' fun i => ?_
  by_cases hi : i < 6
  · simp [testBit_bits, hi]
  · simp [testBit_bits, hi]

theorem rgnMatch_iff (s : State) (w r space addr : Nat) :
    rgnMatch s w r space addr = true ↔
      (rgnWord s w r 1).testBit 0 = true
      ∧ (w < 6 → ∀ i, i < 6 → (rgnWord s w r 1).testBit (16 + i) = true → space.testBit i = (rgnWord s w r 1).testBit (8 + i))
      ∧ rgnBase s w r ≤ addr ∧ addr < rgnBase s w r + 2 ^ bits (rgnWord s w r 1) 29 24 := by
  unfold rgnMatch rgnSize
  rw [← spaceAgrees_iff]
  by_cases hw : w < 6
  · simp [bit_eq_testBit, hw, Nat.not_le.2 hw, and_assoc]
  · simp [bit_eq_testBit, hw, Nat.not_lt.1 hw]

/-! ## The decision (R464, R466, R467) -/

theorem weirRegion_lowest {s : State} {w r space addr : Nat} (hr : r < 64) (hmatch : rgnMatch s w r space addr = true)
    (hlow : ∀ q, q < r → rgnMatch s w q space addr = false) : weirRegion s w space addr = some r := by
  rw [weirRegion, List.find?_range_eq_some]
  exact ⟨hmatch, List.mem_range.2 hr, fun q hq => by simp [hlow q hq]⟩

theorem weirRegion_none {s : State} {w space addr : Nat} (h : ∀ r, r < 64 → rgnMatch s w r space addr = false) :
    weirRegion s w space addr = none := by
  rw [weirRegion, List.find?_eq_none]
  intro r hr
  simp [h r (List.mem_range.1 hr)]

theorem weirAllows_of_region {s : State} {w r space addr : Nat} (h : weirRegion s w space addr = some r) (t : Nat) (rd wr : Bool) :
    weirAllows s w t space addr rd wr = ((!rd || rgnRead s w r t) && (!wr || rgnWrite s w r t)) := by rw [weirAllows, h]

/-- Settles O57: a match is `rgnMatch_iff`, the lowest matching region decides by its grants, and none leaves the default action. -/
theorem weirsDecide : Obligations.WeirsDecide := by
  unfold Obligations.WeirsDecide
  refine ⟨fun s w r space addr _ => rgnMatch_iff s w r space addr, fun s w t space addr rd wr => ⟨fun r hr hmatch hlow => ?_, fun hnone => ?_⟩⟩
  · rw [weirAllows_of_region (weirRegion_lowest hr hmatch hlow)]
    cases rd <;> cases wr <;> simp
  · have hregion := weirRegion_none hnone
    exact ⟨fun h => by simp only [weirAllows, hregion, h], fun h => by simp only [weirAllows, hregion, h], fun h => by simp only [weirAllows, hregion, h]⟩

/-! ## The stored words -/

theorem leNat_lt (l : List Byte) : leNat l < 256 ^ l.length := by
  induction l with
  | nil => decide
  | cons b l ih =>
    have hb := b.isLt
    rw [leNat, List.length_cons, Nat.pow_succ]
    omega

theorem slice_length (l : List Byte) (o n : Nat) : (slice l o n).length = n := by
  unfold slice
  simp only [List.length_append, List.length_take, List.length_drop, List.length_replicate]
  omega

theorem wordAt_lt (l : List Byte) (o : Nat) : wordAt l o < 2 ^ 32 := by
  have h := leNat_lt (slice l o 4)
  rw [slice_length] at h
  exact h

theorem w32_wordAt_toNat (l : List Byte) (o : Nat) : (w32 (wordAt l o)).toNat = wordAt l o := by
  rw [w32, BitVec.toNat_ofNat, Nat.mod_eq_of_lt (wordAt_lt l o)]

/-- The region words after the first `n` of a region's words are written. -/
theorem foldl_setRgn_get (s : State) (w r : Nat) (ws : List Nat) (n k : Nat) :
    Tbl.get (fun _ => 0#32) ((List.range n).foldl (fun s i => s.modWeirs fun x => { x with
        rgn := x.rgn.set (fun _ => 0#32) (w * 1024 + r * 16 + (i + 1)) (w32 (nth ws i 0)) }) s).weirs.rgn k
      = if w * 1024 + r * 16 + 1 ≤ k ∧ k ≤ w * 1024 + r * 16 + n then w32 (nth ws (k - (w * 1024 + r * 16 + 1)) 0)
        else Tbl.get (fun _ => 0#32) s.weirs.rgn k := by
  induction n with
  | zero => rw [if_neg (by omega)]; rfl
  | succ n ih =>
    rw [List.range_succ, List.foldl_append]
    refine (Tbl.get_set ..).trans ?_
    by_cases hk : k = w * 1024 + r * 16 + (n + 1)
    · rw [if_pos hk, if_pos (by omega), show k - (w * 1024 + r * 16 + 1) = n by omega]
    · rw [if_neg hk, ih]
      exact if_congr (by omega) rfl rfl

theorem foldl_modWeirs_rgn (f : Nat → Weirs → Tbl Word) (l : List Nat) (s : State) :
    ∃ rgn, l.foldl (fun s i => s.modWeirs fun x => { x with rgn := f i x }) s = { s with weirs := { s.weirs with rgn := rgn } } := by
  induction l generalizing s with
  | nil => exact ⟨s.weirs.rgn, rfl⟩
  | cons i l ih => exact (ih _).imp fun rgn h => h

theorem setRgn_only (s : State) (w r : Nat) (ws : List Nat) :
    setRgn s w r ws = { s with weirs := { s.weirs with rgn := (setRgn s w r ws).weirs.rgn } } := by
  obtain ⟨rgn, h⟩ := foldl_modWeirs_rgn (fun i x => x.rgn.set (fun _ => 0#32) (w * 1024 + r * 16 + (i + 1)) (w32 (nth ws i 0))) (List.range 8) s
  rw [show setRgn s w r ws = { s with weirs := { s.weirs with rgn := rgn } } from h]

theorem rgnWord_setRgn_same (s : State) (w r : Nat) (ws : List Nat) {i : Nat} (h1 : 1 ≤ i) (h8 : i ≤ 8) :
    rgnWord (setRgn s w r ws) w r i = (w32 (nth ws (i - 1) 0)).toNat := by
  unfold rgnWord setRgn
  rw [foldl_setRgn_get, if_pos (by omega), show w * 1024 + r * 16 + i - (w * 1024 + r * 16 + 1) = i - 1 by omega]

theorem rgnWord_setRgn_other (s : State) (w : Nat) {r : Nat} (ws : List Nat) (hr : r < 64) {x q i : Nat} (hq : q < 64) (hi : i < 16)
    (h : ¬(x = w ∧ q = r)) : rgnWord (setRgn s w r ws) x q i = rgnWord s x q i := by
  unfold rgnWord setRgn
  rw [foldl_setRgn_get, if_neg (by omega)]

/-! ## The commands (R469-R471) -/

theorem regionRefusal_locked {s : State} {w r : Nat} (h : rgnLocked s w r = true) (ws : List Nat) : regionRefusal s w r ws ≠ 0 := by
  unfold regionRefusal
  dsimp only
  split_ifs <;> simp_all

section
variable {s : State} {mb : Nat} {c : Cmd}

/-- The words that a WEIR_REGION_SET brings. -/
theorem nth_regionWords (p : List Byte) {i : Nat} (h1 : 1 ≤ i) (h8 : i ≤ 8) :
    (w32 (nth ((List.range 8).map fun i => wordAt p (4 * (i + 1))) (i - 1) 0)).toNat = wordAt p (4 * i) := by
  have hi : i - 1 < 8 := by omega
  rw [nth, List.getD_eq_getElem?_getD, List.getElem?_map, List.getElem?_range hi]
  simp only [Option.map_some, Option.getD_some, Nat.sub_add_cancel h1, w32_wordAt_toNat]

theorem execWeirRegionGet_executing (hx : Executing s 0x0301 mb c) :
    execWeirRegionGet s = .next (done s mb (rgnBytes s (bits (wordAt c.payload 0) 2 0) (bits (wordAt c.payload 0) 13 8))) :=
  runCmd_executing hx _

/-- The default action of a weir set. -/
def setDefault (s : State) (w action : Nat) : State := s.modWeirs fun x => { x with dflt := x.dflt.set (fun _ => 0) w action }

theorem setDefault_get (s : State) (w action x : Nat) :
    Tbl.get (fun _ => 0) (setDefault s w action).weirs.dflt x = if x = w then action else Tbl.get (fun _ => 0) s.weirs.dflt x := Tbl.get_set ..

theorem execWeirDefaultSet_executing (hx : Executing s 0x0302 mb c) :
    execWeirDefaultSet s = .next (done (setDefault s (bits (wordAt c.payload 0) 2 0) (bits (wordAt c.payload 0) 9 8)) mb []) :=
  runCmd_executing hx _

theorem execWeirRegionLock_executing (hx : Executing s 0x0303 mb c) : exec .weirRegionLock s = .next (weirRegionLockEff s mb c) :=
  runCmd_executing hx weirRegionLockEff

theorem weirRegionLockEff_locked (h : rgnLocked s (byteAt c.payload 0) (byteAt c.payload 1) = true) : weirRegionLockEff s mb c = done s mb [] :=
  if_pos h

theorem weirRegionLockEff_refused (h : rgnLocked s (byteAt c.payload 0) (byteAt c.payload 1) = false)
    (hwhy : lockRefusal s (byteAt c.payload 0) (byteAt c.payload 1) ≠ 0) :
    weirRegionLockEff s mb c = refuse s mb (lockRefusal s (byteAt c.payload 0) (byteAt c.payload 1)) 0 := by
  simp [weirRegionLockEff, h, hwhy]

theorem weirRegionLockEff_locks (h : rgnLocked s (byteAt c.payload 0) (byteAt c.payload 1) = false)
    (hwhy : lockRefusal s (byteAt c.payload 0) (byteAt c.payload 1) = 0) :
    weirRegionLockEff s mb c = done (lockRgn s (byteAt c.payload 0) (byteAt c.payload 1)) mb [] := by
  simp [weirRegionLockEff, h, hwhy]

end

/-- Settles O19: a set is refused by `regionRefusal` or stores its eight words (`rgnWord_setRgn_same`), a lock is refused by `lockRefusal` or adds its lock. -/
theorem weirCommands : Obligations.WeirCommands := by
  unfold Obligations.WeirCommands
  refine ⟨?set, fun s mb c hx => ?get, fun s mb c hx => ?default, fun s mb c hx => ?lock⟩
  case set =>
    intro s mb c hx w r ws
    have hr : r < 64 := Nat.mod_lt _ (by decide)
    have hrun : exec .weirRegionSet s = .next (weirRegionSetEff s mb c) := runCmd_executing hx weirRegionSetEff
    refine ⟨fun hwhy => ⟨_, hrun.trans (congrArg _ (if_pos hwhy)), executing_refuses hx rfl _ 0⟩, fun hlock => regionRefusal_locked hlock ws, fun hwhy => ?_⟩
    have honly := setRgn_only s w r ws
    have hher : (setRgn s w r ws).her = s.her := by rw [honly]
    refine ⟨_, setRgn s w r ws, hrun.trans (congrArg _ (if_neg (not_not.2 hwhy))), executing_done hx hher [], fun i h1 h8 => ?_,
      fun x q i hq hi hne => rgnWord_setRgn_other s w ws hr hq hi hne, honly⟩
    rw [rgnWord_setRgn_same s w r ws h1 h8, nth_regionWords c.payload h1 h8]
  case get => exact ⟨_, execWeirRegionGet_executing hx, executing_done hx rfl _⟩
  case default =>
    exact ⟨_, setDefault s _ _, execWeirDefaultSet_executing hx, executing_done (u := setDefault s _ _) hx rfl [], fun x => setDefault_get .., rfl⟩
  case lock =>
    have hrun := execWeirRegionLock_executing hx
    exact ⟨fun h => ⟨_, hrun.trans (congrArg _ (weirRegionLockEff_locked h)), executing_done hx rfl []⟩,
      fun h hwhy => ⟨_, hrun.trans (congrArg _ (weirRegionLockEff_refused h hwhy)), executing_refuses hx rfl _ 0⟩,
      fun h hwhy => ⟨_, hrun.trans (congrArg _ (weirRegionLockEff_locks h hwhy)),
        executing_done (u := lockRgn s (byteAt c.payload 0) (byteAt c.payload 1)) hx rfl []⟩⟩

end Sys2Proof.Machine
end

section
/-! The tally ledger (R362-R377): the acknowledge mark, quotas, tickets issued and settled, and the retained bytes that expire (R355). -/

namespace Sys2Proof.Machine

/-! ## A tenant that this chip does not mirror (R484) -/

theorem mirrorNote_unled {s : State} {t : Nat} (h : s.leads t = false) (r : MirrorRec) : mirrorNote s t r = s :=
  if_neg (by rw [h]; decide)

theorem State.setTally_leads (s : State) (k : Nat) (v : TallyT) (t : Nat) : (s.setTally k v).leads t = s.leads t := rfl
theorem State.incReg_privOf (s : State) (k t : Nat) : privOf (s.incReg k) t = privOf s t := rfl

/-! ## The acknowledge mark (R368, R369) -/

/-- The mark that a write of TAL_ACK names: a value after the frontier is the frontier. -/
def ackTarget (q : TallyT) (v : Nat) : Nat := if ticketAfter v (frontier q) then frontier q else v

/-- A tenant's tally after a write of TAL_ACK. -/
def ackTally (q : TallyT) (v : Nat) : TallyT :=
  if ticketAfter (ackTarget q v) q.ack = true ∨ ackTarget q v = q.ack then
    { q with ack := ackTarget q v, kept := q.kept.filter fun k => ticketAfter k.ticket (ackTarget q v), overflow := false }
  else { q with overflow := false }

theorem ackWrite_eq (s : State) (t v : Nat) : ackWrite s t v = s.setTally t (ackTally (s.tally t) v) :=
  (apply_ite (s.setTally t) _ _ _).symm

theorem ackTally_ack (q : TallyT) (v : Nat) :
    (ackTally q v).ack = if ticketAfter (ackTarget q v) q.ack then ackTarget q v else q.ack := by
  unfold ackTally
  by_cases hafter : ticketAfter (ackTarget q v) q.ack = true
  · rw [if_pos (.inl hafter), if_pos hafter]
  · rw [if_neg hafter]
    by_cases heq : ackTarget q v = q.ack
    · rw [if_pos (.inr heq)]
      exact heq
    · rw [if_neg (not_or.2 ⟨hafter, heq⟩)]

theorem ackTally_rest (q : TallyT) (v : Nat) :
    (ackTally q v).overflow = false ∧ (ackTally q v).issued = q.issued ∧ (ackTally q v).unsettled = q.unsettled := by
  unfold ackTally
  split
  · exact ⟨rfl, rfl, rfl⟩
  · exact ⟨rfl, rfl, rfl⟩

theorem execTalAckWrite_acks {s : State} {fn : Fn} {n : Tenant} (hname : mayNameTenant fn.val n.val = true) (hfol : s.followed n.val = false)
    (hlead : s.leads n.val = false) (v : Word) :
    execTalAckWrite fn n v s = .next (s.setTally n.val (ackTally (s.tally n.val) v.toNat)) := by
  have hnote : noteTally (s.setTally n.val (ackTally (s.tally n.val) v.toNat)) n.val = s.setTally n.val (ackTally (s.tally n.val) v.toNat) :=
    mirrorNote_unled ((State.setTally_leads ..).trans hlead) _
  unfold execTalAckWrite
  rw [if_pos (by simp [hname, hfol]), ackWrite_eq, hnote]

theorem execTalFailRearm_named {s : State} {fn : Fn} {n : Tenant} (hname : mayNameTenant fn.val n.val = true) (hfol : s.followed n.val = false)
    (v : Word) : exec (.talFailRearm fn n v) s = .next (failRearm s n.val v.toNat) :=
  congrArg _ (if_pos (by simp [hname, hfol]))

/-- The two bits of TAL_FAIL_STATUS that a write clears (R370). -/
theorem failRearm_eq (s : State) (t : Nat) (v : Word) :
    failRearm s t v.toNat = if privOf s t then
        s.setTally t { s.tally t with latchValid := (s.tally t).latchValid && !v.getLsbD 0, latchMore := (s.tally t).latchMore && !v.getLsbD 1 }
      else s := by
  rw [failRearm, bit_toNat, bit_toNat]
  rfl

theorem execTallyQuotaSet_executing {s : State} {mb : Nat} {c : Cmd} (hx : Executing s 0x0405 mb c) :
    exec .tallyQuotaSet s = .next (tallyQuotaEff s mb c) := runCmd_executing hx tallyQuotaEff

/-- Settles O20: a write of TAL_ACK leaves `ackWrite_tally_same`, a rearming write `failRearm_eq`, and a quota is set unless the sum passes 3,584. -/
theorem tallyMarksAndQuotas : Obligations.TallyMarksAndQuotas := by
  unfold Obligations.TallyMarksAndQuotas
  refine ⟨?ack, fun s fn n v hname hfol => ?rearm, ?quota⟩
  case ack =>
    intro s fn n v hname hfol hlead q m
    obtain ⟨hover, hissued, hunsettled⟩ := ackTally_rest q v.toNat
    refine ⟨_, execTalAckWrite_acks hname hfol hlead v, ?_⟩
    rw [State.setTally_tally_same]
    refine ⟨ackTally_ack q v.toNat, ?_, hover, hissued, hunsettled, fun k hk => (State.setTally_tally ..).trans (if_neg hk), rfl⟩
    exact apply_ite TallyT.kept _ _ _
  case rearm => rw [execTalFailRearm_named hname hfol, failRearm_eq]
  case quota =>
    intro s mb c hx n q
    have hrun := execTallyQuotaSet_executing hx
    exact ⟨fun h => ⟨_, hrun.trans (congrArg _ (if_pos h)), executing_refuses hx rfl 1 0⟩,
      fun h => ⟨_, hrun.trans (congrArg _ (if_neg (Nat.not_lt.2 h))),
        executing_done (u := s.setTally n { s.tally n with quota := q }) hx rfl []⟩⟩

/-! ## Removing retained bytes (R355, R356, R358) -/

section
variable {β : Type} (g : State → β) (hliq : ∀ (u : State) f, g (u.modLiq f) = g u)
include hliq

/-- A part of the state that the buffer is no part of outlives a change of FATE. -/
theorem dlogFate_keeps (s : State) (t target space line fate : Nat) : g (dlogFate s t target space line fate) = g s := by
  unfold dlogFate
  dsimp only
  split
  · exact hliq _ _
  · rfl

/-- A part of the state that neither the buffer, nor the mirror, nor (where it counts) a counter is part of outlives a removal. -/
theorem liqRemove_keeps (hnote : ∀ u t r, g (mirrorNote u t r) = g u) {cnt : Nat} (hreg : cnt ≠ 0 → ∀ (u : State) n, g (u.addReg cnt n) = g u)
    (s : State) (p : LiqLine → Bool) (q : LiqLine → LiqByte → Bool) (fate : Nat) : g (liqRemove s p q fate cnt) = g s := by
  have hfate : ∀ (l : List LiqLine) (u : State), g (l.foldl (fun s l => dlogFate s l.tenant l.target l.space l.line fate) u) = g u :=
    fun l u => foldl_keeps g _ l u fun u x => dlogFate_keeps g hliq ..
  have htag : ∀ (l : List LiqLine) (u : State), g (l.foldl (fun s l => noteTag s l false) u) = g u :=
    fun l u => foldl_keeps g _ l u fun u x => hnote ..
  unfold liqRemove
  dsimp only
  split
  · rw [htag, hfate, hliq]
  · next hcnt => rw [hreg hcnt, htag, hfate, hliq]

theorem liqInvalidate_keeps (hnote : ∀ u t r, g (mirrorNote u t r) = g u) (hreg : ∀ (u : State) k n, g (u.addReg k n) = g u)
    (hreads : ∀ (u : State) f, g (u.modReads f) = g u) (s : State) (target space lo len : Nat) :
    g (liqInvalidate s target space lo len) = g s :=
  (hreads _ _).trans (liqRemove_keeps g hliq hnote (fun _ u n => hreg u _ n) ..)

end

/-- The lines that a removal leaves: those that still hold a byte. -/
theorem liqRemove_lines (s : State) (p : LiqLine → Bool) (q : LiqLine → LiqByte → Bool) (fate cnt : Nat) :
    (liqRemove s p q fate cnt).liq.lines
      = (s.liq.lines.map fun l => if p l then { l with bytes := l.bytes.filter fun b => !(q l b) } else l).filter fun l => !l.bytes.isEmpty := by
  have hfate : ∀ (l : List LiqLine) (u : State),
      (l.foldl (fun s l => dlogFate s l.tenant l.target l.space l.line fate) u).liq.lines = u.liq.lines :=
    fun l u => foldl_keeps (fun u => u.liq.lines) _ l u fun u x => by
      unfold dlogFate
      dsimp only
      split <;> rfl
  have htag : ∀ (l : List LiqLine) (u : State), (l.foldl (fun s l => noteTag s l false) u).liq.lines = u.liq.lines :=
    fun l u => foldl_keeps (fun u => u.liq.lines) _ l u fun u x => by
      unfold noteTag mirrorNote
      split <;> rfl
  unfold liqRemove
  dsimp only
  split
  · rw [htag, hfate]; rfl
  · refine (htag _ _).trans ?_
    rw [hfate]
    rfl

/-! ## LIQ_EXPIRE (R355, R360) -/

/-- The earliest expiry among a line's bytes. -/
def LiqLine.firstExpiry (l : LiqLine) : Nat := (l.bytes.map fun b => b.expires).foldl min (2 ^ 64)

/-- The buffer without the bytes of a line that have expired at the line's first expiry. -/
def lineExpired (s : State) (l : LiqLine) : State :=
  liqRemove (s.atTime l.firstExpiry) (fun x => decide (x = l)) (fun _ b => decide (b.expires ≤ max s.now l.firstExpiry)) 2 0

theorem liqExpireEff_whole {s : State} {i : Nat} {l : LiqLine} (hl : s.liq.lines[i]? = some l) (hpool : l.pool ≠ 0)
    (hall : ∀ b ∈ l.bytes, b.expires ≤ max s.now l.firstExpiry) : liqExpireEff s i = (lineExpired s l).incReg 0x1C0010 := by
  have hend : (l.bytes.all fun b => decide (b.expires ≤ max s.now l.firstExpiry)) = true := by simpa using hall
  unfold liqExpireEff
  rw [hl]
  exact (if_pos hend).trans (if_neg hpool)

theorem not_mem_lineExpired {s : State} {l : LiqLine} (hbytes : l.bytes ≠ []) (hall : ∀ b ∈ l.bytes, b.expires ≤ max s.now l.firstExpiry) :
    ∀ x ∈ (lineExpired s l).liq.lines, x ≠ l := by
  have hempty : (l.bytes.filter fun b => !decide (b.expires ≤ max s.now l.firstExpiry)) = [] := by
    rw [List.filter_eq_nil_iff]
    intro b hb
    simp [hall b hb]
  rintro x hx rfl
  rw [lineExpired, liqRemove_lines, List.mem_filter, List.mem_map] at hx
  obtain ⟨⟨y, -, hy⟩, -⟩ := hx
  by_cases hyx : y = x
  · subst hyx
    rw [if_pos (by simp), hempty] at hy
    exact hbytes (congrArg LiqLine.bytes hy).symm
  · rw [if_neg (by simpa using hyx)] at hy
    exact hyx hy

theorem lineExpired_now (s : State) (l : LiqLine) : (lineExpired s l).now = max s.now l.firstExpiry :=
  liqRemove_keeps State.now (fun _ _ => rfl) (fun u t r => by unfold mirrorNote; split <;> rfl) (fun h => absurd rfl h) ..

theorem lineExpired_reg (s : State) (l : LiqLine) (k : Nat) : (lineExpired s l).reg k = s.reg k :=
  liqRemove_keeps (State.reg · k) (fun _ _ => rfl) (fun u t r => by unfold mirrorNote; split <;> rfl) (fun h => absurd rfl h) ..

/-! ## Issuing a ticket (R362, R363) -/

theorem liqInvalidate_tally (s : State) (target space lo len m : Nat) : (liqInvalidate s target space lo len).tally m = s.tally m :=
  liqInvalidate_keeps (State.tally · m) (fun _ _ => rfl) (fun u t r => mirrorNote_tally u t r m) (fun _ _ _ => rfl) (fun _ _ => rfl) ..

theorem issueTicket_tally (s : State) (n target space addr len : Nat) (flood : Bool) (m : Nat) :
    (issueTicket s n target space addr len flood).2.tally m
      = if m = n then { s.tally n with
          issued := ticketSucc (s.tally n).issued
          unsettled := (s.tally n).unsettled
            ++ [{ ticket := ticketSucc (s.tally n).issued, addr := addr, target := target, space := space, flood := flood, detached := 0 }] }
        else s.tally m :=
  (liqInvalidate_tally ..).trans (State.modTally_tally ..)

/-! ## Settling (R367-R369) -/

theorem keepFailure_privOf (s : State) (t : Nat) (k : Kept) (n : Nat) : privOf (keepFailure s t k) n = privOf s n := rfl

section
variable {s : State} {n ticket addr : Nat}

theorem settle_absent (h : ∀ u ∈ (s.tally n).unsettled, u.ticket ≠ ticket) (cs : Nat) (ev : Option Ev) : settle s n ticket cs addr ev = s := by
  have hnone : (s.tally n).unsettled.find? (fun u => decide (u.ticket = ticket)) = none := by
    rw [List.find?_eq_none]
    simpa using h
  rw [settle, hnone]

/-- The unsettled ticket taken from its tenant's list. -/
def ticketDropped (s : State) (n ticket : Nat) : State :=
  s.modTally n fun q => { q with unsettled := dropFirst (fun u => decide (u.ticket = ticket)) q.unsettled }

theorem ticketDropped_leads (s : State) (n ticket t : Nat) : (ticketDropped s n ticket).leads t = s.leads t := rfl
theorem ticketDropped_privOf (s : State) (n ticket t : Nat) : privOf (ticketDropped s n ticket) t = privOf s t := rfl

variable {u : Unsettled} (hlead : s.leads n = false) (hu : (s.tally n).unsettled.find? (fun u => decide (u.ticket = ticket)) = some u)
include hlead hu

theorem settle_done (ev : Option Ev) : settle s n ticket Cs.done addr ev = ticketDropped s n ticket := by
  have hnote : mirrorNote (ticketDropped s n ticket) n (.outcome n ticket Cs.done) = ticketDropped s n ticket :=
    mirrorNote_unled ((ticketDropped_leads ..).trans hlead) _
  rw [settle, hu]
  exact (if_pos rfl).trans ((ite_congr rfl (fun _ => hnote) fun _ => rfl).trans (ite_self _))

/-- A failure of an attached ticket of a tenant without PRIV, with no record of its own: dropped, counted, kept. -/
theorem settle_fails {cs : Nat} (hpriv : privOf s n = false) (hdet : u.detached = 0) (hcs : cs ≠ Cs.done) :
    settle s n ticket cs addr none = keepFailure ((ticketDropped s n ticket).incReg (talBase n + 0x18)) n
      { ticket := ticket, cs := cs, addr := addr, target := u.target, space := u.space, flood := u.flood } := by
  have hnote : mirrorNote (ticketDropped s n ticket) n (.outcome n ticket cs) = ticketDropped s n ticket :=
    mirrorNote_unled ((ticketDropped_leads ..).trans hlead) _
  rw [settle, hu]
  dsimp only
  rw [if_neg hcs, if_pos hdet, if_pos hdet]
  simp only [Option.map_none, raiseOpt]
  rw [show s.modTally n _ = ticketDropped s n ticket from rfl, hnote]
  rw [latchFailure, keepFailure_privOf, State.incReg_privOf, ticketDropped_privOf, if_neg (by rw [hpriv]; decide)]

end

theorem keepOrdered_length (k : Kept) (l : List Kept) : (keepOrdered k l).length = l.length + 1 := by
  induction l with
  | nil => rfl
  | cons x l ih =>
    unfold keepOrdered
    split
    · rfl
    · rw [List.length_cons, ih, List.length_cons]

theorem keepFailure_room {s : State} {t : Nat} (h : (s.tally t).kept.length < 32) (k : Kept) :
    keepFailure s t k = s.setTally t { s.tally t with kept := keepOrdered k (s.tally t).kept } := by
  have hlen : (keepOrdered k (s.tally t).kept).length ≤ 32 := by rw [keepOrdered_length]; omega
  unfold keepFailure State.modTally
  dsimp only
  rw [if_pos hlen]

/-- Settles O22: `issueTicket_tally` issues, `settle_absent`, `settle_done` and `settle_fails` settle, and an expired line is gone by `not_mem_lineExpired` (R355, R358, R360, R375). -/
theorem ticketsSettleOnce : Obligations.TicketsSettleOnce := by
  unfold Obligations.TicketsSettleOnce
  refine ⟨?issue, fun s n ticket addr ev h cs => settle_absent h cs ev,
    fun s n ticket addr ev u hlead hu => settle_done hlead hu ev, ?fails, ?expire⟩
  case issue =>
    intro s n target space addr len flood r
    have htally := issueTicket_tally s n target space addr len flood
    refine ⟨rfl, ?_, ?_, fun m hm => (htally m).trans (if_neg hm)⟩
    · rw [htally, if_pos rfl]; rfl
    · rw [htally, if_pos rfl]; rfl
  case fails =>
    intro s n ticket cs addr u hlead hpriv hu hdet hcs hroom t k
    have hkept : (((ticketDropped s n ticket).incReg (talBase n + 0x18)).tally n).kept = (s.tally n).kept := by simp [ticketDropped]
    have ht := (settle_fails (addr := addr) hlead hu hpriv hdet hcs).trans (keepFailure_room (by rw [hkept]; exact hroom) k)
    change t = _ at ht
    clear_value t
    subst ht
    refine ⟨?_, ?_, ?_, rfl⟩
    · simp [State.incReg_reg, ticketDropped]
    · simp [ticketDropped]
    · simp [ticketDropped]
  case expire =>
    intro s i l hl hpool hbytes first hall
    have hrun : exec (.liqExpire i) s = .next ((lineExpired s l).incReg 0x1C0010) := congrArg Host.Outcome.next (liqExpireEff_whole hl hpool hall)
    refine ⟨_, hrun, ?_, ?_, ?_⟩
    · show _ = max s.now l.firstExpiry
      simp [lineExpired_now]
    · rw [State.incReg_reg, if_pos rfl, lineExpired_reg]
      rfl
    · simpa using not_mem_lineExpired hbytes hall

end Sys2Proof.Machine
end

section
/-! Settle fences (R371-R373): a fence begun, the end it has once its ticket is reached, its expiry, and who is told. -/

namespace Sys2Proof.Machine

/-! ## What a response leaves alone -/

/-- The state but for the mailboxes, the registers, the functions and the ports, which a response changes. -/
def State.unanswered (s : State) : State := { s with her := State.reset.her, regs := State.reset.regs, ep := State.reset.ep, out := State.reset.out }

theorem State.eq_of_unanswered {s t : State} (h : t.unanswered = s.unanswered) : t = { s with her := t.her, regs := t.regs, ep := t.ep, out := t.out } :=
  calc t = { t.unanswered with her := t.her, regs := t.regs, ep := t.ep, out := t.out } := rfl
    _ = { s.unanswered with her := t.her, regs := t.regs, ep := t.ep, out := t.out } := by rw [h]

@[simp] theorem State.modMb_unanswered (s : State) (k : Nat) (f : Mailbox → Mailbox) : (s.modMb k f).unanswered = s.unanswered := rfl
@[simp] theorem State.modHer_unanswered (s : State) (f : Herdin → Herdin) : (s.modHer f).unanswered = s.unanswered := rfl
@[simp] theorem State.incReg_unanswered (s : State) (k : Nat) : (s.incReg k).unanswered = s.unanswered := rfl
@[simp] theorem sendMsix_unanswered (s : State) (fn e : Nat) : (sendMsix s fn e).unanswered = s.unanswered := by rw [sendMsix_ep_out]; rfl

@[simp] theorem unanswered_ite (c : Prop) [Decidable c] (a b : State) :
    (if c then a else b).unanswered = if c then a.unanswered else b.unanswered := apply_ite State.unanswered c a b

@[simp] theorem respond_unanswered (s : State) (mb result cs reason detail : Nat) (payload : List Byte) :
    (respond s mb result cs reason detail payload).unanswered = s.unanswered := by
  unfold respond
  split
  · rfl
  · simp

/-- A response changes the mailboxes, the counters, the functions and the ports alone. -/
theorem respond_only (s : State) (mb result cs reason detail : Nat) (payload : List Byte) :
    respond s mb result cs reason detail payload = { s with
      her := (respond s mb result cs reason detail payload).her, regs := (respond s mb result cs reason detail payload).regs
      ep := (respond s mb result cs reason detail payload).ep, out := (respond s mb result cs reason detail payload).out } :=
  State.eq_of_unanswered (respond_unanswered ..)

theorem respond_tal (s : State) (mb result cs reason detail : Nat) (payload : List Byte) :
    (respond s mb result cs reason detail payload).tal = s.tal := by rw [respond_only]

/-! ## The end of a fence (R371, R372) -/

/-- The response that a fence ends with (R372). -/
def fenceBody (s : State) (f : Fence) (cs ticket addr : Nat) : List Byte :=
  fenceBytes (s.tally f.tenant) f.n ticket (if ticket = 0 then Cs.done else cs) addr f.clamped

/-- The fence taken from those that wait. -/
def fenceDropped (s : State) (f : Fence) : State := s.modTal fun x => { x with fences := x.fences.filter fun g => decide (g.id ≠ f.id) }

/-- The SETTLE descriptor `u` of a queue has its end. -/
def settleEnds (s : State) (q u cs ticket : Nat) : State :=
  s.modQ q fun x => { x with descs := x.descs.map fun d => if d.uid = u then { d with fence := none, final := some (cs, ticket) } else d }

section
variable (s : State) (f : Fence) (cs ticket addr : Nat)

theorem endFence_unwatched (hmb : f.mb = none) (hq : f.queue = none) : endFence s f cs ticket addr = fenceDropped s f := by
  unfold endFence
  rw [hmb, hq]
  rfl

theorem endFence_mailbox {mb : Nat} (hmb : f.mb = some mb) (hq : f.queue = none) :
    endFence s f cs ticket addr = ran (fenceDropped s f) mb cs (fenceBody s f cs ticket addr) := by
  unfold endFence
  rw [hmb, hq]
  rfl

theorem endFence_queue {q u : Nat} (hmb : f.mb = none) (hq : f.queue = some (q, u)) :
    endFence s f cs ticket addr = settleEnds (fenceDropped s f) q u cs ticket := by
  unfold endFence
  rw [hmb, hq]
  rfl

theorem endFence_tal : (endFence s f cs ticket addr).tal = (fenceDropped s f).tal := by
  unfold endFence
  dsimp only
  split
  · refine (respond_tal ..).trans ?_
    split <;> rfl
  · split <;> rfl

theorem endFence_fences : (endFence s f cs ticket addr).tal.fences = s.tal.fences.filter fun g => decide (g.id ≠ f.id) := by
  rw [endFence_tal]
  rfl

theorem endFence_tally (m : Nat) : (endFence s f cs ticket addr).tally m = s.tally m := by
  unfold State.tally
  rw [endFence_tal]
  rfl

end

/-! ## A fence whose ticket the frontier has reached, or not -/

section
variable {s : State} {f : Fence}

theorem fenceCheck_unreached (h : fenceReached (s.tally f.tenant) f.n = false) : fenceCheck s f = s := by simp [fenceCheck, h]

theorem fenceCheck_clean (h : fenceReached (s.tally f.tenant) f.n = true) (hk : fenceKept (s.tally f.tenant) f.n = []) :
    fenceCheck s f = endFence s f Cs.done 0 0 := by simp [fenceCheck, h, hk]

theorem fenceCheck_failed {k : Kept} {r : List Kept} (h : fenceReached (s.tally f.tenant) f.n = true) (hk : fenceKept (s.tally f.tenant) f.n = k :: r) :
    fenceCheck s f = endFence s f k.cs k.ticket k.addr := by simp [fenceCheck, h, hk]

theorem fenceExpiredEff_reached (h : fenceReached (s.tally f.tenant) f.n = true) : fenceExpiredEff s f = s := by simp [fenceExpiredEff, h]

/-- The record of a fence's expiry (R371). -/
def fenceExpiredEv (f : Fence) (u : Unsettled) : Ev :=
  { code := Ev.fenceExpired, src := 0x0300, tenant := f.tenant, cs := Cs.farTimeout, addr := u.addr, ticket := u.ticket }

theorem fenceExpiredEff_unreached {u : Unsettled} (h : fenceReached (s.tally f.tenant) f.n = false) (hu : fenceUnsettled (s.tally f.tenant) f.n = some u) :
    fenceExpiredEff s f = endFence ((s.atTime f.limitAt).raise (fenceExpiredEv f u)) f Cs.farTimeout u.ticket u.addr := by
  unfold fenceExpiredEff
  dsimp only
  rw [if_neg (by simp [h]), hu]
  rfl

variable (hf : s.tal.fences.find? (fun g => decide (g.id = f.id)) = some f)
include hf

theorem execSettleFenceEnd_found : execSettleFenceEnd f.id s = .next (fenceCheck s f) := by rw [execSettleFenceEnd, hf]

theorem execFenceExpired_found : execFenceExpired f.id s = .next (fenceExpiredEff s f) := by rw [execFenceExpired, hf]

end

/-! ## SETTLE_FENCE (R371, R372) -/

theorem waitCmd_exec {s : State} {mb : Nat} (h : s.her.exec = some mb) : (waitCmd s mb).her.exec = none := by simp [waitCmd, State.modHer, State.modMb, State.setMb, h]

theorem waitCmd_only {s : State} {mb : Nat} (h : s.her.exec = some mb) :
    waitCmd s mb = { s with her := { s.her with mb := (waitCmd s mb).her.mb, exec := none } } := by
  rw [← waitCmd_exec h]
  rfl

theorem waitCmd_mb (s : State) (mb m : Nat) : (waitCmd s mb).mb m = if m = mb then { s.mb mb with st := .waiting } else s.mb m :=
  State.modMb_mb s mb m fun x => { x with st := .waiting }

section
variable {s : State} {mb : Nat} {c : Cmd}

/-- The fence that a SETTLE_FENCE registers. -/
def fenceOf (s : State) (mb : Nat) (c : Cmd) : Fence :=
  { id := s.tal.nextFence, tenant := wordAt c.payload 4, n := (fenceTicket (s.tally (wordAt c.payload 4)) (wordAt c.payload 0)).1
    limitAt := s.now + fenceLimit s, mb := some mb, queue := none
    clamped := (fenceTicket (s.tally (wordAt c.payload 4)) (wordAt c.payload 0)).2 }

/-- The command waits and its fence is registered. -/
def fenceBegun (s : State) (mb : Nat) (c : Cmd) : State :=
  waitCmd (s.modTal fun x => { x with fences := x.fences ++ [fenceOf s mb c], nextFence := x.nextFence + 1 }) mb

theorem find_newFence {fs : List Fence} {f : Fence} (h : ∀ g ∈ fs, g.id < f.id) : (fs ++ [f]).find? (fun g => decide (g.id = f.id)) = some f := by
  have hold : fs.find? (fun g => decide (g.id = f.id)) = none := by
    rw [List.find?_eq_none]
    intro g hg
    simpa using (h g hg).ne
  simp [List.find?_append, hold]

theorem filter_newFence {fs : List Fence} {f : Fence} (h : ∀ g ∈ fs, g.id < f.id) : (fs ++ [f]).filter (fun g => decide (g.id ≠ f.id)) = fs := by
  have hold : fs.filter (fun g => decide (g.id ≠ f.id)) = fs := by
    rw [List.filter_eq_self]
    intro g hg
    simpa using (h g hg).ne
  rw [List.filter_append, hold]
  simp

theorem fenceBegun_fences (s : State) (mb : Nat) (c : Cmd) : (fenceBegun s mb c).tal.fences = s.tal.fences ++ [fenceOf s mb c] := rfl

theorem fenceBegun_tally (s : State) (mb : Nat) (c : Cmd) (n : Nat) : (fenceBegun s mb c).tally n = s.tally n := rfl

/-- The new fence looks at its tenant's tally as it was when the command began. -/
theorem fenceBegun_looks {β : Type} (look : TallyT → Nat → β) (s : State) (mb : Nat) (c : Cmd) :
    look ((fenceBegun s mb c).tally (fenceOf s mb c).tenant) (fenceOf s mb c).n
      = look (s.tally (wordAt c.payload 4)) (fenceTicket (s.tally (wordAt c.payload 4)) (wordAt c.payload 0)).1 := by
  rw [fenceBegun_tally]
  rfl

theorem settleFenceEff_foreign (h : ownsObject mb (wordAt c.payload 4) = false) : settleFenceEff s mb c = reject s mb Rej.notOwner := by
  simp [settleFenceEff, h]

theorem settleFenceEff_owned (hown : ownsObject mb (wordAt c.payload 4) = true) (hfol : s.followed (wordAt c.payload 4) = false)
    (hids : ∀ g ∈ s.tal.fences, g.id < s.tal.nextFence) : settleFenceEff s mb c = fenceCheck (fenceBegun s mb c) (fenceOf s mb c) := by
  have hfind : (fenceBegun s mb c).tal.fences.find? (fun f => decide (f.id = s.tal.nextFence)) = some (fenceOf s mb c) :=
    find_newFence (f := fenceOf s mb c) hids
  unfold settleFenceEff
  dsimp only
  rw [if_neg (by simp [hown]), if_neg (by simp [hfol])]
  show (match (fenceBegun s mb c).tal.fences.find? (fun f => decide (f.id = s.tal.nextFence)) with
    | some f => fenceCheck (fenceBegun s mb c) f
    | none => fenceBegun s mb c) = _
  rw [hfind]

theorem fenceBegun_mb (s : State) (mb : Nat) (c : Cmd) : (fenceBegun s mb c).mb mb = { s.mb mb with st := .waiting } :=
  (waitCmd_mb ..).trans (if_pos rfl)

theorem fenceBegun_exec (h : s.her.exec = some mb) : (fenceBegun s mb c).her.exec = none := waitCmd_exec h

theorem fenceBegun_only (h : s.her.exec = some mb) : fenceBegun s mb c = { s with
    tal := { s.tal with fences := (fenceBegun s mb c).tal.fences, nextFence := (fenceBegun s mb c).tal.nextFence }
    her := { s.her with mb := (fenceBegun s mb c).her.mb, exec := none } } :=
  waitCmd_only (s := s.modTal fun x => { x with fences := x.fences ++ [fenceOf s mb c], nextFence := x.nextFence + 1 }) h

end

/-! ## The commands and events -/

/-- Settles O21: SETTLE_FENCE registers its fence (`settleFenceEff_owned`), a fence ends by `fenceCheck`'s branch or expires (`fenceExpiredEff_unreached`), and `endFence` tells the one who waits. -/
theorem fencesWaitForSettling : Obligations.FencesWaitForSettling := by
  unfold Obligations.FencesWaitForSettling
  refine ⟨?command, ?ticket, ?ends, ?told⟩
  case command =>
    intro s mb c hx n f
    obtain ⟨hexec, hcmd, -, -⟩ := execCmd_some _ _ _ _ hx
    have hrun : exec .settleFence s = .next (settleFenceEff s mb c) := runCmd_executing hx settleFenceEff
    refine ⟨fun hown => ?foreign, fun hown hfol hreached hids => ?waits, fun hown hfol hreached hkept hids => ?done⟩
    case foreign => exact ⟨_, hrun.trans (congrArg _ (settleFenceEff_foreign hown)), executing_rejects hx _⟩
    case waits =>
      rw [settleFenceEff_owned hown hfol hids, fenceCheck_unreached ((fenceBegun_looks fenceReached s mb c).trans hreached)] at hrun
      exact ⟨_, hrun, fenceBegun_fences s mb c, rfl, fenceBegun_mb s mb c, fenceBegun_exec hexec, fenceBegun_only hexec⟩
    case done =>
      rw [settleFenceEff_owned hown hfol hids, 
        fenceCheck_clean ((fenceBegun_looks fenceReached s mb c).trans hreached) ((fenceBegun_looks fenceKept s mb c).trans hkept)] at hrun
      have hwait : (fenceDropped (fenceBegun s mb c) (fenceOf s mb c)).mb mb = { s.mb mb with st := .waiting } := fenceBegun_mb s mb c
      have hend := endFence_mailbox (fenceBegun s mb c) (fenceOf s mb c) Cs.done 0 0 (mb := mb) rfl rfl
      have hmb := respond_mb (s := fenceDropped (fenceBegun s mb c) (fenceOf s mb c)) (by rw [hwait]; exact hcmd) 0 Cs.done 0 0
        (fenceBody (fenceBegun s mb c) (fenceOf s mb c) Cs.done 0 0)
      refine ⟨_, hrun, ?_, ?_, ?_⟩
      · rw [hend]
        exact congrArg Mailbox.st hmb
      · rw [hend]
        exact congrArg Mailbox.rsp hmb
      · rw [endFence_fences]
        exact filter_newFence (f := fenceOf s mb c) hids
  case ticket =>
    intro q n
    unfold fenceTicket
    exact ⟨fun h => if_pos h, fun h ha => by rw [if_neg h, if_pos ha], fun h ha => by rw [if_neg h, if_neg (by simp [ha])]⟩
  case ends =>
    intro s f hf q
    have hend : exec (.settleFenceEnd f.id) s = .next (fenceCheck s f) := execSettleFenceEnd_found hf
    have hexp : exec (.fenceExpired f.id) s = .next (fenceExpiredEff s f) := execFenceExpired_found hf
    exact ⟨fun h => hend.trans (congrArg _ (fenceCheck_unreached h)), fun h => hexp.trans (congrArg _ (fenceExpiredEff_reached h)),
      fun h hk => hend.trans (congrArg _ (fenceCheck_clean h hk)), fun k r h hk => hend.trans (congrArg _ (fenceCheck_failed h hk)),
      fun u h hu hroom => ⟨_, hexp.trans (congrArg _ (fenceExpiredEff_unreached h hu)), raise_records _ (fenceExpiredEv f u) hroom rfl (.inr rfl)⟩⟩
  case told =>
    intro s f cs ticket addr t
    refine ⟨endFence_fences s f cs ticket addr, endFence_tally s f cs ticket addr, fun hmb hq => ?nobody, fun mb c hq hmb hc => ?mailbox,
      fun q u hq hmb => ?queue⟩
    case nobody =>
      have ht : t = fenceDropped s f := endFence_unwatched s f cs ticket addr hmb hq
      rw [ht]
      rfl
    case mailbox =>
      have ht : t = ran (fenceDropped s f) mb cs (fenceBody s f cs ticket addr) := endFence_mailbox s f cs ticket addr hmb hq
      have hresp := respond_mb (s := fenceDropped s f) hc 0 cs 0 0 (fenceBody s f cs ticket addr)
      rw [ht]
      exact ⟨congrArg Mailbox.st hresp, congrArg Mailbox.rsp hresp⟩
    case queue =>
      have ht : t = settleEnds (fenceDropped s f) q u cs ticket := endFence_queue s f cs ticket addr hmb hq
      rw [ht]
      exact ⟨State.modQ_q_same .., fun r hr => (State.modQ_q ..).trans (if_neg hr)⟩

end Sys2Proof.Machine
end

section
/-! Event records and the log's commands (R510-R521, R531): the queue of waiting records, the limits of a second, and severity; and one step of the queue of commands. -/

namespace Sys2Proof.Machine

/-! ## A record joins the queue, or is dropped (R518) -/

theorem enqueueRec_room {s : State} (h : s.log.waiting.length < 256) (r : EvRec) :
    enqueueRec s r = { s with log := { s.log with waiting := s.log.waiting ++ [r] } } := if_pos h

theorem enqueueRec_full {s : State} (h : 256 ≤ s.log.waiting.length) (r : EvRec) :
    enqueueRec s r = (s.incReg 0x580018).modLog fun l => { l with dropsOwed := l.dropsOwed + 1 } := if_neg (Nat.not_lt.2 h)

theorem raise_unlimited {s : State} {e : Ev} (hl : rateLimit e.code = 0) (hk : e.code ≠ Ev.contained ∨ e.key = 0) :
    s.raise e = enqueueRec s (mkRec s e none) := by
  have hkey : ¬(e.code = Ev.contained ∧ e.key ≠ 0) := fun h => hk.elim (fun hc => hc h.1) fun h0 => h.2 h0
  rw [State.raise, if_neg hkey, if_pos hl]

/-! ## The records of a limited kind (R531) -/

/-- The account that a limited event is counted under. -/
def rateKey (e : Ev) : Nat := e.code * 65536 + e.key

/-- A limited event's account as it stands. -/
def rateOf (s : State) (e : Ev) : Rate := Tbl.get rateInit s.log.rates (rateKey e)

/-- The number of records of an event's key that the present second has seen. -/
def writtenNow (s : State) (e : Ev) : Nat := if (rateOf s e).interval = s.now / 1000000000 + 1 then (rateOf s e).written else 0

/-- A limited event's account written. -/
def setRate (s : State) (e : Ev) (r : Rate) : State := s.modLog fun l => { l with rates := l.rates.set rateInit (rateKey e) r }

theorem raise_limited {s : State} {e : Ev} (hl : 0 < rateLimit e.code) (hc : e.code ≠ Ev.contained) :
    s.raise e = raiseLimited s e (rateLimit e.code) := by
  rw [State.raise, if_neg fun h => hc h.1, if_neg (Nat.pos_iff_ne_zero.1 hl)]

theorem raiseLimited_within {s : State} {e : Ev} {n : Nat} (h : writtenNow s e < n) :
    raiseLimited s e n = enqueueRec (setRate s e { interval := s.now / 1000000000 + 1, written := writtenNow s e + 1, suppressed := 0 })
      (mkRec s e (some ((rateOf s e).suppressed + 1))) := if_pos h

theorem raiseLimited_beyond {s : State} {e : Ev} {n : Nat} (h : n ≤ writtenNow s e) :
    raiseLimited s e n = setRate s e { interval := s.now / 1000000000 + 1, written := writtenNow s e, suppressed := (rateOf s e).suppressed + 1 } :=
  if_neg (Nat.not_lt.2 h)

theorem setRate_get (s : State) (e : Ev) (r : Rate) : Tbl.get rateInit (setRate s e r).log.rates (rateKey e) = r := Tbl.get_set_same ..

/-! ## Severity (R513) -/

theorem severityOf_device {e : Ev} (h : e.enters = 2) : severityOf e = 4 := if_pos (.inl h)

theorem severityOf_error {e : Ev} (h2 : e.enters ≠ 2) (hcrit : e.critical = false)
    (hcode : e.code ∉ [Ev.thermShutdown, Ev.bedLost, Ev.pllLost, Ev.islandWakeFail]) (h : (0x10 ≤ e.cs ∧ e.cs ≤ 0x22) ∨ e.enters = 1) :
    severityOf e = 3 := by
  have hnot : ¬(e.enters = 2 ∨ e.critical = true ∨ e.code ∈ [Ev.thermShutdown, Ev.bedLost, Ev.pllLost, Ev.islandWakeFail]) := by
    rintro (h | h | h)
    · exact h2 h
    · simp [hcrit] at h
    · exact hcode h
  exact (if_neg hnot).trans (if_pos h)

/-- Settles O23: an unlimited kind is `enqueueRec` with room or without, a limited one `raiseLimited` within or beyond its limit, severity the first match of R513. -/
theorem eventRecordsAreQueued : Obligations.EventRecordsAreQueued := by
  unfold Obligations.EventRecordsAreQueued
  refine ⟨fun s e hl hk => ?unlimited, ?limited, fun e h => severityOf_device h, fun e h2 hcrit hcode h => severityOf_error h2 hcrit hcode h⟩
  case unlimited =>
    rw [raise_unlimited hl hk]
    refine ⟨fun hroom => ⟨_, enqueueRec_room hroom _, rfl, rfl, rfl, rfl, rfl, rfl, rfl, rfl⟩, fun hfull => ?_⟩
    rw [enqueueRec_full hfull]
    exact ⟨rfl, (State.incReg_reg s _ _).trans (if_pos rfl), rfl⟩
  case limited =>
    intro s e n hl hn hc hroom k r w
    subst hl
    rw [raise_limited hn hc]
    refine ⟨fun hw => ?within, fun hw => ?beyond⟩
    case within =>
      rw [raiseLimited_within hw, enqueueRec_room (show (setRate s e _).log.waiting.length < 256 from hroom)]
      exact ⟨_, rfl, rfl, rfl, setRate_get ..⟩
    case beyond =>
      rw [raiseLimited_beyond hw]
      exact ⟨rfl, setRate_get ..⟩

/-! ## The log's commands (R516-R521) -/

section
variable {s : State} {mb : Nat} {c : Cmd}

theorem execLogRead_executing (hx : Executing s 0x0C00 mb c) : execLogRead s = .next (done s mb (readRsp
      (scanRecs (ringRec s) (mbTenant mb) s.log.seq 512 (byteAt c.payload 6) (readStart s (field c.payload 0 6)).1).1
      (scanRecs (ringRec s) (mbTenant mb) s.log.seq 512 (byteAt c.payload 6) (readStart s (field c.payload 0 6)).1).2
      (readStart s (field c.payload 0 6)).2)) := by
  unfold execLogRead
  rw [runCmd_executing hx]

theorem execLogFokRead_executing (hx : Executing s 0x0C01 mb c) : execLogFokRead s = .next (done s mb (readRsp
      (scanRecs (fokRec s) (mbTenant mb) 1664 512 (byteAt c.payload 6) (if field c.payload 0 6 = 0xFFFFFFFFFFFF then 0 else min 1664 (field c.payload 0 6))).1
      (scanRecs (fokRec s) (mbTenant mb) 1664 512 (byteAt c.payload 6) (if field c.payload 0 6 = 0xFFFFFFFFFFFF then 0 else min 1664 (field c.payload 0 6))).2
      false)) := by
  unfold execLogFokRead
  rw [runCmd_executing hx]

/-- The record of a LOG_MARK (R520). -/
def markEv (mb : Nat) (c : Cmd) : Ev := { code := Ev.logMark, src := 0xFFFF, tenant := mbTenant mb, data := c.payload }

theorem execLogMark_executing (hx : Executing s 0x0C02 mb c) : execLogMark s = .next (done (s.raise (markEv mb c)) mb []) :=
  runCmd_executing hx _

end

@[simp] theorem raise_her (s : State) (e : Ev) : (s.raise e).her = s.her := by rw [raise_only]

theorem execLogRecordCommit_oldest {s : State} {r : EvRec} {rest : List EvRec} (hready : s.log.ready = true) (hw : s.log.waiting = r :: rest) :
    execLogRecordCommit s = .next (oweDrops (commitRec { s with log := { s.log with waiting := rest } } r)) := by
  rw [execLogRecordCommit, if_pos hready, commitOne, hw]
  rfl

theorem execLogRecordCommit_unready {s : State} (h : s.log.ready = false) : execLogRecordCommit s = .next s := by
  simp [execLogRecordCommit, h]

/-- Settles O24: each row runs its command with its response, LOG_MARK with its record (`raise_records`), and a commit takes the head of the waiting records. -/
theorem logCommands : Obligations.LogCommands := by
  unfold Obligations.LogCommands
  refine ⟨?read, ?fok, fun s mb c hx hroom => ?mark, fun s r rest hready hw => execLogRecordCommit_oldest hready hw,
    fun s h => execLogRecordCommit_unready h⟩
  case read =>
    intro s mb c hx start found
    exact ⟨_, execLogRead_executing hx, executing_done hx rfl _⟩
  case fok =>
    intro s mb c hx n found
    exact ⟨_, execLogFokRead_executing hx, executing_done hx rfl _⟩
  case mark =>
    exact ⟨_, s.raise (markEv mb c), execLogMark_executing hx, executing_done hx (raise_her ..) [], raise_records s (markEv mb c) hroom rfl (.inr rfl)⟩

/-! ## One step (spec/95, log entries 1 and 2) -/

theorem step_pending {s : State} {c : Instr} {rest : List Instr} (h : s.pending = c :: rest) : step s = exec c { s with pending := rest } := by
  rw [step, h]

theorem step_idle {s : State} (h : s.pending = []) : step s = .next (idleTick s) := by rw [step, h]

/-- Settles O1: the two branches of `step`. -/
theorem commandsRunInOrder : Obligations.CommandsRunInOrder := by
  unfold Obligations.CommandsRunInOrder
  exact ⟨fun c rest s h => step_pending h, fun s h => step_idle h⟩

end Sys2Proof.Machine
end

section
/-! The parallel ports as masters: cycles and their endings (R299-R321), the rack bus shared (R310-R312), and the line monitor's faults (R323, R336). -/

namespace Sys2Proof.Machine

/-! ## The next access begins (R299) -/

section
variable {s : State} {p : Nat}

/-- The engine of a port may begin an access: in service, its lines free, its island up and no cycle open (R299, R300). -/
def mayBegin (s : State) (p : Nat) : Prop :=
  (s.port p).st = .inService ∧ (s.port p).rackReset = false ∧ (s.port p).watched = [] ∧ (s.port p).held = none ∧ cycleOpen (s.port p) = false
    ∧ domUp s (12 + p) = true ∧ s.tide.active = false

theorem masterCycleStartEff_mayBegin (h : mayBegin s p) : masterCycleStartEff s p = (nextStop (s.port p)).elim s fun stop =>
    if hasBus s p then startStop s p stop
    else if (s.port p).requesting then s
    else (s.modPort p fun q => { q with requesting := true }).emit (.portLine p 0 (arbCtl s p % 4) true) := by
  obtain ⟨hst, hreset, hwatched, hheld, hopen, hdom, htide⟩ := h
  unfold masterCycleStartEff
  rw [if_pos (by simp [hst, hreset, hwatched, hheld, hopen, hdom, htide])]
  cases nextStop (s.port p) <;> rfl

theorem masterCycleStartEff_idle (h : mayBegin s p) (hn : nextStop (s.port p) = none) : masterCycleStartEff s p = s := by
  rw [masterCycleStartEff_mayBegin h, hn]
  rfl

theorem masterCycleStartEff_starts (h : mayBegin s p) {stop : Nat} (hn : nextStop (s.port p) = some stop) (hb : hasBus s p = true) :
    masterCycleStartEff s p = startStop s p stop := by
  rw [masterCycleStartEff_mayBegin h, hn]
  exact if_pos hb

theorem masterCycleStartEff_requested (h : mayBegin s p) {stop : Nat} (hn : nextStop (s.port p) = some stop) (hb : hasBus s p = false)
    (hr : (s.port p).requesting = true) : masterCycleStartEff s p = s := by
  rw [masterCycleStartEff_mayBegin h, hn, Option.elim_some]
  simp [hb, hr]

theorem masterCycleStartEff_requests (h : mayBegin s p) {stop : Nat} (hn : nextStop (s.port p) = some stop) (hb : hasBus s p = false)
    (hr : (s.port p).requesting = false) :
    masterCycleStartEff s p = (s.modPort p fun q => { q with requesting := true }).emit (.portLine p 0 (arbCtl s p % 4) true) := by
  rw [masterCycleStartEff_mayBegin h, hn, Option.elim_some]
  simp [hb, hr]

/-! ## How a cycle ends (R320, R321) -/

theorem busCycleEndEff_idle (h : running s p = none) (e : BusEnd) : busCycleEndEff s p e = s := by rw [busCycleEndEff, h]
theorem timeoutOpen_idle (h : running s p = none) (code : Nat) : timeoutOpen s p code = s := by rw [timeoutOpen, h]
theorem targetRetryEff_idle (h : running s p = none) : targetRetryEff s p = s := by rw [targetRetryEff, h]

variable {o : OpenAcc} (ho : running s p = some o)
include ho

theorem busCycleEndEff_ack {d : List Byte} (hd : o.acc.kind = .write ∨ d.length = o.cur.2) (sm b : Nat) :
    busCycleEndEff s p (.ack d sm b) = afterCycle (ackCycle s p o d sm b) p := by
  rw [busCycleEndEff, ho]
  exact if_pos hd

theorem busCycleEndEff_short {d : List Byte} (hk : o.acc.kind ≠ .write) (hd : d.length ≠ o.cur.2) (sm b : Nat) :
    busCycleEndEff s p (.ack d sm b) = s := by
  rw [busCycleEndEff, ho]
  exact if_neg (not_or.2 ⟨hk, hd⟩)

theorem busCycleEndEff_berr : busCycleEndEff s p .berr = afterCycle (failOpen s p Cs.farError 0x28 o (some (endEv Ev.farError p))) p := by
  rw [busCycleEndEff, ho]

theorem timeoutOpen_running (code : Nat) :
    timeoutOpen s p code = afterCycle (failOpen (s.emit (.strobesOff p)) p Cs.farTimeout 0x2C o (some (endEv code p))) p := by
  rw [timeoutOpen, ho]

/-- The running access as a retry leaves it: closed, delayed, one retry more (R321). -/
def retried (o : OpenAcc) : OpenAcc := { o with isOpen := false, delaying := true, retries := o.retries + 1 }

/-- The port after a target's retry, before its boundary. -/
def retriedPort (s : State) (p : Nat) (o : OpenAcc) : State :=
  ((s.modPort p fun q => { q with opens := (q.opens.filter fun x => !x.isOpen) ++ [retried o] }).incReg (paReg p 0x30)).emit (.strobesOff p)

theorem targetRetryEff_retries (hk : portKind s p = 3) (hl : (roleLine (portTable s p) 0x85).isSome = true) :
    targetRetryEff s p = boundary (retriedPort s p o) p := by
  rw [targetRetryEff, ho]
  exact if_pos ⟨hk, hl⟩

theorem targetRetryEff_other (hk : portKind s p ≠ 3) : targetRetryEff s p = s := by
  rw [targetRetryEff, ho]
  exact if_neg fun h => hk h.1

end

section
variable (s : State) (p : Nat) (o : OpenAcc)

theorem retriedPort_opens : ((retriedPort s p o).port p).opens = ((s.port p).opens.filter fun x => !x.isOpen) ++ [retried o] := by
  simp [retriedPort]

theorem retriedPort_cycleOpen : cycleOpen ((retriedPort s p o).port p) = false := by
  unfold cycleOpen
  rw [retriedPort_opens]
  simp [retried]

theorem retriedPort_count : (retriedPort s p o).reg (paReg p 0x30) = s.reg (paReg p 0x30) + 1 := by
  simp [retriedPort, State.incReg_reg]

theorem retriedPort_only : retriedPort s p o = { s with
    ports := (retriedPort s p o).ports, regs := (retriedPort s p o).regs, out := (retriedPort s p o).out } := rfl

/-- The most retries an access is allowed (R321). -/
def retryLimit (s : State) (p : Nat) : Nat := clampTo 1 255 ((s.reg (paReg p 0x14)).toNat % 256)

/-- The state in which a delayed access fails at its retry limit: off the port, counted and latched (R210, R321). -/
def retryFailed (s : State) (p : Nat) (o : OpenAcc) : State :=
  latchErr ((s.modPort p fun q => { q with opens := dropFirst (fun x => x.delaying) q.opens }).incReg (paReg p 0x2C))
    p o.cur.1 Cs.farTimeout o.acc.space o.acc.stop false

theorem latchErr_reg {addr cs space stop k : Nat} {slave : Bool} (h0 : k ≠ paReg p 0x40) (h1 : k ≠ paReg p 0x44) (h2 : k ≠ paReg p 0x48) :
    (latchErr s p addr cs space stop slave).reg k = s.reg k := by
  simp [latchErr, State.setReg_reg, h0, h1, h2]

theorem retryFailed_count : (retryFailed s p o).reg (paReg p 0x2C) = s.reg (paReg p 0x2C) + 1 := by
  unfold retryFailed
  rw [latchErr_reg _ _ (by simp [paReg]) (by simp [paReg]) (by simp [paReg])]
  simp [State.incReg_reg]

/-- Latching an error changes registers alone. -/
theorem latchErr_only (addr cs space stop : Nat) (slave : Bool) : ∃ rs, latchErr s p addr cs space stop slave = { s with regs := rs } := ⟨_, rfl⟩

theorem retryFailed_only : retryFailed s p o = { s with ports := (retryFailed s p o).ports, regs := (retryFailed s p o).regs } := by
  unfold retryFailed
  obtain ⟨rs, hrs⟩ := latchErr_only ((s.modPort p fun q => { q with opens := dropFirst (fun x => x.delaying) q.opens }).incReg (paReg p 0x2C))
    p o.cur.1 Cs.farTimeout o.acc.space o.acc.stop false
  rw [hrs]
  rfl

theorem retryFailed_opens : ((retryFailed s p o).port p).opens = dropFirst (fun x => x.delaying) (s.port p).opens := by
  simp [retryFailed, latchErr]

theorem retryDelayEff_idle {s : State} {p : Nat} (h : ((s.port p).opens.find? fun o => o.delaying) = none) : retryDelayEff s p = s := by
  rw [retryDelayEff, h]

variable {s p o} (h : ((s.port p).opens.find? fun o => o.delaying) = some o)
include h

theorem retryDelayEff_ready (hlim : o.retries < retryLimit s p) : retryDelayEff s p =
    s.modPort p fun q => { q with opens := modFirst (fun x => x.delaying) (fun x => { x with delaying := false }) q.opens } := by
  rw [retryDelayEff, h]
  exact if_neg (Nat.not_le.2 hlim)

theorem retryDelayEff_fails (hlim : retryLimit s p ≤ o.retries) : retryDelayEff s p =
    afterCycle (failAccGot (retryFailed s p o) o.acc Cs.farTimeout o.cur.1 o.cur.2 o.got (some (endEv Ev.farRetryLimit p))) p := by
  rw [retryDelayEff, h]
  exact if_pos hlim

end

/-- Settles O48: each event of a port's cycle is one branch of its handler, with what that branch leaves of the port read off. -/
theorem portCyclesRun : Obligations.PortCyclesRun := by
  unfold Obligations.PortCyclesRun
  refine ⟨fun s p hst hreset hwatched hheld hopen hdom htide => ?_, fun s p h => ?_, fun s p o ho => ?_, fun s p h => ?_, fun s p o ho => ?_⟩
  · have hmay : mayBegin s p.val := ⟨hst, hreset, hwatched, hheld, hopen, hdom, htide⟩
    refine ⟨fun hn => congrArg Host.Outcome.next (masterCycleStartEff_idle hmay hn), fun stop hn => ⟨fun hb => congrArg Host.Outcome.next (masterCycleStartEff_starts hmay hn hb),
      fun hb hr => congrArg Host.Outcome.next (masterCycleStartEff_requested hmay hn hb hr), fun hb hr => ?_⟩⟩
    refine ⟨_, congrArg Host.Outcome.next (masterCycleStartEff_requests hmay hn hb hr), by simp, fun q hq => ?_, by simp, rfl⟩
    simp [State.modPort_port, hq]
  · exact ⟨fun e => congrArg Host.Outcome.next (busCycleEndEff_idle h e), congrArg Host.Outcome.next (timeoutOpen_idle h _), congrArg Host.Outcome.next (targetRetryEff_idle h)⟩
  · refine ⟨fun d sm b hd => congrArg Host.Outcome.next (busCycleEndEff_ack ho hd sm b), fun d sm b hk hd => congrArg Host.Outcome.next (busCycleEndEff_short ho hk hd sm b),
      congrArg Host.Outcome.next (busCycleEndEff_berr ho), congrArg Host.Outcome.next (timeoutOpen_running ho _), fun hk hl => ?_, fun hk => congrArg Host.Outcome.next (targetRetryEff_other ho hk)⟩
    refine ⟨_, retried o, congrArg Host.Outcome.next (targetRetryEff_retries ho hk hl), ?_, rfl, rfl, rfl, rfl, retriedPort_count .., retriedPort_cycleOpen ..,
      retriedPort_only ..⟩
    rw [retriedPort_opens]
    simp
  · exact congrArg Host.Outcome.next (retryDelayEff_idle h)
  · refine ⟨fun hlim => ⟨_, congrArg Host.Outcome.next (retryDelayEff_ready ho hlim), by simp, rfl⟩, fun hlim => ?_⟩
    exact ⟨_, congrArg Host.Outcome.next (retryDelayEff_fails ho hlim), retryFailed_opens .., retryFailed_count .., retryFailed_only ..⟩

end Sys2Proof.Machine
end

section
/-! The rack bus shared (R310-R312, R322), the line monitor's faults (R323, R336), and rack interrupts (R313-R317). -/

namespace Sys2Proof.Machine

/-! ## The bus taken and given up (R310-R312) -/

section
variable {s : State} {p : Nat}

theorem busGrantedEff_unasked (h : (s.port p).requesting = false) : busGrantedEff s p = s := by simp [busGrantedEff, h]

theorem busGrantedEff_contained (h : (s.port p).requesting = true) (hc : (s.port p).st = .contained) :
    busGrantedEff s p = (s.modPort p fun q => { q with requesting := false }).emit (.portLine p 0 0 false) := by simp [busGrantedEff, h, hc]

theorem busGrantedEff_takes (h : (s.port p).requesting = true) (hc : (s.port p).st ≠ .contained) :
    busGrantedEff s p = (s.modPort p fun q => { q with requesting := false, owned := true, ownedAt := s.now, releaseAsked := false }).emit
      (.portLine p 1 0 true) := by simp [busGrantedEff, h, hc]

end

/-- A port changed together with one line event: its neighbours and the rest of the state stand. -/
theorem modPort_emit_only (s : State) (p : Nat) (f : Port → Port) (o : Output) :
    ((s.modPort p f).emit o).port p = f (s.port p) ∧ (∀ q, q ≠ p → ((s.modPort p f).emit o).port q = s.port q)
      ∧ ((s.modPort p f).emit o).out = o :: s.out
      ∧ (s.modPort p f).emit o = { s with ports := ((s.modPort p f).emit o).ports, out := ((s.modPort p f).emit o).out } :=
  ⟨State.modPort_port_same .., fun _ hq => (State.modPort_port ..).trans (if_neg hq), rfl, rfl⟩

/-- A port changed: its neighbours and the rest of the state stand. -/
theorem modPort_only (s : State) (p : Nat) (f : Port → Port) :
    (s.modPort p f).port p = f (s.port p) ∧ (∀ q, q ≠ p → (s.modPort p f).port q = s.port q)
      ∧ s.modPort p f = { s with ports := (s.modPort p f).ports } :=
  ⟨State.modPort_port_same .., fun _ hq => (State.modPort_port ..).trans (if_neg hq), rfl⟩

/-- A record queued is all that raising an event of a kind without a limit changes, so a port changed before it is as it was. -/
theorem modPort_raise_records {s : State} (p : Nat) (f : Port → Port) {e : Ev} (hr : LogRoom s) (hl : rateLimit e.code = 0)
    (hc : e.code ≠ Ev.contained ∨ e.key = 0) :
    ((s.modPort p f).raise e).port p = f (s.port p) ∧ Records { s with ports := ((s.modPort p f).raise e).ports } ((s.modPort p f).raise e) e := by
  have hrec : Records (s.modPort p f) ((s.modPort p f).raise e) e := raise_records _ e hr hl hc
  refine ⟨?_, ?_⟩
  · rw [State.port, raise_ports]
    exact State.modPort_port_same ..
  · rw [raise_ports]
    exact hrec

section
variable {s : State} {p : PortId}

theorem execBusReleaseRequest_kept {b : Bool} (h : (s.port p.val).owned = false ∨ mustRelease s p.val b = false) :
    execBusReleaseRequest p b s = .next s := by
  rcases h with h | h <;> simp [execBusReleaseRequest, h]

theorem execBusReleaseRequest_asks {b : Bool} (ho : (s.port p.val).owned = true) (hm : mustRelease s p.val b = true) :
    execBusReleaseRequest p b s = .next (boundary (s.modPort p.val fun q => { q with releaseAsked := true }) p.val) :=
  congrArg Host.Outcome.next (if_pos ⟨ho, hm⟩)

theorem execOwnLimitExpire_unowned (h : (s.port p.val).owned = false) : execOwnLimitExpire p s = .next s := by simp [execOwnLimitExpire, h]

theorem execOwnLimitExpire_asks (h : (s.port p.val).owned = true) : execOwnLimitExpire p s = .next (boundary
    ((s.atTime ((s.port p.val).ownedAt + ownLimit s p.val)).modPort p.val fun q => { q with releaseAsked := true }) p.val) :=
  congrArg Host.Outcome.next (if_pos h)

theorem execArbiterRequest_ignored {l : Fin 4} (h : (s.port p.val).st ≠ .inService ∨ arbServes s p.val l.val = false) :
    execArbiterRequest p l s = .next s := by
  rcases h with h | h <;> simp [execArbiterRequest, h]

theorem execArbiterRequest_grants {l : Fin 4} (hst : (s.port p.val).st = .inService) (ha : arbServes s p.val l.val = true) :
    execArbiterRequest p l s = .next ((s.modPort p.val fun q => { q with grant := some l.val }).emit (.portLine p.val 2 l.val true)) :=
  congrArg Host.Outcome.next (if_pos ⟨hst, ha⟩)

theorem execRackArbTimeout_ungranted (h : (s.port p.val).grant = none) : execRackArbTimeout p s = .next s := by rw [execRackArbTimeout, h]

theorem execRackArbTimeout_withdraws {l : Nat} (h : (s.port p.val).grant = some l) : execRackArbTimeout p s = .next
    (((s.modPort p.val fun q => { q with grant := none }).emit (.portLine p.val 2 l false)).raise
      { code := Ev.rackArbTimeout, src := srcPort p.val, data := leBytes 1 l }) := by rw [execRackArbTimeout, h]

theorem arbTimeout_records {l : Nat} (hr : LogRoom s) :
    let u := (s.modPort p.val fun q => { q with grant := none }).emit (.portLine p.val 2 l false)
    let e : Ev := { code := Ev.rackArbTimeout, src := srcPort p.val, data := leBytes 1 l }
    ((u.raise e).port p.val).grant = none ∧ (u.raise e).out = .portLine p.val 2 l false :: s.out
      ∧ Records { s with ports := (u.raise e).ports, out := (u.raise e).out } (u.raise e) e := by
  intro u e
  have hrec : Records u (u.raise e) e := raise_records u e hr rfl (.inr rfl)
  have hu : u.port p.val = { s.port p.val with grant := none } := (modPort_emit_only s p.val _ _).1
  have hout : (u.raise e).out = u.out := by rw [hrec]
  refine ⟨?_, hout, ?_⟩
  · rw [State.port, raise_ports]
    exact congrArg Port.grant hu
  · rw [raise_ports, hout]
    exact hrec

/-! ## The system controller (R311) -/

/-- The bus timer of the system controller runs on a port in service (R311). -/
def sysTimerOn (s : State) (p : Nat) : Prop := isSysctl s p = true ∧ bit (arbCtl s p) 6 = true ∧ (s.port p).st = .inService

/-- BERR* pulsed by the system controller. -/
def berrPulsed (s : State) (p : Nat) : State := (s.emit (.portLine p 4 0 true)).emit (.portLine p 4 0 false)

end

section
variable {s : State} {p : Nat}

theorem sysBusTimerEff_off (h : ¬sysTimerOn s p) : sysBusTimerEff s p = s := if_neg h

theorem sysBusTimerEff_own {o : OpenAcc} (h : sysTimerOn s p) (ho : running s p = some o) :
    sysBusTimerEff s p = timeoutOpen (berrPulsed s p) p Ev.farTimeout := by
  obtain ⟨hsys, hbit, hst⟩ := h
  have hrun : running ((s.emit (.portLine p 4 0 true)).emit (.portLine p 4 0 false)) p = some o := ho
  unfold sysBusTimerEff
  rw [if_pos ⟨hsys, hbit, hst⟩]
  dsimp only
  rw [hrun]
  rfl

theorem sysBusTimerEff_foreign (h : sysTimerOn s p) (ho : running s p = none) :
    sysBusTimerEff s p = finishStop (abandonRack (berrPulsed s p) p) p := by
  obtain ⟨hsys, hbit, hst⟩ := h
  have hrun : running ((s.emit (.portLine p 4 0 true)).emit (.portLine p 4 0 false)) p = none := ho
  unfold sysBusTimerEff
  rw [if_pos ⟨hsys, hbit, hst⟩]
  dsimp only
  rw [hrun]
  rfl

theorem sysresetGo_ignored (h : isSysctl s p = false ∨ (s.port p).st ≠ .inService) : sysresetGo s p = s := by
  rcases h with h | h <;> simp [sysresetGo, h]

theorem sysresetGo_pulses (hc : isSysctl s p = true) (hst : (s.port p).st = .inService) :
    sysresetGo s p = (s.modPort p fun q => { q with sysreset := true }).emit (.portLine p 5 0 true) := if_pos ⟨hc, hst⟩

theorem rackResetEff_seen (h : (s.port p).rackReset = true) : rackResetEff s p = s := if_pos h

theorem rackResetEff_unseen (h : (s.port p).rackReset = false) : rackResetEff s p =
    if monitorRuns s p then rackResetSeen (s.modPort p fun q => { q with rackReset := true }) p else s.modPort p fun q => { q with rackReset := true } := by
  have hmon : monitorRuns (s.modPort p fun q => { q with rackReset := true }) p = monitorRuns s p := by simp [monitorRuns]
  unfold rackResetEff
  rw [if_neg (by simp [h]), ← hmon]

end

section
variable {s : State} {p : PortId}

theorem execSysresetPulseEnd_idle (h : (s.port p.val).sysreset = false) : execSysresetPulseEnd p s = .next s := by simp [execSysresetPulseEnd, h]

theorem execSysresetPulseEnd_ends (h : (s.port p.val).sysreset = true) : execSysresetPulseEnd p s
    = .next ((s.modPort p.val fun q => { q with sysreset := false }).emit (.portLine p.val 5 0 false)) := congrArg Host.Outcome.next (if_pos h)

theorem execRackResetEnd_idle (h : (s.port p.val).rackReset = false) : execRackResetEnd p s = .next s := by simp [execRackResetEnd, h]

theorem execRackResetEnd_ends (h : (s.port p.val).rackReset = true) : execRackResetEnd p s = .next
    (if monitorRuns s p.val then (s.modPort p.val fun q => { q with rackReset := false }).raise { code := Ev.rackResetEnd, src := srcPort p.val }
     else s.modPort p.val fun q => { q with rackReset := false }) := by
  have hmon : monitorRuns (s.modPort p.val fun q => { q with rackReset := false }) p.val = monitorRuns s p.val := by simp [monitorRuns]
  unfold execRackResetEnd
  rw [if_pos h, ← hmon]

theorem execBprnPass_passes (hk : portKind s p.val = 2) (hst : (s.port p.val).st = .inService) (hr : (s.port p.val).requesting = false) :
    execBprnPass p s = .next (s.emit (.portLine p.val 7 0 true)) := by simp [execBprnPass, hk, hst, hr]

theorem execBprnPass_ignored (h : portKind s p.val ≠ 2 ∨ (s.port p.val).st ≠ .inService ∨ (s.port p.val).requesting = true) :
    execBprnPass p s = .next s := by
  rcases h with h | h | h <;> simp [execBprnPass, h]

end

/-- Settles O49: each event of the shared bus is one branch of its handler, with the port and the lines it leaves read off. -/
theorem portsShareTheRackBus : Obligations.PortsShareTheRackBus := by
  unfold Obligations.PortsShareTheRackBus
  refine ⟨fun s p => ⟨fun h => congrArg Host.Outcome.next (busGrantedEff_unasked h), fun h => ?_⟩,
    fun s p b => ⟨execBusReleaseRequest_kept, fun ho hm => ?_⟩, fun s p => ⟨execOwnLimitExpire_unowned, fun h => ?_⟩,
    fun s p l => ⟨execArbiterRequest_ignored, fun hst ha => ?_⟩, fun s p => ⟨execRackArbTimeout_ungranted, fun l h hr => ?_⟩, fun s p => ?_,
    fun s p => ⟨fun hc hst => ?_, fun h => congrArg Host.Outcome.next (sysresetGo_ignored h), execSysresetPulseEnd_idle, fun h => ?_⟩,
    fun s p => ⟨fun h => congrArg Host.Outcome.next (rackResetEff_seen h), fun h => ?_, execRackResetEnd_idle, fun h hr => ?_⟩,
    fun s p => ⟨execBprnPass_passes, execBprnPass_ignored⟩⟩
  · by_cases hc : (s.port p.val).st = .contained
    · obtain ⟨hsame, hother, -, honly⟩ := modPort_emit_only s p.val (fun q => { q with requesting := false }) (.portLine p.val 0 0 false)
      exact ⟨_, congrArg Host.Outcome.next (busGrantedEff_contained h hc), hother, honly, fun _ => hsame, fun hn => absurd hc hn⟩
    · obtain ⟨hsame, hother, -, honly⟩ := modPort_emit_only s p.val
        (fun q => { q with requesting := false, owned := true, ownedAt := s.now, releaseAsked := false }) (.portLine p.val 1 0 true)
      exact ⟨_, congrArg Host.Outcome.next (busGrantedEff_takes h hc), hother, honly, fun hn => absurd hn hc, fun _ => hsame⟩
  · exact ⟨_, execBusReleaseRequest_asks ho hm, modPort_only s p.val _⟩
  · exact ⟨_, execOwnLimitExpire_asks h, congrArg Port.releaseAsked (modPort_only _ p.val _).1, rfl, rfl⟩
  · obtain ⟨hsame, -, hout, honly⟩ := modPort_emit_only s p.val (fun q => { q with grant := some l.val }) (.portLine p.val 2 l.val true)
    exact ⟨_, execArbiterRequest_grants hst ha, hsame, hout, honly⟩
  · exact ⟨_, execRackArbTimeout_withdraws h, arbTimeout_records hr⟩
  · intro on u
    exact ⟨fun h => congrArg Host.Outcome.next (sysBusTimerEff_off h), fun o h ho => congrArg Host.Outcome.next (sysBusTimerEff_own h ho),
      fun h ho => congrArg Host.Outcome.next (sysBusTimerEff_foreign h ho)⟩
  · obtain ⟨hsame, -, hout, honly⟩ := modPort_emit_only s p.val (fun q => { q with sysreset := true }) (.portLine p.val 5 0 true)
    exact ⟨_, congrArg Host.Outcome.next (sysresetGo_pulses hc hst), hsame, hout, honly⟩
  · obtain ⟨hsame, -, hout, honly⟩ := modPort_emit_only s p.val (fun q => { q with sysreset := false }) (.portLine p.val 5 0 false)
    exact ⟨_, execSysresetPulseEnd_ends h, hsame, hout, honly⟩
  · obtain ⟨hsame, -, honly⟩ := modPort_only s p.val (fun q => { q with rackReset := true })
    exact ⟨_, hsame, honly, fun hm => congrArg Host.Outcome.next ((rackResetEff_unseen h).trans (if_pos hm)),
      fun hm => congrArg Host.Outcome.next ((rackResetEff_unseen h).trans (if_neg (by simp [hm])))⟩
  · cases hm : monitorRuns s p.val with
    | true =>
      obtain ⟨hsame, hrec⟩ := modPort_raise_records p.val (fun q => { q with rackReset := false })
        (e := { code := Ev.rackResetEnd, src := srcPort p.val }) hr rfl (.inr rfl)
      exact ⟨_, (execRackResetEnd_ends h).trans (congrArg Host.Outcome.next (if_pos hm)), hsame, fun _ => hrec, nofun⟩
    | false =>
      obtain ⟨hsame, -, honly⟩ := modPort_only s p.val (fun q => { q with rackReset := false })
      exact ⟨_, (execRackResetEnd_ends h).trans (congrArg Host.Outcome.next (if_neg (by simp [hm]))), hsame, nofun, fun _ => honly⟩

end Sys2Proof.Machine
end

section
/-! The line monitor of a port: what contains it, what is only recorded, and a line negated again (R311, R323, R336). -/

namespace Sys2Proof.Machine

section
variable {s : State} {p : Nat}

theorem stuckLineEff_contains {l : Nat} (hm : monitorRuns s p = true) (hw : isWatched s p l = true) (ho : cycleOpen (s.port p) = false) :
    stuckLineEff s p l = enterPort (s.modPort p fun q => { q with watched := insertAsc l q.watched }) p 0 :=
  if_pos ⟨hm, hw, by simp [ho]⟩

theorem stuckLineEff_ignored {l : Nat} (h : monitorRuns s p = false ∨ isWatched s p l = false ∨ cycleOpen (s.port p) = true) :
    stuckLineEff s p l = s := by
  rcases h with h | h | h <;> simp [stuckLineEff, h]

theorem sysfailEff_ignored (h : monitorRuns s p = false ∨ portKind s p = 2 ∨ (s.port p).sysfail = true) : sysfailEff s p = s := by
  rcases h with h | h | h <;> simp [sysfailEff, h]

theorem sysfailEff_seen (hm : monitorRuns s p = true) (hk : portKind s p ≠ 2) (hs : (s.port p).sysfail = false) :
    sysfailEff s p = if (s.reg (paReg p 0x10)).getLsbD 0 then
        (s.modPort p fun q => { q with sysfail := true }).raise { code := Ev.rackSysfail, src := srcPort p }
      else enterPort (s.modPort p fun q => { q with sysfail := true }) p 2 :=
  if_pos ⟨hm, hk, by simp [hs]⟩

theorem personalityFaultEff_contains {f : Bool} (l : Nat) (hm : monitorRuns s p = true) (hb : f = true → hasBus s p = true) :
    personalityFaultEff s p f l = enterPort (s.setReg (paReg p 0x1008) (w32 ((if f then 3 else 1) + l * 256))) p 3 := by
  refine if_pos ⟨hm, ?_⟩
  cases f with
  | true => exact .inr (hb rfl)
  | false => exact .inl rfl

theorem personalityFaultEff_ignored {f : Bool} (l : Nat) (h : monitorRuns s p = false ∨ (f = true ∧ hasBus s p = false)) :
    personalityFaultEff s p f l = s := by
  rcases h with h | ⟨hf, hb⟩
  · simp [personalityFaultEff, h]
  · simp [personalityFaultEff, hf, hb]

end

section
variable {s : State} {p : PortId}

theorem execNoGrant_contains (hr : (s.port p.val).requesting = true) (hst : (s.port p.val).st = .inService ∨ (s.port p.val).st = .stopping) :
    execNoGrant p s = .next (enterPort s p.val 1) := congrArg Host.Outcome.next (if_pos ⟨hr, hst⟩)

theorem execNoGrant_ignored (h : (s.port p.val).requesting = false ∨ ¬((s.port p.val).st = .inService ∨ (s.port p.val).st = .stopping)) :
    execNoGrant p s = .next s := by
  refine congrArg Host.Outcome.next (if_neg ?_)
  rintro ⟨hr, hst⟩
  rcases h with h | h
  · rw [h] at hr
    cases hr
  · exact h hst

theorem execRackAcfail_records (hk : portKind s p.val = 1) (hm : monitorRuns s p.val = true) (ha : (s.port p.val).acfail = false) :
    execRackAcfail p s = .next ((s.modPort p.val fun q => { q with acfail := true }).raise { code := Ev.rackAcfail, src := srcPort p.val }) :=
  congrArg Host.Outcome.next (if_pos ⟨hk, hm, by simp [ha]⟩)

theorem execRackAcfail_ignored (h : portKind s p.val ≠ 1 ∨ monitorRuns s p.val = false ∨ (s.port p.val).acfail = true) :
    execRackAcfail p s = .next s := by
  rcases h with h | h | h <;> simp [execRackAcfail, h]

/-- A port with one line negated (R323). -/
def lineNegated (s : State) (p l : Nat) (q : Port) : Port :=
  { q with watched := q.watched.filter fun x => decide (x ≠ l)
           sysfail := q.sysfail && decide (lineRole (portTable s p) l ≠ sysfailRole s p)
           acfail := q.acfail && !decide (portKind s p = 1 ∧ lineRole (portTable s p) l = 0x27) }

theorem execWatchedLineNegated_eq (l : Fin 49) : execWatchedLineNegated p l s = .next (s.modPort p.val (lineNegated s p.val l.val)) := rfl

end

/-- Settles O50: each fault of the line monitor is one branch of its handler; containment itself is `enterPort`. -/
theorem portFaultsContain : Obligations.PortFaultsContain := by
  unfold Obligations.PortFaultsContain
  refine ⟨fun s p l => ⟨fun hm hw ho => ?_, fun h => congrArg Host.Outcome.next (stuckLineEff_ignored h), ?_⟩,
    fun s p => ⟨execNoGrant_contains, execNoGrant_ignored⟩,
    fun s p => ⟨fun hm hk hs => ?_, fun h => congrArg Host.Outcome.next (sysfailEff_ignored h)⟩,
    fun s p => ⟨fun hk hm ha hr => ?_, execRackAcfail_ignored⟩,
    fun s p f l => ⟨fun hm hb => congrArg Host.Outcome.next (personalityFaultEff_contains l.val hm hb),
      fun h => congrArg Host.Outcome.next (personalityFaultEff_ignored l.val h)⟩⟩
  · obtain ⟨hsame, -, honly⟩ := modPort_only s p.val fun q => { q with watched := insertAsc l.val q.watched }
    exact ⟨_, congrArg Host.Outcome.next (stuckLineEff_contains hm hw ho), hsame, honly⟩
  · obtain ⟨hsame, hother, honly⟩ := modPort_only s p.val (lineNegated s p.val l.val)
    refine ⟨_, execWatchedLineNegated_eq l, ?_, fun x hx => ?_, hother, fun hrole => ?_, fun hk hrole => ?_, honly⟩
    all_goals rw [hsame]
    · simp [lineNegated]
    · simp [lineNegated, hx]
    · simp [lineNegated, hrole]
    · simp [lineNegated, hk, hrole]
  · obtain ⟨hsame, -, honly⟩ := modPort_only s p.val fun q => { q with sysfail := true }
    exact ⟨_, hsame, honly, fun hlog => congrArg Host.Outcome.next ((sysfailEff_seen hm hk hs).trans (if_pos hlog)),
      fun hlog => congrArg Host.Outcome.next ((sysfailEff_seen hm hk hs).trans (if_neg (ne_true_of_eq_false hlog)))⟩
  · exact ⟨_, execRackAcfail_records hk hm ha, modPort_raise_records p.val (fun q => { q with acfail := true }) hr rfl (.inr rfl)⟩

end Sys2Proof.Machine
end

section
/-! Rack interrupts: levels served and reported, PENDING cleared, and the device's own interrupt (R313-R317). -/

namespace Sys2Proof.Machine

section
variable {s : State} {p : PortId} {l : Fin 8} {e : IackEnd}

/-- The row serves the level: an assertion of a level that waits for no retry, or the retry of one that does (R313, R316). -/
def servesLevel (s : State) (p : PortId) (l : Fin 8) (e : IackEnd) (row : Instr) : Prop :=
  (row = .rackIrqAssert p l e ∧ l.val ∉ (s.port p.val).irqRetry) ∨ (row = .rackIackRetry p l e ∧ l.val ∈ (s.port p.val).irqRetry)

theorem irqRows_ineligible (h : irqEligible s p.val l.val = false) : execRackIrqAssert p l e s = .next s ∧ execRackIackRetry p l e s = .next s := by
  simp [execRackIrqAssert, execRackIackRetry, h]

theorem execRackIrqAssert_retrying (h : l.val ∈ (s.port p.val).irqRetry) : execRackIrqAssert p l e s = .next s := by simp [execRackIrqAssert, h]
theorem execRackIackRetry_fresh (h : l.val ∉ (s.port p.val).irqRetry) : execRackIackRetry p l e s = .next s := by simp [execRackIackRetry, h]

theorem exec_servesLevel {row : Instr} (hel : irqEligible s p.val l.val = true) (h : servesLevel s p l e row) :
    exec row s = .next (irqServe s p.val l.val e) := by
  rcases h with ⟨rfl, hl⟩ | ⟨rfl, hl⟩
  · exact congrArg Host.Outcome.next (if_pos ⟨hel, hl⟩)
  · exact congrArg Host.Outcome.next (if_pos ⟨hel, hl⟩)

end

section
variable {s : State} {p l : Nat}

theorem irqServe_plain (h : portKind s p ≠ 1) (e : IackEnd) : irqServe s p l e = irqReport s p l (w32 l) := if_neg h

/-- The state in which an interrupt acknowledge cycle of a level runs: begun, and its retry over (R313, R316). -/
def iackBegun (s : State) (p l : Nat) : State :=
  (s.emit (.iackCycle p l)).modPort p fun q => { q with irqRetry := q.irqRetry.filter fun n => decide (n ≠ l) }

theorem irqServe_id (h : portKind s p = 1) (v : Word) : irqServe s p l (.id v)
    = irqReport (iackBegun s p l) p l (w32 (v.toNat % 2 ^ (8 * 2 ^ min 2 (routeIack (iackBegun s p l) p l)))) := if_pos h
theorem irqServe_berr (h : portKind s p = 1) : irqServe s p l .berr = iackFail (iackBegun s p l) p l Cs.farError := if_pos h
theorem irqServe_timeout (h : portKind s p = 1) : irqServe s p l .timeout = iackFail (iackBegun s p l) p l Cs.farTimeout := if_pos h

end

/-- One register written: the others and the rest of the state stand. -/
theorem setReg_only (s : State) (k : Nat) (v : Word) :
    (s.setReg k v).reg k = v ∧ (∀ j, j ≠ k → (s.setReg k v).reg j = s.reg j) ∧ s.setReg k v = { s with regs := (s.setReg k v).regs } :=
  ⟨State.setReg_reg_same .., fun _ hj => (State.setReg_reg ..).trans (if_neg hj), rfl⟩

section
variable {s : State} {fn p l : Nat} (v : Word)

theorem rirqClear_physical : rirqClear s 0 p l v = s.setReg (irqhReg p l 2) (clearBits (s.reg (irqhReg p l 2)) (v &&& 3#32)) := rfl

theorem rirqClear_tenant (hf : 2 ≤ fn) (ht : routeTenant s p l = tenantOf fn) (hu : (s.reg (irqhReg p l 2)).getLsbD 1 = false) :
    rirqClear s fn p l v = s.setReg (irqhReg p l 2) (clearBits (s.reg (irqhReg p l 2)) (v &&& 1#32)) := by
  unfold rirqClear
  rw [if_neg (by omega), if_pos ⟨hf, ht, congrArg (!·) hu⟩]

theorem rirqClear_ignored (h0 : fn ≠ 0) (h : fn < 2 ∨ routeTenant s p l ≠ tenantOf fn ∨ (s.reg (irqhReg p l 2)).getLsbD 1 = true) :
    rirqClear s fn p l v = s := by
  refine (if_neg h0).trans (if_neg ?_)
  rintro ⟨hf, ht, hu⟩
  rcases h with h | h | h
  · omega
  · exact h ht
  · rw [h] at hu
    cases hu

end

section
variable {s : State} {p : PortId} {l : Fin 8}

theorem execIackinPass_passes (hk : portKind s p.val = 1) (hst : (s.port p.val).st = .inService) (hi : irqiOn s p.val l.val = false) :
    execIackinPass p l s = .next (s.emit (.portLine p.val 3 l.val true)) := by simp [execIackinPass, hk, hst, hi]

theorem execIackinPass_ignored (h : portKind s p.val ≠ 1 ∨ (s.port p.val).st ≠ .inService ∨ irqiOn s p.val l.val = true) :
    execIackinPass p l s = .next s := by
  rcases h with h | h | h <;> simp [execIackinPass, h]

end

/-! ## The interrupter (R317) -/

section
variable {s : State} {p : Nat}

theorem irqiRaiseEff_raises (hst : (s.port p).st = .inService) (h0 : s.reg (paReg p 0x18C) = 0) (hr : (s.port p).rackReset = false)
    (hl : portKind s p ≠ 1 ∨ (s.reg (paReg p 0x180)).toNat % 8 ≠ 0) :
    irqiRaiseEff s p = (s.setReg (paReg p 0x18C) 1#32).emit (.portLine p 6 ((s.reg (paReg p 0x180)).toNat % 8) true) :=
  if_pos ⟨hst, h0, by simp [hr], hl⟩

theorem irqiRaiseEff_ignored (h : (s.port p).st ≠ .inService ∨ s.reg (paReg p 0x18C) ≠ 0 ∨ (s.port p).rackReset = true) : irqiRaiseEff s p = s := by
  refine if_neg ?_
  rintro ⟨hst, h0, hr, -⟩
  rcases h with h | h | h
  · exact h hst
  · exact h h0
  · simp [h] at hr

theorem irqiDropEff_drops (hk : portKind s p ≠ 1) (h0 : s.reg (paReg p 0x18C) ≠ 0) :
    irqiDropEff s p = (s.setReg (paReg p 0x18C) 0).emit (.portLine p 6 ((s.reg (paReg p 0x180)).toNat % 8) false) := if_pos ⟨hk, h0⟩

theorem irqiDropEff_ignored (h : portKind s p = 1 ∨ s.reg (paReg p 0x18C) = 0) : irqiDropEff s p = s := by
  refine if_neg ?_
  rintro ⟨hk, h0⟩
  exact h.elim hk h0

theorem irqiAckEff_ignored {l w : Nat} (h : irqiOn s p l = false ∨ (s.port p).st ≠ .inService) : irqiAckEff s p l w = s := by
  rcases h with h | h <;> simp [irqiAckEff, h]

/-- The device's interrupt answered: its ID given at the cycle's width, its line released, and counted. -/
def irqiAnswered (s : State) (p l w : Nat) : State :=
  (((s.emit (.iackId p (w32 ((s.reg (paReg p 0x184)).toNat % 2 ^ (8 * 2 ^ min 2 w))))).setReg (paReg p 0x18C) 0).emit (.portLine p 6 l false)).incReg
    (paReg p 0x190)

theorem irqiAnswered_reg (l w k : Nat) : (irqiAnswered s p l w).reg k =
    if k = paReg p 0x190 then s.reg k + 1 else if k = paReg p 0x18C then 0 else s.reg k := by
  have hne : paReg p 0x190 ≠ paReg p 0x18C := by simp [paReg]
  have hemit : ∀ (u : State) (o : Output) (j : Nat), (u.emit o).reg j = u.reg j := fun _ _ _ => rfl
  unfold irqiAnswered
  simp only [State.incReg_reg, hemit, State.setReg_reg, if_neg hne]
  by_cases hk : k = paReg p 0x190
  · rw [if_pos hk, if_pos hk, hk]
    rfl
  · rw [if_neg hk, if_neg hk]

theorem irqiAnswered_out (l w : Nat) : (irqiAnswered s p l w).out =
    .portLine p 6 l false :: .iackId p (w32 ((s.reg (paReg p 0x184)).toNat % 2 ^ (8 * 2 ^ min 2 w))) :: s.out := by
  unfold irqiAnswered
  generalize w32 ((s.reg (paReg p 0x184)).toNat % 2 ^ (8 * 2 ^ min 2 w)) = id
  rfl

theorem irqiAnswered_only (l w : Nat) : irqiAnswered s p l w = { s with regs := (irqiAnswered s p l w).regs, out := (irqiAnswered s p l w).out } := by
  have hinc : ∀ (u : State) (k : Nat), ∃ rs, u.incReg k = { u with regs := rs } := fun _ _ => ⟨_, rfl⟩
  have hset : ∀ (u : State) (k : Nat) (v : Word), ∃ rs, u.setReg k v = { u with regs := rs } := fun _ _ _ => ⟨_, rfl⟩
  unfold irqiAnswered
  obtain ⟨rs, hrs⟩ := hset (s.emit (.iackId p (w32 ((s.reg (paReg p 0x184)).toNat % 2 ^ (8 * 2 ^ min 2 w))))) (paReg p 0x18C) 0
  rw [hrs]
  obtain ⟨qs, hqs⟩ := hinc (State.emit { s.emit (.iackId p (w32 ((s.reg (paReg p 0x184)).toNat % 2 ^ (8 * 2 ^ min 2 w)))) with regs := rs }
    (.portLine p 6 l false)) (paReg p 0x190)
  rw [hqs]
  rfl

theorem irqiAckEff_answers {l w : Nat} (hon : irqiOn s p l = true) (hst : (s.port p).st = .inService) :
    irqiAckEff s p l w = if 8 ≤ bits (s.reg (paReg p 0x180)).toNat 15 8 then
      sendMsix (irqiAnswered s p l w) 0 (bits (s.reg (paReg p 0x180)).toNat 15 8) else irqiAnswered s p l w := by
  have hreg : (irqiAnswered s p l w).reg (paReg p 0x180) = s.reg (paReg p 0x180) := by
    rw [irqiAnswered_reg, if_neg (by simp [paReg]), if_neg (by simp [paReg])]
  rw [← hreg]
  exact if_pos ⟨hon, hst⟩

end

/-- Settles O51: each interrupt event is one branch of its handler, with the registers and outputs it leaves read off. -/
theorem rackInterrupts : Obligations.RackInterrupts := by
  unfold Obligations.RackInterrupts
  refine ⟨fun s p l e => ⟨irqRows_ineligible, fun hel => ⟨execRackIackRetry_fresh, execRackIrqAssert_retrying, fun row hrow => ⟨fun hk => ?_, fun hk => ?_⟩⟩⟩,
    fun s fn p l v => ?_, fun s p l => ⟨execIackinPass_passes, execIackinPass_ignored⟩, fun s p => ?_,
    fun s p l w => ⟨fun h => congrArg Host.Outcome.next (irqiAckEff_ignored h), fun hon hst => ?_⟩⟩
  · rw [exec_servesLevel hel hrow, irqServe_plain hk]
  · refine ⟨iackBegun s p.val l.val, (modPort_only _ p.val _).1, rfl, rfl, fun v he => ?_, fun he => ?_, fun he => ?_⟩
    all_goals subst he; rw [exec_servesLevel hel hrow]
    · rw [irqServe_id hk]
    · rw [irqServe_berr hk]
    · rw [irqServe_timeout hk]
  · refine ⟨fun h0 => ?_, fun hf ht hu => ⟨_, congrArg Host.Outcome.next (rirqClear_tenant v hf ht hu), setReg_only ..⟩,
      fun h0 h => congrArg Host.Outcome.next (rirqClear_ignored v h0 h)⟩
    refine ⟨_, congrArg Host.Outcome.next ?_, setReg_only s (irqhReg p.val l.val 2) _⟩
    rw [h0]
    exact rirqClear_physical v
  · exact ⟨fun hst h0 hr hl => congrArg Host.Outcome.next (irqiRaiseEff_raises hst h0 hr hl), fun h => congrArg Host.Outcome.next (irqiRaiseEff_ignored h),
      fun hk h0 => congrArg Host.Outcome.next (irqiDropEff_drops hk h0), fun h => congrArg Host.Outcome.next (irqiDropEff_ignored h)⟩
  · refine ⟨irqiAnswered s p.val l.val w.val, ?_, ?_, fun k h1 h2 => ?_, irqiAnswered_out .., irqiAnswered_only .., congrArg Host.Outcome.next (irqiAckEff_answers hon hst)⟩
    · rw [irqiAnswered_reg, if_neg (by simp [paReg]), if_pos rfl]
    · rw [irqiAnswered_reg, if_pos rfl]
    · rw [irqiAnswered_reg, if_neg h2, if_neg h1]

end Sys2Proof.Machine
end

section
/-! Port service (R295-R298), slave regions (R304, R305) and timing profiles (R346, R347): what each command ends with and leaves. -/

namespace Sys2Proof.Machine

/-! ## PORT_SERVICE (R295-R297) -/

section
variable {s : State} {p mb : Nat}

theorem finishStop_of_unreached {u : State} (h : stopReached u p = false) : finishStop u p = u := if_neg (ne_true_of_eq_false h)

theorem stopReached_respond (u : State) (result cs reason detail : Nat) (payload : List Byte) :
    stopReached (respond u mb result cs reason detail payload) p = stopReached u p := by
  rw [respond_only]
  rfl

theorem stopReached_of_st (h : (s.port p).st ≠ .stopping) : stopReached s p = false := by simp [stopReached, h]

theorem finishStop_respond (h : stopReached s p = false) (result cs reason detail : Nat) (payload : List Byte) :
    finishStop (respond s mb result cs reason detail payload) p = respond s mb result cs reason detail payload :=
  finishStop_of_unreached ((stopReached_respond ..).trans h)

variable {c : Cmd} {into : Bool}

theorem portService_executing (hx : Executing s 0x0500 mb c) (hdir : bit (wordAt c.payload 0) 8 = into) :
    exec (if into then Instr.portServiceIn else .portServiceOut) s
      = .next (finishStop (svcDecide s (wordAt c.payload 0 % 2) mb into) (wordAt c.payload 0 % 2)) := by
  cases into with
  | true => exact (runCmd_executing hx (portServiceEff true)).trans (congrArg Host.Outcome.next (if_pos hdir))
  | false => exact (runCmd_executing hx (portServiceEff false)).trans (congrArg Host.Outcome.next (if_pos hdir))

theorem svcDecide_absent (h : targetAbsent s p = true) : svcDecide s p mb into = refuse s mb 1 0 := if_pos h

theorem svcDecide_contained (h : targetAbsent s p = false) (hst : (s.port p).st = .contained) : svcDecide s p mb into = refuse s mb 3 0 := by
  simp [svcDecide, h, hst]

theorem svcDecide_there (h : targetAbsent s p = false) (hst : (s.port p).st = if into then PortSt.inService else .outOfService) :
    svcDecide s p mb into = done s mb [] := by
  cases into with
  | true => rw [if_pos rfl] at hst; simp [svcDecide, h, hst]
  | false => rw [if_neg Bool.false_ne_true] at hst; simp [svcDecide, h, hst]

theorem svcDecide_stops (h : targetAbsent s p = false) (hst : (s.port p).st = .inService) : svcDecide s p mb false = svcStop s p mb := by
  simp [svcDecide, h, hst]

theorem svcDecide_starts (h : targetAbsent s p = false) (hst : (s.port p).st = .outOfService) : svcDecide s p mb true = svcStart s p mb := by
  simp [svcDecide, h, hst]

theorem svcStart_unpowered (h : ((List.range 4).any fun b => !bankOk s p b) = true) : svcStart s p mb = refuse s mb 4 0 :=
  if_pos (by rwa [List.not_all_eq_any_not])

theorem svcStart_powered (h : ((List.range 4).all fun b => bankOk s p b) = true) : svcStart s p mb = (persFail s p).elim
    (done (portUp (loadPers s p).2 p) mb []) fun f => refuse (persInvalid s p f.1 f.2) mb 5 0 := by
  unfold svcStart
  rw [h]
  cases persFail s p <;> rfl

end

/-! ## PORT_SLAVE_SET (R304, R305) -/

section
variable (s : State) (p r : Nat) (ws : List Nat)

/-- A slave region's eight words stored. -/
def slaveStored (s : State) (p r : Nat) (ws : List Nat) : State :=
  s.modPort p fun q => { q with slv := (List.range 8).foldl (fun t i => t.set (fun _ => 0#32) (r * 8 + i) (w32 (nth ws i 0))) q.slv }

theorem slvWord_slaveStored (x q : Nat) {i : Nat} (hi : i < 8) :
    slvWord (slaveStored s p r ws) x q i = if x = p ∧ q = r then (w32 (nth ws i 0)).toNat else slvWord s x q i := by
  unfold slvWord slaveStored
  rw [State.modPort_port]
  by_cases hx : x = p
  · subst hx
    rw [if_pos rfl, Nat.mul_comm r 8, Nat.mul_comm q 8]
    dsimp only
    rw [foldl_set_words (fun i => w32 (nth ws i 0)) r _ hi (Nat.le_refl 8)]
    by_cases hq : q = r <;> simp [hq, hi]
  · rw [if_neg hx, if_neg fun h => hx h.1]

/-- The twin's list of inactive objects without one slave region (R497). -/
def slaveActive (s : State) (p r : Nat) : State := s.modTwin fun w => { w with inactive := w.inactive.filter fun n => decide (n ≠ 16 * p + r) }

variable {s} {mb : Nat} {c : Cmd} (hx : Executing s 0x0501 mb c)
include hx

theorem portSlaveSet_refused
    (h : slaveRefusal s (wordAt c.payload 0 % 2) (bits (wordAt c.payload 0) 11 8) (wordsOf c.payload 8) ≠ 0) :
    execPortSlaveSet s = .next (refuse s mb (slaveRefusal s (wordAt c.payload 0 % 2) (bits (wordAt c.payload 0) 11 8) (wordsOf c.payload 8)) 0) :=
  (runCmd_executing hx portSlaveEff).trans (congrArg Host.Outcome.next (if_pos h))

theorem portSlaveSet_stores
    (h : slaveRefusal s (wordAt c.payload 0 % 2) (bits (wordAt c.payload 0) 11 8) (wordsOf c.payload 8) = 0) :
    execPortSlaveSet s = .next (done (slaveActive (slaveStored s (wordAt c.payload 0 % 2) (bits (wordAt c.payload 0) 11 8) (wordsOf c.payload 8))
      (wordAt c.payload 0 % 2) (bits (wordAt c.payload 0) 11 8)) mb []) :=
  (runCmd_executing hx portSlaveEff).trans (congrArg Host.Outcome.next (if_neg (not_not.2 h)))

end

/-! ## Timing profiles (R346, R347) -/

section
variable {s : State} {mb : Nat} {c : Cmd}

theorem execProfileGet_executing (hx : Executing s 0x0502 mb c) :
    execProfileGet s = .next (done s mb (bytesOfWords (profWords s (wordAt c.payload 0 % 2) (bits (wordAt c.payload 0) 13 8)))) :=
  runCmd_executing hx _

/-- The settings of PROFILE_SET's payload stored in a profile: its class stays (R346). -/
def profileSettings (c : Cmd) (x : Prof) : Prof :=
  { x with w3 := w32 (x.w3.toNat % 4 + wordAt c.payload 4), w4 := w32 (wordAt c.payload 8), w5 := w32 (wordAt c.payload 12) }

theorem execProfileSet_executing (hx : Executing s 0x0503 mb c) : execProfileSet s = .next (profileSetEff s mb c) := runCmd_executing hx profileSetEff

theorem profileSetEff_cold (h : warm (s.prof (profKey (wordAt c.payload 0 % 2) (bits (wordAt c.payload 0) 13 8))) = false) :
    profileSetEff s mb c = done (recheckBudgets ((s.modProf (profKey (wordAt c.payload 0 % 2) (bits (wordAt c.payload 0) 13 8)) (profileSettings c)).modProf
      (profKey (wordAt c.payload 0 % 2) (bits (wordAt c.payload 0) 13 8)) fun x => { x with t := profTimeout x })) mb [] := by
  refine congrArg (fun u => done (recheckBudgets u) mb []) (if_neg ?_)
  rw [State.modProf_prof_same]
  exact ne_true_of_eq_false h

theorem profileSetEff_warm (h : warm (s.prof (profKey (wordAt c.payload 0 % 2) (bits (wordAt c.payload 0) 13 8))) = true) :
    profileSetEff s mb c = done (recheckBudgets (evalProfile
      (s.modProf (profKey (wordAt c.payload 0 % 2) (bits (wordAt c.payload 0) 13 8)) (profileSettings c))
      (wordAt c.payload 0 % 2) (bits (wordAt c.payload 0) 13 8))) mb [] := by
  refine congrArg (fun u => done (recheckBudgets u) mb []) (if_pos ?_)
  rw [State.modProf_prof_same]
  exact h

theorem execProfileClear_executing (hx : Executing s 0x0504 mb c) : execProfileClear s = .next (profileClearEff s mb c) :=
  runCmd_executing hx profileClearEff

theorem clearProfile_prof (s : State) (p r : Nat) (ref : Bool) :
    ((clearProfile s p r ref).prof (profKey p r)).subs = [] ∧ ((clearProfile s p r ref).prof (profKey p r)).part = []
      ∧ ∀ k, k ≠ profKey p r → (clearProfile s p r ref).prof k = s.prof k := by
  have hmram : ∀ (u : State) (f : Mram → Mram) (k : Nat), (u.modMram f).prof k = u.prof k := fun _ _ _ => rfl
  cases ref with
  | true => simp +contextual [clearProfile, hmram, State.modProf_prof]
  | false => simp +contextual [clearProfile, State.modProf_prof]

end

/-- Settles O32: each command is one branch of its handler on the port's or the profile's state. -/
theorem portServiceAndProfiles : Obligations.PortServiceAndProfiles := by
  unfold Obligations.PortServiceAndProfiles
  refine ⟨fun s mb c into hx hdir => ?_, fun s mb c hx => ?_, fun s mb c hx => ⟨_, execProfileGet_executing hx, executing_done (u := s) hx rfl _⟩,
    fun s mb c hx => ⟨fun h => ?_, fun h => ?_⟩, fun s mb c hx hall => ?_, fun s mb c hx hall => ?_⟩
  · intro p row
    have hrun : exec row s = .next (finishStop (svcDecide s p mb into) p) := portService_executing hx hdir
    clear_value row
    refine ⟨fun habs hstop => ?_, fun hthere => ⟨fun hst => ?_, fun hst => ?_, fun hin hst => ?_, fun hin hst hbank => ?_, fun hin hst hbank => ?_⟩⟩
    · rw [hrun, svcDecide_absent habs, refuse, finishStop_respond hstop]
      exact ⟨_, rfl, executing_refuses (u := s) hx rfl 1 0⟩
    · rw [hrun, svcDecide_contained hthere hst, refuse, finishStop_respond (stopReached_of_st (by simp [hst]))]
      exact ⟨_, rfl, executing_refuses (u := s) hx rfl 3 0⟩
    · have hstop : stopReached s p = false := stopReached_of_st (by rw [hst]; cases into <;> decide)
      rw [hrun, svcDecide_there hthere hst, done, ran, finishStop_respond hstop]
      exact ⟨_, rfl, executing_done (u := s) hx rfl []⟩
    · rw [hrun, hin, svcDecide_stops hthere hst]
    · rw [hrun, hin, svcDecide_starts hthere hst, svcStart_unpowered hbank, refuse, finishStop_respond (stopReached_of_st (by simp [hst]))]
      exact ⟨_, rfl, executing_refuses (u := s) hx rfl 4 0⟩
    · rw [hrun, hin, svcDecide_starts hthere hst, svcStart_powered hbank]
      refine ⟨fun kind off hf => ?_, fun hf => ?_⟩
      · rw [hf, Option.elim_some]
      · rw [hf, Option.elim_none]
  · intro p r ws
    refine ⟨fun h => ⟨_, portSlaveSet_refused hx h, executing_refuses (u := s) hx rfl _ 0⟩, fun h => ?_⟩
    refine ⟨_, slaveStored s p r ws, portSlaveSet_stores hx h, ?_, fun i hi => ?_, fun x q i hi hne => ?_, (modPort_only ..).2.2, ?_⟩
    · rw [show (done (slaveActive (slaveStored s p r ws) p r) mb []).twin = (slaveActive (slaveStored s p r ws) p r).twin by
        rw [done, ran, respond_only]]
      exact executing_done (u := slaveActive (slaveStored s p r ws) p r) hx rfl []
    · rw [slvWord_slaveStored _ _ _ _ _ _ hi, if_pos ⟨rfl, rfl⟩]
    · rw [slvWord_slaveStored _ _ _ _ _ _ hi, if_neg hne]
    · rw [done, ran, respond_only]
      rfl
  · exact (execProfileSet_executing hx).trans (congrArg Host.Outcome.next (profileSetEff_cold h))
  · exact (execProfileSet_executing hx).trans (congrArg Host.Outcome.next (profileSetEff_warm h))
  · intro p r v
    refine ⟨(execProfileClear_executing hx).trans (congrArg Host.Outcome.next ?_), ?_⟩
    · unfold profileClearEff
      dsimp only
      rw [hall]
      rfl
    · exact clearProfile_prof (discardSamples s p [r]) p r (bit (wordAt c.payload 4) 0)
  · refine (execProfileClear_executing hx).trans (congrArg Host.Outcome.next ?_)
    unfold profileClearEff
    dsimp only
    rw [hall]
    rfl

end Sys2Proof.Machine
end

section
/-! The harvest commands (R379-R383, R390, R404-R408, R412): schedules created, loaded, started, stopped and read, flood lists and routes. -/

namespace Sys2Proof.Machine

theorem clearEntries_sched (s : State) (first n g : Nat) : (clearEntries s first n).sched g = s.sched g := rfl

/-! ## HARVEST_CREATE (R379, R381) -/

section
variable {s : State} {mb : Nat} {c : Cmd}

theorem execHarvestCreate_executing (hx : Executing s 0x0600 mb c) : execHarvestCreate s = .next (harvestCreateEff s mb c) :=
  runCmd_executing hx harvestCreateEff

variable (hown : ownsObject mb (wordAt c.payload 0 % 128) = true)
include hown

theorem harvestCreateEff_noHalf (h1 : wordAt c.payload 0x18 = 0) : harvestCreateEff s mb c = refuse s mb 1 0 := by
  simp [harvestCreateEff, hown, h1]

theorem harvestCreateEff_unaligned (h1 : wordAt c.payload 0x18 ≠ 0) (h2 : field c.payload 0x10 8 % 64 ≠ 0) :
    harvestCreateEff s mb c = refuse s mb 2 0 := by
  simp [harvestCreateEff, hown, h1, h2]

/-- The lowest free schedule. -/
def freeSchedule (s : State) : Option Nat := (List.range 8).find? fun h => decide ((s.sched h).st = .free)

theorem harvestCreateEff_full (h1 : wordAt c.payload 0x18 ≠ 0) (h2 : field c.payload 0x10 8 % 64 = 0)
    (h3 : freeSchedule s = none ∨ takeRun s (wordAt c.payload 0 % 128) (wordAt c.payload 0xC) = none) :
    harvestCreateEff s mb c = refuse s mb 3 0 := by
  unfold harvestCreateEff
  rw [if_neg (by simp [hown]), if_neg h1, if_neg (not_not.2 h2)]
  change (match freeSchedule s, takeRun s (wordAt c.payload 0 % 128) (wordAt c.payload 0xC) with | some _, some _ => _ | _, _ => _) = _
  rcases h3 with h3 | h3
  · rw [h3]
  · rw [h3]
    cases freeSchedule s <;> rfl

/-- The state with a schedule made on a run of entries. -/
def scheduleMade (s : State) (c : Cmd) (h f : Nat) : State := (clearEntries s f (wordAt c.payload 0xC)).setSched h (newSched c.payload f)

theorem harvestCreateEff_makes (h1 : wordAt c.payload 0x18 ≠ 0) (h2 : field c.payload 0x10 8 % 64 = 0) {h f : Nat}
    (h3 : freeSchedule s = some h) (h4 : takeRun s (wordAt c.payload 0 % 128) (wordAt c.payload 0xC) = some f) :
    harvestCreateEff s mb c = done (scheduleMade s c h f) mb (leBytes 4 h) := by
  unfold freeSchedule at h3
  unfold harvestCreateEff
  rw [if_neg (by simp [hown]), if_neg h1, if_neg (not_not.2 h2), h3, h4]
  rfl

end

theorem freeSchedule_none {s : State} (h : ∀ k, k < 8 → (s.sched k).st ≠ .free) : freeSchedule s = none := by
  simpa [freeSchedule] using h

theorem freeSchedule_lowest {s : State} {h : Nat} (h8 : h < 8) (hfree : (s.sched h).st = .free) (hlow : ∀ g, g < h → (s.sched g).st ≠ .free) :
    freeSchedule s = some h := by
  simpa [freeSchedule, List.find?_range_eq_some] using ⟨hfree, h8, hlow⟩

/-! ## HARVEST_POINTS (R381-R383) -/

theorem foldl_modHar {α : Type} (f : α → Harvest → Harvest) (l : List α) (s : State) :
    l.foldl (fun s a => s.modHar (f a)) s = s.modHar fun x => l.foldl (fun x a => f a x) x := by
  induction l generalizing s with
  | nil => rfl
  | cons a l ih => exact ih _

/-- One entry stored in the harvest's group. -/
def entryStored (e : Nat) (b : List Byte) (x : Harvest) : Harvest :=
  (List.range 8).foldl (fun x i => { x with pt := x.pt.set (fun _ => 0#32) (e * 8 + i) (w32 (wordAt b (4 * i))) })
    { x with loaded := x.loaded.set (fun _ => false) e true }

theorem storeEntry_eq (s : State) (e : Nat) (b : List Byte) : storeEntry s e b = s.modHar (entryStored e b) := by
  unfold storeEntry
  exact foldl_modHar (fun i x => { x with pt := x.pt.set (fun _ => 0#32) (e * 8 + i) (w32 (wordAt b (4 * i))) }) _ _

theorem entryStored_rest (e : Nat) (b : List Byte) (x : Harvest) :
    (entryStored e b x).sched = x.sched ∧ (entryStored e b x).loaded = x.loaded.set (fun _ => false) e true := ⟨rfl, rfl⟩

/-- The first `n` entries of a payload stored from entry `base` on. -/
def entriesStored (p : List Byte) (base n : Nat) (x : Harvest) : Harvest :=
  (List.range n).foldl (fun x i => entryStored (base + i) (slice p (8 + 32 * i) 32) x) x

theorem foldl_storeEntry (s : State) (p : List Byte) (base n : Nat) :
    (List.range n).foldl (fun s i => storeEntry s (base + i) (slice p (8 + 32 * i) 32)) s = s.modHar (entriesStored p base n) := by
  simp only [storeEntry_eq]
  exact foldl_modHar (fun i => entryStored (base + i) (slice p (8 + 32 * i) 32)) _ _

theorem entriesStored_succ (p : List Byte) (base n : Nat) (x : Harvest) :
    entriesStored p base (n + 1) x = entryStored (base + n) (slice p (8 + 32 * n) 32) (entriesStored p base n x) := by
  unfold entriesStored
  rw [List.range_succ, List.foldl_append, List.foldl_cons, List.foldl_nil]

theorem entriesStored_sched (p : List Byte) (base n : Nat) (x : Harvest) : (entriesStored p base n x).sched = x.sched := by
  induction n with
  | zero => rfl
  | succ n ih => rw [entriesStored_succ, (entryStored_rest ..).1, ih]

theorem entriesStored_loaded (p : List Byte) (base : Nat) {n i : Nat} (hi : i < n) (x : Harvest) :
    Tbl.get (fun _ => false) (entriesStored p base n x).loaded (base + i) = true := by
  induction n with
  | zero => omega
  | succ n ih =>
    rw [entriesStored_succ, (entryStored_rest ..).2, Tbl.get_set]
    by_cases h : i = n
    · rw [if_pos (by omega)]
    · rw [if_neg (by omega), ih (by omega)]

section
variable {s : State} {mb : Nat} {c : Cmd}

theorem execHarvestPoints_executing (hx : Executing s 0x0601 mb c) : execHarvestPoints s = .next (harvestPointsEff s mb c) :=
  runCmd_executing hx harvestPointsEff

/-- The capacity of the list that HARVEST_POINTS names (R382). -/
def pointsCap (s : State) (c : Cmd) : Nat :=
  if bit (wordAt c.payload 0) 8 then (if (s.sched (wordAt c.payload 0 % 8)).hasFlood then (s.sched (wordAt c.payload 0 % 8)).fCap else 0)
  else (s.sched (wordAt c.payload 0 % 8)).hCap

/-- The first entry that HARVEST_POINTS loads. -/
def pointsBase (s : State) (c : Cmd) : Nat :=
  (if bit (wordAt c.payload 0) 8 then (s.sched (wordAt c.payload 0 % 8)).fFirst else (s.sched (wordAt c.payload 0 % 8)).hFirst) + field c.payload 4 2

variable (hown : ownsObject mb (s.sched (wordAt c.payload 0 % 8)).tenant = true)
include hown

theorem harvestPointsEff_beyond (hcap : pointsCap s c < field c.payload 4 2 + field c.payload 6 2) : harvestPointsEff s mb c = reject s mb Rej.badParam := by
  unfold harvestPointsEff
  rw [if_neg (by simp [hown])]
  exact if_pos hcap

theorem harvestPointsEff_busy (hcap : field c.payload 4 2 + field c.payload 6 2 ≤ pointsCap s c) (hst : (s.sched (wordAt c.payload 0 % 8)).st ≠ .stopped) :
    harvestPointsEff s mb c = refuse s mb 4 (wordAt c.payload 0 % 8) := by
  unfold harvestPointsEff
  rw [if_neg (by simp [hown])]
  exact (if_neg (Nat.not_lt.2 hcap)).trans (if_pos hst)

theorem harvestPointsEff_loads (hcap : field c.payload 4 2 + field c.payload 6 2 ≤ pointsCap s c) (hst : (s.sched (wordAt c.payload 0 % 8)).st = .stopped) :
    harvestPointsEff s mb c = done (s.modHar (entriesStored c.payload (pointsBase s c) (field c.payload 6 2))) mb [] := by
  unfold harvestPointsEff
  rw [if_neg (by simp [hown])]
  refine (if_neg (Nat.not_lt.2 hcap)).trans ((if_neg (not_not.2 hst)).trans ?_)
  exact congrArg (fun u => done u mb []) (foldl_storeEntry ..)

end

/-! ## HARVEST_START, HARVEST_STOP and HARVEST_GET (R406, R408, R412) -/

section
variable {s : State} {mb : Nat} {c : Cmd}

theorem execHarvestStart_executing (hx : Executing s 0x0602 mb c) : execHarvestStart s = .next (harvestStartEff s mb c) :=
  runCmd_executing hx harvestStartEff

section
variable {h : Nat} (hh : h = wordAt c.payload 0 % 8) (hown : ownsObject mb (s.sched h).tenant = true) (hfol : s.followed (s.sched h).tenant = false)
  (hst : (s.sched h).st = .stopped)
include hh hown hfol hst

theorem harvestStartEff_refused {why d : Nat} (h1 : firstRefusal s h = some (why, d)) : harvestStartEff s mb c = refuse s mb why d := by
  subst hh
  simp [harvestStartEff, hown, hfol, hst, h1]

theorem harvestStartEff_infeasible {g : Nat} (h1 : firstRefusal s h = none) (h2 : failingSched s h = some g) (hf : bit (wordAt c.payload 0) 8 = false) :
    harvestStartEff s mb c = respond s mb 1 0 8 g (startBytes s h) := by
  subst hh
  simp [harvestStartEff, hown, hfol, hst, h1, h2, hf]

theorem harvestStartEff_starts (h1 : firstRefusal s h = none) (h2 : failingSched s h = none) :
    harvestStartEff s mb c = done (startSched s h false) mb (startBytes s h) := by
  subst hh
  simp [harvestStartEff, hown, hfol, hst, h1, h2]

theorem harvestStartEff_forced (h1 : firstRefusal s h = none) (h2 : failingSched s h ≠ none) (hf : bit (wordAt c.payload 0) 8 = true) :
    harvestStartEff s mb c = done (startSched s h true) mb (startBytes s h) := by
  subst hh
  obtain ⟨g, hg⟩ := Option.ne_none_iff_exists'.1 h2
  simp [harvestStartEff, hown, hfol, hst, h1, hg, hf]

end

theorem harvestStop_executing {free : Bool} (hx : Executing s 0x0603 mb c) :
    exec (if free then Instr.harvestStopFree else .harvestStop) s = .next (harvestStopEff free s mb c) := by
  cases free with
  | true => exact runCmd_executing hx (harvestStopEff true)
  | false => exact runCmd_executing hx (harvestStopEff false)

theorem harvestStopEff_free {free : Bool} (hbit : bit (wordAt c.payload 0) 8 = free) (hown : ownsObject mb (s.sched (wordAt c.payload 0 % 8)).tenant = true)
    (hst : (s.sched (wordAt c.payload 0 % 8)).st = .free) : harvestStopEff free s mb c = reject s mb Rej.badParam := by
  simp [harvestStopEff, hbit, hown, hst]

theorem harvestStopEff_stops {free : Bool} (hbit : bit (wordAt c.payload 0) 8 = free) (hown : ownsObject mb (s.sched (wordAt c.payload 0 % 8)).tenant = true)
    (hst : (s.sched (wordAt c.payload 0 % 8)).st ≠ .free) : harvestStopEff free s mb c
      = done (if free then freeSched s (wordAt c.payload 0 % 8) else stopSched s (wordAt c.payload 0 % 8)) mb [] := by
  simp [harvestStopEff, hbit, hown, hst]

theorem execHarvestGet_executing (hx : Executing s 0x0604 mb c) (hown : ownsObject mb (s.sched (wordAt c.payload 0)).tenant = true) :
    execHarvestGet s = .next (done s mb (bytesOfWords (schedWords s (wordAt c.payload 0)))) :=
  (runCmd_executing hx harvestGetEff).trans (congrArg Host.Outcome.next (if_neg (by simp [hown])))

end

section
variable {s : State} {h : Nat}

theorem stopSched_stopped (hst : (s.sched h).st = .stopped) : stopSched s h = s := if_neg (by simp [hst])

theorem stopSched_st (hst : (s.sched h).st = .running) : ((stopSched s h).sched h).st = .stopped := by
  unfold stopSched
  rw [if_pos hst, State.modSched_sched_same]

theorem freeSched_sched (s : State) (h : Nat) : (freeSched s h).sched h = schedInit h := State.setSched_sched_same ..

/-- A schedule's entries made empty, its flood list's among them. -/
def listsCleared (s : State) (h : Nat) : State :=
  if (s.sched h).hasFlood then clearEntries (clearEntries s (s.sched h).hFirst (s.sched h).hCap) (s.sched h).fFirst (s.sched h).fCap
  else clearEntries s (s.sched h).hFirst (s.sched h).hCap

theorem listsCleared_keeps (s : State) (h : Nat) :
    (∀ g, (listsCleared s h).sched g = s.sched g) ∧ listsCleared s h = { s with har := (listsCleared s h).har } := by
  unfold listsCleared
  split
  · exact ⟨fun _ => rfl, rfl⟩
  · exact ⟨fun _ => rfl, rfl⟩

/-- A stopped schedule freed: its entries cleared and its own state at reset, nothing else (R408). -/
theorem freeSched_stopped (hst : (s.sched h).st = .stopped) :
    (∀ g, g ≠ h → (freeSched s h).sched g = s.sched g) ∧ freeSched s h = { s with har := (freeSched s h).har } := by
  obtain ⟨hsched, honly⟩ := listsCleared_keeps s h
  have heq : freeSched s h = (listsCleared s h).setSched h (schedInit h) := by
    unfold freeSched
    rw [stopSched_stopped hst]
    rfl
  rw [heq]
  refine ⟨fun g hg => ?_, ?_⟩
  · rw [State.setSched_sched, if_neg hg, hsched]
  · rw [honly]
    rfl

end

/-! ## FLOOD_CREATE and ROUTE_SET (R380, R390) -/

section
variable {s : State} {mb : Nat} {c : Cmd}

theorem execFloodCreate_executing (hx : Executing s 0x0605 mb c) : execFloodCreate s = .next (floodCreateEff s mb c) :=
  runCmd_executing hx floodCreateEff

/-- The state with a flood list added to a schedule. -/
def floodMade (s : State) (c : Cmd) (f : Nat) : State :=
  (clearEntries s f (wordAt c.payload 4)).modSched (wordAt c.payload 0) fun x => { x with
    hasFlood := true, fFirst := f, fCap := wordAt c.payload 4, outBase := field c.payload 8 8, outSize := wordAt c.payload 0x10 }

theorem floodCreateEff_run (hown : ownsObject mb (s.sched (wordAt c.payload 0)).tenant = true) (h1 : wordAt c.payload 4 ≠ 0)
    (h2 : wordAt c.payload 0x10 ≠ 0) (h3 : field c.payload 8 8 % 64 = 0) {f : Nat}
    (h4 : takeRun s (s.sched (wordAt c.payload 0)).tenant (wordAt c.payload 4) = some f) :
    floodCreateEff s mb c = if (s.sched (wordAt c.payload 0)).st ≠ .stopped then refuse s mb 4 (wordAt c.payload 0)
      else if (s.sched (wordAt c.payload 0)).hasFlood then refuse s mb 11 (wordAt c.payload 0) else done (floodMade s c f) mb [] := by
  unfold floodCreateEff
  rw [if_neg (by simp [hown]), if_neg (not_or.2 ⟨h1, h2⟩), if_neg (not_not.2 h3), h4]
  rfl

theorem execRouteSet_executing (hx : Executing s 0x0606 mb c) : execRouteSet s = .next (routeSetEff s mb c) := runCmd_executing hx routeSetEff

/-- A region's route stored. -/
def routeStored (s : State) (c : Cmd) (p r : Nat) : State :=
  s.modHar fun x => { x with routes := x.routes.set routeInit (p * 64 + r) ((wordsOf c.payload 4).map w32) }

theorem routeSetEff_stores (h : routeInUse s (wordAt c.payload 0 % 2) (bits (wordAt c.payload 0) 13 8) = false) :
    routeSetEff s mb c = done (routeStored s c (wordAt c.payload 0 % 2) (bits (wordAt c.payload 0) 13 8)) mb [] :=
  if_neg (ne_true_of_eq_false h)

end

/-- Settles O33: each command is one branch of its handler, and what the branch stores is read off the harvest's group. -/
theorem schedulesAreBuiltAndStarted : Obligations.SchedulesAreBuiltAndStarted := by
  unfold Obligations.SchedulesAreBuiltAndStarted
  refine ⟨fun s mb c hx hown => ?_, fun s mb c hx => ?_, fun s mb c hx => ?_, fun s mb c free hx hbit => ?_, fun s mb c hx hown => ?_,
    fun s mb c f hx => ?_, fun s mb c hx => ?_⟩
  · intro p
    have hrun := execHarvestCreate_executing hx
    refine ⟨fun h1 => ⟨_, hrun.trans (congrArg _ (harvestCreateEff_noHalf hown h1)), executing_refuses (u := s) hx rfl 1 0⟩,
      fun h1 h2 => ⟨_, hrun.trans (congrArg _ (harvestCreateEff_unaligned hown h1 h2)), executing_refuses (u := s) hx rfl 2 0⟩,
      fun h1 h2 => ⟨fun h3 => ⟨_, hrun.trans (congrArg _ (harvestCreateEff_full hown h1 h2 (h3.imp_left freeSchedule_none))),
        executing_refuses (u := s) hx rfl 3 0⟩, fun h f h8 hfree hlow hrunEntries => ?_⟩⟩
    refine ⟨_, scheduleMade s c h f, hrun.trans (congrArg _ (harvestCreateEff_makes hown h1 h2 (freeSchedule_lowest h8 hfree hlow) hrunEntries)),
      executing_done (u := scheduleMade s c h f) hx rfl _, ?_⟩
    have hmade : (scheduleMade s c h f).sched h = newSched c.payload f := State.setSched_sched_same ..
    rw [hmade]
    exact ⟨rfl, rfl, rfl, rfl, rfl, rfl, rfl, rfl, fun g hg => (State.setSched_sched ..).trans (if_neg hg), rfl⟩
  · intro p h flood cap hown
    have hrun := execHarvestPoints_executing hx
    refine ⟨fun hcap => ⟨_, hrun.trans (congrArg _ (harvestPointsEff_beyond hown hcap)), executing_rejects hx _⟩,
      fun hcap hst => ⟨_, hrun.trans (congrArg _ (harvestPointsEff_busy hown hcap hst)), executing_refuses (u := s) hx rfl 4 h⟩, fun hcap hst => ?_⟩
    exact ⟨_, s.modHar (entriesStored p (pointsBase s c) (field p 6 2)), hrun.trans (congrArg _ (harvestPointsEff_loads hown hcap hst)), executing_done (u := s.modHar (entriesStored p (pointsBase s c) (field p 6 2))) hx rfl [],
      fun i hi => entriesStored_loaded c.payload (pointsBase s c) hi s.har, fun g => congrArg (Tbl.get schedInit · g) (entriesStored_sched ..), rfl⟩
  · intro h hown hfol hst
    have hrun := execHarvestStart_executing hx
    exact ⟨fun why d h1 => ⟨_, hrun.trans (congrArg _ (harvestStartEff_refused rfl hown hfol hst h1)), executing_refuses (u := s) hx rfl why d⟩,
      fun g h1 h2 hf => ⟨_, hrun.trans (congrArg _ (harvestStartEff_infeasible rfl hown hfol hst h1 h2 hf)),
        executing_answers (u := s) hx rfl 1 0 8 g (startBytes s h)⟩,
      fun h1 h2 => hrun.trans (congrArg _ (harvestStartEff_starts rfl hown hfol hst h1 h2)),
      fun h1 h2 hf => hrun.trans (congrArg _ (harvestStartEff_forced rfl hown hfol hst h1 h2 hf))⟩
  · intro h row hown
    have hrun : exec row s = .next (harvestStopEff free s mb c) := harvestStop_executing hx
    refine ⟨fun hst => ⟨_, hrun.trans (congrArg _ (harvestStopEff_free hbit hown hst)), executing_rejects hx _⟩, fun hst => ?_, fun hst => ?_⟩
    all_goals rw [hrun, harvestStopEff_stops hbit hown (by rw [hst]; decide)]
    · cases free with
      | true =>
        obtain ⟨hothers, honly⟩ := freeSched_stopped hst
        exact ⟨_, freeSched s h, rfl, executing_done hx (by rw [honly]) [], freeSched_sched s h, hothers, honly⟩
      | false =>
        refine ⟨_, s, ?_, executing_done (u := s) hx rfl [], rfl, fun _ _ => rfl, rfl⟩
        rw [if_neg Bool.false_ne_true, stopSched_stopped hst]
    · refine ⟨_, rfl, ?_⟩
      cases free with
      | true => exact congrArg Sched.st (freeSched_sched s h)
      | false => exact stopSched_st hst
  · exact ⟨_, execHarvestGet_executing hx hown, executing_done (u := s) hx rfl _⟩
  · intro p x hown h1 h2 h3 h4
    have hrun := (execFloodCreate_executing hx).trans (congrArg _ (floodCreateEff_run hown h1 h2 h3 h4))
    refine ⟨fun hst => ⟨_, hrun.trans (congrArg _ (if_pos hst)), executing_refuses (u := s) hx rfl 4 _⟩, fun hst hflood => ?_⟩
    refine ⟨_, floodMade s c f, hrun.trans (congrArg _ ((if_neg (not_not.2 hst)).trans (if_neg (ne_true_of_eq_false hflood)))),
      executing_done (u := floodMade s c f) hx rfl [], State.modSched_sched_same .., fun g hg => (State.modSched_sched ..).trans (if_neg hg), rfl⟩
  · intro p r
    have hrun := execRouteSet_executing hx
    refine ⟨fun h => ⟨_, hrun.trans (congrArg _ (if_pos h)), executing_refuses (u := s) hx rfl 5 0⟩, fun h => ?_⟩
    exact ⟨_, routeStored s c p r, hrun.trans (congrArg _ (routeSetEff_stores h)), executing_done (u := routeStored s c p r) hx rfl [],
      Tbl.get_set_same .., fun k hk => Tbl.get_set_other _ _ _ _ _ hk, rfl⟩

end Sys2Proof.Machine
end

section
/-! The harvest engine (R396-R403, R409, R411): cycle starts, returns, deadlines, the flood image's reads, and writes held at the ledger. -/

namespace Sys2Proof.Machine

/-! ## Cycle starts (R397) -/

section
variable {s : State} {h : Nat}

theorem cycleStartEff_idle (hst : (s.sched h).st ≠ .running) : cycleStartEff s h = s := if_neg hst

theorem cycleStartEff_misses (hst : (s.sched h).st = .running) (hm : schedHeld s h = true ∨ (s.sched h).cycle.isSome = true) :
    cycleStartEff s h = missStart (s.atTime (nextStart (s.sched h))) h (nextStart (s.sched h)) := (if_pos hst).trans (if_pos hm)

theorem cycleStartEff_takes (hst : (s.sched h).st = .running) (hheld : schedHeld s h = false) (hc : (s.sched h).cycle = none) :
    cycleStartEff s h = takeStart (s.atTime (nextStart (s.sched h))) h (nextStart (s.sched h)) := by
  refine (if_pos hst).trans (if_neg ?_)
  rw [hc]
  exact fun hm => hm.elim (ne_true_of_eq_false hheld) Bool.false_ne_true

theorem floodSelectorReadEff_idle (h1 : (s.sched h).st ≠ .running ∨ (s.sched h).hasFlood = false ∨ schedHeld s h = true) : floodSelectorReadEff s h = s := by
  rcases h1 with h1 | h1 | h1 <;> simp [floodSelectorReadEff, h1]

/-- The tags of a schedule's flood image reads given up. -/
def floodTagsDropped (s : State) (h : Nat) : State := dropTags s (fnOf (s.sched h).tenant) fun u => decide (u = .selector h ∨ u = .half h)

theorem floodTagsDropped_keeps (s : State) (h g : Nat) : (floodTagsDropped s h).sched g = s.sched g ∧ (floodTagsDropped s h).log = s.log := ⟨rfl, rfl⟩

/-- A missed start in a run of misses: counted, with no record (R397, R400). -/
theorem missStart_run {t : Nat} (hrun : (s.sched h).missRun = true) :
    ((missStart s h t).sched h).missed = (s.sched h).missed + 1 ∧ ((missStart s h t).sched h).startedAt = t ∧ ((missStart s h t).sched h).missIrq = true
      ∧ (∀ g, g ≠ h → (missStart s h t).sched g = s.sched g) ∧ (missStart s h t).log = s.log := by
  have heq : missStart s h t = (dropFlood s h).modSched h fun x => { x with missed := x.missed + 1, missRun := true, missIrq := true, startedAt := t } := by
    unfold missStart
    dsimp only
    rw [hrun]
    rfl
  have hdrop : ∀ g, (dropFlood s h).sched g = if g = h then { s.sched h with flood := none } else s.sched g := fun g => State.modSched_sched ..
  rw [heq, State.modSched_sched_same, hdrop, if_pos rfl]
  refine ⟨rfl, rfl, rfl, fun g hg => ?_, rfl⟩
  rw [State.modSched_sched, if_neg hg, hdrop, if_neg hg]

/-! ## Returns (R384) -/

/-- A target's answer taken up, the target free again. -/
def targetFreed (s : State) (k : Nat) : State :=
  s.modHar fun x => { x with back := x.back.set (fun _ => none) k none, busy := x.busy.filter fun t => decide (t ≠ k) }

theorem targetFreed_back (s : State) (k : Nat) : Tbl.get (fun _ => none) (targetFreed s k).har.back k = none := Tbl.get_set_same ..

theorem targetFreed_busy (s : State) (k : Nat) : k ∉ (targetFreed s k).har.busy := by simp [targetFreed, State.modHar]

theorem pointReturnEff_none {k : Nat} (hb : Tbl.get (fun _ => none) s.har.back k = none) : pointReturnEff s k = engineRuns (floodRetry s k) := by
  rw [pointReturnEff, hb]

theorem pointReturnEff_back {k i : Nat} {f : Bool} {r : AccEnd} (hb : Tbl.get (fun _ => none) s.har.back k = some (h, f, i, r)) :
    pointReturnEff s k = engineRuns (if (s.sched h).cycle.any fun c => decide ((k, f, i) ∈ c.issued) then pointBack (targetFreed s k) h k f i r
      else targetFreed s k) := by
  rw [pointReturnEff, hb]
  rfl

/-! ## Deadlines (R400) -/

theorem deadlineEff_idle (hc : (s.sched h).cycle = none) : deadlineEff s h = s := by rw [deadlineEff, hc]

theorem deadlineEff_over {c : HarCycle} (hc : (s.sched h).cycle = some c) (ho : c.overrun = true) : deadlineEff s h = s := by
  rw [deadlineEff, hc]
  exact if_pos ho

/-- A cycle cut off at its deadline: nothing more of it is issued (R400). -/
def cutOff (s : State) (h : Nat) (c : HarCycle) : State :=
  modCycle (s.atTime (c.start + us (s.sched h).period)) h fun c => { c with todo := [], overrun := true }

theorem cutOff_sched (s : State) (h : Nat) (c : HarCycle) (g : Nat) : (cutOff s h c).sched g =
    if g = h then { s.sched h with cycle := (s.sched h).cycle.map fun c => { c with todo := [], overrun := true } } else s.sched g :=
  State.modSched_sched ..

/-- The points that a cycle has not issued failed at its deadline. -/
def deadlineFails (s : State) (h : Nat) (c : HarCycle) : State :=
  c.todo.foldl (fun x t => pointFails x h t.2.1 t.2.2 Ev.pointFail Cs.farTimeout) (cutOff s h c)

/-- A deadline counted and recorded, naming how many points it cut off. -/
def overrunNoted (s : State) (h n : Nat) : State :=
  (s.incReg (0x300040 + 0x100 * h)).raise
    { code := Ev.harvestOverrun, src := src 16 0, tenant := (s.sched h).tenant, cs := Cs.farTimeout, data := bytesOfWords [h, n] }

theorem deadlineEff_cuts {c : HarCycle} (hc : (s.sched h).cycle = some c) (ho : c.overrun = false) (hheld : ∀ k, k < 6 → floodHeld s k = none) :
    deadlineEff s h = engineRuns (overrunNoted (deadlineFails s h c) h c.todo.length) := by
  have hwait : ((List.range 6).filterMap fun k => (floodHeld (s.atTime (c.start + us (s.sched h).period)) k).bind fun w =>
      if w.1 = h then some (k, true, w.2.1) else none) = [] := by
    refine List.filterMap_eq_nil_iff.2 fun k hk => ?_
    rw [show floodHeld (s.atTime (c.start + us (s.sched h).period)) k = none from hheld k (List.mem_range.1 hk)]
    rfl
  unfold deadlineEff
  rw [hc]
  dsimp only
  rw [ho, hwait]
  rfl

end

/-! ## The flood image read (R396, R398, R403) -/

section
variable {s : State} {h : Nat}

/-- A flood image read begun at its lead before the start. -/
def floodBegun (s : State) (h : Nat) : State :=
  (s.atTime (nextStart (s.sched h) - us (s.sched h).lead)).modSched h fun x => { x with
    flood := some { stage := 0, half := 0, seq := 0, bytes := [], base := 0, cs := 0 } }

theorem floodSelectorReadEff_begins (hst : (s.sched h).st = .running) (hfl : (s.sched h).hasFlood = true) (hheld : schedHeld s h = false)
    (hnone : (s.sched h).flood = none) : floodSelectorReadEff s h = floodAsk (floodBegun s h) h := by
  unfold floodSelectorReadEff
  rw [if_pos ⟨hst, hfl, by simp [hheld]⟩, hnone]
  rfl

theorem modFlood_flood {f : FloodRead} (hf : (s.sched h).flood = some f) (g : FloodRead → FloodRead) : ((modFlood s h g).sched h).flood = some (g f) := by
  unfold modFlood
  rw [State.modSched_sched_same]
  exact congrArg (Option.map g) hf

theorem freeTag_sched (s : State) (fn tag g : Nat) : (freeTag s fn tag).sched g = s.sched g := rfl

theorem floodAnswer_ok {use : TagUse} {tag n : Nat} {d : List Byte} (htag : tagOf (s.fn (fnOf (s.sched h).tenant)) use = some tag) (hd : d.length = n)
    (ok : State → List Byte → State) : floodAnswer s h use n (.ok d) ok = ok (freeTag s (fnOf (s.sched h).tenant) tag) d := by
  unfold floodAnswer
  dsimp only
  rw [htag]
  exact if_pos (decide_eq_true hd)

/-- A failed answer of the host keeps its CS for the start of the cycle. -/
theorem floodAnswer_fails {use : TagUse} {tag n : Nat} {res : HostRes} (htag : tagOf (s.fn (fnOf (s.sched h).tenant)) use = some tag)
    (hres : res ∈ [HostRes.ur, .ca, .poison]) (ok : State → List Byte → State) : floodAnswer s h use n (hostEnd res) ok
      = modFlood (poisonAer (freeTag s (fnOf (s.sched h).tenant) tag) (fnOf (s.sched h).tenant) (hostEnd res)) h
          fun f => { f with stage := 4, cs := hostCs (hostEnd res) } := by
  unfold floodAnswer
  dsimp only
  rw [htag]
  simp only [List.mem_cons, List.not_mem_nil, or_false] at hres
  rcases hres with rfl | rfl | rfl <;> rfl

theorem poisonAer_sched (s : State) (fn : Nat) (res : HostEnd) (g : Nat) : (poisonAer s fn res).sched g = s.sched g := by
  cases res <;> rfl

/-- The half and the sequence number that the selector names noted, the half to be read next (R396). -/
def halfNamed (s : State) (h : Nat) (d : List Byte) : State :=
  modFlood s h fun f => { f with stage := 5, half := leNat d % 2, seq := leNat d / 2, base := (floodSpan s h).1 }

theorem halfNamed_flood {f : FloodRead} (hf : (s.sched h).flood = some f) (d : List Byte) : ((halfNamed s h d).sched h).flood
    = some { f with stage := 5, half := leNat d % 2, seq := leNat d / 2, base := (floodSpan s h).1 } := modFlood_flood hf _

theorem selectorDoneEff_ok {tag : Nat} {d : List Byte} (htag : tagOf (s.fn (fnOf (s.sched h).tenant)) (.selector h) = some tag) (hd : d.length = 8) :
    selectorDoneEff s h (.ok d) = floodAsk (halfNamed (freeTag s (fnOf (s.sched h).tenant) tag) h d) h := floodAnswer_ok htag hd _

theorem selectorDoneEff_fails {tag : Nat} {res : HostRes} (htag : tagOf (s.fn (fnOf (s.sched h).tenant)) (.selector h) = some tag)
    (hres : res ∈ [HostRes.ur, .ca, .poison]) : selectorDoneEff s h (hostEnd res)
      = modFlood (poisonAer (freeTag s (fnOf (s.sched h).tenant) tag) (fnOf (s.sched h).tenant) (hostEnd res)) h
          fun f => { f with stage := 4, cs := hostCs (hostEnd res) } := floodAnswer_fails htag hres _

/-- A piece of the output half that has come, `left` bytes having been to come (R396). -/
def pieceCame (s : State) (h : Nat) (d : List Byte) (left : Nat) : State :=
  modFlood s h fun f => { f with bytes := f.bytes ++ d, stage := if d.length < left then 5 else 3 }

theorem pieceCame_flood {f : FloodRead} (hf : (s.sched h).flood = some f) (d : List Byte) (left : Nat) : ((pieceCame s h d left).sched h).flood
    = some { f with bytes := f.bytes ++ d, stage := if d.length < left then 5 else 3 } := modFlood_flood hf _

theorem outputDoneEff_ok {tag : Nat} {d : List Byte} {f : FloodRead} (hf : (s.sched h).flood = some f)
    (htag : tagOf (s.fn (fnOf (s.sched h).tenant)) (.half h) = some tag)
    (hd : d.length = mrrsPiece s (s.sched h).tenant ((s.sched h).outBase + f.half * (s.sched h).outSize + f.base + f.bytes.length)
      ((floodSpan s h).2 - f.base - f.bytes.length)) :
    outputDoneEff s h (.ok d) = floodAsk (pieceCame (freeTag s (fnOf (s.sched h).tenant) tag) h d ((floodSpan s h).2 - f.base - f.bytes.length)) h := by
  unfold outputDoneEff
  rw [hf]
  exact floodAnswer_ok htag hd _

/-! ## Writes held at the ledger (R401) -/

theorem ledgerTimeoutEff_idle {k : Nat} (hk : floodHeld s k = none) : ledgerTimeoutEff s k = s := by rw [ledgerTimeoutEff, hk]

/-- A flood write that waited for an entry past its limit, no longer held. -/
def ledgerGivenUp (s : State) (k lim : Nat) : State := (s.atTime lim).modHar fun x => { x with floodWait := x.floodWait.set (fun _ => none) k none }

theorem ledgerGivenUp_held (s : State) (k lim j : Nat) : floodHeld (ledgerGivenUp s k lim) j = if j = k then none else floodHeld s j := Tbl.get_set ..

theorem ledgerTimeoutEff_fails {k i lim : Nat} (hk : floodHeld s k = some (h, i, lim)) :
    ledgerTimeoutEff s k = engineRuns (pointFails (ledgerGivenUp s k lim) h true i Ev.pointFail Cs.ledgerFull) := by
  rw [ledgerTimeoutEff, hk]
  rfl

end

/-- Settles O52: each event of the engine is one branch of its handler; what goes on from there is `engineRuns`. -/
theorem harvestEngineRuns : Obligations.HarvestEngineRuns := by
  unfold Obligations.HarvestEngineRuns
  refine ⟨fun s h => ⟨fun hst => ⟨congrArg Host.Outcome.next (cycleStartEff_idle hst), congrArg Host.Outcome.next (floodSelectorReadEff_idle (.inl hst))⟩,
      fun hst => ⟨fun hm => congrArg Host.Outcome.next (cycleStartEff_misses hst hm), fun hheld hc => congrArg Host.Outcome.next (cycleStartEff_takes hst hheld hc)⟩⟩,
    fun s h t hrun => missStart_run hrun, fun s k => ?_, fun s h => ⟨fun hc => congrArg Host.Outcome.next (deadlineEff_idle hc),
      fun c hc ho => congrArg Host.Outcome.next (deadlineEff_over hc ho), fun c hc ho hheld => ?_⟩,
    fun s h hst => ⟨fun h1 => congrArg Host.Outcome.next (floodSelectorReadEff_idle (.inr h1)), fun hfl hheld hnone => ?_⟩,
    fun s h tag f hf htag => ⟨fun d hd => ?_, fun res hres => ?_⟩, fun s h tag f d hf htag => ?_,
    fun s k => ⟨fun hk => congrArg Host.Outcome.next (ledgerTimeoutEff_idle hk), fun h i lim hk => ?_⟩, fun s i v => ?_⟩
  · intro b
    refine ⟨fun hb => congrArg Host.Outcome.next (pointReturnEff_none hb), fun h f i r hb => ?_⟩
    have hrun := congrArg (Host.Outcome.next (σ := State) (φ := Fault) (ρ := Refusal)) (pointReturnEff_back hb)
    exact ⟨targetFreed s k.val, targetFreed_back s k.val, targetFreed_busy s k.val, rfl,
      fun hmine => hrun.trans (congrArg (Host.Outcome.next ∘ engineRuns) (if_pos hmine)),
      fun hmine => hrun.trans (congrArg (Host.Outcome.next ∘ engineRuns) (if_neg (ne_true_of_eq_false hmine)))⟩
  · refine ⟨cutOff s h.val c, deadlineFails s h.val c, _, congrArg Host.Outcome.next (deadlineEff_cuts hc ho hheld), ?_, rfl, fun g hg => ?_, rfl, rfl, rfl⟩
    · rw [cutOff_sched, if_pos rfl, hc]
      rfl
    · rw [cutOff_sched, if_neg hg]
  · refine ⟨floodBegun s h.val, congrArg Host.Outcome.next (floodSelectorReadEff_begins hst hfl hheld hnone), ?_, rfl, fun g hg => ?_, rfl⟩
    · exact congrArg Sched.flood (State.modSched_sched_same ..)
    · exact (State.modSched_sched ..).trans (if_neg hg)
  · exact ⟨_, _, congrArg Host.Outcome.next (selectorDoneEff_ok htag hd), halfNamed_flood ((congrArg Sched.flood (freeTag_sched ..)).trans hf) d, rfl, rfl, rfl, rfl⟩
  · refine ⟨_, _, congrArg Host.Outcome.next (selectorDoneEff_fails htag hres), modFlood_flood (f := f) ?_ _, rfl, rfl⟩
    rw [poisonAer_sched, freeTag_sched, hf]
  · exact fun hd => ⟨_, _, congrArg Host.Outcome.next (outputDoneEff_ok hf htag hd), pieceCame_flood ((congrArg Sched.flood (freeTag_sched ..)).trans hf) d _, rfl, rfl⟩
  · refine ⟨ledgerGivenUp s k.val lim, congrArg Host.Outcome.next (ledgerTimeoutEff_fails hk), ?_, fun j hj => ?_, rfl, rfl⟩
    · rw [ledgerGivenUp_held, if_pos rfl]
    · rw [ledgerGivenUp_held, if_neg hj]
  · by_cases hi : i.val < 2
    · refine ⟨s.setReg (0x300800 + 4 * i.val) (w32 (clampTo 1 1000 v.toNat)), congrArg Host.Outcome.next (if_pos hi), rfl,
        fun _ => State.setReg_reg_same .., fun h2 => by omega⟩
    · refine ⟨s.setReg (0x300810 + 4 * (i.val - 2)) (w32 (clampTo 100 1000000 v.toNat)), congrArg Host.Outcome.next (if_neg hi), rfl,
        fun h2 => absurd h2 hi, fun _ => State.setReg_reg_same ..⟩

end Sys2Proof.Machine
end

section
/-! Lane bring-up (R413-R424): detection, locks, training, the capability exchange, its time-outs, stir blocks and equalisation. -/

namespace Sys2Proof.Machine

/-! ## The five lanes of a link -/

section
variable (s : State) (k : Nat) (f : Nat → Lane → Lane)

theorem laneNo_inj {k p q : Nat} : laneNo k p = laneNo k q ↔ p = q := by
  unfold laneNo
  omega

theorem foldl_modLane_lane (n p : Nat) : ((List.range n).foldl (fun s p => s.modLane (laneNo k p) (f p)) s).lane (laneNo k p)
    = if p < n then f p (s.lane (laneNo k p)) else s.lane (laneNo k p) := by
  induction n with
  | zero => rfl
  | succ n ih =>
    rw [List.range_succ, List.foldl_append, List.foldl_cons, List.foldl_nil, State.modLane_lane]
    by_cases hp : p = n
    · subst hp
      rw [if_pos rfl, ih, if_neg (Nat.lt_irrefl _), if_pos (Nat.lt_succ_self _)]
    · rw [if_neg (mt laneNo_inj.1 hp), ih]
      exact if_congr (by omega) rfl rfl

theorem modLanes_lane {p : Nat} (hp : p < 5) : (modLanes s k f).lane (laneNo k p) = f p (s.lane (laneNo k p)) :=
  (foldl_modLane_lane s k f 5 p).trans (if_pos hp)

theorem foldl_modLane_eq (g : Nat → Nat) (h : Nat → Lane → Lane) (l : List Nat) :
    ∃ ls, l.foldl (fun s p => s.modLane (g p) (h p)) s = { s with lanes := ls } := by
  induction l generalizing s with
  | nil => exact ⟨s.lanes, rfl⟩
  | cons p l ih => exact (ih _).imp fun _ h => h

/-- Changing a link's lanes changes nothing else. -/
theorem modLanes_eq : ∃ ls, modLanes s k f = { s with lanes := ls } := foldl_modLane_eq ..

theorem modLanes_only : modLanes s k f = { s with lanes := (modLanes s k f).lanes } := by
  obtain ⟨ls, h⟩ := modLanes_eq s k f
  rw [h]

theorem modLanes_link (j : Nat) : (modLanes s k f).link j = s.link j := by
  obtain ⟨ls, h⟩ := modLanes_eq s k f
  rw [h]
  rfl

theorem modLanes_now : (modLanes s k f).now = s.now := by
  obtain ⟨ls, h⟩ := modLanes_eq s k f
  rw [h]

theorem mem_lanesIn {s : State} {k p : Nat} {st : LaneSt → Bool} : p ∈ lanesIn s k st ↔ p < 5 ∧ st (s.lane (laneNo k p)).st = true := by
  simp [lanesIn]

end

/-- One lane changed: the others and the rest of the state stand. -/
theorem modLane_only (s : State) (n : Nat) (f : Lane → Lane) : (s.modLane n f).lane n = f (s.lane n) ∧ (∀ m, m ≠ n → (s.modLane n f).lane m = s.lane m)
    ∧ s.modLane n f = { s with lanes := (s.modLane n f).lanes } :=
  ⟨State.modLane_lane_same .., fun _ hm => (State.modLane_lane ..).trans (if_neg hm), rfl⟩

/-- One link changed: the others and the rest of the state stand. -/
theorem modLink_only (s : State) (k : Nat) (f : Link → Link) : (s.modLink k f).link k = f (s.link k) ∧ (∀ j, j ≠ k → (s.modLink k f).link j = s.link j)
    ∧ s.modLink k f = { s with links := (s.modLink k f).links } :=
  ⟨State.modLink_link_same .., fun _ hj => (State.modLink_link ..).trans (if_neg hj), rfl⟩

/-- One link changed together with one output: the other links, the lanes and the rest of the state stand. -/
theorem modLink_emit_only (s : State) (k : Nat) (f : Link → Link) (o : Output) :
    ((s.modLink k f).emit o).link k = f (s.link k) ∧ (∀ m, ((s.modLink k f).emit o).lane m = s.lane m)
      ∧ ∃ ls, (s.modLink k f).emit o = { s with links := ls, out := o :: s.out } :=
  ⟨State.modLink_link_same .., fun _ => rfl, _, rfl⟩

/-! ## Detection (R417) -/

section
variable {s : State} {k : Nat} {found : BitVec 5}

/-- A receiver detect counted on the lanes that look for a peer. -/
def detected (s : State) (k : Nat) (found : BitVec 5) : State :=
  modLanes s k fun p x => if x.st = .detect then { x with detects := if found.getLsbD p then min 2 (x.detects + 1) else 0, peer := found.getLsbD p } else x

theorem detected_eq : ∃ ls, detected s k found = { s with lanes := ls } := by
  unfold detected
  exact modLanes_eq ..

/-- A lane of the link is found twice in a row. -/
def foundTwice (s : State) (k : Nat) : Bool := (lanesIn s k fun st => decide (st = .detect)).any fun p => decide (2 ≤ (s.lane (laneNo k p)).detects)

/-- The link leaves DETECT with the lanes that were found. -/
def trainBegun (s : State) (k : Nat) : State :=
  ((modLanes s k fun _ x => if x.st = .detect then { x with st := if 2 ≤ x.detects then .train else .off } else x).modLink k fun l =>
    { l with lst := .train, detectAt := s.now, noPeerLogged := false }).emit (.laneTrain k 0 false false)

theorem detectEff_elsewhere (h : (s.link k).lst ≠ .detect) : detectEff s k found = s := if_pos (.inl h)

theorem detectEff_detect (h : (s.link k).lst = .detect) (hup : domUp s (linkDomain k) = true) : detectEff s k found =
    if foundTwice (detected s k found) k then trainBegun (detected s k found) k else detected s k found := by
  unfold detectEff trainBegun
  rw [if_neg (by simp [h, hup]), ← modLanes_now (detected s k found) k fun _ x =>
    if x.st = .detect then { x with st := if 2 ≤ x.detects then LaneSt.train else .off } else x]
  rfl

theorem detected_lane {p : Nat} (hp : p < 5) (hd : (s.lane (laneNo k p)).st = .detect) : (detected s k found).lane (laneNo k p)
    = { s.lane (laneNo k p) with detects := if found.getLsbD p then min 2 ((s.lane (laneNo k p)).detects + 1) else 0, peer := found.getLsbD p } :=
  (modLanes_lane _ _ _ hp).trans (if_pos hd)

theorem detected_st {p : Nat} (hp : p < 5) : ((detected s k found).lane (laneNo k p)).st = (s.lane (laneNo k p)).st := by
  unfold detected
  rw [modLanes_lane _ _ _ hp]
  split <;> rfl

theorem foundTwice_detected_zero : foundTwice (detected s k 0#5) k = false := by
  refine List.any_eq_false.2 fun p hp => ?_
  obtain ⟨hp5, hst⟩ := mem_lanesIn.1 hp
  rw [detected_st hp5, decide_eq_true_iff] at hst
  rw [detected_lane hp5 hst]
  simp

/-- Where every lane has been found once, one found again is found twice. -/
theorem foundTwice_detected (hall : ∀ p, p < 5 → (s.lane (laneNo k p)).st = .detect ∧ (s.lane (laneNo k p)).detects = 1) (hf : found ≠ 0#5) :
    foundTwice (detected s k found) k = true := by
  obtain ⟨p, hp5, hp⟩ : ∃ p, p < 5 ∧ found.getLsbD p = true := by
    by_contra hno
    refine hf (BitVec.eq_of_getLsbD_eq fun p hp => ?_)
    rw [BitVec.getLsbD_zero, Bool.eq_false_iff]
    exact fun htrue => hno ⟨p, hp, htrue⟩
  obtain ⟨hst, hcount⟩ := hall p hp5
  refine List.any_eq_true.2 ⟨p, mem_lanesIn.2 ⟨hp5, ?_⟩, ?_⟩
  · rw [detected_st hp5, hst]
    rfl
  · rw [detected_lane hp5 hst, if_pos hp, hcount]
    rfl

/-- The lanes of a link that leaves DETECT: those found train, the others are off. -/
def foundTrain (_ : Nat) (x : Lane) : Lane := if x.st = .detect then { x with st := if 2 ≤ x.detects then .train else .off } else x

theorem trainBegun_rest : (trainBegun s k).link k = { s.link k with lst := .train, detectAt := s.now, noPeerLogged := false }
    ∧ (∀ m, (trainBegun s k).lane m = (modLanes s k foundTrain).lane m) ∧ ∃ ls ks os, trainBegun s k = { s with lanes := ls, links := ks, out := os } := by
  obtain ⟨hlink, hlane, ks, honly⟩ := modLink_emit_only (modLanes s k foundTrain) k
    (fun l => { l with lst := .train, detectAt := s.now, noPeerLogged := false }) (.laneTrain k 0 false false)
  obtain ⟨ls, hls⟩ := modLanes_eq s k foundTrain
  refine ⟨hlink.trans ?_, hlane, ls, ks, .laneTrain k 0 false false :: s.out, ?_⟩
  · rw [modLanes_link]
  · refine honly.trans ?_
    rw [hls]

theorem trainBegun_lane_st {p : Nat} (hp : p < 5) (hd : (s.lane (laneNo k p)).st = .detect) :
    ((trainBegun s k).lane (laneNo k p)).st = if 2 ≤ (s.lane (laneNo k p)).detects then .train else .off := by
  obtain ⟨-, hlane, -⟩ := trainBegun_rest (s := s) (k := k)
  rw [hlane, modLanes_lane _ _ _ hp, foundTrain, if_pos hd]

end

section
variable {s : State} {k : LinkId}

theorem execLaneNoPeer_ignored (h : (s.link k.val).lst ≠ .detect ∨ (s.link k.val).noPeerLogged = true) : execLaneNoPeer k s = .next s := by
  rcases h with h | h <;> simp [execLaneNoPeer, h]

/-- A link that has looked for a peer for 100 ms, noted. -/
def noPeerNoted (s : State) (k : Nat) : State := (s.atTime ((s.link k).detectAt + ms 100)).modLink k fun l => { l with noPeerLogged := true }

theorem execLaneNoPeer_records (h : (s.link k.val).lst = .detect) (hl : (s.link k.val).noPeerLogged = false) :
    execLaneNoPeer k s = .next ((noPeerNoted s k.val).raise (linkEv Ev.laneNoPeer k.val)) := congrArg Host.Outcome.next (if_pos ⟨h, by simp [hl]⟩)

theorem noPeerNoted_records (hr : LogRoom s) (k : Nat) :
    let t := (noPeerNoted s k).raise (linkEv Ev.laneNoPeer k)
    (t.link k).noPeerLogged = true ∧ t.now = max s.now ((s.link k).detectAt + ms 100) ∧ Records { s with now := t.now, links := t.links } t (linkEv Ev.laneNoPeer k) := by
  intro t
  have hrec : Records (noPeerNoted s k) t (linkEv Ev.laneNoPeer k) := raise_records (noPeerNoted s k) (linkEv Ev.laneNoPeer k) hr rfl (.inr rfl)
  have hnow : t.now = (noPeerNoted s k).now := by rw [hrec]
  have hlinks : t.links = (noPeerNoted s k).links := by rw [hrec]
  rw [hnow, hlinks, State.link, hlinks]
  exact ⟨congrArg Link.noPeerLogged (State.modLink_link_same ..), rfl, hrec⟩

end

/-! ## Locks and training (R415, R417, R420, R421) -/

section
variable {s : State} {n : LaneId}

theorem execLaneBitLock_locks (c : Fin 31) (h : (s.lane n.val).st = .train) (hb : bringingUp (s.link (laneLink n.val)) = true) :
    execLaneBitLock n c s = .next (s.modLane n.val fun x => { x with st := .bitLock, code := c.val, initial := c.val, dirty := true }) :=
  congrArg Host.Outcome.next (if_pos ⟨h, hb⟩)

theorem execLaneBitLock_ignored (c : Fin 31) (h : (s.lane n.val).st ≠ .train) : execLaneBitLock n c s = .next s :=
  congrArg Host.Outcome.next (if_neg fun hc => h hc.1)

theorem execLaneBlockLock_ignored (h : (s.lane n.val).st ≠ .bitLock) : execLaneBlockLock n s = .next s :=
  congrArg Host.Outcome.next (if_neg fun hc => h hc.1)

/-- A lane with block lock, which tells its peer so. -/
def blockLocked (s : State) (n : Nat) : State :=
  (s.modLane n fun x => { x with st := .blockLock }).emit (.laneTrain (laneLink n) (lanePhys n) true (decide (0 < (s.link (laneLink n)).rate)))

theorem execLaneBlockLock_locks (h : (s.lane n.val).st = .bitLock) (hb : bringingUp (s.link (laneLink n.val)) = true) :
    execLaneBlockLock n s = .next (if (s.lane n.val).peerLocked then toCaps (blockLocked s n.val) n.val else blockLocked s n.val) := by
  have hlane : (blockLocked s n.val).lane n.val = { s.lane n.val with st := .blockLock } :=
    (modLane_only s n.val fun x => { x with st := .blockLock }).1
  rw [show (s.lane n.val).peerLocked = ((blockLocked s n.val).lane n.val).peerLocked by rw [hlane]]
  exact congrArg Host.Outcome.next (if_pos ⟨h, hb⟩)

/-- What a train block tells of the peer noted on a lane. -/
def trainNoted (s : State) (n ph : Nat) (locked inverted : Bool) : State :=
  s.modLane n fun x => { x with peerPhys := ph, inverted := inverted, peerLocked := x.peerLocked || locked }

theorem trainReceivedEff_training {n ph : Nat} {l i : Bool} (h : (s.lane n).st ∈ [LaneSt.train, .bitLock, .caps]) :
    trainReceivedEff s n ph l i = trainNoted s n ph l i := by
  simp only [List.mem_cons, List.not_mem_nil, or_false] at h
  rcases h with h | h | h
  all_goals
    unfold trainReceivedEff
    dsimp only
    rw [h]
    exact if_neg (by simp)

theorem trainReceivedEff_used {n ph : Nat} {l i : Bool} (h : (s.lane n).st = .active ∨ (s.lane n).st = .spare) :
    trainReceivedEff s n ph l i = if i ≠ (s.lane n).inverted then laneLossEff s n .polarity else s := by
  rcases h with h | h
  all_goals
    unfold trainReceivedEff
    dsimp only
    rw [h]

end

/-! ## Capabilities and time-outs (R417) -/

section
variable {s : State} {k : Nat} {caps : List (Fin 5 × CapsBlock)}

theorem capsReceivedEff_elsewhere (h : (s.link k).lst ≠ .caps) : capsReceivedEff s k caps = s := if_pos h

theorem capsReceivedEff_caps {c : CapsBlock} (h : (s.link k).lst = .caps)
    (hc : (lanesIn s k fun st => decide (st = .caps)).head?.bind (capsOf caps) = some c) : capsReceivedEff s k caps =
    if ((lanesIn s k fun st => decide (st = .caps)).all fun p => (capsOf caps p).any fun c => c.ack) = true ∧ caps = (s.link k).capsSeen then capsAgree s k caps c
    else (s.modLink k fun l => { l with capsSeen := caps }).emit (.laneCaps k 0 true) := by
  unfold capsReceivedEff
  dsimp only
  rw [if_neg (not_not.2 h), hc]

variable {p : Nat}

theorem stateTimeoutEff_elsewhere (h1 : (s.link k).lst ≠ .train) (h2 : (s.link k).lst ≠ .caps) : stateTimeoutEff s k p = s := if_pos ⟨h1, h2⟩

section
variable (h : (s.link k).lst = .train ∨ (s.link k).lst = .caps)
include h

theorem stateTimeoutEff_atRate (hr : 0 < (s.link k).rate) : stateTimeoutEff s k p = toDetect (strikeRate s k) k := by
  unfold stateTimeoutEff
  rw [if_neg fun hc => h.elim hc.1 hc.2]
  dsimp only
  rw [if_neg fun hc => absurd hc.1 (by omega), if_pos (.inr (.inr hr))]

/-- A locking lane that runs out of time is dropped, the link going on where another lane trains (R417). -/
theorem stateTimeoutEff_drops (hr : (s.link k).rate = 0) (hst : (s.lane (laneNo k p)).st = .bitLock ∨ (s.lane (laneNo k p)).st = .blockLock)
    {q : Nat} (hq5 : q < 5) (hqp : q ≠ p) (hq : (s.lane (laneNo k q)).st = .train) :
    stateTimeoutEff s k p = s.modLane (laneNo k p) fun x => { x with st := .off } := by
  unfold stateTimeoutEff
  rw [if_neg fun hc => h.elim hc.1 hc.2]
  dsimp only
  rw [if_pos ⟨hr, hst⟩]
  refine if_neg (List.ne_nil_of_mem (a := q) (mem_lanesIn.2 ⟨hq5, ?_⟩))
  rw [State.modLane_lane, if_neg (mt laneNo_inj.1 hqp), hq]
  rfl

end

end

/-! ## Stir blocks and equalisation (R422-R424) -/

section
variable {s : State} {n v : Nat}

theorem stirReceivedEff_unused (h1 : (s.lane n).st ≠ .active) (h2 : (s.lane n).st ≠ .spare) : stirReceivedEff s n v = s := if_pos ⟨h1, h2⟩

section
variable (h : (s.lane n).st = .active ∨ (s.lane n).st = .spare)
include h

theorem stirReceivedEff_clean (hcrc : blockCrcOk v = true) (ht : v % 256 = 0x4B) (he : popcount (bits v 55 24 ^^^ 0x5A0FF0A5) = 0) :
    stirReceivedEff s n v = s := by
  rcases h with h | h <;> simp [stirReceivedEff, h, hcrc, ht, he]

theorem stirReceivedEff_foreign (ht : v % 256 ≠ 0x4B) : stirReceivedEff s n v = s.incReg (lanReg n 0xC) := by
  rcases h with h | h <;> simp [stirReceivedEff, h, ht]

end

theorem densityEff_deaf (h : receiving (s.lane n) = false) (w : Nat) : densityEff s n w = s := if_pos (by simp [h])

/-- The lane after a window with too few transitions. -/
def windowSparse (w : Nat) (x : Lane) : Lane := { x with frozen := true, dirty := true, okWindows := 0, density := w }

/-- The lane after a window with transitions enough, `resume` of them in a row letting it adapt again. -/
def windowDense (resume w : Nat) (x : Lane) : Lane :=
  let ok := if x.frozen then x.okWindows + 1 else 0
  let go := decide (resume ≤ ok) && !x.verifying
  { x with frozen := x.frozen && !go, okWindows := if go then 0 else ok, density := w }

theorem densityEff_sparse {w : Nat} (h : receiving (s.lane n) = true) (hw : w < densMin s (laneLink n)) :
    densityEff s n w = (if (s.lane n).frozen then s else s.incReg (lanReg n 0x18)).modLane n (windowSparse w) :=
  (if_neg (by simp [h])).trans (if_pos hw)

theorem densityEff_dense {w : Nat} (h : receiving (s.lane n) = true) (hw : densMin s (laneLink n) ≤ w) :
    densityEff s n w = s.modLane n (windowDense (densResume s (laneLink n)) w) :=
  (if_neg (by simp [h])).trans (if_neg (Nat.not_lt.2 hw))

/-- What a density window leaves on its lane, and on the others. -/
theorem densityEff_lane {w : Nat} (h : receiving (s.lane n) = true) : ((densityEff s n w).lane n
    = if w < densMin s (laneLink n) then windowSparse w (s.lane n) else windowDense (densResume s (laneLink n)) w (s.lane n))
      ∧ ∀ m, m ≠ n → (densityEff s n w).lane m = s.lane m := by
  by_cases hw : w < densMin s (laneLink n)
  · have hreg : ∀ m, (if (s.lane n).frozen then s else s.incReg (lanReg n 0x18)).lane m = s.lane m := by
      intro m
      split <;> rfl
    rw [densityEff_sparse h hw, if_pos hw, State.modLane_lane_same, hreg]
    exact ⟨rfl, fun m hm => by rw [State.modLane_lane, if_neg hm, hreg]⟩
  · rw [densityEff_dense h (Nat.not_lt.1 hw), if_neg hw]
    obtain ⟨hsame, hother, -⟩ := modLane_only s n (windowDense (densResume s (laneLink n)) w)
    exact ⟨hsame, hother⟩

theorem densityEff_counts {w : Nat} (h : receiving (s.lane n) = true) (hw : w < densMin s (laneLink n)) (hf : (s.lane n).frozen = false) :
    (densityEff s n w).reg (lanReg n 0x18) = s.reg (lanReg n 0x18) + 1 := by
  have hreg : ∀ (u : State) (g : Lane → Lane) (j : Nat), (u.modLane n g).reg j = u.reg j := fun _ _ _ => rfl
  rw [densityEff_sparse h hw, if_neg (ne_true_of_eq_false hf), hreg]
  exact (State.incReg_reg ..).trans (if_pos rfl)

end

section
variable {s : State} {n : LaneId}

theorem execEqAdaptStep_still (up : Bool) (h : receiving (s.lane n.val) = false ∨ (s.lane n.val).frozen = true) : execEqAdaptStep n up s = .next s := by
  rcases h with h | h <;> simp [execEqAdaptStep, h]

theorem execEqAdaptStep_steps (up : Bool) (h : receiving (s.lane n.val) = true) (hf : (s.lane n.val).frozen = false) : execEqAdaptStep n up s
    = .next (s.modLane n.val fun x => { x with code := if up then min 30 (x.code + 1) else x.code - 1 }) :=
  congrArg Host.Outcome.next (if_pos ⟨h, by simp [hf]⟩)

theorem execEqVerifyPeriod_deaf (h : receiving (s.lane n.val) = false) : execEqVerifyPeriod n s = .next s := by simp [execEqVerifyPeriod, h]

theorem execEqVerifyPeriod_verifies (h : receiving (s.lane n.val) = true) : execEqVerifyPeriod n s
    = .next (s.modLane n.val fun x => { x with verified := if x.dirty ∨ x.frozen then x.verified else x.code, dirty := x.frozen }) :=
  congrArg Host.Outcome.next (if_pos h)

end

/-- Settles O53: each bring-up event is one branch of its handler, with what the branch leaves of the lanes read off lane by lane. -/
theorem lanesComeUp : Obligations.LanesComeUp := by
  unfold Obligations.LanesComeUp
  refine ⟨fun s k f => ⟨fun h => ⟨congrArg Host.Outcome.next (detectEff_elsewhere h), execLaneNoPeer_ignored (.inl h)⟩, fun h hup hf => ?_, fun h hup hall hf => ?_,
      fun _ hl => execLaneNoPeer_ignored (.inr hl), fun h hl hr => ⟨_, execLaneNoPeer_records h hl, noPeerNoted_records hr k.val⟩⟩,
    fun s n c => ⟨fun h hb => ⟨_, execLaneBitLock_locks c h hb, modLane_only ..⟩, execLaneBitLock_ignored c, execLaneBlockLock_ignored,
      fun h hb hp => ?_, fun h hb hp => ?_⟩,
    fun s n ph l i => ⟨fun h => ⟨_, congrArg Host.Outcome.next (trainReceivedEff_training h), modLane_only ..⟩, fun h => ⟨fun hi => ?_, fun hi => ?_⟩⟩,
    fun s k caps => ?_,
    fun s k p => ⟨fun h1 h2 => congrArg Host.Outcome.next (stateTimeoutEff_elsewhere h1 h2), fun h hr => congrArg Host.Outcome.next (stateTimeoutEff_atRate h hr),
      fun q h hr hst hq5 hqp hq => ⟨_, congrArg Host.Outcome.next (stateTimeoutEff_drops h hr hst hq5 hqp hq), modLane_only ..⟩⟩,
    fun s k => congrArg Host.Outcome.next (if_congr (by simp) rfl rfl),
    fun s n v => ⟨fun h1 h2 => congrArg Host.Outcome.next (stirReceivedEff_unused h1 h2),
      fun h hcrc ht he => congrArg Host.Outcome.next (stirReceivedEff_clean h hcrc ht he), fun h ht => congrArg Host.Outcome.next (stirReceivedEff_foreign h ht)⟩,
    fun s n w up => ⟨fun h => ⟨congrArg Host.Outcome.next (densityEff_deaf h w.val), execEqAdaptStep_still up (.inl h), execEqVerifyPeriod_deaf h⟩, fun h => ?_⟩⟩
  · subst hf
    refine ⟨_, congrArg Host.Outcome.next ((detectEff_detect h hup).trans (if_neg (ne_true_of_eq_false foundTwice_detected_zero))), fun p hp hd => ?_,
      modLanes_only ..⟩
    rw [detected_lane hp hd]
    simp
  · obtain ⟨hlink, -, ls, ks, os, honly⟩ := trainBegun_rest (s := detected s k.val f) (k := k.val)
    obtain ⟨ms, hms⟩ := detected_eq (s := s) (k := k.val) (found := f)
    refine ⟨_, congrArg Host.Outcome.next ((detectEff_detect h hup).trans (if_pos (foundTwice_detected hall hf))), ?_, ?_, fun p hp => ?_, ?_⟩
    · rw [hlink]
    · rw [hlink, hms]
    · obtain ⟨hst, hcount⟩ := hall p hp
      rw [trainBegun_lane_st hp ((detected_st hp).trans hst), detected_lane hp hst, hcount]
      cases f.getLsbD p <;> rfl
    · rw [honly, hms]
  · obtain ⟨hsame, hother, -⟩ := modLane_only s n.val fun x => { x with st := .blockLock }
    exact ⟨_, (execLaneBlockLock_locks h hb).trans (congrArg Host.Outcome.next (if_neg (ne_true_of_eq_false hp))), hsame, hother, rfl⟩
  · exact ⟨blockLocked s n.val, (execLaneBlockLock_locks h hb).trans (congrArg Host.Outcome.next (if_pos hp)),
      congrArg Lane.st (modLane_only s n.val fun x => { x with st := .blockLock }).1⟩
  · exact congrArg Host.Outcome.next ((trainReceivedEff_used h).trans (if_neg (not_not.2 hi)))
  · exact congrArg Host.Outcome.next ((trainReceivedEff_used h).trans (if_pos hi))
  · intro lanes all
    refine ⟨fun h => congrArg Host.Outcome.next (capsReceivedEff_elsewhere h), fun c h hc => ⟨fun hall heq => ?_, fun hdiff => ?_⟩⟩
    · exact congrArg Host.Outcome.next ((capsReceivedEff_caps h hc).trans (if_pos ⟨hall, heq⟩))
    · refine ⟨_, congrArg Host.Outcome.next ((capsReceivedEff_caps h hc).trans (if_neg ?_)), ?_, rfl, rfl⟩
      · rintro ⟨hall, heq⟩
        exact hdiff.elim (fun hfalse => ne_true_of_eq_false hfalse hall) fun hne => hne heq
      · exact congrArg Link.capsSeen (modLink_only s k.val fun l => { l with capsSeen := caps }).1
  · obtain ⟨hlane, hother1⟩ := densityEff_lane (w := w.val) h
    obtain ⟨hsame3, hother3, -⟩ := modLane_only s n.val fun x => { x with verified := if x.dirty ∨ x.frozen then x.verified else x.code, dirty := x.frozen }
    obtain ⟨t2, ht2, hstill, hsteps, hother2⟩ : ∃ t2, execEqAdaptStep n up s = .next t2 ∧ ((s.lane n.val).frozen = true → t2 = s)
        ∧ ((s.lane n.val).frozen = false → t2.lane n.val = { s.lane n.val with code := if up then min 30 ((s.lane n.val).code + 1) else (s.lane n.val).code - 1 })
        ∧ ∀ m, m ≠ n.val → t2.lane m = s.lane m := by
      cases hf : (s.lane n.val).frozen with
      | true => exact ⟨s, execEqAdaptStep_still up (.inr hf), fun _ => rfl, nofun, fun _ _ => rfl⟩
      | false =>
        obtain ⟨hsame, hother, -⟩ := modLane_only s n.val fun x => { x with code := if up then min 30 (x.code + 1) else x.code - 1 }
        exact ⟨_, execEqAdaptStep_steps up h hf, nofun, fun _ => hsame, hother⟩
    refine ⟨densityEff s n.val w.val, t2, _, rfl, ht2, execEqVerifyPeriod_verifies h, fun hw => ?_, fun hw hf => ?_, hstill, hsteps, fun hd hf => ?_, fun hdf => ?_,
      fun m hm => ⟨hother1 m hm, hother2 m hm, hother3 m hm⟩⟩
    · rw [hlane, if_pos hw]
      exact ⟨rfl, rfl, rfl, densityEff_counts h hw⟩
    · rw [hlane, if_neg (Nat.not_lt.2 hw)]
      simp [windowDense, hf]
    · rw [hsame3]
      simp [hd, hf]
    · rw [hsame3]
      exact if_pos hdf

end Sys2Proof.Machine
end

section
/-! Lanes lost, swapped for the spare, restored and failed, narrowing, electrical idle, and the far-end loop (R425-R429, R431, R461). -/

namespace Sys2Proof.Machine

/-! ## Loss and swap (R425-R427) -/

section
variable {s : State} {n k : Nat}

/-- A lane in use on an active link (R425). -/
def laneInUse (s : State) (n : Nat) : Prop :=
  (s.link (laneLink n)).lst = .active ∧ (s.link (laneLink n)).eiIdle = false ∧ ((s.lane n).st = .active ∨ (s.lane n).st = .spare)

theorem laneLossEff_ignored (c : LaneLossCause) (h : ¬laneInUse s n) : laneLossEff s n c = s := by
  refine if_neg ?_
  rintro ⟨hlst, hei, hst⟩
  exact h ⟨hlst, by simpa using hei, hst⟩

theorem laneLossEff_used (c : LaneLossCause) (h : laneInUse s n) :
    laneLossEff s n c = laneLost (if c = .headers then s.addReg (lanReg n 0xC) 32 else s) n := by
  obtain ⟨hlst, hei, hst⟩ := h
  exact if_pos ⟨hlst, by simp [hei], hst⟩

theorem swapReceivedEff_ignored {m c : Nat} (h : (s.link k).lst ≠ .active ∨ (s.link k).map.length ≤ m) : swapReceivedEff s k m c = s := if_pos h

section
variable {m : Nat} (hlst : (s.link k).lst = .active) (hm : m < (s.link k).map.length)
include hlst hm

/-- The lane that carries logical lane `m` taken down, and the peer answered with the count of the switch (R426). -/
def swapAnswered (s : State) (k m : Nat) : State :=
  let u := laneDown s (laneNo k (nth (s.link k).map m 0))
  ((freeCount u).2.modLink k fun l => { l with swap := some (m, (freeCount u).1, true) }).emit (.laneCtl k 2 m (freeCount u).1)

theorem swapReceivedEff_answers (c : Nat) (hs : (s.link k).swap = none) (hsp : (s.link k).spare ≠ 7) : swapReceivedEff s k m c = swapAnswered s k m := by
  unfold swapReceivedEff
  dsimp only
  rw [if_neg (not_or.2 ⟨not_not.2 hlst, Nat.not_le.2 hm⟩), hs]
  exact if_neg hsp

theorem swapReceivedEff_agrees (c : Nat) {f : Nat} {a : Bool} (hs : (s.link k).swap = some (m, f, a)) :
    swapReceivedEff s k m c = s.modLink k fun l => { l with swap := some (m, earlierCount f c, true) } := by
  unfold swapReceivedEff
  dsimp only
  rw [if_neg (not_or.2 ⟨not_not.2 hlst, Nat.not_le.2 hm⟩), hs]
  exact if_pos rfl

theorem swapReceivedEff_clashes (c : Nat) {m' f : Nat} {a : Bool} (hs : (s.link k).swap = some (m', f, a)) (hne : m' ≠ m) :
    swapReceivedEff s k m c = startNarrow s k := by
  unfold swapReceivedEff
  dsimp only
  rw [if_neg (not_or.2 ⟨not_not.2 hlst, Nat.not_le.2 hm⟩), hs]
  exact if_neg hne

end

theorem swapAnswered_tells (s : State) (k m : Nat) : ∃ f, ((swapAnswered s k m).link k).swap = some (m, f, true)
    ∧ (swapAnswered s k m).out.head? = some (.laneCtl k 2 m f) := by
  unfold swapAnswered
  dsimp only
  generalize freeCount (laneDown s (laneNo k (nth (s.link k).map m 0))) = x
  obtain ⟨hlink, -, -⟩ := modLink_emit_only x.2 k (fun l => { l with swap := some (m, x.1, true) }) (.laneCtl k 2 m x.1)
  exact ⟨x.1, congrArg Link.swap hlink, rfl⟩

/-- The spare carrying logical lane `m` in place of a lost lane, the link left without a spare (R426). -/
def spareCarries (s : State) (k m : Nat) : State :=
  (s.modLane (laneNo k (s.link k).spare) fun x => { x with st := .active, logical := m }).modLink k fun l =>
    { l with map := setNth l.map m (s.link k).spare, spare := 7, swap := none }

theorem sendMsix_links_lanes (s : State) (fn entry : Nat) : (sendMsix s fn entry).links = s.links ∧ (sendMsix s fn entry).lanes = s.lanes := by
  rw [sendMsix_ep_out]
  exact ⟨rfl, rfl⟩

theorem decided_links_lanes (s : State) (kind index action : Nat) :
    (decided s kind index action).links = s.links ∧ (decided s kind index action).lanes = s.lanes := by
  simp [decided, sendMsix_links_lanes]

theorem raise_links_lanes (s : State) (e : Ev) : (s.raise e).links = s.links ∧ (s.raise e).lanes = s.lanes := by
  rw [raise_only]
  exact ⟨rfl, rfl⟩

theorem swapSwitchEff_links_lanes {m f : Nat} (h : (s.link k).swap = some (m, f, true)) :
    (swapSwitchEff s k).links = (spareCarries s k m).links ∧ (swapSwitchEff s k).lanes = (spareCarries s k m).lanes := by
  obtain ⟨u, hu, hl, hn⟩ : ∃ u, swapSwitchEff s k = (if laneWorn u (laneNo k (nth (s.link k).map m 0)) then u
      else decided (spareUsed u) 2 (laneNo k (nth (s.link k).map m 0)) 0) ∧ u.links = (spareCarries s k m).links ∧ u.lanes = (spareCarries s k m).lanes := by
    unfold swapSwitchEff
    dsimp only
    rw [h]
    exact ⟨_, rfl, raise_links_lanes ((spareCarries s k m).incReg (linkReg k 0x18)) (laneEv Ev.laneSwap (laneNo k (nth (s.link k).map m 0)))⟩
  rw [hu]
  split
  · exact ⟨hl, hn⟩
  · obtain ⟨hl2, hn2⟩ := decided_links_lanes (spareUsed u) 2 (laneNo k (nth (s.link k).map m 0)) 0
    exact ⟨hl2.trans hl, hn2.trans hn⟩

theorem spareCarries_link (s : State) (k m : Nat) : (spareCarries s k m).link k = { s.link k with map := setNth (s.link k).map m (s.link k).spare, spare := 7, swap := none } :=
  State.modLink_link_same (s.modLane (laneNo k (s.link k).spare) fun x => { x with st := .active, logical := m }) k _

theorem spareCarries_lane (s : State) (k m : Nat) : (spareCarries s k m).lane (laneNo k (s.link k).spare)
    = { s.lane (laneNo k (s.link k).spare) with st := .active, logical := m } :=
  State.modLane_lane_same s (laneNo k (s.link k).spare) fun x => { x with st := .active, logical := m }

theorem swapSwitchEff_idle (h : ∀ m f, (s.link k).swap ≠ some (m, f, true)) : swapSwitchEff s k = s := by
  unfold swapSwitchEff
  dsimp only
  split
  · exact absurd ‹_› (h _ _)
  · rfl

end

section
variable {s : State} {k : LinkId}

theorem execSwapAckReceived_ignored (c : BitVec 16) (h : ∀ m f, (s.link k.val).swap ≠ some (m, f, false)) : execSwapAckReceived k c s = .next s := by
  unfold execSwapAckReceived
  split
  · exact absurd ‹_› (h _ _)
  · rfl

theorem execSwapAckReceived_takes (c : BitVec 16) {m f : Nat} (h : (s.link k.val).swap = some (m, f, false)) :
    execSwapAckReceived k c s = .next (s.modLink k.val fun l => { l with swap := some (m, c.toNat, true) }) := by
  rw [execSwapAckReceived, h]

theorem execSwapAckTimeout_ignored (h : ∀ m f, (s.link k.val).swap ≠ some (m, f, false)) : execSwapAckTimeout k s = .next s := by
  unfold execSwapAckTimeout
  split
  · exact absurd ‹_› (h _ _)
  · rfl

theorem execSwapAckTimeout_narrows {m f : Nat} (h : (s.link k.val).swap = some (m, f, false)) : execSwapAckTimeout k s = .next (startNarrow s k.val) := by
  rw [execSwapAckTimeout, h]

end

/-! ## Narrowing, restoring and failing (R428) -/

section
variable {s : State} {k : Nat} {u : BitVec 5}

/-- The lanes of a narrowed link that train and have block lock again. -/
def lockedAgain (s : State) (k : Nat) (u : BitVec 5) : List Nat :=
  (lanesIn s k fun st => decide (st = .train ∨ st = .bitLock ∨ st = .blockLock ∨ st = .caps)).filter fun p => u.getLsbD p

theorem narrowDoneEff_wide (h : (s.link k).narrowing = false) : narrowDoneEff s k u = s := if_pos (by simp [h])

theorem narrowDoneEff_restarts (h : (s.link k).narrowing = true) (hst : (s.link k).st ≠ .held) (hserves : linkServes s k = true) :
    narrowDoneEff s k 0#5 = toDetect s k := by
  have hnone : lockedAgain s k 0#5 = [] := by simp [lockedAgain]
  refine (if_neg (by simp [h])).trans ((if_pos hnone).trans ?_)
  dsimp only
  rw [if_neg hst, if_pos hserves]

theorem narrowDoneEff_narrows (h : (s.link k).narrowing = true) (hok : lockedAgain s k u ≠ []) :
    let v := setActive s k (widthFor (if (s.link k).width = 3 then 4 else (s.link k).width)).2 (lockedAgain s k u)
    narrowDoneEff s k u = lanesUp (v.raise { linkEv Ev.linkNarrow k with data := leBytes 1 (s.link k).width ++ leBytes 1 (v.link k).width }) k :=
  (if_neg (by simp [h])).trans (if_neg hok)

variable {n : Nat}

theorem laneRestoredEff_ignored (h : (s.lane n).st ≠ .recover) : laneRestoredEff s n = s := if_neg fun hc => h hc.1

/-- A lost lane that is the spare again. -/
def spareAgain (s : State) (n : Nat) : State :=
  (s.modLane n fun x => { x with st := .spare, logical := 7 }).modLink (laneLink n) fun l => { l with spare := lanePhys n }

theorem laneRestoredEff_spare (h : (s.lane n).st = .recover) (hlst : (s.link (laneLink n)).lst = .active) (hsp : (s.link (laneLink n)).spare = 7)
    (hl : (recentLosses s (s.lane n)).length < 3) : laneRestoredEff s n = (spareAgain s n).raise (laneEv Ev.laneRestored n) := if_pos ⟨h, hlst, hsp, hl⟩

theorem spareAgain_records (hr : LogRoom s) (n : Nat) : let t := (spareAgain s n).raise (laneEv Ev.laneRestored n)
    (t.lane n).st = .spare ∧ (t.link (laneLink n)).spare = lanePhys n ∧ Records { s with lanes := t.lanes, links := t.links } t (laneEv Ev.laneRestored n) := by
  intro t
  have hrec : Records (spareAgain s n) t (laneEv Ev.laneRestored n) := raise_records (spareAgain s n) _ hr rfl (.inr rfl)
  obtain ⟨hlinks, hlanes⟩ := raise_links_lanes (spareAgain s n) (laneEv Ev.laneRestored n)
  rw [State.lane, State.link, hlinks, hlanes]
  exact ⟨congrArg Lane.st (modLane_only s n fun x => { x with st := .spare, logical := 7 }).1,
    congrArg Link.spare (modLink_only (s.modLane n fun x => { x with st := .spare, logical := 7 }) (laneLink n) fun l => { l with spare := lanePhys n }).1, hrec⟩

end

section
variable {s : State} {n : LaneId}

theorem execLaneFailed_ignored (h : (s.lane n.val).st ≠ .recover) : execLaneFailed n s = .next s := congrArg Host.Outcome.next (if_neg h)

theorem execLaneFailed_fails (h : (s.lane n.val).st = .recover) :
    execLaneFailed n s = .next ((s.modLane n.val fun x => { x with st := .failed }).raise (laneEv Ev.laneFailed n.val)) := congrArg Host.Outcome.next (if_pos h)

theorem laneFailed_records (hr : LogRoom s) (n : Nat) : let t := (s.modLane n fun x => { x with st := .failed }).raise (laneEv Ev.laneFailed n)
    (t.lane n).st = .failed ∧ (∀ m, m ≠ n → t.lane m = s.lane m) ∧ Records { s with lanes := t.lanes } t (laneEv Ev.laneFailed n) := by
  intro t
  have hrec : Records (s.modLane n fun x => { x with st := .failed }) t (laneEv Ev.laneFailed n) := raise_records _ _ hr rfl (.inr rfl)
  obtain ⟨-, hlanes⟩ := raise_links_lanes (s.modLane n fun x => { x with st := .failed }) (laneEv Ev.laneFailed n)
  obtain ⟨hsame, hother, -⟩ := modLane_only s n fun x => { x with st := .failed }
  simp only [State.lane, t, hlanes]
  exact ⟨congrArg Lane.st hsame, hother, hrec⟩

end

/-! ## Electrical idle (R429, R461) -/

/-- A link's lanes and its state changed together. -/
theorem modLanes_modLink_spec (s : State) (k : Nat) (f : Nat → Lane → Lane) (g : Link → Link) :
    ((modLanes s k f).modLink k g).link k = g (s.link k) ∧ (∀ p, p < 5 → ((modLanes s k f).modLink k g).lane (laneNo k p) = f p (s.lane (laneNo k p)))
      ∧ (modLanes s k f).modLink k g = { s with links := ((modLanes s k f).modLink k g).links, lanes := ((modLanes s k f).modLink k g).lanes } := by
  obtain ⟨hsame, -, honly⟩ := modLink_only (modLanes s k f) k g
  refine ⟨hsame.trans (congrArg g (modLanes_link ..)), fun p hp => modLanes_lane s k f hp, ?_⟩
  obtain ⟨ls, hls⟩ := modLanes_eq s k f
  obtain ⟨ks, hks⟩ : ∃ ks, (modLanes s k f).modLink k g = { modLanes s k f with links := ks } := ⟨_, honly⟩
  rw [hks, hls]

section
variable {s : State} {k : Nat}

theorem eiRequestEff_asks (h1 : (s.link k).lst = .active) (h2 : (s.link k).st = .up) (h3 : bit (s.link k).offer 5 = true) (h4 : s.reg (uliReg k 0x4C) ≠ 0)
    (h5 : (s.link k).eiIdle = false) (h6 : (s.link k).eiAsked = false) (h7 : linkQuiet (s.link k) = true) :
    eiRequestEff s k = (s.modLink k fun l => { l with eiAsked := true }).emit (.laneCtl k 3 0 0) :=
  if_pos ⟨h1, h2, h3, h4, by simp [h5], by simp [h6], h7⟩

theorem eiRequestEff_ignored (h : (s.link k).lst ≠ .active ∨ (s.link k).eiIdle = true) : eiRequestEff s k = s := by
  rcases h with h | h <;> simp [eiRequestEff, h]

theorem eiEnterEff_ignored (h : (s.link k).lst ≠ .active ∨ (s.link k).eiIdle = true) : eiEnterEff s k = s := by
  rcases h with h | h <;> simp [eiEnterEff, h]

/-- A lane that receives goes idle. -/
def laneIdles (_ : Nat) (x : Lane) : Lane := if receiving x then { x with st := .ei } else x

/-- EI_ENTER answered where this end had not asked, and marked. -/
def eiMarked (s : State) (k : Nat) : State := (if (s.link k).eiAsked then s else s.emit (.laneCtl k 3 0 0)).emit (.laneEiMark k)

/-- A link in electrical idle. -/
def idleEntered (s : State) (k : Nat) : State :=
  (modLanes (eiMarked s k) k laneIdles).modLink k fun l => { l with lst := .ei, eiIdle := true, eiAsked := false, idleFrom := s.now }

theorem eiMarked_only (s : State) (k : Nat) : ∃ os, eiMarked s k = { s with out := os } := by
  unfold eiMarked
  split
  · exact ⟨_, rfl⟩
  · exact ⟨_, rfl⟩

theorem eiEnterEff_enters (h1 : (s.link k).lst = .active) (h2 : (s.link k).eiIdle = false) : eiEnterEff s k = idleEntered s k := by
  have hnow : (modLanes (eiMarked s k) k laneIdles).now = s.now := by
    obtain ⟨os, hos⟩ := eiMarked_only s k
    rw [modLanes_now, hos]
  unfold idleEntered
  rw [← hnow]
  exact if_pos ⟨h1, by simp [h2]⟩

theorem idleEntered_spec (s : State) (k : Nat) : (idleEntered s k).link k = { s.link k with lst := .ei, eiIdle := true, eiAsked := false, idleFrom := s.now }
    ∧ (∀ p, p < 5 → (idleEntered s k).lane (laneNo k p) = laneIdles p (s.lane (laneNo k p)))
    ∧ idleEntered s k = { s with links := (idleEntered s k).links, lanes := (idleEntered s k).lanes, out := (idleEntered s k).out } := by
  obtain ⟨os, hos⟩ := eiMarked_only s k
  obtain ⟨hlink, hlane, honly⟩ := modLanes_modLink_spec (eiMarked s k) k laneIdles fun l =>
    { l with lst := .ei, eiIdle := true, eiAsked := false, idleFrom := s.now }
  unfold idleEntered
  rw [hos] at *
  generalize (modLanes { s with out := os } k laneIdles).modLink k (fun l => { l with lst := .ei, eiIdle := true, eiAsked := false, idleFrom := s.now }) = v at *
  refine ⟨hlink, hlane, ?_⟩
  obtain ⟨ks, ls, hv⟩ : ∃ ks ls, v = { s with out := os, links := ks, lanes := ls } := ⟨_, _, honly⟩
  rw [hv]

end

/-! ## The end of electrical idle (R429) -/

section
variable {s : State} {k : Nat} {b : BitVec 5}

/-- The lanes of a link in electrical idle. -/
def idleLanes (s : State) (k : Nat) : List Nat := lanesIn s k fun st => decide (st = .ei)

/-- The idle has been long enough for its lanes to be verified (R429). -/
def idleLong (s : State) (k : Nat) : Bool := decide ((s.link k).idleFrom + ms 10 < s.now)

/-- A lane that leaves electrical idle. -/
def laneWakes (spare : Nat) (long : Bool) (b : BitVec 5) (p : Nat) (x : Lane) : Lane :=
  if x.st = .ei then { x with
    st := if p = spare then .spare else .active
    verifying := long && b.getLsbD p, frozen := x.frozen || (long && b.getLsbD p), code := if long then x.verified else x.code } else x

/-- Each idle lane's exit counted. -/
def exitsCounted (s : State) (k : Nat) : State := (idleLanes s k).foldl (fun s p => s.incReg (lanReg (laneNo k p) 0x1C)) s

/-- A link whose lanes have left electrical idle. -/
def idleLeft (s : State) (k : Nat) (b : BitVec 5) : State :=
  let u := (modLanes (exitsCounted s k) k (laneWakes (s.link k).spare (idleLong s k) b)).modLink k fun l => { l with lst := .active, eiIdle := false }
  if idleLong s k then u.emit (.laneStir k) else u

theorem lanesLost_nil (s : State) (k : Nat) : lanesLost s k [] = s := rfl

theorem eiExitEff_awake (h : (s.link k).eiIdle = false) : eiExitEff s k b = s := if_pos (by simp [h])

theorem eiExitEff_leaves (h : (s.link k).eiIdle = true) : eiExitEff s k b =
    if (idleLanes s k).all fun p => !b.getLsbD p then startNarrow (idleLeft s k b) k
    else lanesLost (idleLeft s k b) k ((idleLanes s k).filter fun p => !b.getLsbD p) := if_neg (by simp [h])

theorem exitsCounted_lane (s : State) (k n : Nat) : (exitsCounted s k).lane n = s.lane n :=
  foldl_keeps (fun u => u.lane n) (fun s p => s.incReg (lanReg (laneNo k p) 0x1C)) _ s fun _ _ => rfl

/-- What leaving electrical idle makes of the link and of its lanes. -/
theorem idleLeft_spec (s : State) (k : Nat) (b : BitVec 5) : ((idleLeft s k b).link k).lst = .active ∧ ((idleLeft s k b).link k).eiIdle = false
    ∧ ∀ p, p < 5 → (idleLeft s k b).lane (laneNo k p) = laneWakes (s.link k).spare (idleLong s k) b p (s.lane (laneNo k p)) := by
  obtain ⟨hlink, hlane, -⟩ := modLanes_modLink_spec (exitsCounted s k) k (laneWakes (s.link k).spare (idleLong s k) b) fun l =>
    { l with lst := .active, eiIdle := false }
  simp only [exitsCounted_lane] at hlane
  unfold idleLeft
  dsimp only
  generalize (modLanes (exitsCounted s k) k (laneWakes (s.link k).spare (idleLong s k) b)).modLink k
    (fun l => { l with lst := .active, eiIdle := false }) = v at *
  have hkeep : (if idleLong s k then v.emit (.laneStir k) else v).link k = v.link k
      ∧ ∀ n, (if idleLong s k then v.emit (.laneStir k) else v).lane n = v.lane n := by
    split
    · exact ⟨rfl, fun _ => rfl⟩
    · exact ⟨rfl, fun _ => rfl⟩
  obtain ⟨hl, hn⟩ := hkeep
  rw [hl, hlink]
  exact ⟨rfl, rfl, fun p hp => (hn _).trans (hlane p hp)⟩

/-- The lanes of a link that are being verified. -/
def verifyingLanes (s : State) (k : Nat) : List Nat := (List.range 5).filter fun p => (s.lane (laneNo k p)).verifying

/-- Verification over on a link's lanes: they adapt again. -/
def verifyEnded (s : State) (k : Nat) : State :=
  (verifyingLanes s k).foldl (fun s p => s.modLane (laneNo k p) fun x => { x with verifying := false, frozen := false }) s

theorem eiVerifyEff_inactive (h : (s.link k).lst ≠ .active) : eiVerifyEff s k b = s := if_pos h

theorem eiVerifyEff_active (h : (s.link k).lst = .active) :
    eiVerifyEff s k b = lanesLost (verifyEnded s k) k ((verifyingLanes s k).filter fun p => !b.getLsbD p) := if_neg (not_not.2 h)

theorem foldl_modLane_mem (f : Lane → Lane) (hf : ∀ x, f (f x) = f x) (l : List Nat) (u : State) (p : Nat) :
    (l.foldl (fun s p => s.modLane (laneNo k p) f) u).lane (laneNo k p) = if p ∈ l then f (u.lane (laneNo k p)) else u.lane (laneNo k p) := by
  induction l generalizing u with
  | nil => rfl
  | cons q l ih =>
    rw [List.foldl_cons, ih, State.modLane_lane]
    by_cases hpq : p = q
    · subst hpq
      simp [hf]
    · simp [hpq, laneNo_inj]

theorem verifyEnded_lane {p : Nat} (hp : p < 5) : (verifyEnded s k).lane (laneNo k p) = if (s.lane (laneNo k p)).verifying
    then { s.lane (laneNo k p) with verifying := false, frozen := false } else s.lane (laneNo k p) := by
  unfold verifyEnded
  rw [foldl_modLane_mem (fun x => { x with verifying := false, frozen := false }) fun _ => rfl]
  exact if_congr (by simp [verifyingLanes, hp]) rfl rfl

theorem verifyEnded_only (s : State) (k : Nat) : verifyEnded s k = { s with lanes := (verifyEnded s k).lanes } := by
  obtain ⟨ls, hls⟩ := foldl_modLane_eq s (laneNo k) (fun _ x => { x with verifying := false, frozen := false }) (verifyingLanes s k)
  unfold verifyEnded
  rw [hls]

end

/-! ## The far-end loop (R431) -/

section
variable {s : State} {k : LinkId}

theorem execFarLoopOn_ignored (h : (s.link k.val).st ≠ .outOfService ∨ (s.link k.val).loopMode ≠ 0) : execFarLoopOn k s = .next s := by
  rcases h with h | h <;> simp [execFarLoopOn, h]

theorem execFarLoopOn_loops (h1 : (s.link k.val).st = .outOfService) (h2 : (s.link k.val).loopMode = 0) (h3 : (s.reg (linkReg k.val 8)).getLsbD 4 = true) :
    execFarLoopOn k s = .next ((modLanes s k.val fun _ x => if x.st = .off then { x with st := .loop } else x).modLink k.val fun l =>
      { l with lst := .loop, farLoop := true }) := congrArg Host.Outcome.next (if_pos ⟨h1, h2, h3⟩)

theorem execFarLoopOff_ignored (h : (s.link k.val).farLoop = false) : execFarLoopOff k s = .next s := by simp [execFarLoopOff, h]

theorem execFarLoopOff_ends (h : (s.link k.val).farLoop = true) :
    execFarLoopOff k s = .next ((modLanes s k.val fun _ x => if x.st = .loop then { x with st := .off } else x).modLink k.val fun l =>
      { l with lst := .off, farLoop := false }) := congrArg Host.Outcome.next (if_pos h)

end

/-- Settles O54: each event is one branch of its handler, with what the branch leaves of the link and its lanes read off. -/
theorem lanesAreSwappedAndIdled : Obligations.LanesAreSwappedAndIdled := by
  unfold Obligations.LanesAreSwappedAndIdled
  refine ⟨fun s n c => ?_, fun s k m c => ⟨fun h => congrArg Host.Outcome.next (swapReceivedEff_ignored h), fun hlst hm hs hsp => ?_,
      fun f a hlst hm hs => ?_, fun m' f a hlst hm hs hne => congrArg Host.Outcome.next (swapReceivedEff_clashes hlst hm c.toNat hs hne)⟩,
    fun s k c => ⟨fun h => ?_, fun m f h => ?_, fun m f h => ?_⟩, fun s k u => ⟨fun h => congrArg Host.Outcome.next (narrowDoneEff_wide h), ?_, ?_⟩,
    fun s n => ⟨fun h => ⟨congrArg Host.Outcome.next (laneRestoredEff_ignored h), execLaneFailed_ignored h⟩,
      fun h hr => ⟨_, execLaneFailed_fails h, laneFailed_records hr n.val⟩,
      fun h hlst hsp hl hr => ⟨_, congrArg Host.Outcome.next (laneRestoredEff_spare h hlst hsp hl), spareAgain_records hr n.val⟩⟩,
    fun s k => ?_, fun s k b => ⟨fun h => congrArg Host.Outcome.next (eiExitEff_awake h), fun h hnone => ?_, ?_, fun h => ?_,
      fun h => congrArg Host.Outcome.next (eiVerifyEff_inactive h), fun h hnone => ?_⟩,
    fun s k => ⟨fun h1 h2 h3 => ?_, execFarLoopOn_ignored, execFarLoopOff_ignored, fun h => ?_⟩⟩
  · intro up
    refine ⟨fun h => congrArg Host.Outcome.next (laneLossEff_ignored c h), fun h hc => congrArg Host.Outcome.next ?_, fun h hc => congrArg Host.Outcome.next ?_⟩
    · rw [laneLossEff_used c h, if_neg hc]
    · rw [laneLossEff_used c h, if_pos hc]
  · obtain ⟨f, hswap, hout⟩ := swapAnswered_tells s k.val m.val
    exact ⟨_, f, congrArg Host.Outcome.next (swapReceivedEff_answers hlst hm c.toNat hs hsp), hswap, hout⟩
  · obtain ⟨hsame, -, honly⟩ := modLink_only s k.val fun l => { l with swap := some (m.val, earlierCount f c.toNat, true) }
    exact ⟨_, congrArg Host.Outcome.next (swapReceivedEff_agrees hlst hm c.toNat hs), congrArg Link.swap hsame, honly⟩
  · exact ⟨execSwapAckReceived_ignored c (by simp [h]), execSwapAckTimeout_ignored (by simp [h]), congrArg Host.Outcome.next (swapSwitchEff_idle (by simp [h]))⟩
  · obtain ⟨hsame, hother, honly⟩ := modLink_only s k.val fun l => { l with swap := some (m, c.toNat, true) }
    exact ⟨execSwapAckTimeout_narrows h, congrArg Host.Outcome.next (swapSwitchEff_idle (by simp [h])),
      _, execSwapAckReceived_takes c h, congrArg Link.swap hsame, hother, honly⟩
  · obtain ⟨hlinks, hlanes⟩ := swapSwitchEff_links_lanes h
    refine ⟨execSwapAckReceived_ignored c (by simp [h]), execSwapAckTimeout_ignored (by simp [h]), _, rfl, ?_⟩
    rw [State.link, State.lane, hlinks, hlanes]
    have hlink := spareCarries_link s k.val m
    have hlane := spareCarries_lane s k.val m
    exact ⟨congrArg Link.swap hlink, congrArg Link.spare hlink, congrArg Link.map hlink, congrArg Lane.st hlane, congrArg Lane.logical hlane⟩
  · rintro h rfl hst hserves
    exact congrArg Host.Outcome.next (narrowDoneEff_restarts h hst hserves)
  · intro ok v h hok
    exact congrArg Host.Outcome.next (narrowDoneEff_narrows h hok)
  · intro l
    refine ⟨fun h1 h2 h3 h4 h5 h6 h7 => ?_, fun h => ⟨congrArg Host.Outcome.next (eiRequestEff_ignored h), congrArg Host.Outcome.next (eiEnterEff_ignored h)⟩,
      fun h1 h2 => ?_⟩
    · exact ⟨_, congrArg Host.Outcome.next (eiRequestEff_asks h1 h2 h3 h4 h5 h6 h7), (modLink_only s k.val fun l => { l with eiAsked := true }).1, rfl, rfl⟩
    · obtain ⟨hlink, hlane, honly⟩ := idleEntered_spec s k.val
      refine ⟨_, congrArg Host.Outcome.next (eiEnterEff_enters h1 h2), hlink, fun p hp hrec => ?_, fun p hp hrec => ?_, honly⟩
      · rw [hlane p hp, laneIdles, if_pos hrec]
      · rw [hlane p hp, laneIdles, if_neg (ne_true_of_eq_false hrec)]
  · have hall : ((idleLanes s k.val).all fun p => !b.getLsbD p) = true := by
      refine List.all_eq_true.2 fun p hp => ?_
      obtain ⟨hp5, hst⟩ := mem_lanesIn.1 hp
      rw [hnone p hp5 (of_decide_eq_true hst)]
      rfl
    obtain ⟨hlst, hei, -⟩ := idleLeft_spec s k.val b
    exact ⟨_, congrArg Host.Outcome.next ((eiExitEff_leaves h).trans (if_pos hall)), hlst, hei⟩
  · rintro long ps h ⟨p, hp, hb⟩
    have hlong : long = idleLong s k.val := rfl
    clear_value long
    subst hlong
    have hsome : ¬((idleLanes s k.val).all fun p => !b.getLsbD p) = true := fun hall => by
      have hnot := List.all_eq_true.1 hall p hp
      rw [hb] at hnot
      cases hnot
    have hrun := (eiExitEff_leaves (b := b) h).trans (if_neg hsome)
    obtain ⟨hlst, hei, hlane⟩ := idleLeft_spec s k.val b
    refine ⟨idleLeft s k.val b, congrArg Host.Outcome.next hrun, hlst, hei, fun hall => congrArg Host.Outcome.next (hrun.trans ?_), fun q hq => ?_⟩
    · rw [List.filter_eq_nil_iff.2 fun q hq => by simp [hall q hq]]
      exact lanesLost_nil ..
    · obtain ⟨hq5, hst⟩ := mem_lanesIn.1 hq
      rw [hlane q hq5, laneWakes, if_pos (of_decide_eq_true hst)]
      exact ⟨rfl, rfl, rfl⟩
  · have hrun := eiVerifyEff_active (b := b) h
    refine ⟨verifyEnded s k.val, congrArg Host.Outcome.next (hrun.trans ?_), fun hall => congrArg Host.Outcome.next (hrun.trans ?_),
      fun p hp => verifyEnded_lane hp, verifyEnded_only s k.val⟩
    · rw [verifyingLanes, List.filter_filter]
      exact congrArg _ (List.filter_congr fun p _ => Bool.and_comm ..)
    · rw [List.filter_eq_nil_iff.2 fun p hp => ?_]
      · exact lanesLost_nil ..
      · rw [verifyingLanes, List.mem_filter, List.mem_range] at hp
        simp [hall p hp.1 hp.2]
  · have hempty : verifyingLanes s k.val = [] := List.filter_eq_nil_iff.2 fun p hp => by simp [hnone p (List.mem_range.1 hp)]
    refine congrArg Host.Outcome.next ((eiVerifyEff_active h).trans ?_)
    rw [verifyEnded, hempty]
    rfl
  · obtain ⟨hlink, hlane, honly⟩ := modLanes_modLink_spec s k.val (fun _ x => if x.st = .off then { x with st := .loop } else x) fun l =>
      { l with lst := .loop, farLoop := true }
    refine ⟨_, execFarLoopOn_loops h1 h2 h3, congrArg Link.lst hlink, congrArg Link.farLoop hlink, fun p hp hst => ?_, honly⟩
    rw [hlane p hp, if_pos hst]
  · obtain ⟨hlink, hlane, honly⟩ := modLanes_modLink_spec s k.val (fun _ x => if x.st = .loop then { x with st := .off } else x) fun l =>
      { l with lst := .off, farLoop := false }
    refine ⟨_, execFarLoopOff_ends h, congrArg Link.lst hlink, congrArg Link.farLoop hlink, fun p hp hst => ?_, honly⟩
    rw [hlane p hp, if_pos hst]

end Sys2Proof.Machine
end

section
/-! The commands of links and lanes (R430, R432, R455, R462): service, status, test loops, eye scans and retraining. -/

namespace Sys2Proof.Machine

section
variable {s : State} {mb k : Nat} {c : Cmd}

/-! ## Service (R455) -/

theorem linkServiceIn_executing (hx : Executing s 0x0700 mb c) (hdir : bit (wordAt c.payload 0) 8 = true) :
    execLinkServiceIn s = .next (linkInEff s mb (wordAt c.payload 0 % 8)) := by
  unfold execLinkServiceIn
  rw [runCmd_executing hx]
  exact congrArg Host.Outcome.next (if_pos hdir)

theorem linkServiceOut_executing (hx : Executing s 0x0700 mb c) (hdir : bit (wordAt c.payload 0) 8 = false) :
    execLinkServiceOut s = .next (linkOutEff s mb (wordAt c.payload 0 % 8)) := by
  unfold execLinkServiceOut
  rw [runCmd_executing hx]
  exact congrArg Host.Outcome.next (if_neg (ne_true_of_eq_false hdir))

theorem linkInEff_absent (h : (imgLink s k).absent = true ∨ (s.link k).st = .absent) : linkInEff s mb k = refuse s mb 1 0 := if_pos h

/-- A link that the image and the device have. -/
theorem not_linkAbsent (h1 : (imgLink s k).absent = false) (h2 : (s.link k).st ≠ .absent) : ¬((imgLink s k).absent = true ∨ (s.link k).st = .absent) :=
  fun h => h.elim (ne_true_of_eq_false h1) h2

section
variable (h1 : (imgLink s k).absent = false) (h2 : (s.link k).st ≠ .absent)
include h1 h2

theorem linkInEff_contained (hc : s.linkCause k ≠ 0) : linkInEff s mb k = refuse s mb 3 0 := (if_neg (not_linkAbsent h1 h2)).trans (if_pos hc)

theorem linkInEff_up (hc : s.linkCause k = 0) (hst : (s.link k).st = .up) (hstop : (s.link k).stopMb = none) : linkInEff s mb k = done s mb [] :=
  (if_neg (not_linkAbsent h1 h2)).trans ((if_neg (not_not.2 hc)).trans (if_pos ⟨hst, hstop⟩))

theorem linkInEff_starts (hc : s.linkCause k = 0) (hst : (s.link k).st = .outOfService) :
    linkInEff s mb k = linkStart (waitCmd (s.modLink k fun l => { l with svcMb := some mb }) mb) k :=
  (if_neg (not_linkAbsent h1 h2)).trans ((if_neg (not_not.2 hc)).trans ((if_neg fun h => by rw [hst] at h; cases h.1).trans (if_pos hst)))

end

theorem linkOutEff_absent (h : (imgLink s k).absent = true ∨ (s.link k).st = .absent) : linkOutEff s mb k = refuse s mb 1 0 := if_pos h

theorem linkOutEff_out (h1 : (imgLink s k).absent = false) (hst : (s.link k).st = .outOfService) : linkOutEff s mb k = done s mb [] :=
  (if_neg (not_linkAbsent h1 (by simp [hst]))).trans (if_pos hst)

/-- The messages of a link that stay when it is taken out of service: those whose request has entered the stream, and answers (R455, R456). -/
def entered (fresh : List Acc) (q : List TxMsg) : List TxMsg := q.filter fun m => match m.req with
  | some a => decide (a ∉ fresh)
  | none => true

theorem entered_nil (q : List TxMsg) : entered [] q = q := by
  refine List.filter_eq_self.2 fun m _ => ?_
  split <;> simp

/-- A link that is being taken out of service, its command waiting. -/
def linkStopping (s : State) (mb k : Nat) : State :=
  waitCmd (s.modLink k fun l => { l with stopMb := some mb, svcMb := none, txQ := entered (linkWaiting (s.link k)) l.txQ }) mb

theorem linkOutEff_stops (h1 : (imgLink s k).absent = false) (h2 : (s.link k).st ≠ .absent) (h3 : (s.link k).st ≠ .outOfService) :
    linkOutEff s mb k = linkStopCheck ((linkWaiting (s.link k)).foldl (fun s a => failAcc s a Cs.islandAbsent (accFirst a) 0
      (some { code := Ev.portNotInService, src := srcLink k, key := 0x12 + k })) (linkStopping s mb k)) k :=
  (if_neg (not_linkAbsent h1 h2)).trans (if_neg h3)

theorem linkStopping_spec (s : State) (mb k : Nat) :
    (linkStopping s mb k).link k = { s.link k with stopMb := some mb, svcMb := none, txQ := entered (linkWaiting (s.link k)) (s.link k).txQ }
      ∧ (∀ j, j ≠ k → (linkStopping s mb k).link j = s.link j) ∧ ((linkStopping s mb k).mb mb).st = .waiting
      ∧ linkStopping s mb k = { s with links := (linkStopping s mb k).links, her := (linkStopping s mb k).her } := by
  obtain ⟨hsame, hother, -⟩ := modLink_only s k fun l => { l with stopMb := some mb, svcMb := none, txQ := entered (linkWaiting (s.link k)) l.txQ }
  unfold linkStopping
  generalize hu : (s.modLink k fun l => { l with stopMb := some mb, svcMb := none, txQ := entered (linkWaiting (s.link k)) l.txQ }) = u at *
  have hlink : ∀ j, (waitCmd u mb).link j = u.link j := fun _ => rfl
  refine ⟨(hlink k).trans hsame, fun j hj => (hlink j).trans (hother j hj), ?_, ?_⟩
  · rw [waitCmd_mb, if_pos rfl]
  · subst hu
    rfl

theorem linkStatus_executing (hx : Executing s 0x0701 mb c) : execLinkStatus s
    = .next (done s mb (bytesOfWords ((List.range 16).map fun i => uliWord s (wordAt c.payload 0 % 8) (4 * i)))) := by
  unfold execLinkStatus
  rw [runCmd_executing hx]

/-! ## Loops (R430) -/

theorem execLinkLoop_executing (hx : Executing s 0x0702 mb c) : execLinkLoop s = .next (linkLoopEff s mb c) := runCmd_executing hx linkLoopEff

theorem endLoop_none {u : State} (h : (u.link k).loopMode = 0) (es : List Nat) (n l : Nat) : endLoop u k es n l = u := if_pos h

section
variable (hk : k = wordAt c.payload 0 % 8)
include hk

theorem linkLoopEff_inService (h : (s.link k).st ≠ .outOfService) : linkLoopEff s mb c = refuse s mb 1 0 := by
  subst hk
  exact if_pos h

theorem linkLoopEff_unoffered (h : (s.link k).st = .outOfService) (h3 : wordAt c.payload 4 % 4 = 3) (hp : (s.link k).peerLoopOk = false) :
    linkLoopEff s mb c = refuse s mb 2 0 := by
  subst hk
  exact (if_neg (not_not.2 h)).trans (if_pos ⟨h3, by simp [hp]⟩)

/-- The state with the free figures of a loop test drawn. -/
def figuresDrawn (s : State) : State := { s with fresh := s.fresh + 7 }

/-- A link whose named lanes loop (R430). -/
def loopRuns (s : State) (mb k w : Nat) : State :=
  (modLanes s k fun p x => if bit w (4 + p) then { x with st := .loop } else x).modLink k fun l =>
    { l with lst := .loop, loopMode := w % 4, loopMask := bits w 8 4, loopMb := some mb }

/-- A peer that is to loop is asked to. -/
def loopAsked (s : State) (k w : Nat) : State := if w % 4 = 3 then s.emit (.laneCtl k 4 0 0) else s

theorem linkLoopEff_idle (h : (s.link k).st = .outOfService) (h3 : wordAt c.payload 4 % 4 = 3 → (s.link k).peerLoopOk = true) (hm : (s.link k).loopMode = 0) :
    linkLoopEff s mb c = if wordAt c.payload 4 % 4 = 0 then done (figuresDrawn s) mb []
      else waitCmd (loopAsked (loopRuns (figuresDrawn s) mb k (wordAt c.payload 4)) k (wordAt c.payload 4)) mb := by
  subst hk
  have hoffer : ¬(wordAt c.payload 4 % 4 = 3 ∧ (!(s.link (wordAt c.payload 0 % 8)).peerLoopOk) = true) := by
    rintro ⟨h, hp⟩
    rw [h3 h] at hp
    cases hp
  unfold linkLoopEff
  dsimp only
  rw [if_neg (not_not.2 h), if_neg hoffer, endLoop_none (u := { s with fresh := s.fresh + 7 }) hm]
  rfl

end

theorem loopAsked_spec (u : State) (k w : Nat) : (∀ j, (loopAsked u k w).link j = u.link j) ∧ (∀ n, (loopAsked u k w).lane n = u.lane n)
    ∧ (loopAsked u k w).her = u.her := by
  unfold loopAsked
  split
  · exact ⟨fun _ => rfl, fun _ => rfl, rfl⟩
  · exact ⟨fun _ => rfl, fun _ => rfl, rfl⟩

/-- What a loop test that begins makes of its link, its lanes and its command. -/
theorem loopBegun_spec (s : State) (mb k w : Nat) : let t := waitCmd (loopAsked (loopRuns (figuresDrawn s) mb k w) k w) mb
    t.link k = { s.link k with lst := .loop, loopMode := w % 4, loopMask := bits w 8 4, loopMb := some mb } ∧ (t.mb mb).st = .waiting
      ∧ ∀ p, p < 5 → t.lane (laneNo k p) = if bit w (4 + p) then { s.lane (laneNo k p) with st := .loop } else s.lane (laneNo k p) := by
  intro t
  obtain ⟨hlink, hlane, -⟩ := modLanes_modLink_spec (figuresDrawn s) k (fun p x => if bit w (4 + p) then { x with st := .loop } else x) fun l =>
    { l with lst := .loop, loopMode := w % 4, loopMask := bits w 8 4, loopMb := some mb }
  obtain ⟨halink, halane, -⟩ := loopAsked_spec (loopRuns (figuresDrawn s) mb k w) k w
  have hwait : ∀ u : State, (waitCmd u mb).link k = u.link k ∧ ∀ n, (waitCmd u mb).lane n = u.lane n := fun _ => ⟨rfl, fun _ => rfl⟩
  obtain ⟨hwlink, hwlane⟩ := hwait (loopAsked (loopRuns (figuresDrawn s) mb k w) k w)
  refine ⟨(hwlink.trans (halink k)).trans hlink, ?_, fun p hp => ((hwlane _).trans (halane _)).trans (hlane p hp)⟩
  rw [waitCmd_mb, if_pos rfl]

/-- A link's loop test ended: its lanes off (R430). -/
def loopStopped (s : State) (k : Nat) : State :=
  (modLanes s k fun _ x => if x.st = .loop then { x with st := .off } else x).modLink k fun l => { l with lst := .off, loopMode := 0, loopMask := 0, loopMb := none }

/-- A peer that has looped is told that it is over. -/
def loopReleased (s : State) (k mode : Nat) : State := if mode = 3 then s.emit (.laneCtl k 5 0 0) else s

theorem endLoop_ends {mb : Nat} (h : (s.link k).loopMode ≠ 0) (hmb : (s.link k).loopMb = some mb) (es : List Nat) (n l : Nat) :
    endLoop s k es n l = done (loopReleased (loopStopped s k) k (s.link k).loopMode) mb (loopBytes es n l) := by
  unfold endLoop
  dsimp only
  rw [if_neg h, hmb]
  rfl

theorem loopStopped_link (s : State) (k mode : Nat) :
    (loopReleased (loopStopped s k) k mode).link k = { s.link k with lst := .off, loopMode := 0, loopMask := 0, loopMb := none }
      ∧ ∀ j, j ≠ k → (loopReleased (loopStopped s k) k mode).link j = s.link j := by
  obtain ⟨hsame, hother, -⟩ := modLink_only (modLanes s k fun _ x => if x.st = .loop then { x with st := .off } else x) k fun l =>
    { l with lst := .off, loopMode := 0, loopMask := 0, loopMb := none }
  simp only [modLanes_link] at hsame hother
  have hrel : ∀ (u : State) (j : Nat), (loopReleased u k mode).link j = u.link j := fun u j => by
    unfold loopReleased
    split <;> rfl
  exact ⟨(hrel ..).trans hsame, fun j hj => (hrel ..).trans (hother j hj)⟩

/-! ## Eye scans and retraining (R432, R455) -/

theorem laneEyeScan_executing (hx : Executing s 0x0703 mb c) : execLaneEyeScan s
    = .next (if receiving (s.lane (wordAt c.payload 0)) then waitCmd s mb else refuse s mb 1 0) := by
  unfold execLaneEyeScan
  rw [runCmd_executing hx]

theorem eyeDoneEff_answers {n : Nat} (l r u d b : Nat) (hst : (s.mb 0).st = .waiting) (hc : (s.mb 0).cmd = some c) (hop : c.opcode = 0x0703)
    (hn : wordAt c.payload 0 = n) : eyeDoneEff s n l r u d b = done s 0 (eyeBytes s n l r u d b) := by
  rw [eyeDoneEff, hst, hc]
  exact if_pos ⟨hop, hn⟩

theorem eyeDoneEff_ignored (n l r u d b : Nat) (hst : (s.mb 0).st ≠ .waiting) : eyeDoneEff s n l r u d b = s := by
  unfold eyeDoneEff
  split
  · exact absurd ‹_› hst
  · rfl

theorem execLinkRetrain_executing (hx : Executing s 0x0704 mb c) : execLinkRetrain s = .next (linkRetrainEff s mb c) := runCmd_executing hx linkRetrainEff

section
variable (hk : k = wordAt c.payload 0 % 8)
include hk

theorem linkRetrainEff_absent (h : (imgLink s k).absent = true ∨ (s.link k).st = .absent) : linkRetrainEff s mb c = refuse s mb 1 0 := by
  subst hk
  exact if_pos h

theorem linkRetrainEff_out (h1 : (imgLink s k).absent = false) (hst : (s.link k).st = .outOfService) : linkRetrainEff s mb c = ran s mb Cs.linkDown [] := by
  subst hk
  exact (if_neg (not_linkAbsent h1 (by simp [hst]))).trans (if_pos (by simp [linkServes, hst]))

theorem linkRetrainEff_retrains (h1 : (imgLink s k).absent = false) (hst : (s.link k).st = .up ∨ (s.link k).st = .held) :
    linkRetrainEff s mb c = startBringup (holdSession (waitCmd (s.modLink k fun l => { l with retrainMb := some mb }) mb) k) k := by
  subst hk
  have hserves : linkServes s (wordAt c.payload 0 % 8) = true := by rcases hst with h | h <;> simp [linkServes, h]
  have hthere : (s.link (wordAt c.payload 0 % 8)).st ≠ .absent := by rcases hst with h | h <;> simp [h]
  exact (if_neg (not_linkAbsent h1 hthere)).trans ((if_neg (by simp [hserves])).trans (if_pos hst))

end

end

section
variable {s : State} {k : LinkId}

theorem execLinkServiceTimeout_none (h : (s.link k.val).svcMb = none) : execLinkServiceTimeout k s = .next s := by rw [execLinkServiceTimeout, h]

theorem execLinkServiceTimeout_ends {mb : Nat} (h : (s.link k.val).svcMb = some mb) (hst : (s.link k.val).st ≠ .up) (hserves : linkServes s k.val = true) :
    execLinkServiceTimeout k s = .next (ran (s.modLink k.val fun l => { l with svcMb := none }) mb Cs.linkDown []) := by
  rw [execLinkServiceTimeout, h]
  exact congrArg Host.Outcome.next (if_pos ⟨hst, hserves⟩)

end

/-- Settles O34: each command and each end is one branch of its handler. -/
theorem linkCommands : Obligations.LinkCommands := by
  unfold Obligations.LinkCommands
  refine ⟨fun s mb c hx hdir => ?_, fun s mb c hx hdir => ?_, fun s mb c hx => ⟨_, linkStatus_executing hx, executing_done (u := s) hx rfl _⟩,
    fun s mb c hx => ?_, fun s k es n l => ⟨fun h => congrArg Host.Outcome.next (endLoop_none h ..), fun mb h hmb => ?_⟩,
    fun s mb c hx => ⟨fun h => ?_, fun h => ?_⟩,
    fun s n l r u d b => ⟨fun c hst hc hop hn => congrArg Host.Outcome.next (eyeDoneEff_answers _ _ _ _ _ hst hc hop hn),
      fun hst => congrArg Host.Outcome.next (eyeDoneEff_ignored _ _ _ _ _ _ hst)⟩, fun s mb c hx => ?_,
    fun s k => ⟨execLinkServiceTimeout_none, fun mb => execLinkServiceTimeout_ends⟩⟩
  · intro k row
    have hrun : exec row s = .next (linkInEff s mb k) := linkServiceIn_executing hx hdir
    clear_value row
    refine ⟨fun h => ⟨_, hrun.trans (congrArg _ (linkInEff_absent h)), executing_refuses (u := s) hx rfl 1 0⟩, fun h1 h2 =>
      ⟨fun hc => ⟨_, hrun.trans (congrArg _ (linkInEff_contained h1 h2 hc)), executing_refuses (u := s) hx rfl 3 0⟩,
        fun hc hst hstop => ⟨_, hrun.trans (congrArg _ (linkInEff_up h1 h2 hc hst hstop)), executing_done (u := s) hx rfl []⟩,
        fun hc hst => hrun.trans (congrArg _ (linkInEff_starts h1 h2 hc hst))⟩⟩
  · intro k row
    have hrun : exec row s = .next (linkOutEff s mb k) := linkServiceOut_executing hx hdir
    clear_value row
    refine ⟨fun h => ⟨_, hrun.trans (congrArg _ (linkOutEff_absent h)), executing_refuses (u := s) hx rfl 1 0⟩,
      fun h1 hst => ⟨_, hrun.trans (congrArg _ (linkOutEff_out h1 hst)), executing_done (u := s) hx rfl []⟩, fun h1 h2 h3 => ?_⟩
    obtain ⟨hlink, hother, hmb, honly⟩ := linkStopping_spec s mb k
    refine ⟨linkStopping s mb k, hrun.trans (congrArg _ (linkOutEff_stops h1 h2 h3)), congrArg Link.stopMb hlink, congrArg Link.svcMb hlink, hmb,
      fun hnone => ?_, hother, honly⟩
    rw [hlink, hnone]
    exact entered_nil _
  · intro k w
    have hrun := execLinkLoop_executing hx
    refine ⟨fun h => ⟨_, hrun.trans (congrArg _ (linkLoopEff_inService (k := k) rfl h)), executing_refuses (u := s) hx rfl 1 0⟩,
      fun h h3 hp => ⟨_, hrun.trans (congrArg _ (linkLoopEff_unoffered (k := k) rfl h h3 hp)), executing_refuses (u := s) hx rfl 2 0⟩,
      fun h h0 h3 hm => ?_, fun h h0 hm => ?_⟩
    · obtain ⟨hlink, hmb, hlane⟩ := loopBegun_spec s mb k w
      refine ⟨_, hrun.trans (congrArg _ ((linkLoopEff_idle (k := k) rfl h h3 hm).trans (if_neg h0))), congrArg Link.lst hlink, congrArg Link.loopMode hlink,
        congrArg Link.loopMask hlink, congrArg Link.loopMb hlink, hmb, fun p hp hb => ?_, fun p hp hb => ?_⟩
      · rw [hlane p hp, if_pos hb]
      · rw [hlane p hp, if_neg (ne_true_of_eq_false hb)]
    · exact ⟨_, hrun.trans (congrArg _ ((linkLoopEff_idle (k := k) rfl h (fun h3 => by omega) hm).trans (if_pos h0))),
        executing_done (u := figuresDrawn s) hx rfl []⟩
  · obtain ⟨hlink, hother⟩ := loopStopped_link s k.val (s.link k.val).loopMode
    exact ⟨_, congrArg Host.Outcome.next (endLoop_ends h hmb ..), congrArg Link.lst hlink, congrArg Link.loopMode hlink, congrArg Link.loopMb hlink, hother⟩
  · exact ⟨_, (laneEyeScan_executing hx).trans (congrArg Host.Outcome.next (if_neg (ne_true_of_eq_false h))), executing_refuses (u := s) hx rfl 1 0⟩
  · obtain ⟨he, hcmd, -, -⟩ := execCmd_some _ _ _ _ hx
    refine ⟨_, (laneEyeScan_executing hx).trans (congrArg Host.Outcome.next (if_pos h)), ?_, ?_, fun m hm => ?_, rfl⟩
    · rw [waitCmd_mb, if_pos rfl]
    · rw [waitCmd_mb, if_pos rfl]
      exact hcmd
    · rw [waitCmd_mb, if_neg hm]
  · intro k
    have hrun := execLinkRetrain_executing hx
    exact ⟨fun h => ⟨_, hrun.trans (congrArg _ (linkRetrainEff_absent (k := k) rfl h)), executing_refuses (u := s) hx rfl 1 0⟩,
      fun h1 hst => ⟨_, hrun.trans (congrArg _ (linkRetrainEff_out (k := k) rfl h1 hst)), executing_answers (u := s) hx rfl 0 Cs.linkDown 0 0 []⟩,
      fun h1 hst => hrun.trans (congrArg _ (linkRetrainEff_retrains (k := k) rfl h1 hst))⟩

end Sys2Proof.Machine
end

section
/-! Ulilum sessions and messages (R438-R454, R458): flits and INITs received, messages sent and taken, timeouts, replay and keepalive. -/

namespace Sys2Proof.Machine

/-! ## INIT (R439, R440) -/

section
variable {s : State} {k : Nat} {f : InitFlit}

/-- The state with the refused version of a link's peer forgotten (R459). -/
def versionAccepted (s : State) (k : Nat) : State := s.modCont fun c => { c with linkVersion := c.linkVersion.filter fun j => decide (j ≠ k) }

theorem sessionInitEff_deaf (h : linkServes s k = false ∨ (s.link k).lst ≠ .active) : sessionInitEff s k f = s :=
  if_pos (h.imp_left fun h => by simp [h])

section
variable (h1 : linkServes s k = true) (h2 : (s.link k).lst = .active)
include h1 h2

theorem not_deaf : ¬((!linkServes s k) = true ∨ (s.link k).lst ≠ .active) := by simp [h1, h2]

theorem sessionInitEff_refused (h : initAllowed k f = false) : sessionInitEff s k f = initRefused s k :=
  (if_neg (not_deaf h1 h2)).trans (if_pos (by simp [h]))

variable (h3 : initAllowed k f = true)
include h3

theorem sessionInitEff_held (hst : (s.link k).st = .held) : sessionInitEff s k f =
    if f.resume = true ∧ f.session = (s.link k).session ∧ f.lastAgreed = (s.link k).session then resumeSession (versionAccepted s k) k
    else loseSession (versionAccepted s k) k 0 := by
  refine (if_neg (not_deaf h1 h2)).trans ((if_neg (by simp [h3])).trans ?_)
  dsimp only
  rw [hst]
  rfl

theorem sessionInitEff_again (hst : (s.link k).st = .up) (hs : f.session = (s.link k).peerSession) : sessionInitEff s k f = versionAccepted s k := by
  refine (if_neg (not_deaf h1 h2)).trans ((if_neg (by simp [h3])).trans ?_)
  dsimp only
  rw [hst]
  exact if_pos (.inl hs)

/-- A peer's INIT noted by a link that opens a session. -/
def initNoted (s : State) (k : Nat) (f : InitFlit) : State :=
  (versionAccepted s k).modLink k fun l => { l with gotInit := some f, peerVersion := f.version, peerRole := f.role }

theorem sessionInitEff_init (hst : (s.link k).st = .init) : sessionInitEff s k f =
    if f.initAck then openSession (initNoted s k f) k f else (initNoted s k f).emit (.uliInit k (s.link k).ownSession true false) := by
  refine (if_neg (not_deaf h1 h2)).trans ((if_neg (by simp [h3])).trans ?_)
  dsimp only
  rw [hst]
  rfl

end

/-! ## Sending (R446) -/

theorem messageSendEff_idle (h : (s.link k).st ≠ .up ∨ (s.link k).lst ≠ .active ∨ nextTx (s.link k) = none) : messageSendEff s k = s := by
  unfold messageSendEff
  dsimp only
  by_cases hup : (s.link k).st ≠ .up ∨ (s.link k).lst ≠ .active
  · exact if_pos hup
  · have hnone : nextTx (s.link k) = none := by
      rw [not_or] at hup
      exact (h.resolve_left hup.1).resolve_left hup.2
    rw [if_neg hup, hnone]

theorem messageSendEff_next (h1 : (s.link k).st = .up) (h2 : (s.link k).lst = .active) {i : Nat} {m : TxMsg} (hi : nextTx (s.link k) = some i)
    (hm : (s.link k).txQ[i]? = some m) : messageSendEff s k = m.req.elim
      (enterStream (s.modLink k fun l => { l with txQ := l.txQ.eraseIdx i }) k m.cls (unitsOf (m.bytes.length - 16)) m.bytes) (sendRequest s k i m) := by
  unfold messageSendEff
  dsimp only
  rw [if_neg (by simp [h1, h2]), hi]
  dsimp only
  rw [hm]
  cases hreq : m.req <;> simp [hreq]

/-! ## Answers taken (R449, R451) -/

section
variable {m : RxMsg} {u : State}

theorem cplReceiveEff_none (h : takeRx s k (fun t => decide (t = 0x10)) = none) : cplReceiveEff s k = s := by rw [cplReceiveEff, h]
theorem settleReceiveEff_none (h : takeRx s k (fun t => decide (t = 0x11)) = none) : settleReceiveEff s k = s := by rw [settleReceiveEff, h]
theorem notifyReceiveEff_none (h : takeRx s k (fun t => decide (t = 0x20)) = none) : notifyReceiveEff s k = s := by rw [notifyReceiveEff, h]
theorem peerRequestEff_none (h : takeRx s k (fun t => decide (1 ≤ t ∧ t ≤ 3)) = none) : peerRequestEff s k = s := by rw [peerRequestEff, h]

section
variable (h : takeRx s k (fun t => decide (t = 0x10)) = some (m, u))
include h

theorem cplReceiveEff_stray (hr : reqOf u k m.tag = none) : cplReceiveEff s k = strayAnswer u k m.tag := by
  rw [cplReceiveEff, h]
  dsimp only
  rw [hr]

theorem cplReceiveEff_ends {r : UliReq} (hr : reqOf u k m.tag = some r) (hk : r.acc.kind ≠ .write) (hs : m.status = 0) (hd : m.data.length = r.len) :
    cplReceiveEff s k = endReq u k r { cs := statusCs 0, addr := r.acc.addr + r.off, data := m.data.map some, beat := m.beat } := by
  have hfits : ¬(m.status = 0 ∧ m.data.length ≠ r.len ∨ r.len < m.data.length ∨ 5 < m.status) := by omega
  rw [cplReceiveEff, h]
  dsimp only
  rw [hr]
  refine (if_neg hk).trans ((if_neg hfits).trans ?_)
  rw [hs, if_pos rfl, Nat.add_zero]

end

section
variable (h : takeRx s k (fun t => decide (t = 0x11)) = some (m, u))
include h

theorem settleReceiveEff_stray (hr : reqOf u k m.tag = none) : settleReceiveEff s k = strayAnswer u k m.tag := by
  rw [settleReceiveEff, h]
  dsimp only
  rw [hr]

theorem settleReceiveEff_ends {r : UliReq} (hr : reqOf u k m.tag = some r) (hk : r.acc.kind = .write) (hs : m.status ≤ 5) :
    settleReceiveEff s k = endReq u k r { cs := statusCs m.status, addr := m.addr, data := [], beat := m.beat } := by
  rw [settleReceiveEff, h]
  dsimp only
  rw [hr]
  exact if_neg fun hc => hc.elim (not_not.2 hk) (Nat.not_lt.2 hs)

end

/-- A notice's address kept, and counted (R451). -/
def noticeKept (u : State) (k addr : Nat) : State := (u.setReg (uliReg k 0x58) (w32 addr)).incReg (uliReg k 0x5C)

theorem notifyReceiveEff_unrouted (h : takeRx s k (fun t => decide (t = 0x20)) = some (m, u)) (hb : bit (u.reg (uliReg k 0x54)).toNat 0 = false) :
    notifyReceiveEff s k = noticeKept u k m.addr := by
  rw [notifyReceiveEff, h]
  exact if_neg fun hc => ne_true_of_eq_false hb hc.1

theorem noticeKept_reg (u : State) (k addr j : Nat) : (noticeKept u k addr).reg j =
    if j = uliReg k 0x5C then u.reg j + 1 else if j = uliReg k 0x58 then w32 addr else u.reg j := by
  have hne : uliReg k 0x5C ≠ uliReg k 0x58 := by simp [uliReg]
  unfold noticeKept
  rw [State.incReg_reg, State.setReg_reg, State.setReg_reg, if_neg hne]
  exact if_ctx_congr Iff.rfl (fun hj => by rw [hj]; rfl) fun _ => rfl

theorem noticeKept_only (u : State) (k addr : Nat) : noticeKept u k addr = { u with regs := (noticeKept u k addr).regs } := by
  unfold noticeKept
  generalize w32 addr = v
  rfl

/-- A peer's request counted and answered as unsupported (R451). -/
def peerAnswered (u : State) (k tag : Nat) : State :=
  (u.incReg (uliReg k 0x60)).modLink k fun l => { l with
    txQ := l.txQ ++ [{ cls := 2, bytes := messageHeader 0x10 0 1 0 tag 3 0 0, req := none, off := 0 }] }

theorem peerRequestEff_answers (h : takeRx s k (fun t => decide (1 ≤ t ∧ t ≤ 3)) = some (m, u)) : peerRequestEff s k = peerAnswered u k m.tag := by
  rw [peerRequestEff, h]
  rfl

theorem peerAnswered_spec (u : State) (k tag : Nat) : (peerAnswered u k tag).reg (uliReg k 0x60) = u.reg (uliReg k 0x60) + 1
    ∧ ((peerAnswered u k tag).link k).txQ = (u.link k).txQ ++ [{ cls := 2, bytes := messageHeader 0x10 0 1 0 tag 3 0 0, req := none, off := 0 }]
    ∧ (∀ j, j ≠ k → (peerAnswered u k tag).link j = u.link j)
    ∧ peerAnswered u k tag = { u with regs := (peerAnswered u k tag).regs, links := (peerAnswered u k tag).links } := by
  unfold peerAnswered
  generalize messageHeader 0x10 0 1 0 tag 3 0 0 = bytes
  obtain ⟨hsame, hother, -⟩ := modLink_only (u.incReg (uliReg k 0x60)) k fun l => { l with txQ := l.txQ ++ [{ cls := 2, bytes := bytes, req := none, off := 0 }] }
  exact ⟨(State.incReg_reg u (uliReg k 0x60) (uliReg k 0x60)).trans (if_pos rfl), congrArg Link.txQ hsame, hother, rfl⟩

end

/-! ## Timeouts (R454) -/

theorem mem_insertAsc (n m : Nat) (l : List Nat) : m ∈ insertAsc n l ↔ m = n ∨ m ∈ l := by
  induction l with
  | nil => simp [insertAsc]
  | cons x xs ih =>
    unfold insertAsc
    split_ifs with h1 h2
    · exact List.mem_cons
    · simp [h2]
    · simp [ih, or_left_comm]

theorem reqTimeoutEff_none {tag : Nat} (h : reqOf s k tag = none) : reqTimeoutEff s k tag = s := by rw [reqTimeoutEff, h]

/-- The tag of a request that has timed out in quarantine (R454). -/
def tagQuarantined (s : State) (k tag at_ : Nat) : State := (s.atTime at_).modLink k fun l => { l with quar := insertAsc tag l.quar }

theorem reqTimeoutEff_ends {tag : Nat} {r : UliReq} (h : reqOf s k tag = some r) : reqTimeoutEff s k tag
    = endReq (tagQuarantined s k tag r.deadline) k r { cs := Cs.farTimeout, addr := r.acc.addr + r.off, data := [], beat := 0 } := by
  rw [reqTimeoutEff, h]
  rfl

/-! ## Replay (R442, R445) -/

theorem replayNow_replays (h0 : 0 < (s.link k).unacked) (h4 : (s.link k).replays < 4) : replayNow s k =
    ((s.addReg (uliReg k 0x28) (s.link k).unacked).modLink k fun l => { l with replays := l.replays + 1 }).emit
      (.uliReplay k (((s.link k).txNext + 4096 - (s.link k).unacked % 4096) % 4096) (s.link k).unacked) :=
  (if_neg (by omega)).trans (if_neg (by omega))

/-- Replays given up, with the record of it (R445). -/
def replayGivenUp (s : State) (k : Nat) : State := (s.modLink k fun l => { l with replays := 0 }).raise (linkEv Ev.linkReplayLimit k)

theorem replayNow_narrows (h0 : 0 < (s.link k).unacked) (h4 : 4 ≤ (s.link k).replays) : replayNow s k = startNarrow (replayGivenUp s k) k :=
  (if_neg (by omega)).trans (if_pos h4)

theorem replayGivenUp_spec (s : State) (k : Nat) : ((replayGivenUp s k).link k).replays = 0
    ∧ replayGivenUp s k = { s with links := (replayGivenUp s k).links, log := (replayGivenUp s k).log, regs := (replayGivenUp s k).regs } := by
  obtain ⟨hsame, -, -⟩ := modLink_only s k fun l => { l with replays := 0 }
  obtain ⟨hlinks, -⟩ := raise_links_lanes (s.modLink k fun l => { l with replays := 0 }) (linkEv Ev.linkReplayLimit k)
  unfold replayGivenUp
  refine ⟨?_, ?_⟩
  · rw [State.link, hlinks]
    exact congrArg Link.replays hsame
  · rw [raise_only]
    rfl

end

section
variable {s : State} {k : LinkId}

theorem linkTimers_down (h : (s.link k.val).st ≠ .up) : execReplayTimerExpire k s = .next s ∧ execAckOwedTimer k s = .next s
    ∧ execKeepaliveTimer k s = .next s ∧ execSessionSilence k s = .next s :=
  ⟨congrArg Host.Outcome.next (if_neg fun hc => h hc.1), congrArg Host.Outcome.next (if_neg fun hc => h hc.1),
    congrArg Host.Outcome.next (if_neg fun hc => h hc.1), congrArg Host.Outcome.next (if_neg fun hc => h hc.1)⟩

section
variable (h1 : (s.link k.val).st = .up) (h2 : (s.link k.val).eiIdle = false)
include h1 h2

theorem execReplayTimerExpire_up (h0 : 0 < (s.link k.val).unacked) : execReplayTimerExpire k s
    = .next (replayNow (if (s.link k.val).replays < 4 then s.incReg (uliReg k.val 0x2C) else s) k.val) :=
  congrArg Host.Outcome.next (if_pos ⟨h1, h0, by simp [h2]⟩)

/-- A replay asked for by its timer, counted and sent. -/
theorem execReplayTimerExpire_replays (h0 : 0 < (s.link k.val).unacked) (h4 : (s.link k.val).replays < 4) : ∃ t, execReplayTimerExpire k s = .next t
    ∧ (t.link k.val).replays = (s.link k.val).replays + 1 ∧ (∀ j, j ≠ k.val → t.link j = s.link j)
    ∧ t.out = .uliReplay k.val (((s.link k.val).txNext + 4096 - (s.link k.val).unacked % 4096) % 4096) (s.link k.val).unacked :: s.out := by
  obtain ⟨u, hu, hulink, huout⟩ : ∃ u, s.incReg (uliReg k.val 0x2C) = u ∧ (∀ j, u.link j = s.link j) ∧ u.out = s.out := ⟨_, rfl, fun _ => rfl, rfl⟩
  have hrun : execReplayTimerExpire k s = .next (replayNow u k.val) := by
    rw [execReplayTimerExpire_up h1 h2 h0, if_pos h4, hu]
  obtain ⟨v, hv, hvlink, hvout⟩ : ∃ v, u.addReg (uliReg k.val 0x28) (u.link k.val).unacked = v ∧ (∀ j, v.link j = u.link j) ∧ v.out = u.out :=
    ⟨_, rfl, fun _ => rfl, rfl⟩
  obtain ⟨hsame, hother, -⟩ := modLink_only v k.val fun l => { l with replays := l.replays + 1 }
  rw [hrun, replayNow_replays (by rw [hulink]; exact h0) (by rw [hulink]; exact h4), hv, hulink]
  refine ⟨_, rfl, ?_, fun j hj => ?_, ?_⟩
  · exact (congrArg Link.replays hsame).trans (by rw [hvlink, hulink])
  · exact (hother j hj).trans ((hvlink j).trans (hulink j))
  · exact congrArg (List.cons _) (hvout.trans huout)

theorem execReplayTimerExpire_narrows (h0 : 0 < (s.link k.val).unacked) (h4 : 4 ≤ (s.link k.val).replays) :
    execReplayTimerExpire k s = .next (startNarrow (replayGivenUp s k.val) k.val) := by
  rw [execReplayTimerExpire_up h1 h2 h0, if_neg (Nat.not_lt.2 h4), replayNow_narrows h0 h4]

omit h2 in
theorem execAckOwedTimer_acks (h : (s.link k.val).ackOwed = true) : execAckOwedTimer k s = .next (nullGroup s k.val false) :=
  congrArg Host.Outcome.next (if_pos ⟨h1, h⟩)

theorem execKeepaliveTimer_sends : execKeepaliveTimer k s = .next (nullGroup s k.val false) := congrArg Host.Outcome.next (if_pos ⟨h1, by simp [h2]⟩)

theorem execSessionSilence_loses : execSessionSilence k s = .next (loseSession s k.val 0) := congrArg Host.Outcome.next (if_pos ⟨h1, by simp [h2]⟩)

end

theorem execUliCloseReceive_none (h : takeRx s k.val (fun t => decide (t = 0x21)) = none) : execUliCloseReceive k s = .next s := by
  rw [execUliCloseReceive, h]

theorem execUliCloseReceive_closes {m : RxMsg} {u : State} (h : takeRx s k.val (fun t => decide (t = 0x21)) = some (m, u)) :
    execUliCloseReceive k s = .next (loseSession u k.val 0) := by
  rw [execUliCloseReceive, h]

end

/-- Settles O55: each event of a link is one branch of its handler, on the state in which a received message has been taken. -/
theorem ulilumSessionsAndMessages : Obligations.UlilumSessionsAndMessages := by
  unfold Obligations.UlilumSessionsAndMessages
  refine ⟨fun s k g => ⟨fun h1 h2 => congrArg Host.Outcome.next (if_pos ⟨h1, h2⟩), fun h => congrArg Host.Outcome.next (if_neg ?_)⟩,
    fun s k f => ⟨fun h => congrArg Host.Outcome.next (sessionInitEff_deaf h), fun h1 h2 => ⟨fun h => congrArg Host.Outcome.next (sessionInitEff_refused h1 h2 h),
      fun h3 => ⟨versionAccepted s k.val, rfl, fun hst hr hs hl => ?_, fun hst hdiff => ?_,
        fun hst hs => congrArg Host.Outcome.next (sessionInitEff_again h1 h2 h3 hst hs), fun hst => ?_⟩⟩⟩,
    fun s k => ⟨fun h => congrArg Host.Outcome.next (messageSendEff_idle h), fun i m h1 h2 hi hm => ⟨fun a ha => ?_, fun ha => ?_⟩⟩,
    fun s k => ⟨fun h => congrArg Host.Outcome.next (cplReceiveEff_none h), fun h => congrArg Host.Outcome.next (settleReceiveEff_none h),
      fun h => congrArg Host.Outcome.next (notifyReceiveEff_none h), fun h => congrArg Host.Outcome.next (peerRequestEff_none h), execUliCloseReceive_none,
      fun m u h => ⟨fun hr => congrArg Host.Outcome.next (cplReceiveEff_stray h hr), fun r hr hk hs hd => congrArg Host.Outcome.next (cplReceiveEff_ends h hr hk hs hd)⟩,
      fun m u h => ⟨fun hr => congrArg Host.Outcome.next (settleReceiveEff_stray h hr), fun r hr hk hs => congrArg Host.Outcome.next (settleReceiveEff_ends h hr hk hs)⟩,
      fun m u h hb => ?_, fun m u h => ⟨_, congrArg Host.Outcome.next (peerRequestEff_answers h), peerAnswered_spec ..⟩, fun m u h => execUliCloseReceive_closes h⟩,
    fun s k tag => ⟨fun h => congrArg Host.Outcome.next (reqTimeoutEff_none h), fun r h => ?_, ?_⟩,
    fun s k => ⟨linkTimers_down, fun h1 h2 => ⟨execReplayTimerExpire_replays h1 h2,
        fun h0 h4 => ⟨_, execReplayTimerExpire_narrows h1 h2 h0 h4, replayGivenUp_spec ..⟩, execAckOwedTimer_acks h1, execKeepaliveTimer_sends h1 h2,
        execSessionSilence_loses h1 h2⟩, fun h => congrArg Host.Outcome.next (if_pos h), fun h => congrArg Host.Outcome.next (if_neg h)⟩⟩
  · rintro ⟨h1, h2⟩
    exact h.elim (fun hserves => ne_true_of_eq_false hserves h1) fun hlst => hlst h2
  · exact congrArg Host.Outcome.next ((sessionInitEff_held h1 h2 h3 hst).trans (if_pos ⟨hr, hs, hl⟩))
  · refine congrArg Host.Outcome.next ((sessionInitEff_held h1 h2 h3 hst).trans (if_neg ?_))
    rintro ⟨hr, hs, hl⟩
    rcases hdiff with hd | hd | hd
    · exact ne_true_of_eq_false hd hr
    · exact hd hs
    · exact hd hl
  · have hrun := sessionInitEff_init h1 h2 h3 hst
    obtain ⟨hsame, hother, honly⟩ := modLink_only (versionAccepted s k.val) k.val fun l => { l with gotInit := some f, peerVersion := f.version, peerRole := f.role }
    exact ⟨initNoted s k.val f, hsame, hother, honly, fun ha => congrArg Host.Outcome.next (hrun.trans (if_pos ha)),
      fun ha => congrArg Host.Outcome.next (hrun.trans (if_neg (ne_true_of_eq_false ha)))⟩
  · refine congrArg Host.Outcome.next ((messageSendEff_next h1 h2 hi hm).trans ?_)
    rw [ha, Option.elim_some]
  · refine congrArg Host.Outcome.next ((messageSendEff_next h1 h2 hi hm).trans ?_)
    rw [ha, Option.elim_none]
  · refine ⟨_, congrArg Host.Outcome.next (notifyReceiveEff_unrouted h hb), ?_, ?_, fun r h1 h2 => ?_, noticeKept_only ..⟩
    · rw [noticeKept_reg, if_neg (by simp [uliReg]), if_pos rfl]
    · rw [noticeKept_reg, if_pos rfl]
    · rw [noticeKept_reg, if_neg h2, if_neg h1]
  · obtain ⟨hsame, -, -⟩ := modLink_only (s.atTime r.deadline) k.val fun l => { l with quar := insertAsc tag l.quar }
    refine ⟨tagQuarantined s k.val tag r.deadline, congrArg Host.Outcome.next (reqTimeoutEff_ends h), ?_, rfl, rfl⟩
    unfold tagQuarantined
    rw [hsame]
    exact (mem_insertAsc ..).2 (.inl rfl)
  · obtain ⟨hsame, hother, honly⟩ := modLink_only s k.val fun l => { l with quar := l.quar.filter fun t => decide (t ≠ tag) }
    refine ⟨_, rfl, ?_, fun x hx => ?_, hother, honly⟩
    · rw [hsame]
      simp
    · rw [hsame]
      simp [hx]

end Sys2Proof.Machine
end

section
/-! The commands of the twin engine (R475-R482, R497, R499): status, forming, dissolving, roles, and the partner's PAIR_HELLO. -/

namespace Sys2Proof.Machine

section
variable {s : State} {mb : Nat} {c : Cmd}

/-! ## Status and forming (R477, R499) -/

theorem execTwinStatus_executing (hx : Executing s 0x0A00 mb c) :
    execTwinStatus s = .next (done s mb (bytesOfWords ((List.range 16).map fun i => twinWord s (4 * i)))) := by
  unfold execTwinStatus
  rw [runCmd_executing hx]

theorem execTwinForm_executing (hx : Executing s 0x0A01 mb c) : execTwinForm s = .next (twinFormEff s mb c) :=
  runCmd_executing hx twinFormEff

/-- The chip offers to form for a mailbox whose command waits. -/
def offering (s : State) (mb : Nat) : State := waitCmd (s.modTwin fun w => { w with formMb := some mb }) mb

theorem offering_spec (s : State) (mb : Nat) :
    (offering s mb).twin = { s.twin with formMb := some mb } ∧ ((offering s mb).mb mb).st = .waiting
      ∧ offering s mb = { s with twin := (offering s mb).twin, her := (offering s mb).her } :=
  ⟨rfl, waitCmd_mb_same _ mb, rfl⟩

theorem twinFormEff_alone (h : s.img.pair.rank = 0) : twinFormEff s mb c = reject s mb Rej.notPermitted := if_pos h

theorem twinFormEff_formed (hr : s.img.pair.rank ≠ 0) (h : s.twin.st = .formed) : twinFormEff s mb c = done s mb [] :=
  (if_neg hr).trans (if_pos h)

theorem twinFormEff_linked (hr : s.img.pair.rank ≠ 0) (h : s.twin.st ≠ .formed) (hl : ((offering s mb).link 4).st ≠ .outOfService) :
    twinFormEff s mb c = sendHello (offering s mb) :=
  (if_neg hr).trans ((if_neg h).trans (congrArg sendHello (if_neg fun hc => hl hc.1)))

theorem twinFormEff_unlinked (hr : s.img.pair.rank ≠ 0) (h : s.twin.st ≠ .formed) (hl : ((offering s mb).link 4).st = .outOfService)
    (ha : (imgLink (offering s mb) 4).absent = false) : twinFormEff s mb c = sendHello (linkStart (offering s mb) 4) :=
  (if_neg hr).trans ((if_neg h).trans (congrArg sendHello (if_pos ⟨hl, congrArg not ha⟩)))

theorem execTwinFormTimeout_idle (h : s.twin.formMb = none ∨ (s.link 4).st = .up) : execTwinFormTimeout s = .next s := by
  refine congrArg Host.Outcome.next ?_
  cases hmb : s.twin.formMb with
  | none => rfl
  | some m =>
    have hup := h.resolve_left (by simp [hmb])
    exact if_neg (not_not.2 hup)

theorem execTwinFormTimeout_waiting (hmb : s.twin.formMb = some mb) (hl : (s.link 4).st ≠ .up) :
    execTwinFormTimeout s
      = .next (ran ((s.modTwin fun w => { w with formMb := none }).raise { twinEv Ev.twinNoPartner with cs := Cs.linkDown }) mb Cs.linkDown []) := by
  unfold execTwinFormTimeout
  rw [hmb]
  exact congrArg Host.Outcome.next (if_pos hl)

/-! ## Dissolving (R497) -/

theorem execTwinDissolve_executing (hx : Executing s 0x0A02 mb c) : execTwinDissolve s = .next (twinDissolveEff s mb c) :=
  runCmd_executing hx twinDissolveEff

theorem twinDissolveEff_fenced (h : s.twin.st = .fenced) : twinDissolveEff s mb c = refuse s mb 11 0 := by
  unfold twinDissolveEff
  rw [h]

theorem twinDissolveEff_formed (h : s.twin.st = .formed) : twinDissolveEff s mb c = done (dissolveOwn (s.emit (.twinMsg 0x36 [3]))) mb [] := by
  unfold twinDissolveEff
  rw [h]
  rfl

theorem twinDissolveEff_alone (h : s.twin.st = .survivor ∨ s.twin.st = .disagree) : twinDissolveEff s mb c = done (dissolveOwn s) mb [] := by
  unfold twinDissolveEff
  obtain h | h := h <;> rw [h]

theorem twinDissolveEff_unpaired (h : s.twin.st = .single ∨ s.twin.st = .forming) : twinDissolveEff s mb c = done s mb [] := by
  unfold twinDissolveEff
  obtain h | h := h <;> rw [h]

/-! ## Leadership changes (R482) -/

theorem execTwinRoleSet_executing (hx : Executing s 0x0A03 mb c) : execTwinRoleSet s = .next (roleSetEff s mb c) :=
  runCmd_executing hx roleSetEff

/-- A tenant that a new map takes from this chip has a running schedule (R482). -/
def roleBusy (s : State) (new : List Nat) : Bool :=
  s.twin.lead.any fun t => decide (t ∉ new) && (List.range 8).any fun h => decide ((s.sched h).st = .running ∧ (s.sched h).tenant = t)

/-- The map of a TWIN_ROLE_SET sent to the partner (R482). -/
def roleSent (s : State) (m : Nat) : State :=
  (twinSend s 0x36 (0 :: allTenants.filter fun t => bit m t)).modTwin fun w => { w with roleAsked := true }

theorem roleSetEff_pending (h : s.twin.pendingLead ≠ none) : roleSetEff s mb c = refuse s mb 7 0 := if_pos (Option.isSome_iff_ne_none.2 h)

section
variable (hp : s.twin.pendingLead = none)
include hp

theorem roleSetEff_unformed (h : s.twin.st ≠ .formed) : roleSetEff s mb c = refuse s mb 8 0 :=
  (if_neg (by simp [hp])).trans (if_pos h)

theorem roleSetEff_busy (h : s.twin.st = .formed) (hb : roleBusy s (mapLead s (field c.payload 0 16)) = true) : roleSetEff s mb c = refuse s mb 10 0 :=
  (if_neg (by simp [hp])).trans ((if_neg (not_not.2 h)).trans (if_pos hb))

theorem roleSetEff_taken (h : s.twin.st = .formed) (hb : roleBusy s (mapLead s (field c.payload 0 16)) = false) :
    roleSetEff s mb c = takeMap (roleSent s (field c.payload 0 16)) (mapLead s (field c.payload 0 16)) :=
  (if_neg (by simp [hp])).trans ((if_neg (not_not.2 h)).trans (if_neg (ne_true_of_eq_false hb)))

end

/-! ## The partner's PAIR_HELLO (R477-R481) -/

theorem helloEff_unheard {h : Hello} (hn : twinOffers s = false ∨ (s.link 4).st ≠ .up) : helloEff s h = s :=
  if_pos (hn.imp (by simp [·]) id)

/-- The couple's state once its partner is agreed on (R477-R481): forming, with R479's leadership and nothing mirrored yet. -/
def agreed (u : State) (h : Hello) : State := u.modTwin fun w => { w with
  st := .forming, lead := leadAtForm u h, unsync := [], partner := h.uid, partnerEpoch := h.epoch, reason := 0, mirror := [], holds := []
  timeOffset := if u.img.pair.rank = 1 then BitVec.ofNat 64 (h.timeBase + 2 ^ 64 - u.now) else 0, skew := 0, skewFlag := false
  ackedSeq := 0, appliedSeq := 0, mirrorSeq := 0, hbFailed := false }

theorem agreed_spec (u : State) (h : Hello) :
    (agreed u h).twin.st = .forming ∧ (agreed u h).twin.lead = leadAtForm u h ∧ (agreed u h).twin.partner = h.uid
      ∧ (agreed u h).twin.partnerEpoch = h.epoch ∧ agreed u h = { u with twin := (agreed u h).twin } :=
  ⟨rfl, rfl, rfl, rfl, rfl⟩

/-- The full mirrored state of some tenants is sent (R477 step 5). -/
def sendTenants (s : State) (l : List Nat) : State := l.foldl (fun s t => (tenantRecs s t).foldl mirrorSend s) s

/-- Sending state records leaves what the mirror's numbering does not touch. -/
theorem sendTenants_keeps {α : Type} (g : State → α) (hg : ∀ s r, g (mirrorSend s r) = g s) (s : State) (l : List Nat) : g (sendTenants s l) = g s :=
  foldl_keeps g _ l s fun u t => foldl_keeps g _ (tenantRecs u t) u hg

section
variable {h : Hello} (ho : twinOffers s = true) (hl : (s.link 4).st = .up)
include ho hl

theorem helloEff_heard : helloEff s h = (disagreement (sendHello s) h).elim
    (if leadAtForm (sendHello s) h = [] then formed (sendTenants (agreed (sendHello s) h) (leadAtForm (sendHello s) h))
      else (sendTenants (agreed (sendHello s) h) (leadAtForm (sendHello s) h)).modTwin fun w => { w with formSeq := some w.mirrorSeq })
    (disagree (sendHello s)) := by
  unfold helloEff
  rw [if_neg (by simp [ho, hl])]
  dsimp only
  cases disagreement (sendHello s) h <;> rfl

theorem helloEff_disagrees {r : Nat × List Byte × List Byte} (hd : disagreement (sendHello s) h = some r) :
    helloEff s h = disagree (sendHello s) r := by
  rw [helloEff_heard ho hl, hd]
  rfl

variable (hd : disagreement (sendHello s) h = none)
include hd

theorem helloEff_leadless (hlead : leadAtForm (sendHello s) h = []) : helloEff s h = formed (agreed (sendHello s) h) := by
  rw [helloEff_heard ho hl, hd, Option.elim_none, if_pos hlead, hlead]
  rfl

theorem helloEff_leads (hlead : leadAtForm (sendHello s) h ≠ []) :
    helloEff s h = (sendTenants (agreed (sendHello s) h) (leadAtForm (sendHello s) h)).modTwin fun w => { w with formSeq := some w.mirrorSeq } := by
  rw [helloEff_heard ho hl, hd, Option.elim_none, if_neg hlead]

theorem helloEff_forming (hlead : leadAtForm (sendHello s) h ≠ []) :
    (helloEff s h).twin.st = .forming ∧ (helloEff s h).twin.lead = leadAtForm (sendHello s) h ∧ (helloEff s h).twin.partner = h.uid
      ∧ (helloEff s h).twin.formSeq = some (helloEff s h).twin.mirrorSeq := by
  rw [helloEff_leads ho hl hd hlead]
  obtain ⟨hst, hleads, hpartner, -, -⟩ := agreed_spec (sendHello s) h
  have keep {α : Type} (g : Twin → α) (hg : ∀ w n, g { w with mirrorSeq := n } = g w) :=
    sendTenants_keeps (fun u => g u.twin) (fun u r => hg u.twin _) (agreed (sendHello s) h) (leadAtForm (sendHello s) h)
  exact ⟨(keep (·.st) fun _ _ => rfl).trans hst, (keep (·.lead) fun _ _ => rfl).trans hleads, (keep (·.partner) fun _ _ => rfl).trans hpartner, rfl⟩

end

end

/-- Settles O44: each command's outcome is its handler's branch for the pair's state; the PAIR_HELLO's is the first failing check's, or the agreed couple's. -/
theorem twinCommands : Obligations.TwinCommands := by
  unfold Obligations.TwinCommands
  refine ⟨fun s mb c hx => ?_, fun s mb c hx => ?_, fun s => ⟨execTwinFormTimeout_idle, fun mb hmb hl hroom => ?_⟩, fun s mb c hx => ?_, ?_,
    fun s h => ⟨fun hn => congrArg Host.Outcome.next (helloEff_unheard hn), fun ho hl => ?_⟩⟩
  · exact ⟨_, execTwinStatus_executing hx, executing_done (u := s) hx rfl _⟩
  · have hrun := execTwinForm_executing hx
    refine ⟨fun hr => ⟨_, hrun.trans (congrArg Host.Outcome.next (twinFormEff_alone hr)), executing_rejects hx _⟩,
      fun hr h => ⟨_, hrun.trans (congrArg Host.Outcome.next (twinFormEff_formed hr h)), executing_done (u := s) hx rfl _⟩, fun hr h => ?_⟩
    obtain ⟨htwin, hwait, hrest⟩ := offering_spec s mb
    exact ⟨offering s mb, htwin, hwait, hrest, fun hl => hrun.trans (congrArg Host.Outcome.next (twinFormEff_linked hr h hl)),
      fun hl ha => hrun.trans (congrArg Host.Outcome.next (twinFormEff_unlinked hr h hl ha))⟩
  · exact ⟨_, execTwinFormTimeout_waiting hmb hl, raise_records (s.modTwin fun w => { w with formMb := none }) _ hroom rfl (.inr rfl)⟩
  · have hrun := execTwinDissolve_executing hx
    exact ⟨fun h => ⟨_, hrun.trans (congrArg Host.Outcome.next (twinDissolveEff_fenced h)), executing_refuses (u := s) hx rfl 11 0⟩,
      fun h => hrun.trans (congrArg Host.Outcome.next (twinDissolveEff_formed h)),
      fun h => hrun.trans (congrArg Host.Outcome.next (twinDissolveEff_alone h)),
      fun h => ⟨_, hrun.trans (congrArg Host.Outcome.next (twinDissolveEff_unpaired h)), executing_done (u := s) hx rfl _⟩⟩
  · intro s mb c hx new busy
    have hrun := execTwinRoleSet_executing hx
    exact ⟨fun hp => ⟨_, hrun.trans (congrArg Host.Outcome.next (roleSetEff_pending hp)), executing_refuses (u := s) hx rfl 7 0⟩,
      fun hp h => ⟨_, hrun.trans (congrArg Host.Outcome.next (roleSetEff_unformed hp h)), executing_refuses (u := s) hx rfl 8 0⟩,
      fun hp h hb => ⟨_, hrun.trans (congrArg Host.Outcome.next (roleSetEff_busy hp h hb)), executing_refuses (u := s) hx rfl 10 0⟩,
      fun hp h hb => ⟨roleSent s (field c.payload 0 16), hrun.trans (congrArg Host.Outcome.next (roleSetEff_taken hp h hb)), rfl, rfl⟩⟩
  · obtain ⟨-, hlead, hpartner, hepoch, hrest⟩ := agreed_spec (sendHello s) h
    exact ⟨fun r hd => congrArg Host.Outcome.next (helloEff_disagrees ho hl hd),
      fun hd hnone => ⟨_, congrArg Host.Outcome.next (helloEff_leadless ho hl hd hnone), hlead.trans hnone, hpartner, hepoch, hrest⟩,
      fun hd hsome => ⟨_, rfl, helloEff_forming ho hl hd hsome⟩⟩

end Sys2Proof.Machine
end

section
/-! The mirror's pace (R482-R486): records applied and acknowledged, checks, resyncs, roles and time. -/

namespace Sys2Proof.Machine

/-! ## Sorted lists of numbers -/

theorem mem_foldl_insertAsc {α : Type} (f : α → Nat) (l : List α) (acc : List Nat) (n : Nat) :
    n ∈ l.foldl (fun l c => insertAsc (f c) l) acc ↔ n ∈ acc ∨ ∃ c ∈ l, f c = n := by
  induction l generalizing acc with
  | nil => simp
  | cons x xs ih =>
    rw [List.foldl_cons, ih, mem_insertAsc, List.exists_mem_cons_iff, eq_comm (a := n), or_comm (a := f x = n), or_assoc]

section
variable {s : State} {seq : Nat}

/-! ## The mirror (R484) -/

theorem execTwinMirrorReceive_heard (hp : paired s = true) (hs : s.twin.silence = false) (recs : List MirrorRec) :
    execTwinMirrorReceive seq recs s = .next ((twinSend (recs.foldl applyRec s) 0x33 [seq]).modTwin fun w => { w with appliedSeq := seq }) :=
  congrArg Host.Outcome.next (if_pos ⟨hp, congrArg not hs⟩)

theorem execTwinMirrorReceive_unheard (h : paired s = false ∨ s.twin.silence = true) (recs : List MirrorRec) :
    execTwinMirrorReceive seq recs s = .next s :=
  congrArg Host.Outcome.next (if_neg fun hc => by obtain h | h := h <;> simp [h] at hc)

/-- What an acknowledgement up to `seq` runs (R484). -/
def acknowledged (s : State) (seq : Nat) : State := runHolds (s.modTwin fun w => { w with ackedSeq := seq }) seq

theorem mirrorAckEff_unpaired (hp : paired s = false) : mirrorAckEff s seq = s := if_pos (congrArg not hp)

section
variable (hp : paired s = true)
include hp

theorem mirrorAckEff_idle (h : (acknowledged s seq).twin.formSeq = none) : mirrorAckEff s seq = handOver (acknowledged s seq) := by
  refine (if_neg (by simp [hp])).trans (if_neg (ne_true_of_eq_false ?_))
  change (match (acknowledged s seq).twin.formSeq with | some n => decide (n ≤ seq) | none => false) = false
  rw [h]

theorem mirrorAckEff_whole {n : Nat} (h : (acknowledged s seq).twin.formSeq = some n) (hn : n ≤ seq) :
    mirrorAckEff s seq = if (acknowledged s seq).twin.st = .forming then formed (acknowledged s seq) else handedOver (acknowledged s seq) := by
  refine (if_neg (by simp [hp])).trans (if_pos ?_)
  change (match (acknowledged s seq).twin.formSeq with | some n => decide (n ≤ seq) | none => false) = true
  rw [h]
  exact decide_eq_true hn

end

/-! ## Checks and resyncs (R485) -/

theorem execTwinCheckSend_sends (h : s.twin.st = .formed) (hs : s.twin.silence = false) :
    execTwinCheckSend s = .next (s.emit (.twinMsg 0x34 (s.twin.mirrorSeq :: s.twin.lead.flatMap fun t => [t, (mirrorFigure s t).toNat]))) :=
  congrArg Host.Outcome.next (if_pos ⟨h, congrArg not hs⟩)

theorem execTwinCheckSend_idle (h : s.twin.st ≠ .formed ∨ s.twin.silence = true) : execTwinCheckSend s = .next s :=
  congrArg Host.Outcome.next (if_neg fun hc => by obtain h | h := h <;> simp [h] at hc)

/-- The followed tenants whose figures differ from the leader's CHECK (R485). -/
def unsynced (s : State) (seq : Nat) (crcs : List (Tenant × Word)) : List (Tenant × Word) :=
  crcs.filter fun c => decide (c.1.val ∉ s.twin.lead) && (decide (seq ≠ s.twin.appliedSeq) || decide (mirrorFigure s c.1.val ≠ c.2))

theorem execTwinCheckReceive_formed (h : s.twin.st = .formed) (crcs : List (Tenant × Word)) :
    execTwinCheckReceive seq crcs s
      = .next (s.modTwin fun w => { w with unsync := (unsynced s seq crcs).foldl (fun l c => insertAsc c.1.val l) w.unsync }) :=
  congrArg Host.Outcome.next (if_pos h)

theorem mem_unsynced (crcs : List (Tenant × Word)) (n : Nat) :
    (∃ c ∈ unsynced s seq crcs, c.1.val = n)
      ↔ ∃ c ∈ crcs, c.1.val = n ∧ n ∉ s.twin.lead ∧ (seq ≠ s.twin.appliedSeq ∨ mirrorFigure s n ≠ c.2) := by
  refine exists_congr fun c => ?_
  simp only [unsynced, List.mem_filter, Bool.and_eq_true, Bool.or_eq_true, decide_eq_true_eq]
  constructor
  · rintro ⟨⟨hmem, hlead, hdiff⟩, rfl⟩
    exact ⟨hmem, rfl, hlead, hdiff⟩
  · rintro ⟨hmem, rfl, hlead, hdiff⟩
    exact ⟨⟨hmem, hlead, hdiff⟩, rfl⟩

theorem resyncEff_refused {t : Nat} (h : s.twin.st ≠ .formed ∨ t ∈ s.twin.lead) (recs : List MirrorRec) : resyncEff s t recs = s := if_pos h

/-- A followed tenant's mirror wiped and made from the leader's records (R485). -/
def resynced (s : State) (t : Nat) (recs : List MirrorRec) : State :=
  (recs.filter fun r => decide (recTenant s r = t)).foldl applyRec (wipeMirror s t)

/-- A tenant is UNSYNCED no more, and its resync is counted (R485). -/
def syncedAgain (v : State) (t : Nat) : State := (v.modTwin fun w => { w with unsync := w.unsync.filter fun u => decide (u ≠ t) }).incReg 0x50004C

theorem resyncEff_taken {t : Nat} (h : s.twin.st = .formed) (ht : t ∉ s.twin.lead) (recs : List MirrorRec) :
    resyncEff s t recs = (syncedAgain (resynced s t recs) t).raise { twinEv Ev.twinResync with tenant := t } :=
  if_neg fun hc => hc.elim (· h) ht

theorem syncedAgain_spec (v : State) (t : Nat) :
    (∀ n, n ∈ (syncedAgain v t).twin.unsync ↔ n ∈ v.twin.unsync ∧ n ≠ t) ∧ (syncedAgain v t).reg 0x50004C = v.reg 0x50004C + 1
      ∧ syncedAgain v t = { v with twin := { v.twin with unsync := (syncedAgain v t).twin.unsync }, regs := (syncedAgain v t).regs } := by
  refine ⟨fun n => ?_, ?_, rfl⟩
  · change n ∈ v.twin.unsync.filter (fun u => decide (u ≠ t)) ↔ _
    rw [List.mem_filter, decide_eq_true_iff]
  · exact (State.incReg_reg ..).trans (if_pos rfl)

/-! ## Roles (R482, R495, R497) -/

theorem roleReceiveEff_unformed (h : s.twin.st ≠ .formed) (m : RoleMsg) : roleReceiveEff s m = s := if_pos h

section
variable (h : s.twin.st = .formed)
include h

theorem roleReceiveEff_relinquish : roleReceiveEff s .relinquish = takeover s (notLed s) false 0 := if_neg (not_not.2 h)

theorem roleReceiveEff_dissolve : roleReceiveEff s .dissolve = dissolveOwn s := if_neg (not_not.2 h)

theorem roleReceiveEff_map (l : List Nat) : roleReceiveEff s (.map l)
    = takeMap (s.emit (.twinMsg 0x36 [2])) (allTenants.filter fun t => decide (t ∈ l) == decide (s.img.pair.rank = 2)) := if_neg (not_not.2 h)

theorem roleReceiveEff_ack (ha : s.twin.roleAsked = true) :
    roleReceiveEff s .ack = done (s.modTwin fun w => { w with roleAsked := false }) 0 [] := (if_neg (not_not.2 h)).trans (if_pos ha)

theorem roleReceiveEff_stray (ha : s.twin.roleAsked = false) (hp : s.twin.pendingLead = none) : roleReceiveEff s .ack = s :=
  (if_neg (not_not.2 h)).trans ((if_neg (ne_true_of_eq_false ha)).trans (if_pos hp))

end

/-! ## Time (R481) -/

/-- The skew of a measured offset. -/
def skewOf (s : State) (o : DWord) : Int := signed 64 (o - s.twin.timeOffset).toNat

/-- The skew noted, and its flag with R481's limits of 1 µs and 100 ns. -/
def skewNoted (s : State) (k : Int) : State :=
  s.modTwin fun w => { w with skew := k, skewFlag := decide (1000 < k.natAbs) || (w.skewFlag && decide (100 ≤ k.natAbs)) }

theorem timeEff_apart (h : s.twin.st ≠ .formed ∨ s.img.pair.rank ≠ 1) (o : DWord) : timeEff s o = s := if_pos h

theorem timeEff_eq (h : s.twin.st = .formed) (hr : s.img.pair.rank = 1) (o : DWord) :
    timeEff s o = if decide (1000 < (skewOf s o).natAbs) = true ∧ (!s.twin.skewFlag) = true then (skewNoted s (skewOf s o)).raise (twinEv Ev.twinTimeSkew)
      else skewNoted s (skewOf s o) :=
  if_neg fun hc => hc.elim (· h) (· hr)

theorem skewNoted_small {k : Int} (hk : k.natAbs ≤ 1000) :
    skewNoted s k = { s with twin := { s.twin with skew := k, skewFlag := s.twin.skewFlag && decide (100 ≤ k.natAbs) } } := by
  unfold skewNoted
  rw [decide_eq_false (by omega : ¬1000 < k.natAbs)]
  rfl

theorem skewNoted_big {k : Int} (hk : 1000 < k.natAbs) : skewNoted s k = { s with twin := { s.twin with skew := k, skewFlag := true } } := by
  unfold skewNoted
  rw [decide_eq_true hk]
  rfl

end

/-- Settles O45: each mirror, check, resync, role and time row is its handler's branch; UNSYNCED tenants are those inserted by the differing figures. -/
theorem twinMirrorKeepsPace : Obligations.TwinMirrorKeepsPace := by
  unfold Obligations.TwinMirrorKeepsPace
  refine ⟨fun s seq recs => ⟨fun hp hs => ⟨_, execTwinMirrorReceive_heard hp hs recs, rfl, rfl⟩, fun h => execTwinMirrorReceive_unheard h recs⟩,
    fun s seq => ⟨fun hp => congrArg Host.Outcome.next (mirrorAckEff_unpaired hp), fun hp => ⟨fun h => ?_, fun n h hn hst => ?_, fun n h hn hst => ?_⟩⟩,
    fun s => ⟨execTwinCheckSend_sends, execTwinCheckSend_idle⟩,
    fun s seq crcs => ⟨fun h => ⟨_, execTwinCheckReceive_formed h crcs, rfl, fun n => ?_⟩, fun h => congrArg Host.Outcome.next (if_neg h)⟩,
    fun s x recs => ⟨fun h => congrArg Host.Outcome.next (resyncEff_refused h recs), fun h hx => ?_⟩,
    fun s m => ⟨fun h => congrArg Host.Outcome.next (roleReceiveEff_unformed h m), fun h => ?_⟩,
    fun s o => ⟨fun h => congrArg Host.Outcome.next (timeEff_apart h o), ?_⟩⟩
  · exact congrArg Host.Outcome.next (mirrorAckEff_idle hp h)
  · exact congrArg Host.Outcome.next ((mirrorAckEff_whole hp h hn).trans (if_pos hst))
  · exact congrArg Host.Outcome.next ((mirrorAckEff_whole hp h hn).trans (if_neg hst))
  · exact (mem_foldl_insertAsc (fun c : Tenant × Word => c.1.val) _ _ n).trans (or_congr Iff.rfl (mem_unsynced crcs n))
  · obtain ⟨hunsync, hreg, honly⟩ := syncedAgain_spec (resynced s x.val recs) x.val
    exact ⟨_, _, congrArg Host.Outcome.next (resyncEff_taken h hx recs), rfl, hunsync, hreg, honly⟩
  · exact ⟨congrArg Host.Outcome.next (roleReceiveEff_relinquish h), congrArg Host.Outcome.next (roleReceiveEff_dissolve h),
      fun ha => congrArg Host.Outcome.next (roleReceiveEff_ack h ha), fun ha hp => congrArg Host.Outcome.next (roleReceiveEff_stray h ha hp),
      fun l => congrArg Host.Outcome.next (roleReceiveEff_map h l)⟩
  · intro h hr hroom k
    have hrun : exec (.twinTimeReceive o) s = _ := congrArg Host.Outcome.next (timeEff_eq h hr o)
    have hkdef : k = skewOf s o := rfl
    clear_value k
    rw [← hkdef] at hrun
    refine ⟨fun hk => ?_, fun hk => ?_⟩
    · rw [hrun, if_neg fun hc => absurd (of_decide_eq_true hc.1) (by omega), skewNoted_small hk]
    · cases hflag : s.twin.skewFlag with
      | true =>
        refine ⟨_, hrun.trans (congrArg Host.Outcome.next ((if_neg (by simp [hflag])).trans (skewNoted_big hk))), rfl, fun _ => rfl, nofun⟩
      | false =>
        have htwin : ((skewNoted s k).raise (twinEv Ev.twinTimeSkew)).twin = (skewNoted s k).twin := by rw [raise_only]
        refine ⟨_, hrun.trans (congrArg Host.Outcome.next (if_pos ⟨decide_eq_true hk, congrArg not hflag⟩)), ?_, nofun, fun _ => ?_⟩
        · rw [htwin, skewNoted_big hk]
        · rw [htwin]
          exact raise_records (skewNoted s k) (twinEv Ev.twinTimeSkew) hroom rfl (.inr rfl)

end Sys2Proof.Machine
end

section
/-! Heartbeats, silence, the decision and the guard (R486-R492). -/

namespace Sys2Proof.Machine

section
variable {s : State}

/-! ## Sending and silence (R486, R487) -/

/-- A chip that is not formed, or is silent already, sends no heartbeat and starts no silence. -/
theorem twinQuiet (h : s.twin.st ≠ .formed ∨ s.twin.silence = true) : execTwinHeartbeatSend s = .next s ∧ execTwinSilence s = .next s :=
  have hn : ¬(s.twin.st = .formed ∧ (!s.twin.silence) = true) := fun hc => by obtain h | h := h <;> simp [h] at hc
  ⟨congrArg Host.Outcome.next (if_neg hn), congrArg Host.Outcome.next (if_neg hn)⟩

section
variable (h : s.twin.st = .formed) (hs : s.twin.silence = false)
include h hs

theorem execTwinHeartbeatSend_sends :
    execTwinHeartbeatSend s = .next ((twinSend s 0x31 [s.twin.hbSeq + 1]).modTwin fun w => { w with hbSeq := w.hbSeq + 1 }) :=
  congrArg Host.Outcome.next (if_pos ⟨h, congrArg not hs⟩)

theorem execTwinSilence_starts : execTwinSilence s
    = .next (s.modTwin fun w => { w with silence := true, silenceAt := s.now, partnerCell := none, cellReadOk := false, cellMoved := false }) :=
  congrArg Host.Outcome.next (if_pos ⟨h, congrArg not hs⟩)

end

/-! ## Heartbeat accesses (R488) -/

theorem hbWeir_allowed {c : HbCell} {write : Bool} (h : weirAllows s c.target 0 c.space c.addr (!write) write = true) : hbWeir s c write = (true, s) :=
  if_pos h

theorem hbWeir_denied {c : HbCell} {write : Bool} (h : weirAllows s c.target 0 c.space c.addr (!write) write = false) : (hbWeir s c write).1 = false := by
  unfold hbWeir
  rw [if_neg (ne_true_of_eq_false h)]

/-- The heartbeat count gone up (R488). -/
def hbCounted (s : State) : State := s.modTwin fun w => { w with hbCount := w.hbCount + 1 }

/-- A heartbeat write that its weir lets go, the output of the access added. -/
def hbSent (s : State) : State := (hbCounted s).emit (.heartbeat (ownCell s).target (ownCell s).space (ownCell s).addr (some (s.twin.hbCount + 1).toNat))

theorem hbWriteEff_eq (h : s.twin.st = .formed) (ok : Bool) : hbWriteEff s ok =
    if (!(hbWeir (hbCounted s) (ownCell s) true).1) = true then hbFail (hbWeir (hbCounted s) (ownCell s) true).2
    else
      let v := (hbWeir (hbCounted s) (ownCell s) true).2
      let u := v.emit (.heartbeat (ownCell s).target (ownCell s).space (ownCell s).addr (some v.twin.hbCount.toNat))
      if ok then u.modTwin fun w => { w with hbFailed := false } else hbFail u :=
  if_neg (not_not.2 h)

theorem hbWriteEff_denied (h : s.twin.st = .formed)
    (hw : weirAllows (hbCounted s) (ownCell s).target 0 (ownCell s).space (ownCell s).addr false true = false) (ok : Bool) :
    hbWriteEff s ok = hbFail (hbWeir (hbCounted s) (ownCell s) true).2 :=
  (hbWriteEff_eq h ok).trans (if_pos (congrArg not (hbWeir_denied hw)))

theorem hbWriteEff_allowed (h : s.twin.st = .formed)
    (hw : weirAllows (hbCounted s) (ownCell s).target 0 (ownCell s).space (ownCell s).addr false true = true) (ok : Bool) :
    hbWriteEff s ok = if ok then (hbSent s).modTwin fun w => { w with hbFailed := false } else hbFail (hbSent s) := by
  rw [hbWriteEff_eq h, hbWeir_allowed hw]
  rfl

/-- A failed heartbeat access counted (R488, R499). -/
def hbFailCounted (s : State) : State := s.incReg 0x500050

/-- A failed heartbeat access counted and noted, before its record. -/
def hbFailNoted (s : State) : State := (hbFailCounted s).modTwin fun w => { w with hbFailed := true }

theorem hbFail_again (h : s.twin.hbFailed = true) : hbFail s = hbFailCounted s := if_pos h

theorem hbFail_first (h : s.twin.hbFailed = false) : hbFail s = (hbFailNoted s).raise (twinEv Ev.twinHbFail) := if_neg (ne_true_of_eq_false h)

theorem hbFail_first_records (h : s.twin.hbFailed = false) (hroom : LogRoom s) :
    Records (hbFailNoted s) (hbFail s) (twinEv Ev.twinHbFail) := by
  rw [hbFail_first h]
  exact raise_records (hbFailNoted s) _ hroom rfl (.inr rfl)

theorem hbFailNoted_only (s : State) : hbFailNoted s = { s with regs := (hbFailNoted s).regs, twin := (hbFailNoted s).twin } := rfl

/-- A recorded event leaves the registers and the couple's state. -/
theorem Records.regs_twin {u t : State} {e : Ev} (h : Records u t e) : t.regs = u.regs ∧ t.twin = u.twin := by
  rw [h]
  exact ⟨rfl, rfl⟩

theorem hbFailCounted_reg (s : State) : (hbFailCounted s).reg 0x500050 = s.reg 0x500050 + 1 := (State.incReg_reg ..).trans (if_pos rfl)

/-- A heartbeat read's value noted, and whether it moved (R488). -/
def hbSeen (s : State) (x : Word) : State :=
  (s.emit (.heartbeat (partnerCell s).target (partnerCell s).space (partnerCell s).addr none)).modTwin fun w => { w with
    hbFailed := false, cellReadOk := true, partnerCell := some x, cellMoved := w.cellMoved || (w.partnerCell.any fun y => decide (y ≠ x)) }

/-- Out of silence nothing is read of the partner's cell, and nothing is decided. -/
theorem twinHeard (h : s.twin.st ≠ .formed ∨ s.twin.silence = false) (v : Option Word) :
    execTwinHbRead v s = .next s ∧ execTwinHbDecide s = .next s :=
  have hc : s.twin.st ≠ .formed ∨ (!s.twin.silence) = true := h.imp_right (congrArg not)
  ⟨congrArg Host.Outcome.next (if_pos hc), congrArg Host.Outcome.next (if_pos hc)⟩

section
variable (h : s.twin.st = .formed) (hs : s.twin.silence = true)
include h hs

theorem not_heard : ¬(s.twin.st ≠ .formed ∨ (!s.twin.silence) = true) := fun hc => hc.elim (· h) (by simp [hs])

theorem hbReadEff_allowed (hw : weirAllows s (partnerCell s).target 0 (partnerCell s).space (partnerCell s).addr true false = true) (x : Word) :
    hbReadEff s (some x) = hbSeen s x := by
  unfold hbReadEff
  rw [if_neg (not_heard h hs)]
  dsimp only
  rw [hbWeir_allowed hw]
  rfl

/-! ## The decision (R488-R490) -/

/-- The state in which a silence is decided: at once where the cell moved, else when the heartbeat limit has passed. -/
def deciding (s : State) : State := if s.twin.cellMoved then s else s.atTime (s.twin.silenceAt + hbLimit s)

omit h hs in
theorem deciding_twin (s : State) : (deciding s).twin = s.twin := by
  unfold deciding
  split <;> rfl

omit h hs in
theorem deciding_img (s : State) : (deciding s).img = s.img := by
  unfold deciding
  split <;> rfl

theorem hbDecideEff_eq : hbDecideEff s =
    if (!(s.twin.cellMoved || !s.twin.cellReadOk)) = true then takeover (survive (deciding s)) (notLed (deciding s)) true (holdTime (deciding s))
    else if s.img.pair.rank = 2 then survive ((deciding s).modTwin fun w => { w with guard := true })
    else fence (deciding s) := by
  rw [← deciding_twin s, ← deciding_img s]
  exact if_neg (not_heard h hs)

theorem hbDecideEff_dead (hm : s.twin.cellMoved = false) (hr : s.twin.cellReadOk = true) :
    hbDecideEff s = takeover (survive (deciding s)) (notLed (deciding s)) true (holdTime (deciding s)) := by
  rw [hbDecideEff_eq h hs, if_pos (by simp [hm, hr])]

section
variable (ha : s.twin.cellMoved = true ∨ s.twin.cellReadOk = false)
include ha

theorem hbDecideEff_survives (hrank : s.img.pair.rank = 2) :
    hbDecideEff s = survive ((deciding s).modTwin fun w => { w with guard := true }) := by
  rw [hbDecideEff_eq h hs, if_neg (by obtain ha | ha := ha <;> simp [ha]), if_pos hrank]

theorem hbDecideEff_fences (hrank : s.img.pair.rank ≠ 2) : hbDecideEff s = fence (deciding s) := by
  rw [hbDecideEff_eq h hs, if_neg (by obtain ha | ha := ha <;> simp [ha]), if_neg hrank]

end

end

end

/-- Settles O46: a heartbeat access turns on the weir and on how it ended, the decision on what was read of the partner's cell and on the rank. -/
theorem twinHeartbeatsDecide : Obligations.TwinHeartbeatsDecide := by
  unfold Obligations.TwinHeartbeatsDecide
  refine ⟨fun s => ⟨twinQuiet, fun h hs => ⟨execTwinHeartbeatSend_sends h hs, execTwinSilence_starts h hs⟩⟩,
    fun s ok => ⟨fun h => congrArg Host.Outcome.next (if_pos h), fun h => ⟨fun hw hok => ?_, fun hw hok => ?_, fun hw => ?_⟩⟩,
    fun s hroom => ?_,
    fun s v => ⟨fun h => twinHeard h v, fun x h hs hw => congrArg Host.Outcome.next (hbReadEff_allowed h hs hw x)⟩,
    fun s h hs => ⟨fun hm hr => congrArg Host.Outcome.next (hbDecideEff_dead h hs hm hr), fun ha =>
      ⟨fun hrank => congrArg Host.Outcome.next (hbDecideEff_survives h hs ha hrank), fun hrank => congrArg Host.Outcome.next (hbDecideEff_fences h hs ha hrank)⟩⟩,
    fun s => ⟨fun h => congrArg Host.Outcome.next (if_neg (ne_true_of_eq_false h)), fun h => ⟨_, rfl, congrArg Host.Outcome.next (if_pos h)⟩⟩⟩
  · exact congrArg Host.Outcome.next ((hbWriteEff_allowed h hw ok).trans (if_pos hok))
  · exact congrArg Host.Outcome.next ((hbWriteEff_allowed h hw ok).trans (if_neg (ne_true_of_eq_false hok)))
  · exact congrArg Host.Outcome.next (hbWriteEff_denied h hw ok)
  · cases hf : s.twin.hbFailed with
    | true =>
      rw [hbFail_again hf]
      refine ⟨hbFailCounted_reg s, ?_, fun _ => rfl, nofun⟩
      change s.twin = _
      rw [← hf]
    | false =>
      have hrec := hbFail_first_records hf hroom
      obtain ⟨hregs, htwin⟩ := hrec.regs_twin
      refine ⟨?_, htwin, nofun, fun _ => ?_⟩
      · rw [State.reg, hregs]
        exact hbFailCounted_reg s
      · rw [hregs, htwin]
        exact hrec

end Sys2Proof.Machine
end

section
/-! Spares and wear (R500-R507, R522): the commands, the wear rows, PLL faults and blocks that fail verify. -/

namespace Sys2Proof.Machine

/-! ## What a decision's records and messages leave -/

theorem spareRec_mram (s : State) (code srcId kind action index meas bound reason : Nat) :
    (spareRec s code srcId kind action index meas bound reason).mram = s.mram := by
  unfold spareRec
  rw [raise_only]

theorem sendMsix_mram (s : State) (fn entry : Nat) : (sendMsix s fn entry).mram = s.mram := by rw [sendMsix_ep_out]

theorem decided_mram (s : State) (kind index action : Nat) : (decided s kind index action).mram = s.mram := by
  simp [decided, sendMsix_mram]

theorem spareUsed_mram (s : State) : (spareUsed s).mram = s.mram := rfl

section
variable {s : State} {mb : Nat} {c : Cmd}

/-! ## Status, bounds and wear figures (R505, R522) -/

theorem execSpareStatus_executing (hx : Executing s 0x0B00 mb c) : execSpareStatus s
    = .next (done s mb (bytesOfWords ((List.range 8).map (fun i => sprWord s (4 * i)) ++ (List.range 8).map (boundWord s)))) := by
  unfold execSpareStatus
  rw [runCmd_executing hx]

/-- New bounds stored, the held decisions to be judged afresh (R504, R505). -/
def boundsStored (s : State) (c : Cmd) : State :=
  s.modSpares fun x => { x with bounds := (List.range 8).map fun i => w32 (wordAt c.payload (4 * i)), heldUnits := [] }

theorem execSpareBoundsSet_executing (hx : Executing s 0x0B01 mb c) : execSpareBoundsSet s = .next (done (boundsStored s c) mb []) := by
  unfold execSpareBoundsSet
  rw [runCmd_executing hx]
  rfl

theorem execWearGet_executing (hx : Executing s 0x0B03 mb c) :
    execWearGet s = .next (done s.bump mb (wearBytes s (bits (wordAt c.payload 0) 7 0) (wordAt c.payload 0 / 256))) := by
  unfold execWearGet
  rw [runCmd_executing hx]

/-! ## Overrides (R506) -/

theorem execSpareRetireNow_executing (hx : Executing s 0x0B02 mb c) : execSpareRetireNow s = .next (retireNowEff s mb c) :=
  runCmd_executing hx retireNowEff

section
variable (hact : wordAt c.payload 4 = 1)
include hact

theorem retireNowEff_pan (hkind : bits (wordAt c.payload 0) 7 0 = 1) : retireNowEff s mb c =
    if (!panServes s (wordAt c.payload 0 / 256)) = true then refuse s mb 2 0
    else if (bedSpare s (wordAt c.payload 0 / 256 / 17)).isNone = true then refuse s mb 1 0
    else overrideDone (retirePan s (wordAt c.payload 0 / 256) 2 (Tbl.get (fun _ => 0) s.mram.wearPan (wordAt c.payload 0 / 256)) (panRetire s)) mb 1
      (wordAt c.payload 0 / 256) := by
  unfold retireNowEff
  rw [hkind]
  exact if_neg (not_not.2 hact)

theorem retireNowEff_block (hkind : bits (wordAt c.payload 0) 7 0 = 4) : retireNowEff s mb c =
    if wordAt c.payload 0 / 256 ∈ s.mram.mramRetired then refuse s mb 2 0
    else if mramLeft s = 0 then refuse s mb 1 0
    else overrideDone (retireBlock s (wordAt c.payload 0 / 256) 2 (Tbl.get (fun _ => 0) s.mram.mramWrites (wordAt c.payload 0 / 256)) (mramLimit s)) mb 4
      (wordAt c.payload 0 / 256) := by
  unfold retireNowEff
  rw [hkind]
  exact if_neg (not_not.2 hact)

end

/-- The instruction that sets or clears a FORBID. -/
def forbidRow (on : Bool) : Instr := if on then .spareForbid else .spareAllow

theorem forbidRow_executing {on : Bool} (hx : Executing s 0x0B02 mb c) (hact : wordAt c.payload 4 = if on then 2 else 3) :
    exec (forbidRow on) s = .next (setForbid s mb c on) := by
  cases on with
  | false =>
    change execSpareAllow s = _
    unfold execSpareAllow
    rw [runCmd_executing hx]
    exact congrArg Host.Outcome.next (if_pos hact)
  | true =>
    change execSpareForbid s = _
    unfold execSpareForbid
    rw [runCmd_executing hx]
    exact congrArg Host.Outcome.next (if_pos hact)

/-- A unit's FORBID set or cleared, its held decision to be judged afresh (R504, R506). -/
def forbidMarked (s : State) (key : Nat) (on : Bool) : State :=
  s.modSpares fun x => { x with
    forbid := if on then insertAsc key x.forbid else x.forbid.filter fun v => decide (v ≠ key)
    heldUnits := x.heldUnits.filter fun v => decide (v ≠ key) }

/-- The event of an override (R506). -/
def overrideEv (kind i : Nat) : Ev := { code := Ev.spareOverride, src := srcSalt, data := spareData kind 2 i 0 0 0 }

/-- The state in which an override on FORBID is answered. -/
def forbidRecorded (s : State) (kind i : Nat) (on : Bool) : State := (forbidMarked s (unitKey kind i) on).raise (overrideEv kind i)

theorem setForbid_eq (on : Bool) : setForbid s mb c on = done (forbidRecorded s (bits (wordAt c.payload 0) 7 0) (wordAt c.payload 0 / 256) on) mb [] := rfl

theorem mem_forbidMarked (s : State) (key : Nat) (on : Bool) (x : Nat) :
    x ∈ (forbidMarked s key on).spares.forbid ↔ if x = key then on = true else x ∈ s.spares.forbid := by
  cases on with
  | true => exact (mem_insertAsc ..).trans (by split <;> simp [*])
  | false => exact List.mem_filter.trans (by split <;> simp [*])

theorem forbidRecorded_records (hroom : LogRoom s) (kind i : Nat) (on : Bool) :
    Records (forbidMarked s (unitKey kind i) on) (forbidRecorded s kind i on) (overrideEv kind i) :=
  raise_records (forbidMarked s (unitKey kind i) on) (overrideEv kind i) hroom rfl (.inr rfl)

theorem forbidRecorded_her (s : State) (kind i : Nat) (on : Bool) : (forbidRecorded s kind i on).her = s.her := by
  unfold forbidRecorded
  rw [raise_only]
  rfl

theorem forbidRecorded_spares (s : State) (kind i : Nat) (on : Bool) : (forbidRecorded s kind i on).spares = (forbidMarked s (unitKey kind i) on).spares := by
  unfold forbidRecorded
  rw [raise_only]

end

/-! ## The hourly measurement and the daily history (R502, R503) -/

/-- An hour of age added (R503). -/
def aged (s : State) : State := s.modMram fun x => { x with wearAge := x.wearAge + ageHour s.mon.temp }

theorem wearMeasureEff_block {s : State} {p : Nat} (hact : s.tide.active = false) (hp : p < 4096) (f : Nat) :
    wearMeasureEff s [] [] [(p, f)] = measBlock (aged s) p (min 1023 f) :=
  (if_neg (ne_true_of_eq_false hact)).trans (if_pos hp)

/-- A block's write count noted (R502). -/
def blockNoted (s : State) (b f : Nat) : State := noteMeas (s.modMram fun x => { x with mramWrites := x.mramWrites.set (fun _ => 0) b f }) (unitKey 4 b)

theorem measBlock_under {s : State} {b f : Nat} (hf : f < mramLimit s) : measBlock s b f = blockNoted s b f := if_neg (not_le.2 hf)

theorem blockNoted_spec (s : State) (b f : Nat) :
    Tbl.get (fun _ => 0) (blockNoted s b f).mram.mramWrites b = f ∧ (blockNoted s b f).mram.mramRetired = s.mram.mramRetired
      ∧ (blockNoted s b f).mram.wearAge = s.mram.wearAge
      ∧ blockNoted s b f = { s with mram := (blockNoted s b f).mram, spares := (blockNoted s b f).spares } :=
  ⟨Tbl.get_set_same .., rfl, rfl, rfl⟩

/-! ## Lane margins (R502, R504) -/

section
variable {s : State} {n : Nat}

/-- A scan's margins noted, and whether one is under its bound (R502). -/
def eyeNoted (s : State) (n h v : Nat) : State :=
  noteMeas (s.modSpares fun x => { x with
    laneEye := x.laneEye.set (fun _ => 0) n (h % 256 + v % 4096 * 256)
    laneLow := if decide (h < eyeHMin s ∨ v < eyeVMin s) then insertAsc n x.laneLow else x.laneLow.filter fun m => decide (m ≠ n) }) (unitKey 2 n)

theorem eyeNoted_only (s : State) (n h v : Nat) : eyeNoted s n h v = { s with spares := (eyeNoted s n h v).spares } := rfl

theorem mem_eyeNoted_laneLow (s : State) (n h v : Nat) : n ∈ (eyeNoted s n h v).spares.laneLow ↔ (h < eyeHMin s ∨ v < eyeVMin s) := by
  change (n ∈ if decide (h < eyeHMin s ∨ v < eyeVMin s) = true then insertAsc n s.spares.laneLow else s.spares.laneLow.filter fun m => decide (m ≠ n)) ↔ _
  split
  next hlow => simp [mem_insertAsc, of_decide_eq_true hlow]
  next hlow => simpa using hlow

theorem eyeWearEff_off (h v : Nat) (hn : (s.lane n).st ≠ .active ∨ s.tide.active = true) : eyeWearEff s n h v = s := if_pos hn

section
variable {h v : Nat} (hst : (s.lane n).st = .active) (ht : s.tide.active = false)
include hst ht

/-- The planned swap of a lane whose margins are low twice running (R504). -/
def eyePlanned (s : State) (n h v : Nat) : State :=
  planned (eyeNoted s n h v) 2 n (srcLane n) (if h < eyeHMin s then h else v) (if h < eyeHMin s then eyeHMin s else eyeVMin s)
    (decide (s.mram.lanePlan < planLanes s)) (swapReady s (laneLink n)) (decide (Tbl.get (fun _ => 0) s.spares.laneEye n = h % 256 + v % 4096 * 256))
    fun x => retireLane (x.modMram fun m => { m with lanePlan := m.lanePlan + 1 }) n 1

theorem eyeWearEff_eq : eyeWearEff s n h v =
    if (decide (h < eyeHMin s ∨ v < eyeVMin s) && decide (n ∈ s.spares.laneLow)) = true then eyePlanned s n h v else eyeNoted s n h v :=
  if_neg fun hc => hc.elim (· hst) (ne_true_of_eq_false ht)

theorem eyeWearEff_once (hn : (eyeHMin s ≤ h ∧ eyeVMin s ≤ v) ∨ n ∉ s.spares.laneLow) : eyeWearEff s n h v = eyeNoted s n h v := by
  rw [eyeWearEff_eq hst ht, if_neg]
  rintro hc
  obtain ⟨hlow, hmem⟩ := Bool.and_eq_true_iff.1 hc
  have hlow := of_decide_eq_true hlow
  obtain hn | hn := hn
  · omega
  · exact hn (of_decide_eq_true hmem)

theorem eyeWearEff_again (hlow : h < eyeHMin s ∨ v < eyeVMin s) (hmem : n ∈ s.spares.laneLow) : eyeWearEff s n h v = eyePlanned s n h v := by
  rw [eyeWearEff_eq hst ht, if_pos (by simp [hlow, hmem])]

end

/-! ## PLLs and MRAM blocks (R500, R501) -/

variable {fb ok : Bool}

theorem pllFaultEff_switches (hs : pllSwitched s fb = false) (ho : ok = true) : pllFaultEff s fb ok = switchPll s fb 0 := if_pos ⟨congrArg not hs, ho⟩

/-- PLL_LOST's event (R502). -/
def pllLostEv (fb : Bool) : Ev := { code := Ev.pllLost, src := srcPll fb, enters := 2, data := spareData 5 0 (b2n fb) 0 0 0 }

/-- The loss of the last PLL recorded and kept (R502). -/
def pllGone (s : State) (fb : Bool) : State := (s.raise (pllLostEv fb)).modCont fun c => { c with pllLost := true }

theorem pllFaultEff_contains (hs : pllSwitched s fb = true ∨ ok = false) : pllFaultEff s fb ok = enterDevice (pllGone s fb) 2 :=
  if_neg fun hc => by obtain hs | hs := hs <;> simp [hs] at hc

theorem pllGone_records (hroom : LogRoom s) (fb : Bool) : Records { s with cont := { s.cont with pllLost := true } } (pllGone s fb) (pllLostEv fb) := by
  have hrec : Records s (s.raise (pllLostEv fb)) (pllLostEv fb) := raise_records s _ hroom rfl (.inr rfl)
  unfold pllGone
  rw [hrec]
  rfl

theorem switchPll_mram (s : State) (fb : Bool) (a : Nat) :
    (switchPll s fb a).mram = if fb then { s.mram with pllFb := true } else { s.mram with pllHc := true } :=
  (decided_mram ..).trans ((spareUsed_mram _).trans (spareRec_mram ..))

theorem pllSwitched_switchPll (s : State) (fb : Bool) (a : Nat) :
    pllSwitched (switchPll s fb a) fb = true ∧ pllSwitched (switchPll s fb a) (!fb) = pllSwitched s (!fb) := by
  unfold pllSwitched
  rw [switchPll_mram]
  cases fb <;> exact ⟨rfl, rfl⟩

theorem retireBlock_mram (s : State) (b action meas bound : Nat) :
    (retireBlock s b action meas bound).mram = { s.mram with mramRetired := b :: s.mram.mramRetired, mramWrites := s.mram.mramWrites.set (fun _ => 0) b 0 } := by
  have hdecided (u : State) (code srcId kind a i m w r : Nat) : (decided (spareUsed (spareRec u code srcId kind a i m w r)) 4 b action).mram = u.mram :=
    (decided_mram ..).trans ((spareUsed_mram _).trans (spareRec_mram ..))
  unfold retireBlock
  dsimp only
  split
  · exact (spareRec_mram ..).trans (hdecided ..)
  · exact hdecided ..

end

/-- Settles O47: each command and wear row is its handler's branch; a retired block's and a switched PLL's marks survive the decision's records and messages. -/
theorem spareCommandsAndWear : Obligations.SpareCommandsAndWear := by
  unfold Obligations.SpareCommandsAndWear
  refine ⟨fun s mb c hx => ⟨_, execSpareStatus_executing hx, executing_done (u := s) hx rfl _⟩,
    fun s mb c hx => ⟨_, execSpareBoundsSet_executing hx, executing_done (u := boundsStored s c) hx rfl []⟩, ?_,
    fun s mb c hx => ⟨_, execWearGet_executing hx, executing_done (u := s.bump) hx rfl _⟩,
    fun s is ps bs h => congrArg Host.Outcome.next (if_pos h), fun s p f hact hp hf => ?_,
    fun s => ⟨_, rfl, rfl, fun _ => rfl, rfl⟩,
    fun s n h v => ⟨fun hn => congrArg Host.Outcome.next (eyeWearEff_off h v hn),
      fun hst ht hn => ⟨_, congrArg Host.Outcome.next (eyeWearEff_once hst ht hn), mem_eyeNoted_laneLow s n.val h v, eyeNoted_only s n.val h v⟩,
      fun hst ht hlow hmem => ⟨_, congrArg Host.Outcome.next (eyeWearEff_again hst ht hlow hmem), eyeNoted_only s n.val h v⟩⟩,
    fun s fb ok => ⟨fun hs ho => congrArg Host.Outcome.next (pllFaultEff_switches hs ho),
      fun hs hroom => ⟨_, congrArg Host.Outcome.next (pllFaultEff_contains hs), rfl, pllGone_records hroom fb⟩⟩,
    pllSwitched_switchPll, fun s b => ⟨fun h => congrArg Host.Outcome.next (if_neg (by omega)), fun h => ?_⟩⟩
  · intro s mb c hx kind i act
    have hrun := execSpareRetireNow_executing hx
    refine ⟨fun hact hkind => ?_, fun hact hkind => ?_, fun on hact hroom => ?_⟩
    · rw [retireNowEff_pan hact hkind] at hrun
      exact ⟨fun hp => ⟨_, hrun.trans (congrArg Host.Outcome.next (if_pos (congrArg not hp))), executing_refuses (u := s) hx rfl 2 0⟩,
        fun hp hb => ⟨_, hrun.trans (congrArg Host.Outcome.next ((if_neg (by simpa using hp)).trans (if_pos (by simpa using hb)))), executing_refuses (u := s) hx rfl 1 0⟩,
        fun hp hb => hrun.trans (congrArg Host.Outcome.next ((if_neg (by simpa using hp)).trans (if_neg (by simpa using hb))))⟩
    · rw [retireNowEff_block hact hkind] at hrun
      exact ⟨fun hi => ⟨_, hrun.trans (congrArg Host.Outcome.next (if_pos hi)), executing_refuses (u := s) hx rfl 2 0⟩,
        fun hi hl => ⟨_, hrun.trans (congrArg Host.Outcome.next ((if_neg hi).trans (if_pos hl))), executing_refuses (u := s) hx rfl 1 0⟩,
        fun hi hl => hrun.trans (congrArg Host.Outcome.next ((if_neg hi).trans (if_neg (by omega))))⟩
    · have hspares := forbidRecorded_spares s kind i on
      have hmem := mem_forbidMarked s (unitKey kind i) on
      rw [← hspares] at hmem
      refine ⟨_, forbidRecorded s kind i on, (forbidRow_executing hx hact).trans (congrArg Host.Outcome.next (setForbid_eq on)),
        executing_done hx (forbidRecorded_her ..) [], fun hon => (hmem _).2 (by simpa using hon), fun hoff hin => ?_, fun x hne => ?_, ?_⟩
      · have := (hmem _).1 hin
        simp [hoff] at this
      · exact (hmem x).trans (by rw [if_neg hne])
      · rw [hspares]
        exact forbidRecorded_records hroom kind i on
  · obtain ⟨hwrites, hretired, hage, honly⟩ := blockNoted_spec (aged s) p (min 1023 f)
    exact ⟨_, congrArg Host.Outcome.next ((wearMeasureEff_block hact hp f).trans (measBlock_under hf)), hwrites, hretired, hage, honly⟩
  · have hmram := retireBlock_mram s b.val 0 (Tbl.get (fun _ => 0) s.mram.mramWrites b.val) (mramLimit s)
    refine ⟨_, congrArg Host.Outcome.next (if_pos h), ?_, ?_⟩
    · rw [hmram]
    · rw [hmram]
      exact Tbl.get_set_same ..

end Sys2Proof.Machine
end
